-- ==== Sys2Proof/Word.lean ====
section
/-! DEFINITION. The word types of the device (R5, R6) and their plainest operations. -/

namespace Sys2Proof

/-- 8 bits (R5). -/
abbrev Byte := BitVec 8
/-- A slot or VALUE: 64 bits (R5). -/
abbrev U64 := BitVec 64
/-- 32 bits. -/
abbrev U32 := BitVec 32
/-- An instruction word or token: 128 bits (R5). -/
abbrev U128 := BitVec 128

/-- Bits [lo + len - 1 : lo] of x (R6). -/
abbrev field {n : Nat} (x : BitVec n) (lo len : Nat) : BitVec len := x.extractLsb' lo len

/-- Single bit [n] of x (R6). -/
abbrev bitAt {n : Nat} (x : BitVec n) (i : Nat) : Bool := x.getLsbD i

/-- A Bool as a 1-bit vector. -/
abbrev bit1 (b : Bool) : BitVec 1 := BitVec.ofBool b

end Sys2Proof
end

