-- ==== Sys2Proof/Config.lean ====
section
/-! DEFINITION. What one device fixes (R22, R470, R486, R488) and the free values: constants without a body, of which nothing can be proved but what their type says. -/

namespace Sys2Proof

/-- A free 64-bit value, one for each number (log 3). -/
opaque Config.freeWord : Nat → BitVec 64
/-- A free choice among alternatives that the spec does not order, one for each number (log 1, log 3). -/
opaque Config.freeNat : Nat → Nat
/-- How far an agent's TIME moves in one step of the model, in units of 1/16 ns (log 4): by agent and step. -/
opaque Config.tick : Nat → Nat → Nat
/-- The clock limits and frequency of the configuration record, before they are brought into the range of R22. -/
opaque Config.rawMhz : Nat → Nat → Nat
/-- DEVSTAT.SKU (R470). -/
opaque Config.sku : BitVec 32
/-- DEVSTAT.CORES (R470). -/
opaque Config.cores : BitVec 16
/-- The seed that the SRAM PUF gives the identity key (R488). -/
opaque Config.identitySeed : List (BitVec 8)
/-- The identity certificate chain in flash (R488). -/
opaque Config.certChain : List (BitVec 8)
/-- The SHA-512 digests of the Larkspur image and of the configuration record in flash (R487, R489). -/
opaque Config.flashDigest : Nat → List (BitVec 8)
/-- The PCI Express requester id of a function of the module (R473): 0 the physical function, v virtual function v. -/
opaque Config.functionRid : Nat → BitVec 16
/-- The capacity in bytes of the device on a CXL port, 0 where there is none (R247, R475). -/
opaque Config.cxlCapacity : Nat → Nat
/-- Whether a pod peer package is reachable (R476). -/
opaque Config.podReachable : Nat → Bool
/-- Whether a PCI Express id names a storage peer behind I/O die 1, and whether a namespace and queue pair of it
are assigned to the module (R293, R479). -/
opaque Config.storagePeer : BitVec 16 → Bool
opaque Config.storageAssigned : BitVec 16 → BitVec 32 → BitVec 16 → Bool

/-- MIN_MHZ of a stack (R24): at least 1200. -/
def Config.minMhz (stack : Nat) : Nat := 1200 + Config.rawMhz stack 0 % 1001
/-- MAX_MHZ of a stack (R24): at most 2200 and not below MIN_MHZ. -/
def Config.maxMhz (stack : Nat) : Nat :=
  Config.minMhz stack + Config.rawMhz stack 1 % (2201 - Config.minMhz stack)
/-- The frequency of a stack after reset, within its limits. -/
def Config.bootMhz (stack : Nat) : Nat :=
  Config.minMhz stack + Config.rawMhz stack 2 % (Config.maxMhz stack - Config.minMhz stack + 1)

end Sys2Proof
end

