-- ==== Sys2Proof/Machine/Table.lean ====
section
/-! DEFINITION. Sparse data by key: a table is a list of pairs with strictly rising keys. An absent key stands for the reset value that the reader names. -/

namespace Sys2Proof.Machine

/-- A sparse array: pairs of key and value, keys strictly rising. -/
abbrev Table (α : Type) := List (Nat × α)

/-- The keys rise strictly. -/
def Table.wf {α : Type} : List (Nat × α) → Bool
  | [] => true
  | [_] => true
  | (k, _) :: (k', v') :: t => decide (k < k') && Table.wf ((k', v') :: t)

/-- The value at key k, if one is listed. -/
def Table.find {α : Type} : List (Nat × α) → Nat → Option α
  | [], _ => none
  | (k', v) :: t, k => if k' = k then some v else Table.find t k

/-- The value at key k, or d where none is listed. -/
def Table.look {α : Type} (d : α) (t : List (Nat × α)) (k : Nat) : α :=
  (Table.find t k).getD d

/-- The table with v at key k. -/
def Table.put {α : Type} : List (Nat × α) → Nat → α → List (Nat × α)
  | [], k, v => [(k, v)]
  | (k', v') :: t, k, v =>
    if k < k' then (k, v) :: (k', v') :: t
    else if k = k' then (k, v) :: t
    else (k', v') :: Table.put t k v

/-- The table with nothing at key k. -/
def Table.del {α : Type} : List (Nat × α) → Nat → List (Nat × α)
  | [], _ => []
  | (k', v') :: t, k => if k' = k then Table.del t k else (k', v') :: Table.del t k

/-- The keys listed. -/
def Table.keys {α : Type} (t : List (Nat × α)) : List Nat := t.map Prod.fst

/-- The lowest key below bound that the table does not list. -/
def Table.lowestFree {α : Type} (t : List (Nat × α)) (bound : Nat) : Option Nat :=
  (List.range bound).find? (fun k => (Table.find t k).isNone)

end Sys2Proof.Machine
end

