-- ==== Sys2Proof/Syntax.lean ====
section
/-! DEFINITION. The syntax of the machine: the fields of an instruction word (R55) with their codes turned into names, and Instr, one constructor per row of spec/opcode_table.json. An operator's constructor carries the fields of its word; an event's constructor carries what the event is about. -/

namespace Sys2Proof

/-- Element types (R81), codes 0 to 15 in this order. -/
inductive EType where
  | i64 | n64 | i32 | n32 | i16 | i8 | n8 | i4 | f64 | f32 | bf16 | f16 | e4m3 | e5m2 | e2m3 | e2m1
  deriving DecidableEq, Repr

/-- AR (R57): the arity and matching mode. -/
inductive Arity where
  | monadic | dyadic | sticky | triadic
  deriving DecidableEq, Repr

/-- NP (R58, R190): the null policy. -/
inductive NullPolicy where
  | absorb | pass | identity | fault
  deriving DecidableEq, Repr

/-- DF (R59): the frame mode of a destination. -/
inductive DestMode where
  | same | parent | operand | discard
  deriving DecidableEq, Repr

/-- RM (R62): the rounding mode. -/
inductive Rounding where
  | rne | rtz | rdn | rup | sr
  deriving DecidableEq, Repr

/-- SCOPE (R62, R20). -/
inductive Scope where
  | core | quad | stack | pkg | pod | sys
  deriving DecidableEq, Repr

/-- A destination of an instruction word: DF, PT and IP (R55, R59). -/
structure Dest where
  mode : DestMode
  port : Bool
  ip   : BitVec 20
  deriving DecidableEq, Repr

/-- The fields of an instruction word below OPC (R55, R62). -/
structure Fields where
  fn    : BitVec 4
  ty    : EType
  ar    : Arity
  np    : NullPolicy
  slot  : BitVec 12
  d0    : Dest
  d1    : Dest
  pri   : BitVec 2
  rm    : Rounding
  sat   : Bool
  scope : Scope
  mx    : Bool
  qual  : BitVec 8
  imm   : BitVec 32
  deriving DecidableEq, Repr

/-- The memories in which a read can return an uncorrectable error (R427, R429). -/
inductive MemKind where
  | hbm | secondTier | vault | frameStore | tapeStore | instrStore
  deriving DecidableEq, Repr

/-- An uncorrectable error met by a read (R429, R430): where it lies, whether the retry failed too, and
the command (its core and number) or core whose read met it. -/
structure MemError where
  kind    : MemKind
  stack   : Nat
  addr    : Nat
  lasting : Bool
  core    : Nat
  cmd     : Option Nat
  fp      : BitVec 32
  deriving DecidableEq, Repr

/-- The status with which an NVMe command completes (R479). -/
inductive NvmeStatus where
  | success | lbaOutOfRange | otherError
  deriving DecidableEq, Repr

/-- The steps of the machine: one constructor per row of spec/opcode_table.json, the operators first. -/
inductive Instr where
  /-- NOP (R199): Emits L to dest0 and then dest1. -/
  | nop (f : Fields)
  /-- FORK (R199): Emits n copies of L to consecutive IPs from IP0, then one to dest1. -/
  | fork (f : Fields)
  /-- STEER (R200): Routes L to dest0 when the predicate is non-zero and to dest1 otherwise. -/
  | steer (f : Fields)
  /-- GATE (R200): Passes L to both destinations only when the gate is non-zero. -/
  | gate (f : Fields)
  /-- SYNC (R200): Fires when both tokens are present and emits L to both destinations. -/
  | sync (f : Fields)
  /-- DROP (R201): Consumes L and emits nothing. -/
  | drop (f : Fields)
  /-- FALLOC (R202): Allocates a frame by class and policy and emits its FP, adding one to the parent's LIVE. -/
  | falloc (f : Fields)
  /-- FFREE_FP (R205): Frees the frame whose FP is in L. -/
  | ffreeFp (f : Fields)
  /-- FFREE_SELF (R205): Frees the firing frame. -/
  | ffreeSelf (f : Fields)
  /-- FSTORE (R206): Parks L in the named slot on the given port. -/
  | fstore (f : Fields)
  /-- FSTICK (R206): Makes the named slot sticky with L's value, or replaces a sticky value. -/
  | fstick (f : Fields)
  /-- FREAD_SLOT (R207): Emits a copy of the named slot, or a null for an empty slot. -/
  | freadSlot (f : Fields)
  /-- FREAD_SELF (R207): Emits the firing FP. -/
  | freadSelf (f : Fields)
  /-- CALL (R203): Allocates a frame of the caller's object and sends L to it as its first token. -/
  | call (f : Fields)
  /-- CALL_EXT (R203): Allocates a frame of another verified object and sends L to that object's entry 0. -/
  | callExt (f : Fields)
  /-- RET (R204): Sends L to the parent at RIP and RPORT and frees the frame. -/
  | ret (f : Fields)
  /-- SENDTO (R208): Sends L to dest0 in the frame named by R. -/
  | sendto (f : Fields)
  /-- ITER_NEXT (R209): Emits L with the next round and advances FROUND. -/
  | iterNext (f : Fields)
  /-- ITER_SET (R209): Emits L with the round given in IMM. -/
  | iterSet (f : Fields)
  /-- PUNCT_MARK (R209): Consumes L and emits a marker of its round. -/
  | punctMark (f : Fields)
  /-- PUNCT_AFTER (R209): Emits L and then a marker of its round to each destination. -/
  | punctAfter (f : Fields)
  /-- RJOIN (R210): Statefully reduces the data tokens of a round and emits the value and a marker at the round's end. -/
  | rjoin (f : Fields)
  /-- FILTER (R200): Passes L, or a null of its round, depending on the mask. -/
  | filter (f : Fields)
  /-- COMPACT (R211): Statefully passes values with a non-zero mask and emits the round's count. -/
  | compact (f : Fields)
  /-- ORDMERGE (R212): Merges two streams per round so that L tokens precede R tokens, buffering in arm buffers. -/
  | ordmerge (f : Fields)
  /-- NULLSET_ALL (R213): Emits a null in place of L. -/
  | nullsetAll (f : Fields)
  /-- NULLSET_IFZ (R213): Emits a null when L is a zero scalar, and L otherwise. -/
  | nullsetIfz (f : Fields)
  /-- ISNULL_NULL (R213): Emits 1 if L is null, and 0 otherwise. -/
  | isnullNull (f : Fields)
  /-- ISNULL_KIND (R213): Emits L's KIND and accepts fault tokens as values. -/
  | isnullKind (f : Fields)
  /-- SWITCH (R214): Submits an object switch to a partition's switch agent and emits when it completes. -/
  | switch (f : Fields)
  /-- END (R215): Ends a root frame with L as the completion value and frees it. -/
  | endOp (f : Fields)
  /-- MOVI_LO (R223): Emits the immediate as a scalar of TY. -/
  | moviLo (f : Fields)
  /-- MOVI_HI (R223): Emits IMM × 2^32 plus the low 32 bits of L. -/
  | moviHi (f : Fields)
  /-- ADD (R224): Wrapping integer addition. -/
  | add (f : Fields)
  /-- SUB (R224): Wrapping integer subtraction. -/
  | sub (f : Fields)
  /-- MUL (R224): Wrapping integer multiplication. -/
  | mul (f : Fields)
  /-- MULH (R224): High half of the exact product. -/
  | mulh (f : Fields)
  /-- DIV (R225): Integer quotient rounded toward zero, with defined results for division by zero. -/
  | div (f : Fields)
  /-- REM (R225): Integer remainder with the sign of the dividend. -/
  | rem (f : Fields)
  /-- AND (R224): Bitwise AND. -/
  | and (f : Fields)
  /-- OR (R224): Bitwise OR. -/
  | or (f : Fields)
  /-- XOR (R224): Bitwise XOR. -/
  | xor (f : Fields)
  /-- ANDN (R224): x AND NOT y. -/
  | andn (f : Fields)
  /-- SHL (R226): Logical shift left. -/
  | shl (f : Fields)
  /-- SHR (R226): Logical shift right. -/
  | shr (f : Fields)
  /-- SAR (R226): Arithmetic shift right. -/
  | sar (f : Fields)
  /-- ROL (R226): Rotate left. -/
  | rol (f : Fields)
  /-- MIN (R224): Lesser of two integers. -/
  | min (f : Fields)
  /-- MAX (R224): Greater of two integers. -/
  | max (f : Fields)
  /-- ABS (R227): Integer absolute value, wrapping or saturating. -/
  | abs (f : Fields)
  /-- NEG (R227): Integer negation, wrapping or saturating. -/
  | neg (f : Fields)
  /-- ADDSAT_ADD (R227): Saturating integer addition. -/
  | addsatAdd (f : Fields)
  /-- ADDSAT_SUB (R227): Saturating integer subtraction. -/
  | addsatSub (f : Fields)
  /-- CMP (R228): Integer comparison emitting 1 or 0. -/
  | cmp (f : Fields)
  /-- SEL (R229): Emits L or R according to the sticky predicate. -/
  | sel (f : Fields)
  /-- CLZ (R230): Counts leading zero bits. -/
  | clz (f : Fields)
  /-- CTZ (R230): Counts trailing zero bits. -/
  | ctz (f : Fields)
  /-- POPC (R230): Counts one bits. -/
  | popc (f : Fields)
  /-- BFX (R231): Extracts a bit field, zero- or sign-extended. -/
  | bfx (f : Fields)
  /-- BFI (R231): Inserts a bit field of R into L. -/
  | bfi (f : Fields)
  /-- SEXT (R232): Sign-extends from the width of TY. -/
  | sext (f : Fields)
  /-- ZEXT (R232): Zero-extends from the width of TY. -/
  | zext (f : Fields)
  /-- FADD (R234): Floating-point addition. -/
  | fadd (f : Fields)
  /-- FSUB (R234): Floating-point subtraction. -/
  | fsub (f : Fields)
  /-- FMUL (R234): Floating-point multiplication. -/
  | fmul (f : Fields)
  /-- FFMA (R234): Fused multiply-add, rounded once. -/
  | ffma (f : Fields)
  /-- FDIV (R234): Floating-point division. -/
  | fdiv (f : Fields)
  /-- FSQRT (R234): Floating-point square root. -/
  | fsqrt (f : Fields)
  /-- FMIN (R235): minimumNumber of two floats. -/
  | fmin (f : Fields)
  /-- FMAX (R235): maximumNumber of two floats. -/
  | fmax (f : Fields)
  /-- FCMP (R236): Floating-point comparison emitting 1 or 0. -/
  | fcmp (f : Fields)
  /-- FCVT (R237): Converts between floating-point formats. -/
  | fcvt (f : Fields)
  /-- FTOI (R237): Converts a float to an integer. -/
  | ftoi (f : Fields)
  /-- ITOF (R237): Converts an integer to a float. -/
  | itof (f : Fields)
  /-- FABS (R238): Clears the sign bit. -/
  | fabs (f : Fields)
  /-- FNEG (R238): Inverts the sign bit. -/
  | fneg (f : Fields)
  /-- FCLASS (R238): Emits a one-hot class of a float. -/
  | fclass (f : Fields)
  /-- TNEW_HERE (R279): Allocates a tile in the firing core's vault and emits its handle. -/
  | tnewHere (f : Fields)
  /-- TNEW_AT (R279): Allocates a tile in the vault of the virtual core named in L. -/
  | tnewAt (f : Fields)
  /-- TREL (R280): Releases one reference to a tile. -/
  | trel (f : Fields)
  /-- TDUP (R280): Adds one reference to a tile. -/
  | tdup (f : Fields)
  /-- TVIEW (R281): Emits a handle with a narrower view. -/
  | tview (f : Fields)
  /-- TINFO (R286): Emits a field of a tile descriptor. -/
  | tinfo (f : Fields)
  /-- TLAYOUT (R282): Reinterprets a tile under another shape record. -/
  | tlayout (f : Fields)
  /-- TFILL (R283): Fills every element of a view with a value. -/
  | tfill (f : Fields)
  /-- TCOPY (R284): Copies one view into another. -/
  | tcopy (f : Fields)
  /-- XLATE (R285): Makes a capability for a virtual range. -/
  | xlate (f : Fields)
  /-- CAPCUT_CUT (R285): Makes a narrower capability with reduced permissions. -/
  | capcutCut (f : Fields)
  /-- CAPCUT_FREE (R285): Marks a capability entry for freeing. -/
  | capcutFree (f : Fields)
  /-- FETCH_GLB (R287): Copies from a global capability into a tile or global destination. -/
  | fetchGlb (f : Fields)
  /-- FETCH_EP (R287): Copies from an endpoint, optionally verifying page tags. -/
  | fetchEp (f : Fields)
  /-- FETCH_PORT (R287): Fills a tile from an input port's rows. -/
  | fetchPort (f : Fields)
  /-- PUT_GLB (R287): Copies a tile view to global memory. -/
  | putGlb (f : Fields)
  /-- PUT_EP (R287): Copies a tile view to an endpoint. -/
  | putEp (f : Fields)
  /-- PUT_PORT (R287): Pushes a tile view's rows to an output port. -/
  | putPort (f : Fields)
  /-- LDG (R289): Loads a scalar through a capability. -/
  | ldg (f : Fields)
  /-- STG (R289): Stores a scalar through a capability as a weak store. -/
  | stg (f : Fields)
  /-- LDV (R290): Runs one lane-face read into a row. -/
  | ldv (f : Fields)
  /-- STV (R290): Runs one lane-face write from a row. -/
  | stv (f : Fields)
  /-- AGSET (R291): Loads an address generator from eight sticky slots. -/
  | agset (f : Fields)
  /-- AGRUN (R291): Starts or continues an address generator's run. -/
  | agrun (f : Fields)
  /-- AGSTOP (R291): Stops a generator after its current row. -/
  | agstop (f : Fields)
  /-- SBIND_AG (R288): Binds a port to an address generator. -/
  | sbindAg (f : Fields)
  /-- SBIND_BQ (R288): Binds a port to a bridge queue. -/
  | sbindBq (f : Fields)
  /-- SBIND_PEER (R288): Binds an output port to a peer input port in the same stack. -/
  | sbindPeer (f : Fields)
  /-- SBIND_EP (R288): Binds a port to stream sequentially from or to an endpoint. -/
  | sbindEp (f : Fields)
  /-- SBIND_UNBIND (R288): Frees a port once it is empty and its producer has finished. -/
  | sbindUnbind (f : Fields)
  /-- SBAR (R275): Holds back the selected engines until their issued accesses are performed. -/
  | sbar (f : Fields)
  /-- MCAST (R292): Binds a read generator to up to 8 branch ports. -/
  | mcast (f : Fields)
  /-- PERMIT (R277): Counts space tokens and emits permits in sequence, releasing the generator. -/
  | permit (f : Fields)
  /-- PUBLISH_TILE (R265): Marks a tile published and read-only. -/
  | publishTile (f : Fields)
  /-- PUBLISH_GLB (R264): Asks the publish agent to swap the front and back ranges at one instant. -/
  | publishGlb (f : Fields)
  /-- EPBIND (R293): Binds an endpoint of a target context after checks. -/
  | epbind (f : Fields)
  /-- EPDROP (R293): Unbinds an endpoint once no transfer through it is in flight. -/
  | epdrop (f : Fields)
  /-- VADD (R304): Element-wise addition. -/
  | vadd (f : Fields)
  /-- VSUB (R304): Element-wise subtraction. -/
  | vsub (f : Fields)
  /-- VMUL (R304): Element-wise multiplication. -/
  | vmul (f : Fields)
  /-- VFMA (R304): Element-wise fused multiply-add. -/
  | vfma (f : Fields)
  /-- VDIV (R304): Element-wise division. -/
  | vdiv (f : Fields)
  /-- VMIN (R304): Element-wise minimum. -/
  | vmin (f : Fields)
  /-- VMAX (R304): Element-wise maximum. -/
  | vmax (f : Fields)
  /-- VABS (R304): Element-wise absolute value. -/
  | vabs (f : Fields)
  /-- VNEG (R304): Element-wise negation. -/
  | vneg (f : Fields)
  /-- VEXP2 (R96): Correctly rounded 2^x per element. -/
  | vexp2 (f : Fields)
  /-- VLOG2 (R96): Correctly rounded log2 x per element. -/
  | vlog2 (f : Fields)
  /-- VRCP (R96): Correctly rounded reciprocal per element. -/
  | vrcp (f : Fields)
  /-- VRSQ (R96): Correctly rounded reciprocal square root per element. -/
  | vrsq (f : Fields)
  /-- VSQRT (R96): Correctly rounded square root per element. -/
  | vsqrt (f : Fields)
  /-- VTANH (R96): Correctly rounded tanh per element. -/
  | vtanh (f : Fields)
  /-- VSIGM (R96): Correctly rounded logistic function per element. -/
  | vsigm (f : Fields)
  /-- VCVT (R307): Converts a tile element-wise between types. -/
  | vcvt (f : Fields)
  /-- VQMX (R308): Quantises a tile into Microscaling blocks. -/
  | vqmx (f : Fields)
  /-- VDQMX (R309): Dequantises a Microscaling tile. -/
  | vdqmx (f : Fields)
  /-- VCMP (R305): Element-wise comparison writing all-ones or zero masks. -/
  | vcmp (f : Fields)
  /-- VSEL (R306): Element-wise selection by mask. -/
  | vsel (f : Fields)
  /-- VRSUM (R316): Stateful row-sum reduction into a column. -/
  | vrsum (f : Fields)
  /-- VRMAX (R316): Stateful row-maximum reduction into a column. -/
  | vrmax (f : Fields)
  /-- VCSUM (R312): Cumulative sums along each row. -/
  | vcsum (f : Fields)
  /-- VBCAST (R311): Broadcasts a row or column into a tile. -/
  | vbcast (f : Fields)
  /-- VRBC (R310): Combines each row with an element of a column vector. -/
  | vrbc (f : Fields)
  /-- VTRANS (R313): Transposes a view into another tile. -/
  | vtrans (f : Fields)
  /-- VIOTA (R314): Writes computed indices. -/
  | viota (f : Fields)
  /-- VCOMP (R315): Packs each row by a mask and emits the count. -/
  | vcomp (f : Fields)
  /-- VLOGIC (R304): Element-wise bitwise logic. -/
  | vlogic (f : Fields)
  /-- VSHIFT (R304): Element-wise shifts and rotates. -/
  | vshift (f : Fields)
  /-- MBIND (R336): Binds a SLICE tile as the stationary B operand. -/
  | mbind (f : Fields)
  /-- MUNBIND (R336): Closes the binding and emits on release. -/
  | munbind (f : Fields)
  /-- MACC (R337): Selects accumulator A0 or A1 at the port. -/
  | macc (f : Fields)
  /-- MROW_ACC (R339): Accumulates A rows from an input port against B. -/
  | mrowAcc (f : Fields)
  /-- MROW_OUT (R339): Computes products of port rows and pushes them converted to an output port. -/
  | mrowOut (f : Fields)
  /-- MMA (R338): Multiplies a local A tile by B into the accumulator window. -/
  | mma (f : Fields)
  /-- MMAG (R331): Ganged MMA across up to 8 cores of a mesh row. -/
  | mmag (f : Fields)
  /-- MSCL_SET (R340): Sets the output factors from a tile. -/
  | msclSet (f : Fields)
  /-- MSCL_CLR (R340): Resets the output factors to 1.0. -/
  | msclClr (f : Fields)
  /-- MRD (R341): Statefully reads accumulator rows into a tile, released at the round's marker. -/
  | mrd (f : Fields)
  /-- MOUT_KEEP (R342): Pushes accumulator rows to an output port. -/
  | moutKeep (f : Fields)
  /-- MOUT_CLR (R342): Pushes accumulator rows to a port and clears them. -/
  | moutClr (f : Fields)
  /-- MCLR (R343): Clears an accumulator and sets its ATYPE. -/
  | mclr (f : Fields)
  /-- MRESC (R344): Scales accumulator rows by a column vector. -/
  | mresc (f : Fields)
  /-- MDRAIN_CUR (R345): Waits for the selected queue's earlier items. -/
  | mdrainCur (f : Fields)
  /-- MDRAIN_ALL (R345): Waits for both queues and a closing binding. -/
  | mdrainAll (f : Fields)
  /-- TBINIT (R374): Initialises and activates a transaction barrier. -/
  | tbinit (f : Fields)
  /-- TBEXP (R374): Adds expected sectors to PSEC. -/
  | tbexp (f : Fields)
  /-- TBARR_ARR (R375): Arrives at a barrier after its covered set is performed. -/
  | tbarrArr (f : Fields)
  /-- TBARR_TX (R375): Counts transferred sectors against PSEC. -/
  | tbarrTx (f : Fields)
  /-- TBARR_ARRTX (R375): Arrives and counts sectors as one update. -/
  | tbarrArrtx (f : Fields)
  /-- TBWAIT (R376): Waits for a barrier phase to complete. -/
  | tbwait (f : Fields)
  /-- TBINV (R376): Deactivates a barrier and releases its waiters with nulls. -/
  | tbinv (f : Fields)
  /-- BAR (R377): Arrives at a scoped barrier channel after its covered set is performed. -/
  | bar (f : Fields)
  /-- OWNSET_SET (R378): Routes a range's writes and updates through a named owner. -/
  | ownsetSet (f : Fields)
  /-- OWNSET_CLR (R378): Returns a range to its default owners. -/
  | ownsetClr (f : Fields)
  /-- ATOM (R379): Atomic update at the owner node returning the old value. -/
  | atom (f : Fields)
  /-- RED (R379): Fire-and-forget atomic reduction at the owner node. -/
  | red (f : Fields)
  /-- CAS (R379): Compare-and-swap at the owner node. -/
  | cas (f : Fields)
  /-- LOCKQ (R380): Queues for the lock of an address's entry. -/
  | lockq (f : Fields)
  /-- LOCKR (R380): Releases a held lock after its covered set is performed. -/
  | lockr (f : Fields)
  /-- FENCE (R381): Emits once its covered set is performed. -/
  | fence (f : Fields)
  /-- ACQ (R382): Acquire read of an element. -/
  | acq (f : Fields)
  /-- REL (R382): Strong store after its covered set is performed. -/
  | rel (f : Fields)
  /-- COLL (R383): Bit-reproducible collective over a scope channel. -/
  | coll (f : Fields)
  /-- TAPEREC (R158): Binds a task on the quad with TMODE RECORD. -/
  | taperec (f : Fields)
  /-- TAPEEND (R159): Ends a recording with an exit snapshot. -/
  | tapeend (f : Fields)
  /-- TAPEPLAY (R158): Binds a task on the quad with TMODE REPLAY. -/
  | tapeplay (f : Fields)
  /-- TAPEGRD (R160): Guards a data-dependent choice in recording, probe or normal frames. -/
  | tapegrd (f : Fields)
  /-- TAPEPAT_ARG (R161): Retags L as LIN for argument k. -/
  | tapepatArg (f : Fields)
  /-- TAPEPAT_CONST (R161): Retags L as NONE. -/
  | tapepatConst (f : Fields)
  /-- TAPEDROP_QUAD (R162): Invalidates the template's tape on the firing quad. -/
  | tapedropQuad (f : Fields)
  /-- TAPEDROP_ALL (R162): Invalidates the template's tapes on every quad. -/
  | tapedropAll (f : Fields)
  /-- TAPEINFO (R163): Reports a tape's state, size or last outcome. -/
  | tapeinfo (f : Fields)
  /-- TIMERD_NOW (R412): Emits TIME and ERR of the stack. -/
  | timerdNow (f : Fields)
  /-- TIMERD_STAT (R412): Emits TIME_STAT. -/
  | timerdStat (f : Fields)
  /-- TIMECMP (R413): Compares two stamps within a bound. -/
  | timecmp (f : Fields)
  /-- TIMEWAIT_ABS (R414): Waits until TIME reaches a deadline. -/
  | timewaitAbs (f : Fields)
  /-- TIMEWAIT_REL (R414): Waits for a delay from execution. -/
  | timewaitRel (f : Fields)
  /-- TIMEADJ_SLEW (R415): Slews the module reference by an offset. -/
  | timeadjSlew (f : Fields)
  /-- TIMEADJ_STEP (R415): Steps the module reference forward and increments EPOCH. -/
  | timeadjStep (f : Fields)
  /-- LAUNCH (R117): Builds a task record from sticky slots and pushes it with a device continuation. -/
  | launch (f : Fields)
  /-- QPUSH (R117): Pushes a task record from sticky slots to a queue. -/
  | qpush (f : Fields)
  /-- RANGE (R118): Requests the next grain of the worker's share. -/
  | range (f : Fields)
  /-- RGIVE (R119): Returns an unused remainder as a new unowned share. -/
  | rgive (f : Fields)
  /-- QPRIO (R120): Sets a queue's priority. -/
  | qprio (f : Fields)
  /-- QINFO (R121): Reports a queue's depth, priority, residency or overflow. -/
  | qinfo (f : Fields)
  /-- QBIND_BIND (R122): Makes a queue resident in a slot. -/
  | qbindBind (f : Fields)
  /-- QBIND_UNBIND (R122): Writes back a resident queue and frees its slot. -/
  | qbindUnbind (f : Fields)
  /-- CTXINFO (R123): Reports information about the firing frame's context. -/
  | ctxinfo (f : Fields)
  /-- TRAP (R444): Writes a TRAP record, signals the fault handler and emits L. -/
  | trap (f : Fields)
  /-- HCALL (R445): Raises an event channel 32–63 with L as argument. -/
  | hcall (f : Fields)
  /-- EVBIND_BIND (R446): Binds an event channel to a frame, IP and port. -/
  | evbindBind (f : Fields)
  /-- EVBIND_UNBIND (R446): Unbinds an event channel. -/
  | evbindUnbind (f : Fields)
  /-- FLTRD (R447): Reads 8 bytes of a fault record. -/
  | fltrd (f : Fields)
  /-- RESUME_RETRY (R435): Releases a parked port by retrying its access or work. -/
  | resumeRetry (f : Fields)
  /-- RESUME_DISCARD (R435): Releases a parked port by dropping its access. -/
  | resumeDiscard (f : Fields)
  /-- REPLAYALL (R448): Retries every parked port of a context. -/
  | replayall (f : Fields)
  /-- CTXSAVE (R449): Takes a context off its region into its save area. -/
  | ctxsave (f : Fields)
  /-- CTXLOAD (R440): Restores a saved context onto a region of the same shape. -/
  | ctxload (f : Fields)
  /-- CSRRD (R450): Reads a CSR at one instant. -/
  | csrrd (f : Fields)
  /-- CSRWR (R450): Writes a CSR and emits its old value. -/
  | csrwr (f : Fields)
  /-- PERFRD (R451): Reads a performance counter of the firing core. -/
  | perfrd (f : Fields)
  /-- LINKCTL_PAUSE (R405): Stops new DATA for a stream context or all of them at a link end. -/
  | linkctlPause (f : Fields)
  /-- LINKCTL_RESUME (R405): Undoes a PAUSE at a link end. -/
  | linkctlResume (f : Fields)
  /-- LINKCTL_MAP (R405): Writes a module's lane map at a link end. -/
  | linkctlMap (f : Fields)
  /-- LINKCTL_SCHED (R407): Proposes a coordinated width change at an agreed TIME. -/
  | linkctlSched (f : Fields)
  /-- LINKCTL_CANCEL (R405): Withdraws a pending change at both ends if its guard has not begun. -/
  | linkctlCancel (f : Fields)
  /-- LINKCTL_CLRCNT (R405): Clears LNKCNT. -/
  | linkctlClrcnt (f : Fields)
  /-- LINKCTL_CFG (R405): Writes LNKCFG RTHRESH and re-arms LINK_RETRY. -/
  | linkctlCfg (f : Fields)
  /-- LINKST (R452): Reads a link end's status, schedule, counts, configuration or map. -/
  | linkst (f : Fields)
  /-- CORESTOP_STOP (R453): Stops dispatch on a core at its next token boundary. -/
  | corestopStop (f : Fields)
  /-- CORESTOP_START (R453): Resumes dispatch on a stopped core. -/
  | corestopStart (f : Fields)
  /-- CLOCK_CHANGE_REQUEST (R22): Larkspur requests a new frequency for one stack's clock; a request outside the range is ignored and logged, and a pending request is replaced. -/
  | clockChangeRequest (stack mhz : Nat)
  /-- CLOCK_SETTLED (R22): A stack clock reaches its requested frequency, within 2 µs of the request or of the release of a held request. -/
  | clockSettled (stack : Nat)
  /-- CLAMP_ACT (R23): An analog power or thermal clamp acts: it lowers stack clocks and inserts dispatch idle stack cycles below 1.2 GHz, and raise requests are held. -/
  | clampAct (stack mhz : Nat) (idle : Bool)
  /-- CLAMP_RELEASE (R23): A clamp stops acting, and a held raise request may then take effect. -/
  | clampRelease (stack : Nat)
  /-- THERMAL_TRIP (R492): Junction temperature reaches 115 °C and the module requests board power-off. -/
  | thermalTrip
  /-- TOKEN_SERVE (R43): A token is served at its slot in the tie order of R42; it is checked for generation and range and then parks, matches, fires or faults by the AR table. -/
  | tokenServe (core src : Nat)
  /-- FRAME_SPILL (R46): An allocation that finds no free space writes spillable frames, least recently served first, to the frame backing area and records them in the spill directory. -/
  | frameSpill (core : Nat)
  /-- FRAME_FILL (R48): A split-phase fill brings a spilled frame back to its own BASE units and serves its waiting tokens in order. -/
  | frameFill (core : Nat) (fp : U32)
  /-- DEFERRED_FREE (R40): A free of a frame with FREEPEND set takes effect when LIVE reaches zero: the generation advances and the space returns to the allocator. -/
  | deferredFree (core : Nat) (fp : U32)
  /-- RELEASE_MESSAGE (R192): A release message from a freed child is served at the parent frame and decrements its LIVE. -/
  | releaseMessage (core src : Nat)
  /-- TILE_SPACE_RETURN (R52): A released tile's index and space return to the vault when BUSY reaches 0. -/
  | tileSpaceReturn (core index : Nat)
  /-- HOST_PUSH (R104): The host writes 64 bytes to a push window's RECORD; the record is appended to the queue, or discarded with OVF counted. -/
  | hostPush (func queue offset : Nat) (data : List Byte)
  /-- DISTRIBUTOR_SELECT (R107): Once per stack cycle a distributor selects at most one record from its resident queues by effective priority and round robin. -/
  | distributorSelect (stack : Nat)
  /-- PRIORITY_AGING (R107): A passed queue's PASSED count reaches 1024, so its effective priority rises by one and the count restarts. -/
  | priorityAging (stack slot : Nat)
  /-- BIND (R109): A bind packet reaches its target core, which checks the record against the object, allocates the root frame, writes the arguments and emits the start token. -/
  | bind (stack : Nat)
  /-- ASK_FOR_WORK (R114): A core whose ready classes have held no token of the context for 32 stack cycles, and which has no live worker frame of the range task, asks for work. -/
  | askForWork (core task : Nat)
  /-- ASK_SERVE (R114): The distributor serves one waiting ask: it hands out an unowned share or splits the largest owned share, and binds a worker frame on the asking core. -/
  | askServe (stack : Nat)
  /-- PART_REPORT (R115): A distributor that holds part of a range task reports to the distributor of the lowest-numbered stack that received a part. -/
  | partReport (stack task : Nat)
  /-- RANGE_TASK_COMPLETE (R115): Every share of a range task is empty and every worker has ended, so the reporting distributor sends the single completion. -/
  | rangeTaskComplete (task : Nat)
  /-- PUSH_PORT_RELEASE (R117): A LAUNCH or QPUSH parked on a full queue is released when HEAD advances, and its record is appended. -/
  | pushPortRelease (core cmd : Nat)
  /-- REPLAY_CURSOR_GRANT (R126): A replay that waits at the tape engine for a free replay cursor receives one, in order of binding. -/
  | replayCursorGrant (quad : Nat)
  /-- GUARD_SNAPSHOT (R133): After every recorded command has completed, the tape engine stops the task's dispatch, records a guard entry and writes the snapshot. -/
  | guardSnapshot (quad : Nat)
  /-- REPLAY_ISSUE (R140): The tape engine issues the next recorded command once its dependences have completed, with its operands rebuilt from their descriptors. -/
  | replayIssue (quad task : Nat)
  /-- PROBE_START (R141): At a guard entry, after every earlier entry has completed, a probe frame is allocated, given the patched arguments and sent a start token. -/
  | probeStart (quad task : Nat)
  /-- REPLAY_COMPLETE (R143): A replay whose entries have all completed without a miss sends the completion with COMPV, with outcome DONE. -/
  | replayComplete (quad task : Nat)
  /-- REPLAY_FAULT (R143): After a fault token stops a replay and its issued commands have completed or parked, the fault goes to the continuation, with outcome FAULT. -/
  | replayFault (quad task : Nat)
  /-- INSTALL_START (R178): A token whose page is not resident starts an install that takes a free or evictable page frame, or waits until one can be evicted. -/
  | installStart (core : Nat) (obj : U32) (page : Nat)
  /-- INSTALL_COMPLETE (R179): The page bytes have been read, the hash compared and every word validated, so the page is marked resident and its waiting tokens are released. -/
  | installComplete (core : Nat) (obj : U32) (page : Nat)
  /-- QUARANTINE_NOTICE (R181): A quarantine notice reaches a core or distributor, which stops dispatch into the object and sets ABORT in the object's live frames. -/
  | quarantineNotice (core : Nat)
  /-- ABORT_FREE (R181): A frame with ABORT set reaches its next token boundary and is freed, and a fault token goes to a continuation outside the object. -/
  | abortFree (core : Nat) (fp : U32)
  /-- SWITCH_ACCEPT (R170): A partition's switch agent accepts a SWITCH request and marks the old object draining and the new object pending, or faults. -/
  | switchAccept (stack ctx : Nat)
  /-- SWITCH_DRAIN (R171): At the end of the first stack cycle with INFLIGHT zero, the agent frees the old object's frames, disables it, enables the new object and serves the hold queue. -/
  | switchDrain (stack ctx : Nat)
  /-- BRIDGE_PRODUCE (R174): A producer port writes one entry and its sideband into a bridge queue ring and advances WCNT, as a release. -/
  | bridgeProduce (core port : Nat)
  /-- BRIDGE_CONSUME (R174): A consumer port reads an entry covered by the WCNT it has seen and advances RCNT. -/
  | bridgeConsume (core port : Nat)
  /-- OBJ_LOAD (R177): OBJCTL OP 1 starts LOAD of an object table entry, which checks the header, directory hashes, signer and signature and copies the sections. -/
  | objLoad (ctx : Nat)
  /-- OBJ_UNLOAD (R177): OBJCTL OP 2 starts UNLOAD, which evicts the object's pages, invalidates its tapes and clears its record area. -/
  | objUnload (ctx : Nat)
  /-- LIGHT_DISPATCH (R183): In each stack cycle the light slot dispatches the head of its highest non-empty ready class. -/
  | lightDispatch (core : Nat)
  /-- ENGINE_DISPATCH (R183): In each stack cycle the engine slot dispatches the first command of the highest class whose engine can accept it. -/
  | engineDispatch (core : Nat)
  /-- DISPATCH_TURN (R184): A slot's count of consecutive dispatches from a class reaches 64 while a lower class waits, so the next dispatch takes the lower class. -/
  | dispatchTurn (core : Nat) (engine : Bool)
  /-- QUIESCED (R195): The quiescence detector finds the context stopped short of END and raises QUIESCED with a report of the waiting operands. -/
  | quiesced (ctx : Nat)
  /-- DIVIDER_EMIT (R217): The scalar divider emits the result of a DIV, REM, FDIV or FSQRT after its latency, in dispatch order. -/
  | dividerEmit (core : Nat)
  /-- PAGE_SET_BUMP (R256): A write to PSETCTL starts a bump that advances GEN of every capability of that page set and clears the windows filled through them. -/
  | pageSetBump (ctx : Nat)
  /-- BUMP_DONE (R256): Every access through the old generation has been performed or parked, so BUSY of PSETCTL clears. -/
  | bumpDone (ctx : Nat)
  /-- TRANSLATION_WINDOW_FILL (R257): An address generator or the split-phase unit fills a translation window entry from the page tables ahead of its accesses. -/
  | translationWindowFill (core unit cap : Nat) (va : U64)
  /-- REPLICA_PROPAGATE (R258): The home stack applies a write to a replicated sector and propagates it to every other replica, and the write is performed once all hold it. -/
  | replicaPropagate (stack : Nat)
  /-- PUBLISH_SWAP (R264): At one swap instant the publish agent exchanges the front and back leaf frames and clears every window filled from either range. -/
  | publishSwap (core cmd : Nat)
  /-- AG_ROW (R271): A running address generator moves one row between memory and its bound port, in row order, when port room or entries allow. -/
  | agRow (core gen : Nat)
  /-- TNEW_GRANT (R279): A TNEW that waits in the vault's allocation queue receives an index and span once they are free. -/
  | tnewGrant (core : Nat)
  /-- SPLIT_PHASE_COMPLETE (R261): A split-phase access completes and its result or completion token is emitted. -/
  | splitPhaseComplete (core cmd : Nat)
  /-- COPY_COMPLETE (R263): A copy-class command has written every destination byte, so it clears SHADOW and emits its completion token. -/
  | copyComplete (core cmd : Nat)
  /-- VECTOR_COMMAND_START (R294): The vector unit begins the next queued command in the stack cycle after the previous one has issued its last row. -/
  | vectorCommandStart (core : Nat)
  /-- VECTOR_COMPLETE (R297): A vector command finishes, clears its destination's SHADOW and emits its completion tokens. -/
  | vectorComplete (core : Nat)
  /-- REDUCTION_RELEASE (R317): Once the marker of a round has arrived and every firing has completed, a reduction clears SHADOW and emits D and then the marker. -/
  | reductionRelease (core : Nat) (fp : U32) (ip : BitVec 20)
  /-- MATRIX_ITEM_START (R322): An accumulator queue item starts when the item ahead of it has finished. -/
  | matrixItemStart (core acc : Nat)
  /-- ROW_FIRING (R330): A row firing begins once its row is whole, its sink has room and the array is free, and it occupies the array for P stack cycles. -/
  | rowFiring (core acc : Nat)
  /-- MATRIX_ITEM_FINISH (R322): A matrix item has written all its elements, bytes and entries and emits its completion token. -/
  | matrixItemFinish (core acc : Nat)
  /-- MARKER_ITEM (R323): A marker item reaches the head of its accumulator queue and is forwarded to the operator's destinations. -/
  | markerItem (core acc : Nat)
  /-- BINDING_RELEASE (R320): A closing B binding is released once every item that captured it has finished. -/
  | bindingRelease (core : Nat)
  /-- GANG_GRANT (R331): A row's gang arbiter grants a gang item once each member's queue has room, and places it in every member's queue in one stack cycle. -/
  | gangGrant (stack row : Nat)
  /-- TB_WAITER_RELEASE (R363): After a phase completes, the owner releases that phase's waiters in order, one per stack cycle. -/
  | tbWaiterRelease (core : Nat)
  /-- TBWAIT_RETRY (R363): A TBWAIT returned because the waiter pool was full is retried 64 stack cycles later. -/
  | tbwaitRetry (core cmd : Nat)
  /-- BAR_ARRIVAL (R364): An arrival is applied at a BAR channel of a scope instance and counted in the current generation. -/
  | barArrival (core cmd : Nat)
  /-- COLL_ARRIVAL (R366): A COLL arrival is applied at its channel, and when the generation completes the fixed-tree combination is written to every participant. -/
  | collArrival (core cmd : Nat)
  /-- UPDATE_APPLY (R367): An owner node applies one update, write or lock request per stack cycle in arrival order, as a read-modify-write. -/
  | updateApply (core cmd : Nat)
  /-- LOCK_GRANT (R370): A lock bank entry is granted to its next waiting LOCKQ in arrival order, which emits the lock token. -/
  | lockGrant (node entry : Nat)
  /-- TIMEWAIT_RELEASE (R414): A wait whose time condition has come to hold is released, in increasing T, and emits L. -/
  | timewaitRelease (core : Nat)
  /-- TIMEWAIT_RETRY (R414): A TIMEWAIT that found every wait in use is examined again every 64 stack cycles. -/
  | timewaitRetry (core : Nat)
  /-- SYNC_EXCHANGE (R392): Every 1 µs a tree link starts a time exchange: the upstream end sends SYNC stamped at egress. -/
  | syncExchange (link : Nat)
  /-- TIME_MESSAGE (R392): A TIME flit of the exchange (SYNC, DELAY_REQ or reply) is received and stamped, and at the end of the exchange the offset is slewed or stepped and ERR updated. -/
  | timeMessage (link side : Nat)
  /-- HOLDOVER_ENTER (R389): No upstream exchange has completed for 4 µs, so the stack enters holdover with HOLD 1 and LOCK 0. -/
  | holdoverEnter (stack : Nat)
  /-- HOLDOVER_TICK (R389): In holdover, ERR grows by 1 unit for every 3.125 µs elapsed. -/
  | holdoverTick (stack : Nat)
  /-- POD_SYNC_EXCHANGE (R394): Under DOM 2, every 10 µs I/O die 0 exchanges time with the pod reference over UALink. -/
  | podSyncExchange (off : Int) (err tiers : Nat)
  /-- PTP_MESSAGE (R394): Under DOM 3, an IEEE 1588 delay request-response message is sent or received with hardware stamps at an Ethernet port. -/
  | ptpMessage (off : Int) (err : Nat)
  /-- FLIT_SEND (R401): A link end sends a flit; a sequenced flit is kept in the replay buffer, and no new one is sent while the buffer is full. -/
  | flitSend (link side : Nat)
  /-- FLIT_DATA (R399): A DATA flit with the expected SEQ is accepted, and its entries are delivered for its stream context. -/
  | flitData (link side : Nat)
  /-- FLIT_OPEN (R400): An OPEN flit stores the stream context for its tag at the receiving end. -/
  | flitOpen (link side : Nat)
  /-- FLIT_CLOSE (R400): A CLOSE flit frees its tag after the flit, and a stream that waits for a tag may then take it. -/
  | flitClose (link side : Nat)
  /-- FLIT_ACK (R401): An ACK flit acknowledges flits up to its SEQ, or as a NAK makes the sender resend from that SEQ onward. -/
  | flitAck (link side : Nat)
  /-- FLIT_IDLE (R398): An IDLE flit is received and carries nothing. -/
  | flitIdle (link side : Nat)
  /-- ACK_DUE (R401): The receiver has taken 64 flits, or 200 ns have passed, since its last acknowledgement, so it sends an ACK. -/
  | ackDue (link side : Nat)
  /-- RETRY_WINDOW (R404): RETRY growth over a 1 ms window reaches RTHRESH, so LINK_RETRY is raised once, or a quiet full window re-arms the event. -/
  | retryWindow (link side : Nat)
  /-- CHANGE_PROPOSAL (R407): A CHANGE proposal reaches the peer end, which replies ACCEPT and sets PEND, or REFUSE with LATE, BUSY or MAP. -/
  | changeProposal (link side : Nat)
  /-- CHANGE_REPLY (R407): The ACCEPT or REFUSE reply reaches the proposing end, which sets PEND on acceptance. -/
  | changeReply (link side : Nat)
  /-- CHANGE_QUIESCE (R408): TIME reaches TC − 100 ns, so the end stops DATA, OPEN and CLOSE, sends QUIET and enters STATE 3. -/
  | changeQuiesce (link side : Nat)
  /-- CHANGE_QUIET (R408): The peer's CHANGE QUIET flit arrives. -/
  | changeQuiet (link side : Nat)
  /-- RETRAIN_START (R408): At the later of TC and an empty replay buffer with the peer's QUIET in hand, the end retrains in the new mode. -/
  | retrainStart (link side : Nat)
  /-- TRAINING_COMPLETE (R408): UCIe training ends; on success the link returns to STATE 2 with its sequence and contexts intact, and on failure lower modes are tried in turn. -/
  | trainingComplete (link : Nat) (ok : Bool)
  /-- LINK_LOSS (R408): An end loses its link without a pending change and retrains without an agreed TIME. -/
  | linkLoss (link side : Nat)
  /-- MEMORY_ERROR (R429): A read returns an uncorrectable error and is retried once; it is logged as soft or added to the repair list as lasting, and MEM_ERR is raised. -/
  | memoryError (err : MemError)
  /-- EVENT_SEND (R433): A bound channel sends the event at the head of its queue to the bound frame, IP and port. -/
  | eventSend (stack chan : Nat)
  /-- SAVE_WRITE (R436): Once the context's engine work has drained or parked and no token is in flight, the save area is written and the context becomes inactive. -/
  | saveWrite (ctx : Nat)
  /-- TASK_COMPLETION (R464): In the stack cycle after an ended task's root frame is freed and all its accesses are performed or resolved, its completion is delivered once. -/
  | taskCompletion (task : Nat)
  /-- NVME_COMPLETION (R479): An NVMe storage peer completes a Read or Write command; an error status raises EP_RANGE or MEM_POISON. -/
  | nvmeCompletion (core cmd : Nat) (status : NvmeStatus)
  /-- REGISTER_WRITE (R8): A write to a register or CSR that has no row of its own stores its value with the access of its map. -/
  | registerWrite (offset : Nat) (value : U64)
  /-- SEED_WRITE (R93): A write to SEED reloads the LFSR of every core of the context's region. -/
  | seedWrite (ctx : Nat) (value : U64)
  /-- FLOGRD_WRITE (R426): A write to FLOGRD advances RD, and a value beyond WR is ignored. -/
  | flogrdWrite (ctx : Nat) (value : U32)
  /-- CTX_ACTIVATE (R471): CTXCMD OP 1 activates a context: its descriptor is read and checked, and the cores of its region are cleared. -/
  | ctxActivate (ctx : Nat)
  /-- CTX_DESTROY (R471): CTXCMD OP 2 destroys a context: frames are aborted, accesses drained, parked REDs recorded, and its state zeroed. -/
  | ctxDestroy (ctx : Nat)
  /-- APERTURE_ACCESS (R472): A host read or write through the BAR4 boot aperture reaches HBM stack 0 while the aperture is open, and otherwise reads zero or is dropped. -/
  | apertureAccess (offset len : Nat) (data : Option (List Byte))
  /-- WINDOW_WRITE (R474): A host write to a window entry takes effect once the transfers in flight through it have completed. -/
  | windowWrite (index : Nat) (value : U128)
  /-- OWNERKEY_WRITE (R470): The host writes OWNERKEY, which may be done once after each module reset and is measured. -/
  | ownerkeyWrite (key : List Byte)
  /-- SIGNERS_WRITE (R490): The host changes the SIGNERS set, which governs later LOADs and is measured. -/
  | signersWrite (index : Nat) (key : List Byte)
  /-- MBOX_QUOTE (R489): A QUOTE command in MBOX makes Larkspur return the certificate chain and a quote signed over the nonce and the measurement digest. -/
  | mboxQuote
  /-- MBOX_LOG (R489): A LOG command in MBOX returns the measurement log. -/
  | mboxLog
  /-- LINK_POLICY (R491): A link policy signed by OWNERKEY with a higher sequence number is accepted and opens or closes the external link gates. -/
  | linkPolicy (policy : List Byte)
  /-- MODULE_RESET (R487): Module reset starts the boot sequence, and the identity seed is derived from the SRAM PUF. -/
  | moduleReset
  /-- BOOT_STAGE (R487): A boot stage completes and DEVSTAT.STAGE advances, until READY is set at stage 7, or a failure stops the sequence. -/
  | bootStage (ok : Bool)
  /-- CAP_ENTRY_FREE (R285): A capability entry marked for freeing reaches BUSY 0, becomes invalid and advances its GEN, and CAPCUT.FREE emits. -/
  | capEntryFree (core index : Nat)
  /-- FLIT_DISCARD (R401): A received flit with a bad CRC, an unknown FT or an unexpected SEQ is discarded, CRCERR is counted, and one NAK is sent for the expected SEQ. -/
  | flitDiscard (link side : Nat) (badCrc : Bool)
  /-- SLEW_COMPLETE (R388): The slewed residual of a time correction is fully removed, so the stack's TIME rate returns to nominal, SLEW clears and ERR drops the residual. -/
  | slewComplete (stack : Nat)
  /-- FREE_SLOT_REPORT (R168): A core reports its count of free frame-store slots to the chooser of the ROOMY policy, so that no report is more than 64 stack cycles old. -/
  | freeSlotReport (core : Nat)
  /-- BOARD_POWER_OFF (R492): The board removes the module's power after the module has requested power-off at 115 °C. -/
  | boardPowerOff
  deriving DecidableEq, Repr

end Sys2Proof
end

