-- ==== Sys2Proof/Machine/State.lean ====
section
/-! DEFINITION. The state of the module as plain data: tokens, frames, tiles, engines of a core, stacks, contexts, links, the module's own registers and its memories, and the state right after module reset. -/

namespace Sys2Proof.Machine

/-- The fault classes (R422). -/
inductive FaultClass where
  | kind
  | slotRange
  | roundRange
  | roundSkew
  | matchDup
  | stickyAbsent
  | markerSkew
  | nullOperand
  | noParent
  | ipRange
  | operandRange
  | privilege
  | regionRange
  | trap
  | frameRoot
  | notRoot
  | doubleFree
  | slotBusy
  | frameSpill
  | mergeSpill
  | objDisabled
  | entryRange
  | switchBusy
  | objRejected
  | switchOrphan
  | quarantined
  | codeIllegal
  | codeFetch
  | codePoison
  | codeHash
  | objMalformed
  | objSignature
  | objUntrusted
  | objSource
  | taskMalformed
  | queueRange
  | queueAccess
  | notRange
  | rangeReturn
  | tapeStale
  | tapeUnrecordable
  | tapeProbe
  | staleHandle
  | viewRange
  | tileShadow
  | tileMalformed
  | refOverflow
  | tilePublished
  | layoutBusy
  | tileBound
  | xferType
  | xferShape
  | laneAlign
  | laneRange
  | xlateRefused
  | capForeign
  | capInvalid
  | capStale
  | capRange
  | capPerm
  | capFull
  | pageAbsent
  | pageMalformed
  | memUnbacked
  | memAlign
  | publishShape
  | integrity
  | vfyShape
  | pagePerm
  | agMalformed
  | agBusy
  | agUnbound
  | portDir
  | portBusy
  | streamShape
  | streamShort
  | permitRange
  | bridgeBusy
  | bridgeRequired
  | epRange
  | epPerm
  | epUnbound
  | epRefused
  | epBusy
  | vecRemote
  | vecType
  | vecShape
  | vecAlias
  | matBound
  | matUnbound
  | matRemote
  | matType
  | matMx
  | matShape
  | matAtype
  | matGang
  | tbShape
  | tbLive
  | tbActive
  | tbInactive
  | tbRange
  | tbArrival
  | tbOverrun
  | barMismatch
  | collMismatch
  | collShape
  | relAbort
  | updUnsupported
  | lockState
  | ownRange
  | ownOverlap
  | ownFull
  | redUnresolved
  | timeFollower
  | memTransient
  | memPoison
  | saveMalformed
  | saveOverflow
  | ctxState
  deriving DecidableEq, Repr

/-! ## Tokens, slots and frames (02) -/

/-- KIND (R33). -/
inductive Kind where
  | scalar | tile | null | marker | cap | permit | fault | reserved
  deriving DecidableEq, Repr

/-- What the tape recorder knows of a value (R128, R131): the recorded command and output it is the exact
token of, and the recorded entries its tokens descend from. Hidden from programs, as PROV is. -/
structure Lineage where
  out : Option (Nat × Bool)
  anc : List Nat
  deriving DecidableEq, Repr

/-- A value with the fields that travel with it: KIND, VALUE, ROUND (R32) and the hidden tag PROV (R129). -/
structure Val where
  kind  : Kind
  value : U64
  round : BitVec 8
  prov  : BitVec 4
  lin   : Lineage
  deriving DecidableEq, Repr

/-- A token (R32). -/
structure Token where
  fp   : U32
  ip   : BitVec 20
  port : Bool
  val  : Val
  deriving DecidableEq, Repr

/-- A slot with its tag (R41): empty, parked or sticky. The combination P = 0, S = 1 cannot be written. -/
inductive Slot where
  | empty
  | parked (port : Bool) (v : Val)
  | sticky (port : Bool) (v : Val)
  deriving DecidableEq, Repr

/-- The arm buffers of one ORDMERGE (R194, R212): the BASE units they take in the frame store (first unit and
count for each arm), the tokens that wait on each arm, oldest first, the spilled ones last, and the IP of the ORDMERGE that last ran
on them. -/
structure Arms where
  lbase  : Nat
  rbase  : Nat
  units  : Nat
  depth  : Nat
  left   : List Val
  right  : List Val
  ip     : BitVec 20 := 0
  deriving DecidableEq, Repr

/-- A frame (R35, R36, R39): its place, the fields of its header and its user slots. PARKED (R39) is counted
from the slots and is not stored twice. task numbers the task that owns the frame (R464); worker is the share
(stack × 2^20 + index) of a range worker with the grain it received last (R118, R119); owes says that its free returns one count of LIVE to
the parent (R192), and pobj is the object of that parent (R171, R181); stamp orders frames by last service (R46); released holds the last round that each vector reduction
of the frame has released, by IP (R317). -/
structure Frame where
  base     : Nat
  gen      : BitVec 8
  cls      : Nat
  vcore    : BitVec 12
  obj      : U32
  ctx      : BitVec 12
  pfp      : U32
  rip      : BitVec 20
  rport    : Bool
  live     : U32
  policy   : BitVec 4
  anchor   : BitVec 12
  fround   : BitVec 8
  root     : Bool
  hostc    : Bool
  abort    : Bool
  freepend : Bool
  tmode    : BitVec 2
  task     : Nat
  worker   : Option (Nat × Nat × Nat)
  probe    : Bool
  owes     : Bool
  pobj     : Option U32
  arms     : Table Arms
  born     : Nat
  stamp    : Nat
  released : List (BitVec 20 × BitVec 8)
  slots    : Table Slot
  deriving DecidableEq, Repr

/-- An operator with the operands that fired it (R43). port is the port of the token that fired a monadic
operator. word is its instruction word, once it has been fetched. replay names the quad, task and entry of a replayed
command (R140), or of one that a recording captures (R127), where recorded is set; named holds the sticky slots that the
operator of a replayed command names. -/
structure Firing where
  core   : Nat
  fp     : U32
  ip     : BitVec 20
  ctx    : Nat
  obj    : U32
  task   : Nat
  port   : Bool
  l      : Val
  r      : Option Val
  t      : Option Val
  replay : Option (Nat × Nat × Nat)
  word   : Option U128
  recorded : Bool
  named  : Table Val := []
  deriving DecidableEq, Repr

/-- What travels between cores: a token, the release message of R192, or the free request of FFREE.FP (R205).
reply says that its delivery returns one count of LIVE (R39). -/
inductive Msg where
  | token (t : Token) (reply : Bool)
  | release (fp : U32)
  | free (fp : U32) (by_ : Firing)
  deriving DecidableEq, Repr

/-- A message on its way or waiting at a core: the physical core (or 4096 + stack for an agent) that sent it. -/
structure Mail where
  src : Nat
  msg : Msg
  deriving DecidableEq, Repr

/-! ## Engines of a core (11, 12, 13, 15) -/

/-- The engine that holds a command (R260, R294, R322, R372, R442). -/
inductive Engine where
  | split | gen (g : Nat) | stream | vector | matrix | sync | system | launch | alloc
  deriving DecidableEq, Repr

/-- Where a command stands: waiting for its covered set (R357), at an owner node (R367), at work, waiting at a
scope channel (R364), in an allocation queue, or done with its writes and waiting for propagation (R258). -/
inductive Phase where
  | covered | owner | work | channel | queued | propagating | arrived
  deriving DecidableEq, Repr

/-- A command that an engine has accepted and not finished. covers lists the commands whose accesses it waits
for (R357); tiles and caps are the descriptors whose BUSY it holds (R52, R252); row counts the rows, items or
waiters done; shadow names the tile it writes (R263); parked is the class with which its access parked,
pport the port (PKIND, INDEX) it stands at (R434) and precord the index of the record; aborted is set when a covered access was discarded (R358). -/
structure Cmd where
  id      : Nat
  fire    : Firing
  instr   : Instr
  engine  : Engine
  phase   : Phase
  covers  : List Nat
  tiles   : List (Nat × Nat)
  caps    : List Nat
  shadow  : Option (Nat × Nat)
  row     : Nat
  aux     : Nat
  data    : List Byte
  parked  : Option FaultClass
  pport   : Nat × Nat
  precord : U32
  retry   : Bool
  aborted : Bool
  live    : Bool
  deriving DecidableEq, Repr

/-- A tile descriptor (R50). SIZE is held as the field: allocated bytes / 64 - 1. held keeps the index and the
space after the last TREL until BUSY reaches 0 (R52). bars is the owner's set of active barriers in the tile,
by their offset in the vault (R360). -/
structure Tile where
  base      : Nat
  rows      : Nat
  cols      : Nat
  etype     : EType
  layout    : BitVec 2
  pitch     : Nat
  refcnt    : Nat
  gen       : BitVec 8
  valid     : Bool
  shadow    : Bool
  published : Bool
  nullpad   : Bool
  size      : Nat
  scale     : Nat
  busy      : Nat
  held      : Bool
  bars      : List Nat
  deriving DecidableEq, Repr

/-- A capability table entry (R252) with its taint list (R269) and the mark of CAPCUT.FREE (R285): the
firings that wait for the entry to be freed. -/
structure Cap where
  vbase   : Nat
  extent  : Nat
  root    : BitVec 28
  pset    : BitVec 16
  gen     : BitVec 8
  valid   : Bool
  u       : Bool
  w       : Bool
  r       : Bool
  busy    : Nat
  taint   : List (Nat × Nat)
  deriving DecidableEq, Repr

/-- A translation window entry (R257): the capability through which it was filled, the page's virtual address,
its leaf and the page size as a power of two. -/
structure WinEntry where
  cap  : Nat
  page : Nat
  log  : Nat
  leaf : U64
  deriving DecidableEq, Repr

/-- An address generator (R270, R271, R291): its parameters, its place, its run. win is its translation window.
released is the number of permits (R276); parked and precord as for a command; again says that a RESUME has let the access of an issued row
be made again. data holds the bytes of the row in progress, entry
its entries moved, and done its bytes written. -/
structure AddrGen where
  loaded  : Bool
  cap     : Val
  offset  : Nat
  rowb    : Nat
  write   : Bool
  strides : List Int
  extm1   : List Nat
  trows   : Nat
  pwin    : Nat
  next    : Nat
  running : Bool
  stopReq : List Firing
  run     : Option Firing
  moved   : Nat
  port    : Option Nat
  win     : List WinEntry
  released : Nat
  mcast   : List (Nat × Nat)
  parked  : Option FaultClass
  precord : U32
  again   : Bool
  data    : List Byte
  entry   : Nat
  done    : Nat
  deriving DecidableEq, Repr

/-- A stream FIFO entry and its sideband (R272): EOT, EOR, MARK and ROUND. -/
structure Entry where
  data  : List Byte
  eot   : Bool
  eor   : Bool
  mark  : Bool
  round : BitVec 8
  deriving DecidableEq, Repr

/-- What a stream port is bound to on its far side (R274): a generator, a bridge queue, a peer port of another
core, an endpoint (its number, byte offset, entries left, round of the binding), or a branch of a multicast (generator's core, index and the
space token's destination). -/
inductive Binding where
  | gen (g : Nat)
  | bridge (b : Nat)
  | peer (core port : Nat)
  | endpoint (ep off left : Nat) (round : BitVec 8)
  | branch (core g : Nat) (dst : Firing)
  deriving DecidableEq, Repr

/-- A stream port (R272, R274). seen counts EOT entries dequeued since the binding (R276). unbind holds the
SBIND.UNBIND that waits for the port to empty (R288); obj the object of the frame that bound it (R175); wrote says that the first entry
stands in its bridge ring and is not yet covered by WCNT (R174). -/
structure Port where
  fifo   : List Entry
  bound  : Option Binding
  seen   : Nat
  unbind : Option Firing
  obj    : U32
  wrote  : Bool
  deriving DecidableEq, Repr

/-- A round of a vector reduction (R316, R317): whether it holds an entry of the reduction table and the first-firing
flag of that; the destination handle with its core and tile, once a firing has been accepted; the firings accepted and
not completed; and the marker, once it has arrived. -/
structure Reduction where
  fp     : U32
  ip     : BitVec 20
  round  : BitVec 8
  taken  : Bool
  first  : Bool
  dest   : Option (Val × Nat × Nat)
  pend   : Nat
  marker : Option Firing
  deriving DecidableEq, Repr

/-- The B binding (R318, R320). -/
structure MatBinding where
  handle  : Val
  core    : Nat
  index   : Nat
  etype   : EType
  kb      : Nat
  nb      : Nat
  mx      : Bool
  closing : Option Firing
  deriving DecidableEq, Repr

/-- An accumulator queue item (R322, R323): a command or a marker item, whether it has started, the rows done,
the binding it captured, the gang it belongs to (the issuer's core and command, its member number, the members), the tiles whose BUSY
it holds, the state of the generator it draws from, the bytes of the row in progress and the flags raised so far. -/
structure MatItem where
  id      : Nat
  fire    : Firing
  instr   : Instr
  marker  : Bool
  started : Bool
  row     : Nat
  binding : Option MatBinding
  gang    : Option (Nat × Nat × Nat × Nat)
  tiles   : List (Nat × Nat)
  seed    : U64
  data    : List Byte
  flags   : BitVec 6
  deriving DecidableEq, Repr

/-- One accumulator with its type, its output factors and its queue (R321, R322). held lists the MRD results
that wait for a marker item (R341). -/
structure Accum where
  isInt   : Bool
  elems   : Table U32
  factors : Table U32
  queue   : List MatItem
  held    : List MatItem
  deriving DecidableEq, Repr

/-- A TIMEWAIT (R414): its deadline, SURE and the firing that waits. -/
structure Wait where
  deadline : Nat
  sure     : Bool
  d0       : Dest
  d1       : Dest
  fire     : Firing
  deriving DecidableEq, Repr

/-- A waiter of a transaction barrier (R363): the barrier's offset in the vault, the phase it waits for, and the
command's core and firing; released waiters leave in order. -/
structure Waiter where
  bar      : Nat
  phase    : BitVec 4
  released : Bool
  d0       : Dest
  d1       : Dest
  fire     : Firing
  deriving DecidableEq, Repr

/-- A result that the scalar divider holds (R217). -/
structure DivResult where
  fire  : Firing
  d0    : Dest
  d1    : Dest
  val   : Val
  flags : BitVec 6
  deriving DecidableEq, Repr

/-- A page frame of the instruction store (R178): the object, the page, its words by index, and the stamp of its
last dispatch. -/
structure PageFrame where
  ctx   : Nat
  obj   : U32
  page  : Nat
  words : Table U128
  stamp : Nat
  deriving DecidableEq, Repr

/-- An install under way or waiting (R178, R180), with the tokens that wait for its page in arrival order. -/
structure Install where
  obj    : U32
  page   : Nat
  active : Bool
  parked : Bool
  mail   : List Mail
  deriving DecidableEq, Repr

/-- Why a core allocates a frame: a bound task (its number, the share of a worker), a FALLOC or CALL with the frame
that it makes, a block for ORDMERGE arms, or a probe of a replay (R141). -/
inductive AllocFor where
  | bind (task : Nat) (share : Option Nat) (anchor : BitVec 12)
  | firing (fire : Firing) (instr : Instr) (frame : Frame)
  | arms (mail : Mail) (fp : U32) (slot depth : Nat)
  | probe (quad task : Nat)
  deriving DecidableEq, Repr

/-- A spilled frame's entry in the spill directory (R46, R47): its FP, the place of the entry, the indexes of its records and the
frame that they hold, with what the device keeps of it besides (log 116). -/
structure Spilled where
  fp    : U32
  dir   : Nat
  recs  : List Nat
  frame : Frame
  deriving DecidableEq, Repr

/-- One core (R19). ctx is the active context whose region holds it. vcore is its virtual core id there. -/
structure Core where
  ctx       : Option Nat
  vcore     : BitVec 12
  stopped   : Bool
  inbox     : List Mail
  dispatchQ : List Mail
  blocked   : List Mail
  frames    : List Frame
  unitGen   : Table (BitVec 8)
  spillDir  : List Spilled
  fillQueue : List (U32 × Mail)
  allocs    : List AllocFor
  framePark : Option FaultClass
  mergePark : Option FaultClass
  light     : List (Nat × Firing)
  engine    : List (Nat × Firing)
  lightTurn : Nat
  engTurn   : Nat
  lightLast : Nat
  engLast   : Nat
  lightDue  : Bool
  engDue    : Bool
  pages     : List PageFrame
  installs  : List Install
  quar      : List U32
  caps      : Table Cap
  tiles     : Table Tile
  tnewQueue : List Cmd
  cmds      : List Cmd
  win       : List WinEntry
  gens      : Table AddrGen
  ports     : Table Port
  vecQueue  : List Cmd
  vecRun    : Option Cmd
  reds      : List Reduction
  mat       : Option MatBinding
  sel       : Bool
  rowTurn   : Bool
  acc0      : Accum
  acc1      : Accum
  waiters   : List Waiter
  waits     : List Wait
  waitRetry : List Wait
  divider   : List DivResult
  lfsr      : U64
  perf      : Table U64
  cursor    : Nat
  deriving DecidableEq, Repr

/-! ## Stacks and distributors (05, 07, 16, 18) -/

/-- A resident queue (R102, R107). -/
structure Resident where
  queue  : Nat
  prio   : Nat
  eff    : Nat
  passed : Nat
  head   : Nat
  tail   : Nat
  ovf    : Nat
  deriving DecidableEq, Repr

/-- A share of a range task (R113). -/
structure Share where
  task  : Nat
  grain : Nat
  lo    : Nat
  hi    : Nat
  owner : Option (Nat × U32)
  ready : Bool
  deriving DecidableEq, Repr

/-- A bind packet at a distributor (R109): the task, the share of a worker (stack × 2^20 + index) with the core it is bound on, the
core that pushed the record, and the quad that TAPEREC or TAPEPLAY binds it on (R158). -/
structure BindPacket where
  task   : Nat
  share  : Option (Nat × Nat)
  issuer : Option Nat
  quad   : Option Nat
  deriving DecidableEq, Repr

/-- The state of an object on a partition (R169). -/
inductive ObjState where
  | enabled | draining | pending | disabled
  deriving DecidableEq, Repr

/-- A held item of a partition (R172): a bind packet or an allocation. -/
inductive Held where
  | bind (p : BindPacket)
  | alloc (core : Nat) (a : AllocFor)
  deriving DecidableEq, Repr

/-- A partition of a context (R169 to R172): the states of objects, the requests that wait at the switch agent,
the switch in progress (old and new object, the SWITCH that waits), the hold queue, and the items that wait in the mesh at the
partition's edge because it is full. -/
structure Partition where
  ctx    : Nat
  states : List (U32 × ObjState)
  reqs   : List Firing
  switch : Option (U32 × U32 × Firing)
  hold   : List Held
  edge   : List Held
  deriving DecidableEq, Repr

/-- The binding of an event channel (R446). -/
structure EvBind where
  ctx  : Nat
  fp   : U32
  ip   : BitVec 20
  port : Bool
  deriving DecidableEq, Repr

/-- An event channel (R433). calls are HCALLs that wait for room (R445). -/
structure Channel where
  bind  : Option EvBind
  queue : List U64
  calls : List Firing
  deriving DecidableEq, Repr

/-- One compute stack: clock (R22 to R24), TIME and its bound (R384 to R389), event channels (R431 to R433),
distributor (R102, R107, R113, R114), partitions (R169) and ROOMY reports (R168). -/
structure Stack where
  minMhz    : Nat
  maxMhz    : Nat
  curMhz    : Nat
  targetMhz : Nat
  pendMhz   : Option Nat
  moving    : Bool
  clamp     : Option (Nat × Bool)
  time      : Nat
  err       : U32
  epoch     : BitVec 16
  uplink    : BitVec 6
  depth     : BitVec 4
  gm        : Bool
  hold      : Bool
  dom       : BitVec 3
  residual  : Int
  slewing   : Bool
  lastExch  : Nat
  lastTick  : Nat
  limitHit  : Bool
  chans     : Table Channel
  evlost    : U32
  slots     : Table Resident
  rrp       : Table Nat
  binds     : List BindPacket
  shares    : Table Share
  asks      : List (Nat × Nat)
  cursors   : Table Nat
  parts     : List Partition
  reports   : Table Nat
  deriving DecidableEq, Repr

/-! ## Tasks and tapes (05, 06, 21) -/

/-- A task from its selection to its completion (R105, R108, R464). parts are the stacks that hold part of a
range task with a flag for those that have reported (R112, R115). ended holds END's value; freed says that the
free of the root frame has taken effect. tape tells what the tape engine does with it (R126). -/
inductive TapeUse where
  | none | record | replay | waiting | busy
  deriving DecidableEq, Repr

structure Task where
  id     : Nat
  ctx    : Nat
  obj    : U32
  entry  : BitVec 20
  cls    : Nat
  policy : BitVec 4
  tmode  : BitVec 2
  hostc  : Bool
  cont   : BitVec 53
  args   : List U64
  tmpl   : Nat
  prio   : Nat
  stack  : Nat
  rootFp : U32
  range  : Option (Nat × Nat × Nat)
  parts  : List (Nat × Bool)
  workers : Nat
  bound  : Bool
  tape   : TapeUse
  ended  : Option Val
  freed  : Bool
  deriving DecidableEq, Repr

/-- An operand descriptor (R150). -/
structure OpDesc where
  opix : Nat
  src  : Nat
  kind : Kind
  arg  : Nat
  cmd  : Nat
  lit  : U64
  deriving DecidableEq, Repr

/-- A frame record of a snapshot (R151). -/
structure SnapFrame where
  cls    : Nat
  vcore  : BitVec 12
  pord   : Option Nat
  rip    : BitVec 20
  rport  : Bool
  fround : BitVec 8
  root   : Bool
  anchor : BitVec 12
  policy : BitVec 4
  deriving DecidableEq, Repr

/-- A token record of a snapshot (R151): state 0 in flight, 1 parked, 2 sticky. -/
structure SnapTok where
  state : Nat
  port  : Bool
  gout  : Bool
  fpref : Option Nat
  frame : Nat
  ip    : BitVec 20
  slot  : Nat
  round : BitVec 8
  prov  : BitVec 4
  desc  : OpDesc
  deriving DecidableEq, Repr

/-- A snapshot (R133, R151). -/
structure Snapshot where
  entry  : Option Nat
  frames : List SnapFrame
  toks   : List SnapTok
  deriving DecidableEq, Repr

/-- A recorded command (R149). ops and named describe its operands and the sticky slots that its operator names. The image holds no
frame pointer, IP, round, port or named slot of a command, and of its word only what R149 lists; the engine keeps them beside it
(log 31). -/
structure TapeCmd where
  word    : U128
  fp      : U32
  ip      : BitVec 20
  round   : BitVec 8
  port    : Bool
  pos     : Nat
  ops     : List OpDesc
  named   : List (Nat × OpDesc)
  deps    : List Nat
  fullbar : Bool
  keep0   : Bool
  keep1   : Bool
  deriving DecidableEq, Repr

/-- A guard entry (R133, R149): its number, the IP of its TAPEGRD, the probe's IP, class and core position, PRED and the snapshot. -/
structure TapeGuard where
  gnum : Nat
  gip  : BitVec 20
  ip   : BitVec 20
  cls  : Nat
  pos  : Nat
  pred : U64
  snap : Snapshot
  deriving DecidableEq, Repr

/-- An entry of a tape's command section (R149): a recorded command or a guard. -/
inductive TapeEntry where
  | cmd (c : TapeCmd)
  | guard (g : TapeGuard)
  deriving DecidableEq, Repr

/-- A tape (R125, R148). watch lists the watched ranges by device key and vwatch as the header has them (R154); off and
size place its image in the area of its quad (R147). -/
structure Tape where
  ctx     : Nat
  tmpl    : Nat
  qkey    : BitVec 12
  obj     : U32
  entry   : BitVec 20
  cls     : Nat
  policy  : BitVec 4
  valid   : Bool
  patch   : BitVec 6
  guards  : BitVec 6
  rectime : U64
  rargs   : List U64
  entries : List TapeEntry
  exit    : Option Snapshot
  compv   : Option OpDesc
  watch   : List (Nat × Nat)
  vwatch  : List (Nat × Nat)
  off     : Nat
  size    : Nat
  deriving DecidableEq, Repr

/-- A recording in progress (R127). mask is GUARDMASK as it grows, and open_ says that commands are still recorded, which
TAPEEND ends (R135); atGuard holds the TAPEGRDs and TAPEENDs that wait for their snapshot, the latter marked
(R133, R135). -/
structure Recording where
  task    : Nat
  ctx     : Nat
  tmpl    : Nat
  entries : List TapeEntry
  mask    : BitVec 6
  open_   : Bool
  exit    : Option Snapshot
  atGuard : List (Firing × Fields × Bool)
  deriving DecidableEq, Repr

/-- A replay (R139 to R143): its tape, the commands issued, the guards passed, the values kept for later descriptors
(entry × 2 + output), the guard whose probe runs, and the fault that stops it. -/
structure Replay where
  task   : Nat
  tape   : Tape
  issued : List Nat
  passed : List Nat
  kept   : Table Val
  probe  : Option (Nat × U32)
  fault  : Option Val
  deriving DecidableEq, Repr

/-- The tape engine of a quad (R126). last holds, by context and template, the outcome word of TAPEINFO.LAST
(R163); freed holds the TAPEGRDs and TAPEENDs that waited in a recording which has ended, and which act as in NORMAL next (R138). -/
structure TapeEngine where
  record  : Option Recording
  replays : List Replay
  waiting : List Replay
  tapes   : List Tape
  last    : List (Nat × Nat × U64)
  freed   : List (Firing × Fields × Bool) := []
  deriving DecidableEq, Repr

/-! ## Contexts and objects (05, 07, 18) -/

/-- A tile-shape record (R79). -/
structure Shape where
  rows   : Nat
  cols   : Nat
  etype  : EType
  layout : BitVec 2
  pitch  : Nat
  deriving DecidableEq, Repr

/-- A tape template of an object (R124). -/
structure Template where
  id     : Nat
  guards : List (BitVec 20)
  patch  : BitVec 6
  watch  : List (Nat × Nat)
  deriving DecidableEq, Repr

/-- An object in the context's object record area (R177): what LOAD copied of it. -/
structure ObjRec where
  obj      : U32
  index    : Nat
  fromEp   : Bool
  ep       : Nat
  base     : Nat
  codeOff  : Nat
  npages   : Nat
  ninstr   : Nat
  entries  : List (BitVec 20 × Nat)
  shapes   : List Shape
  taped    : Bool
  tmpls    : List Template
  hashes   : List (List Byte)
  quar     : Bool
  deriving DecidableEq, Repr

/-- An endpoint descriptor (R259). kind 0 is unbound. -/
structure Endpoint where
  pointer : Nat
  extent  : Nat
  kind    : Nat
  w       : Bool
  r       : Bool
  win     : Nat
  nsid    : U32
  rid     : BitVec 16
  qp      : BitVec 16
  deriving DecidableEq, Repr

/-- An owned range (R368, R378): virtual base, extent and the owner's virtual core id. -/
structure OwnRange where
  base   : Nat
  extent : Nat
  owner  : BitVec 12
  deriving DecidableEq, Repr

/-- Whether a context is active (R99, R471), and what takes it off its region: a CTXSAVE, by the number of its command (R436), or its
destruction (R472). -/
inductive CtxPhase where
  | inactive | active | saving (cmd : Nat) | destroying
  deriving DecidableEq, Repr

/-- A context: the fields its descriptor gave at activation (R99), its CSRs (R441), its counts and what the
device holds for it. bump tells how the bump of a page set stands (R256): 0 none, 1 asked for, 2 run; PSETCTL.BUSY is
1 unless it is 0. -/
structure Ctx where
  phase    : CtxPhase
  cls      : Nat
  sup      : Bool
  x0       : Nat
  y0       : Nat
  wm1      : Nat
  hm1      : Nat
  fba      : U64
  fbasz    : U32
  flog     : U64
  flogn    : Nat
  hfp      : U32
  hip      : BitVec 20
  hport    : Bool
  save     : U64
  hcw      : U64
  hcwlen   : U32
  fpstat   : BitVec 6
  seed     : U64
  stalecnt : U64
  flogWr   : U32
  flogLost : U32
  flogRd   : U32
  ctxroot  : BitVec 28
  pset     : BitVec 16
  bump     : Nat
  objbase  : BitVec 52
  objnm1   : BitVec 6
  objop    : BitVec 2
  objidx   : BitVec 6
  objbusy  : Bool
  objres   : BitVec 3
  tapebase : BitVec 43
  tapeqsz  : U32
  holdbase : BitVec 43
  bqbase   : BitVec 52
  mspill   : BitVec 44
  qrbase   : BitVec 52
  qrlog    : BitVec 4
  redcnt   : Nat
  objs     : List ObjRec
  eps      : Table Endpoint
  owned    : List OwnRange
  bridges  : List (Nat × Bool)
  quiet    : Bool
  qrseq    : U32
  deriving DecidableEq, Repr

/-- A channel of a scope instance (R364): instance number, context, COLL or BAR, channel number, N, the word
that every arrival must match, and the arrivals: core, command, rank, contribution. -/
structure ScopeChan where
  inst     : Nat
  ctx      : Nat
  coll     : Bool
  chan     : Nat
  n        : Nat
  sig      : Nat
  arrivals : List (Nat × Nat × Nat × List Byte)
  deriving DecidableEq, Repr

/-- A lock bank entry (R370): its grant sequence, the context that holds it, and the LOCKQs that wait. -/
structure Lock where
  seq     : U32
  held    : Option Nat
  waiters : List (Nat × Nat)
  deriving DecidableEq, Repr

/-- A write applied at a home stack that other replicas do not hold yet (R258): offset in the HBM stack, bytes,
the stacks that still lack it, and the command that waits for it. -/
structure Propagation where
  off    : Nat
  bytes  : List Byte
  lacking : List Nat
  core   : Nat
  cmd    : Nat
  deriving DecidableEq, Repr

/-! ## Links (16) -/

/-- A stream context of a link (R399). -/
structure StreamCtx where
  kind   : BitVec 3
  tag    : Nat
  src    : Nat
  dst    : Nat
  port   : Nat
  base   : U64
  rowb   : Nat
  nrows  : Nat
  stride : Int
  first  : Nat
  deriving DecidableEq, Repr

/-- What an operator asks of a link end (R452): its number, the firing that waits, the request, and the end. -/
structure LinkReq where
  id    : Nat
  fire  : Firing
  instr : Instr
  link  : Nat
  side  : Nat
  deriving DecidableEq, Repr

/-- Messages of a CHANGE flit (R407, R408). -/
inductive ChangeMsg where
  | propose (mode mask half : Nat) (tc : Nat)
  | accept
  | refuse (reason : Nat)
  | quiet
  deriving DecidableEq, Repr

/-- Messages of a TIME flit with their stamps (R392). -/
inductive TimeMsg where
  | sync (t1 : Nat)
  | delayReq
  | reply (t4 : Nat) (err : Nat)
  deriving DecidableEq, Repr

/-- The content of a flit (R398): DATA of the token context, of the request context (R452: the number of a
request, and its result on the way back; the number of a write that is no row, log 98), and of a stream context (the number of its first
entry); an OPEN with the number of its stream; the others. -/
inductive FlitBody where
  | tokens (ms : List (Nat × Mail))
  | request (id : Nat) (result : Option U64)
  | store (id : Nat)
  | rows (idx : Nat) (entries : List Entry)
  | opens (id : Nat) (c : StreamCtx)
  | close
  | ack (next : Nat) (nak : Bool)
  | time (m : TimeMsg)
  | change (m : ChangeMsg)
  | idle
  deriving DecidableEq, Repr

/-- A flit (R397). -/
structure Flit where
  tag  : Nat
  seq  : Nat
  body : FlitBody
  deriving DecidableEq, Repr

/-- A write on its way over links to the HBM of another stack (R25, R399): its number, the command whose write it is, and the tape whose own
it is, its device key and bytes, and the stacks of further replicas. -/
structure Transit where
  id    : Nat
  core  : Nat
  cmd   : Nat
  own   : Option (Nat × Nat)
  key   : Nat
  bytes : List Byte
  reps  : List Nat
  deriving DecidableEq, Repr

/-- One end of a link (R396, R401, R403, R404, R407, R408). wire holds the flits on their way to this end,
out what waits to be sent, oldest first: a flit of stream n whose context has no tag at this end yet has TAG 256 + n there. tags
gives the streams of the tags in use, rx the streams and contexts of the tags that the peer has opened. maps holds LNKMAP as
written, live the maps in effect since the last training (R403). -/
structure LinkEnd where
  state    : Nat
  mode     : Nat
  mask     : Nat
  half     : Nat
  pend     : Bool
  pmode    : Nat
  pmask    : Nat
  phalf    : Nat
  tc       : Nat
  maps     : Table (BitVec 28)
  live     : Table (BitVec 28)
  retry    : U32
  crcerr   : U32
  rthresh  : BitVec 16
  wire     : List Flit
  out      : List Flit
  buffer   : List Flit
  txSeq    : Nat
  resend   : List Flit
  rxSeq    : Nat
  rxCount  : Nat
  nakked   : Bool
  rx       : Table (Nat × StreamCtx)
  tags     : Table Nat
  paused   : List Nat
  pauseAll : Bool
  gotQuiet : Bool
  retryLog : List Nat
  retryHit : Bool
  armed    : Bool
  proposer : Option Nat
  trying   : Nat
  t1       : Nat
  t2       : Nat
  t3       : Nat
  deriving DecidableEq, Repr

/-! ## The module in its system (21) -/

/-- A host window (R474). -/
structure Window where
  base  : BitVec 52
  pages : BitVec 28
  rid   : BitVec 16
  w     : Bool
  r     : Bool
  v     : Bool
  deriving DecidableEq, Repr

/-- A GROUPS entry (R478). -/
structure Group where
  ctx   : Nat
  valid : Bool
  sys   : Bool
  coll  : Bool
  chan  : Nat
  gid   : U32
  n     : U32
  deriving DecidableEq, Repr

/-- The module-wide registers and agents (R390, R470, R474, R476, R478, R487 to R492). -/
structure Module where
  powered   : Bool
  offReq    : Bool
  stage     : Nat
  halted    : Bool
  timecfg   : BitVec 35
  ctxtab    : U64
  qtab      : U64
  cmdBusy   : Bool
  cmdRes    : BitVec 3
  cmdOp     : BitVec 4
  cmdCtx    : BitVec 12
  podcfg    : BitVec 11
  root0     : BitVec 28
  ownerkey  : Option (List Byte)
  signers   : Table (List Byte)
  windows   : Table Window
  funcmap   : Table (BitVec 13)
  groups    : Table Group
  mboxCmd   : U64
  mboxStat  : U64
  mboxNonce : List Byte
  mboxResp  : List Byte
  gates     : BitVec 16
  draining  : List Nat
  policySeq : Option U64
  repair    : List (MemKind × Nat × Nat)
  mlog      : List (List Byte)
  digest    : List Byte
  mlogFull  : Bool
  clockLog  : List (Nat × Nat)
  msix      : Table Nat
  aperture  : Bool
  hostRead  : List Byte
  io0Time   : Nat
  io1Time   : Nat
  ioErr     : U32
  ioEpoch   : BitVec 16
  ioDom     : BitVec 3
  ioGm      : Bool
  ioResid   : Int
  io1Err    : U32
  io1Resid  : Int
  deriving DecidableEq, Repr

/-- A memory: pairs of address and byte, addresses rising, no entry equal to what an unlisted address reads as. -/
abbrev Memory := List Host.Cell

/-- What the device keeps of a saved context in its own format (R437, R438): the region's origin at the save,
the cores by virtual core id; by stack or quad the queues that were resident, the shares, asks, bind packets, partitions and
tape engines, and the HCALLs that wait at a channel; the locks of the region's update units and the gangs that wait. ends
lists the commands whose BAR or COLL has completed since, or whose CTXSAVE has, with COLL's row and flags. -/
structure Saved where
  ctx     : Nat
  x0      : Nat
  y0      : Nat
  wm1     : Nat
  hm1     : Nat
  ctxRec  : Ctx
  cores   : Table Core
  slots   : List (Nat × Resident)
  shares  : List (Nat × Share)
  asks    : List (Nat × Nat × Nat)
  binds   : List (Nat × BindPacket)
  parts   : List (Nat × Partition)
  engines : List (Nat × TapeEngine)
  calls   : List (Nat × Firing)
  cursors : List (Nat × Nat)
  locks   : List (Nat × Lock)
  gangs   : List Cmd
  ends    : List (Nat × Option (List Nat × BitVec 6))
  deriving DecidableEq, Repr

/-- The state of the module and its surroundings. cur is the operator in its stack cycle of execution; due holds
the steps that follow at once, and agenda a schedule of the events that come next, as plain data, each with the units that
TIME moves before it (log 1, log 4); clock counts steps; free numbers
the free values taken; ids numbers commands and tasks; pushers names the core that pushed a record which waits in a ring, by
queue × 65536 + index (R167). -/
structure State where
  cur     : Option Firing
  due     : List Instr
  agenda  : List (Nat × Instr)
  clock   : Nat
  free    : Nat
  ids     : Nat
  cores   : Table Core
  stackTab : Table Stack
  ctxs    : Table Ctx
  tapes   : Table TapeEngine
  tasks   : Table Task
  pushers : Table Nat
  links   : Table LinkEnd
  chans   : List ScopeChan
  locks   : Table Lock
  props   : List Propagation
  streams : List Transit
  gangs   : List Cmd
  linkReqs : List LinkReq
  saved   : Table Saved
  mod     : Module
  hbm     : Memory
  vault   : Memory
  host    : Memory
  storage : Memory
  deriving DecidableEq, Repr

/-- Why the machine stops. -/
inductive Fault where
  /-- Raised by step when the module has no power (R492): safe, nothing runs then. -/
  | noPower
  /-- Raised by step when the operator in execution stands in no resident page of its core (R178): dispatch checks
  the page first, so no run reaches it; safe. -/
  | noCode
  /-- Raised by step when the word at the operator's IP has no behaviour (R66): install refuses such a word under
  R67, so no run reaches it; safe. -/
  | illegalWord
  deriving DecidableEq, Repr

/-- Why a step has no meaning in the model. -/
inductive Refusal where
  /-- Raised by exec for a step whose meaning is not written: safe. -/
  | notModelled (mnemonic : String)
  deriving DecidableEq, Repr

/-! ## Reset -/

/-- A lineage outside any recording. -/
def Lineage.none : Lineage := { out := Option.none, anc := [] }

/-- The scalar 0 of round 0. -/
def Val.zero : Val := { kind := .scalar, value := 0, round := 0, prov := 0, lin := Lineage.none }

/-- An accumulator when a context is created (R321): +0, ATYPE F32, every factor 1.0. -/
def Accum.reset : Accum := { isInt := false, elems := [], factors := [], queue := [], held := [] }

/-- A core that no context holds (log 8). -/
def Core.reset : Core :=
  { ctx := none, vcore := 0, stopped := false, inbox := [], dispatchQ := [], blocked := [], frames := [], unitGen := [], spillDir := [],
    fillQueue := [], allocs := [], framePark := none, mergePark := none, light := [], engine := [],
    lightTurn := 0, engTurn := 0, lightLast := 0, engLast := 0, lightDue := false, engDue := false, pages := [], installs := [], quar := [],
    caps := [], tiles := [], tnewQueue := [], cmds := [], win := [], gens := [], ports := [],
    vecQueue := [], vecRun := none, reds := [], mat := none, sel := false, rowTurn := false, acc0 := Accum.reset,
    acc1 := Accum.reset, waiters := [], waits := [], waitRetry := [], divider := [], lfsr := 1, perf := [],
    cursor := 0 }

/-- A tile table entry that was never allocated (R50; log 6). -/
def Tile.reset : Tile :=
  { base := 0, rows := 0, cols := 0, etype := .i64, layout := 0, pitch := 0, refcnt := 0, gen := 0,
    valid := false, shadow := false, published := false, nullpad := false, size := 0, scale := 0, busy := 0,
    held := false, bars := [] }

/-- A capability table entry that was never allocated (R252; log 6). -/
def Cap.reset : Cap :=
  { vbase := 0, extent := 0, root := 0, pset := 0, gen := 0, valid := false, u := false, w := false, r := false,
    busy := 0, taint := [] }

/-- An address generator that no AGSET has loaded (R288). -/
def AddrGen.reset : AddrGen :=
  { loaded := false, cap := Val.zero, offset := 0, rowb := 0, write := false, strides := [], extm1 := [],
    trows := 0, pwin := 0, next := 0, running := false, stopReq := [], run := none, moved := 0, port := none,
    win := [], released := 0, mcast := [], parked := none, precord := 0, again := false, data := [], entry := 0, done := 0 }

/-- An empty, unbound port (R272). -/
def Port.reset : Port := { fifo := [], bound := none, seen := 0, unbind := none, obj := 0, wrote := false }

/-- An unbound event channel (R433). -/
def Channel.reset : Channel := { bind := none, queue := [], calls := [] }

/-- A compute stack after module reset (R24, R384 to R386, R433; log 7, log 8). -/
def Stack.reset (id : Nat) : Stack :=
  { minMhz := Config.minMhz id, maxMhz := Config.maxMhz id, curMhz := Config.bootMhz id,
    targetMhz := Config.bootMhz id, pendMhz := none, moving := false, clamp := none, time := 0,
    err := 0xFFFFFFFF, epoch := 0, uplink := 63, depth := 0, gm := false, hold := false, dom := 0,
    residual := 0, slewing := false, lastExch := 0, lastTick := 0, limitHit := false, chans := [], evlost := 0, slots := [],
    rrp := [], binds := [], shares := [], asks := [], cursors := [], parts := [], reports := [] }

/-- A context that was never activated (R93, R94, R146, R172, R173, R176, R194, R196, R251, R426). -/
def Ctx.reset : Ctx :=
  { phase := .inactive, cls := 0, sup := false, x0 := 0, y0 := 0, wm1 := 0, hm1 := 0, fba := 0, fbasz := 0,
    flog := 0, flogn := 0, hfp := 0, hip := 0, hport := false, save := 0, hcw := 0, hcwlen := 0, fpstat := 0,
    seed := 0, stalecnt := 0, flogWr := 0, flogLost := 0, flogRd := 0, ctxroot := 0, pset := 0,
    bump := 0, objbase := 0, objnm1 := 0, objop := 0, objidx := 0, objbusy := false, objres := 0,
    tapebase := 0, tapeqsz := 0, holdbase := 0, bqbase := 0, mspill := 0, qrbase := 0, qrlog := 0, redcnt := 0,
    objs := [], eps := [], owned := [], bridges := [], quiet := false, qrseq := 0 }

/-- An endpoint that was never bound (R259; log 6). -/
def Endpoint.reset : Endpoint :=
  { pointer := 0, extent := 0, kind := 0, w := false, r := false, win := 0, nsid := 0, rid := 0, qp := 0 }

/-- A quad's tape engine with nothing recorded (R126). -/
def TapeEngine.reset : TapeEngine := { record := none, replays := [], waiting := [], tapes := [], last := [] }

/-- A lock entry that nobody holds (R370). -/
def Lock.reset : Lock := { seq := 0, held := none, waiters := [] }

/-- A link end after module reset: STATE 1, training (R403, R404; log 8). -/
def LinkEnd.reset : LinkEnd :=
  { state := 1, mode := 0, mask := 0xF, half := 0, pend := false, pmode := 0, pmask := 0, phalf := 0, tc := 0,
    maps := [], live := [], retry := 0, crcerr := 0, rthresh := 0, wire := [], out := [], buffer := [], txSeq := 0,
    resend := [], rxSeq := 0, rxCount := 0, nakked := false, rx := [], tags := [], paused := [],
    pauseAll := false, gotQuiet := false, retryLog := [], retryHit := false, armed := true, proposer := none, trying := 0, t1 := 0, t2 := 0,
    t3 := 0 }

/-- A window entry after reset (R474). -/
def Window.reset : Window := { base := 0, pages := 0, rid := 0, w := false, r := false, v := false }

/-- A GROUPS entry after reset (R478; log 8). -/
def Group.reset : Group := { ctx := 0, valid := false, sys := false, coll := false, chan := 0, gid := 0, n := 0 }

/-- The module's own registers after module reset (R390, R470, R476, R487, R489; log 8). -/
def Module.reset : Module :=
  { powered := true, offReq := false, stage := 0, halted := false, timecfg := 0x200000000, ctxtab := 0, qtab := 0,
    cmdBusy := false, cmdRes := 0, cmdOp := 0, cmdCtx := 0, podcfg := 0, root0 := 0, ownerkey := none,
    signers := [], windows := [], funcmap := [], groups := [], mboxCmd := 0, mboxStat := 0, mboxNonce := [],
    mboxResp := [], gates := 0, draining := [], policySeq := none, repair := [], mlog := [], digest := List.replicate 64 0,
    mlogFull := false, clockLog := [], msix := [], aperture := false, hostRead := [], io0Time := 0, io1Time := 0,
    ioErr := 0xFFFFFFFF, ioEpoch := 0, ioDom := 0, ioGm := false, ioResid := 0, io1Err := 0xFFFFFFFF,
    io1Resid := 0 }

/-- The machine right after module reset: no boot stage passed, no context active, memory with nothing listed. -/
def State.reset : State :=
  { cur := none, due := [], agenda := [], clock := 0, free := 0, ids := 1, cores := [], stackTab := [], ctxs := [],
    tapes := [], tasks := [], pushers := [], links := [], chans := [], locks := [], props := [], streams := [], gangs := [], linkReqs := [],
    saved := [], mod := Module.reset, hbm := [], vault := [], host := [], storage := [] }

end Sys2Proof.Machine
end

