-- ==== Sys2Proof/Machine/Memory.lean ====
section
/-! DEFINITION. Bytes, the canonical memory, device addresses (R247), page walks (R249, R250), replicas (R253, R258) and the reads and writes that every agent makes of them. -/

namespace Sys2Proof.Machine

/-! ## Bytes -/

/-- The number that bytes hold, least significant first (R7). -/
def leNat : List Byte → Nat
  | [] => 0
  | b :: t => b.toNat + 256 * leNat t

/-- The n bytes of a number, least significant first (R7). -/
def natLe : Nat → Nat → List Byte
  | 0, _ => []
  | n + 1, x => BitVec.ofNat 8 x :: natLe n (x / 256)

/-- A number of n bytes at an offset of a list of bytes. -/
def numAt (bs : List Byte) (off n : Nat) : Nat := leNat ((bs.drop off).take n)

/-- n bytes from an offset on. -/
def cut (bs : List Byte) (off n : Nat) : List Byte := (bs.drop off).take n

/-- Every byte of a range is zero. -/
def zeroAt (bs : List Byte) (off n : Nat) : Bool := (cut bs off n).all (· == 0)

/-- Bits [lo + len - 1 : lo] of a number. -/
def bitsAt (x lo len : Nat) : Nat := x / 2 ^ lo % 2 ^ len

/-- Bit n of a number. -/
def bitOf (x n : Nat) : Bool := x / 2 ^ n % 2 == 1

/-! ## Memories -/

/-- What an address that a memory does not list reads as (log 5). -/
def Memory.unlisted : Byte := 0

/-- The canonical form: addresses strictly rising and no entry equal to what an unlisted address reads as. -/
abbrev Memory.wf (m : Memory) : Prop := Table.wf m = true ∧ ∀ c ∈ m, c.2 ≠ Memory.unlisted

/-- One byte. -/
def Memory.read (m : Memory) (a : Nat) : Byte := Table.look Memory.unlisted m a

/-- m with byte b at address a, in canonical form. -/
def Memory.write (m : Memory) (a : Nat) (b : Byte) : Memory :=
  if b = Memory.unlisted then Table.del m a else Table.put m a b

/-- n bytes from address a on. -/
def Memory.readBytes (m : Memory) (a : Nat) : Nat → List Byte
  | 0 => []
  | n + 1 => m.read a :: Memory.readBytes m (a + 1) n

/-- The bytes l written from address a on. -/
def Memory.writeBytes (m : Memory) (a : Nat) : List Byte → Memory
  | [] => m
  | b :: t => Memory.writeBytes (m.write a b) (a + 1) t

/-- A little-endian number of n bytes. -/
def Memory.readNat (m : Memory) (a n : Nat) : Nat := leNat (m.readBytes a n)

/-- The place of a vault's byte in State.vault (R240). -/
def vaultKey (core off : Nat) : Nat := core * 2 ^ 22 + off

/-- The place of a storage byte in State.storage: the peer's id, the namespace, the byte (R259). -/
def storageKey (rid : Nat) (nsid : Nat) (off : Nat) : Nat := (rid * 2 ^ 32 + nsid) * 2 ^ 64 + off

/-! ## Where cores and stacks stand -/

/-- The stack of a physical core (R17). -/
def coreStack (c : Nat) : Nat := c / 256 % 16
/-- The row of a core in its stack's mesh. -/
def coreY (c : Nat) : Nat := c / 16 % 16
/-- The column. -/
def coreX (c : Nat) : Nat := c % 16
/-- Package core coordinates (R100). -/
def pkgX (c : Nat) : Nat := coreStack c % 4 * 16 + coreX c
def pkgY (c : Nat) : Nat := coreStack c / 4 * 16 + coreY c
/-- The core at package core coordinates (R165). -/
def coreAt (x y : Nat) : Nat := (y / 16 * 4 + x / 16) * 256 + y % 16 * 16 + x % 16
/-- Mesh hops between two cores (R168). -/
def hops (a b : Nat) : Nat :=
  (pkgX a - pkgX b) + (pkgX b - pkgX a) + ((pkgY a - pkgY b) + (pkgY b - pkgY a))
/-- The quad of a core, numbered over the module (R18). -/
def quadOf (c : Nat) : Nat := coreStack c * 64 + coreY c / 2 * 8 + coreX c / 2
/-- The position of a core in its quad (R18). -/
def quadPos (c : Nat) : Nat := coreY c % 2 * 2 + coreX c % 2
/-- The core at a position of a quad. -/
def quadCore (q p : Nat) : Nat :=
  q / 64 * 256 + (q % 64 / 8 * 2 + p / 2) * 16 + (q % 8 * 2 + p % 2)
/-- Ocler links between two stacks on the route of R25. -/
def stackDist (a b : Nat) : Nat :=
  (a % 4 - b % 4) + (b % 4 - a % 4) + ((a / 4 - b / 4) + (b / 4 - a / 4))

/-- The region map (R165): from a virtual core id to a physical one, or none outside the region. -/
def Ctx.phys (c : Ctx) (v : Nat) : Option Nat :=
  let vx := v / 256 % 16 % 4 * 16 + v % 16
  let vy := v / 256 % 16 / 4 * 16 + v / 16 % 16
  if v < 4096 ∧ vx ≤ c.wm1 ∧ vy ≤ c.hm1 then some (coreAt (c.x0 + vx) (c.y0 + vy)) else none

/-- The virtual core id of a physical core of the region (R165). -/
def Ctx.virt (c : Ctx) (p : Nat) : Option Nat :=
  if c.x0 ≤ pkgX p ∧ pkgX p ≤ c.x0 + c.wm1 ∧ c.y0 ≤ pkgY p ∧ pkgY p ≤ c.y0 + c.hm1 then
    some (coreAt (pkgX p - c.x0) (pkgY p - c.y0))
  else none

/-- The cores of the region by rising virtual core id: pairs of virtual and physical id. -/
def Ctx.region (c : Ctx) : List (Nat × Nat) :=
  (List.range 4096).filterMap (fun v => (c.phys v).map (fun p => (v, p)))

/-- The highest virtual core id of the region. -/
def Ctx.topCore (c : Ctx) : Nat := coreAt c.wm1 c.hm1

/-! ## Parts of the state -/

/-- A core by its physical id. -/
def State.core (s : State) (c : Nat) : Core := Table.look Core.reset s.cores c
def State.setCore (s : State) (c : Nat) (k : Core) : State := { s with cores := Table.put s.cores c k }
def State.modCore (s : State) (c : Nat) (f : Core → Core) : State := s.setCore c (f (s.core c))

/-- A compute stack by its number; the I/O dies have their TIME in State.mod. -/
def State.stack (s : State) (n : Nat) : Stack := Table.look (Stack.reset n) s.stackTab n
def State.setStack (s : State) (n : Nat) (k : Stack) : State := { s with stackTab := Table.put s.stackTab n k }
def State.modStack (s : State) (n : Nat) (f : Stack → Stack) : State := s.setStack n (f (s.stack n))

/-- A context by its id. -/
def State.ctx (s : State) (n : Nat) : Ctx := Table.look Ctx.reset s.ctxs n
def State.setCtx (s : State) (n : Nat) (k : Ctx) : State := { s with ctxs := Table.put s.ctxs n k }
def State.modCtx (s : State) (n : Nat) (f : Ctx → Ctx) : State := s.setCtx n (f (s.ctx n))

/-- The tape engine of a quad. -/
def State.engine (s : State) (q : Nat) : TapeEngine := Table.look TapeEngine.reset s.tapes q
def State.setEngine (s : State) (q : Nat) (k : TapeEngine) : State := { s with tapes := Table.put s.tapes q k }
def State.modEngine (s : State) (q : Nat) (f : TapeEngine → TapeEngine) : State := s.setEngine q (f (s.engine q))

/-- A task by its number. -/
def State.task? (s : State) (n : Nat) : Option Task := Table.find s.tasks n
def State.setTask (s : State) (n : Nat) (t : Task) : State := { s with tasks := Table.put s.tasks n t }
def State.modTask (s : State) (n : Nat) (f : Task → Task) : State :=
  match s.task? n with
  | some t => s.setTask n (f t)
  | none => s

/-- A link end: number 2 × link + side. -/
def State.link (s : State) (l side : Nat) : LinkEnd := Table.look LinkEnd.reset s.links (2 * l + side)
def State.setLink (s : State) (l side : Nat) (k : LinkEnd) : State :=
  { s with links := Table.put s.links (2 * l + side) k }
def State.modLink (s : State) (l side : Nat) (f : LinkEnd → LinkEnd) : State :=
  s.setLink l side (f (s.link l side))

def State.modMod (s : State) (f : Module → Module) : State := { s with mod := f s.mod }

/-- The free choice of this moment among n alternatives (log 1, log 3). -/
def State.choice (s : State) (n : Nat) : Nat := Config.freeNat s.free % n
/-- The state after a free choice or value has been taken. -/
def State.spend (s : State) : State := { s with free := s.free + 1 }

/-- The contexts that are active (R99, R471). -/
def Ctx.live (c : Ctx) : Bool :=
  match c.phase with
  | .active => true
  | .saving _ => true
  | .destroying => true
  | .inactive => false

/-- The context is being saved (R436). -/
def Ctx.saving (c : Ctx) : Bool :=
  match c.phase with
  | .saving _ => true
  | _ => false

/-! ## Page walks -/

/-- Where a walk ends (R250): at a leaf of a page of 2^log bytes, with the page-set id of the level 0 entry. -/
inductive Walk where
  | ok (leaf log pset : Nat)
  | err (c : FaultClass)
  deriving DecidableEq, Repr

/-- A leaf that R249, R247 and R253 allow. -/
def leafOk (e log : Nat) : Bool :=
  let space := bitsAt e 60 4
  let repl := bitOf e 6
  let mask := bitsAt e 40 16
  let ones := ((List.range 16).filter (fun k => bitOf mask k)).length
  bitsAt e 7 14 == 0 && !bitOf e 5 && decide (space ≤ 2) &&
  (log == 21 || bitsAt e 21 9 == 0) &&
  (if repl then
    space == 0 && bitsAt e 56 4 == 0 && decide (2 ≤ ones) && decide (ones ≤ 4) && bitOf mask (bitsAt e 36 4)
   else
    (space == 2 || bitsAt e 50 10 == 0) &&
    (if space == 1 then bitsAt e 45 5 == 0 else bitsAt e 40 10 == 0))

/-- A walk from a level 0 table (R249, R250); root is OFFSET[39:12], and a root of 0 maps nothing (R251). -/
def walk (m : Memory) (root va : Nat) : Walk :=
  if root = 0 ∨ va ≥ 2 ^ 48 then .err .pageAbsent
  else
    let e0 := m.readNat (root * 4096 + 8 * bitsAt va 39 9) 8
    if !bitOf e0 0 then .err .pageAbsent
    else if bitOf e0 1 || bitsAt e0 60 4 != 0 || bitsAt e0 40 4 != 0 || bitsAt e0 2 10 != 0 then
      .err .pageMalformed
    else
      let pset := bitsAt e0 44 16
      let e1 := m.readNat (bitsAt e0 12 28 * 4096 + 8 * bitsAt va 30 9) 8
      if !bitOf e1 0 then .err .pageAbsent
      else if bitOf e1 1 then
        if leafOk e1 30 then .ok e1 30 pset else .err .pageMalformed
      else if bitsAt e1 40 24 != 0 || bitsAt e1 2 10 != 0 then .err .pageMalformed
      else
        let e2 := m.readNat (bitsAt e1 12 28 * 4096 + 8 * bitsAt va 21 9) 8
        if !bitOf e2 0 then .err .pageAbsent
        else if !bitOf e2 1 then .err .pageMalformed
        else if leafOk e2 21 then .ok e2 21 pset else .err .pageMalformed

/-! ## Device addresses -/

/-- What an access does (R255): read, write or update. -/
inductive Access where
  | read | write | update
  deriving DecidableEq, Repr

/-- The leaf permits the access (R249). -/
def leafPermits (leaf : Nat) : Access → Bool
  | .read => bitOf leaf 2
  | .write => bitOf leaf 3
  | .update => bitOf leaf 4

/-- The device address that a leaf gives a virtual address; of a replicated page, the home replica's (R247, R253). -/
def devAddr (leaf log va : Nat) : Nat :=
  if bitOf leaf 6 then bitsAt leaf 21 19 * 2 ^ 21 / 2 ^ log * 2 ^ log + va % 2 ^ log
  else bitsAt leaf 60 4 * 2 ^ 60 + bitsAt leaf 21 39 * 2 ^ 21 / 2 ^ log * 2 ^ log + va % 2 ^ log

/-- The device address lies in memory that is there (R247, R475, R476, R491). -/
def State.backed (s : State) (a : Nat) : Bool :=
  match bitsAt a 60 4 with
  | 0 => true
  | 1 =>
    let port := bitsAt a 42 3
    bitOf s.mod.gates.toNat port && decide (bitsAt a 0 42 < Config.cxlCapacity port)
  | 2 =>
    bitOf s.mod.podcfg.toNat 10 &&
    (bitsAt a 50 10 == bitsAt s.mod.podcfg.toNat 0 10 ||
      (bitOf s.mod.gates.toNat 8 && Config.podReachable (bitsAt a 50 10)))
  | _ => false

/-- The key of a device address in State.hbm: SPACE 2 of this very package is its local HBM (R247). -/
def State.devKey (s : State) (a : Nat) : Nat :=
  if bitsAt a 60 4 == 2 && bitsAt a 50 10 == bitsAt s.mod.podcfg.toNat 0 10 then bitsAt a 0 50 else a

/-- A run of bytes in one page: its virtual address, length, leaf and page size. -/
structure Chunk where
  va   : Nat
  len  : Nat
  leaf : Nat
  log  : Nat
  deriving DecidableEq, Repr

/-- How the translation of a range ends: wholly, or at an address with a class, after the chunks before it. -/
inductive Xlate where
  | ok (cs : List Chunk)
  | err (cs : List Chunk) (va : Nat) (c : FaultClass) (dev : Nat)
  deriving DecidableEq, Repr

/-- The window entry of a page, filled through a capability (R257). -/
def winFind (win : List WinEntry) (cap va : Nat) : Option WinEntry :=
  win.find? (fun e => e.cap == cap && e.page == va / 2 ^ e.log)

/-- One page of an access: the window's leaf, else a walk; then R255's checks of the leaf. -/
def State.page (s : State) (root : Nat) (win : List WinEntry) (cap va : Nat) (k : Access) : Walk :=
  let w : Walk :=
    match winFind win cap va with
    | some e => .ok e.leaf.toNat e.log 0
    | none => walk s.hbm root va
  match w with
  | .err c => .err c
  | .ok leaf log pset =>
    if !s.backed (devAddr leaf log va) then .err .memUnbacked
    else if !leafPermits leaf k then .err .pagePerm
    else .ok leaf log pset

/-- Of the n bytes at a device address, those before the end of the memory that is there (R247): a second-tier port ends at its
device's capacity. -/
def backedLen (a n : Nat) : Nat :=
  if bitsAt a 60 4 = 1 then min n (Config.cxlCapacity (bitsAt a 42 3) - bitsAt a 0 42) else n

/-- The chunks of a range, page by page; fuel bounds the pages. -/
def State.chunks (s : State) (root : Nat) (win : List WinEntry) (cap : Nat) (k : Access) :
    Nat → Nat → Nat → List Chunk → Xlate
  | 0, _, _, acc => .ok acc.reverse
  | fuel + 1, va, n, acc =>
    if n = 0 then .ok acc.reverse
    else
      match s.page root win cap va k with
      | .err c =>
        let dev := match walk s.hbm root va with
          | .ok leaf log _ => devAddr leaf log va
          | .err _ => 0
        .err acc.reverse va c dev
      | .ok leaf log _ =>
        let len := backedLen (devAddr leaf log va) (min n (2 ^ log - va % 2 ^ log))
        s.chunks root win cap k fuel (va + len) (n - len) ({ va := va, len := len, leaf := leaf, log := log } :: acc)

/-- The translation of the n bytes at va. -/
def State.xlate (s : State) (root : Nat) (win : List WinEntry) (cap : Nat) (k : Access) (va n : Nat) : Xlate :=
  s.chunks root win cap k (n / 2 ^ 21 + 3) va n []

/-- The replica that a stack reads: the nearest by links, then the lower stack id (R258). -/
def nearest (mask stack : Nat) : Nat :=
  ((List.range 16).filter (fun k => bitOf mask k)).foldl
    (fun best k =>
      match best with
      | none => some k
      | some b => if stackDist stack k < stackDist stack b then some k else some b)
    (none : Option Nat) |>.getD 0

/-- Where a stack reads a chunk (R258). -/
def State.readKey (s : State) (stack : Nat) (c : Chunk) : Nat :=
  let a := devAddr c.leaf c.log c.va
  if bitOf c.leaf 6 then nearest (bitsAt c.leaf 40 16) stack * 2 ^ 36 + bitsAt a 0 36 else s.devKey a

/-- Where a write of a chunk is applied: at the home stack of a replicated page (R258). -/
def State.writeKey (s : State) (c : Chunk) : Nat := s.devKey (devAddr c.leaf c.log c.va)

/-- The stacks besides the home stack that hold a replica of the chunk. -/
def replicas (c : Chunk) : List Nat :=
  if bitOf c.leaf 6 then
    (List.range 16).filter (fun k => bitOf (bitsAt c.leaf 40 16) k && k != bitsAt c.leaf 36 4)
  else []

/-- The bytes of chunks as a stack reads them. -/
def State.readChunks (s : State) (stack : Nat) (cs : List Chunk) : List Byte :=
  cs.flatMap (fun c => s.hbm.readBytes (s.readKey stack c) c.len)

/-- Two ranges of bytes overlap. -/
def bytesMeet (a n b m : Nat) : Bool := decide (a < b + m) && decide (b < a + n) && decide (0 < n) && decide (0 < m)

/-- A tape's watched device ranges, in whole sectors, meet a write (R154). -/
def rangesMeet (a n b m : Nat) : Bool :=
  decide (a / 32 * 32 < b + m) && decide (b < (a + n + 31) / 32 * 32) && decide (0 < n) && decide (0 < m)

/-- A tape that a write of n bytes at key a makes invalid, unless the write is its own (R154). -/
def Tape.hit (t : Tape) (a n : Nat) : Tape :=
  if t.watch.any (fun w => rangesMeet a n w.1 w.2) then { t with valid := false } else t

/-- Tapes that watch the n bytes at a device key become invalid, those of saved contexts as well, but for the tape of the command that
writes: own is its context and template (R153, R154). A recording has no watched range before its close (R154; log 30). -/
def State.watchHit (s : State) (a n : Nat) (own : Option (Nat × Nat)) : State :=
  let hit (e : TapeEngine) : TapeEngine :=
    { e with tapes := e.tapes.map (fun t => if own = some (t.ctx, t.tmpl) then t else t.hit a n) }
  { s with
    tapes := s.tapes.map (fun e => (e.1, hit e.2)),
    saved := s.saved.map (fun v => (v.1, { v.2 with engines := v.2.engines.map (fun e => (e.1, hit e.2)) })) }

/-- A write of bytes at device key a. -/
def State.hbmWrite (s : State) (a : Nat) (bs : List Byte) (own : Option (Nat × Nat)) : State :=
  let s := { s with hbm := s.hbm.writeBytes a bs }
  if bs.isEmpty then s else s.watchHit a bs.length own

/-- One chunk's bytes written at its home, and the propagation to its replicas begun (R258). -/
def State.writeChunk (s : State) (c : Chunk) (bs : List Byte) (core cmd : Nat) (own : Option (Nat × Nat)) :
    State :=
  let a := s.writeKey c
  let s := s.hbmWrite a bs own
  match replicas c with
  | [] => s
  | rs => { s with props := s.props ++ [{ off := bitsAt a 0 36, bytes := bs, lacking := rs, core := core, cmd := cmd }] }

/-! ## Writes over links (R25, R398 to R400) -/

/-- The next link on the dimension-order route from stack a to stack b: the link, the side of a's end (0 the stack of
lower id), and the stack at its other end. -/
def nextHop (a b : Nat) : Option (Nat × Nat × Nat) :=
  let x := a % 4; let y := a / 4
  if x < b % 4 then some (y * 3 + x, 0, a + 1)
  else if b % 4 < x then some (y * 3 + (x - 1), 1, a - 1)
  else if y < b / 4 then some (12 + y * 4 + x, 0, a + 4)
  else if b / 4 < y then some (12 + (y - 1) * 4 + x, 1, a - 4)
  else none

/-- Entries of a 64-byte row: its bytes cut and padded with zeros, EOR on the last (R271, R287). -/
def rowEntries (bs : List Byte) (round : BitVec 8) : Nat → List Entry
  | 0 => []
  | n + 1 =>
    let d := bs.take 64
    { data := d ++ List.replicate (64 - d.length) 0, eot := false, eor := n == 0, mark := false, round := round } ::
      rowEntries (bs.drop 64) round n

/-- Entries in DATA flits of four (R397), the first of them entry n of the stream; fuel bounds the flits. -/
def dataFlits (tag : Nat) : Nat → Nat → List Entry → List Flit
  | 0, _, _ => []
  | fuel + 1, n, es =>
    if es.isEmpty then [] else { tag := tag, seq := 0, body := .rows n (es.take 4) } :: dataFlits tag fuel (n + 4) (es.drop 4)

/-- The stream context of a write of one row (R399): from its core to the memory of a stack. -/
def Transit.stream (t : Transit) : StreamCtx :=
  { kind := 1, tag := 0, src := t.core, dst := 0xF000 + t.key / 2 ^ 36, port := 0, base := BitVec.ofNat 64 t.key, rowb := t.bytes.length,
    nrows := 1, stride := t.bytes.length, first := 0 }

/-- The flits of a write (R398 to R400): a stream of one row, or, where it is no whole number of 32-byte units, a write request. -/
def Transit.flits (t : Transit) : List Flit :=
  if t.key % 32 = 0 ∧ t.bytes.length % 32 = 0 then
    let n := (t.bytes.length + 63) / 64
    { tag := 256 + t.id, seq := 0, body := .opens t.id t.stream } ::
      (dataFlits (256 + t.id) n 0 (rowEntries t.bytes 0 n) ++ [{ tag := 256 + t.id, seq := 0, body := .close }])
  else [{ tag := 1, seq := 0, body := .store t.id }]

/-- One chunk's bytes written for a command of a core: at once, or, where their home is the HBM of another stack, by a write that sets out
over the links (R25). -/
def State.writeRow (s : State) (c : Chunk) (bs : List Byte) (core cmd : Nat) (own : Option (Nat × Nat)) : State :=
  let a := s.writeKey c
  match (if core < 4096 ∧ a < 2 ^ 40 ∧ !bs.isEmpty then nextHop (coreStack core) (a / 2 ^ 36) else none) with
  | none => s.writeChunk c bs core cmd own
  | some (l, side, _) =>
    let t : Transit := { id := s.ids, core := core, cmd := cmd, own := own, key := a, bytes := bs, reps := replicas c }
    { s with ids := s.ids + 1, streams := s.streams ++ [t] }.modLink l side (fun e => { e with out := e.out ++ t.flits })

/-- The bytes written over chunks in order. -/
def State.writeChunks (s : State) (cs : List Chunk) (bs : List Byte) (core cmd : Nat)
    (own : Option (Nat × Nat)) : State :=
  (cs.foldl (fun (a : State × List Byte) c =>
    (a.1.writeRow c (a.2.take c.len) core cmd own, a.2.drop c.len)) (s, bs)).1

/-- A write of a command is not performed everywhere yet (R258): it is on its way over links, or to replicas. -/
def State.unperformed (s : State) (core cmd : Nat) : Bool :=
  s.props.any (fun p => p.core == core && p.cmd == cmd) || s.streams.any (fun t => t.core == core && t.cmd == cmd)

/-- Every link on the way from stack a to stack b is up at both ends (R25, R408); fuel bounds the links. -/
def State.linksUp (s : State) : Nat → Nat → Nat → Bool
  | 0, _, _ => true
  | fuel + 1, a, b =>
    match nextHop a b with
    | none => true
    | some (l, side, c) => (s.link l side).state == 2 && (s.link l (1 - side)).state == 2 && s.linksUp fuel c b

/-- Two stacks reach each other, there and back (R25; log 98). -/
def State.wayUp (s : State) (a b : Nat) : Bool := s.linksUp 6 a b && s.linksUp 6 b a

/-- A stack reaches the memory at a device key: local HBM by the links between stacks. -/
def State.keyUp (s : State) (stack key : Nat) : Bool := decide (2 ^ 40 ≤ key) || s.wayUp stack (key / 2 ^ 36)

/-! ## Accesses of the device itself through CTXROOT -/

/-- Why an access stops, as its record has it (R427): the class, the virtual address, and the device address or 0. -/
abbrev AccessStop := FaultClass × Nat × Nat

/-- n bytes at a virtual address through a context's CTXROOT, or what ends the walk. -/
def State.ctxRead (s : State) (ctx stack va n : Nat) : Except AccessStop (List Byte) :=
  match s.xlate (s.ctx ctx).ctxroot.toNat [] 0 .read va n with
  | .ok cs => .ok (s.readChunks stack cs)
  | .err _ a c d => .error (c, a, d)

/-- A write through a context's CTXROOT whose propagation is numbered by a core and a command, or what ends the walk; nothing is
written then. -/
def State.ctxWriteFor (s : State) (ctx va : Nat) (bs : List Byte) (core cmd : Nat) : Except AccessStop State :=
  match s.xlate (s.ctx ctx).ctxroot.toNat [] 0 .write va bs.length with
  | .ok cs => .ok (s.writeChunks cs bs core cmd none)
  | .err _ a c d => .error (c, a, d)

/-- A write of the device itself through a context's CTXROOT. -/
def State.ctxWrite (s : State) (ctx va : Nat) (bs : List Byte) : Except AccessStop State := s.ctxWriteFor ctx va bs 4096 0

/-- A number of n bytes through CTXROOT, 0 where nothing is mapped. -/
def State.ctxNat (s : State) (ctx stack va n : Nat) : Nat :=
  match s.ctxRead ctx stack va n with
  | .ok bs => leNat bs
  | .error _ => 0

/-- A write through CTXROOT that has no effect where nothing is mapped. -/
def State.ctxPut (s : State) (ctx va : Nat) (bs : List Byte) : State :=
  match s.ctxWrite ctx va bs with
  | .ok t => t
  | .error _ => s

end Sys2Proof.Machine
end

