-- ==== Sys2Proof/Machine/Crypto.lean ====
section
/-! DEFINITION. The digests and signatures that the device checks and makes: SHA-512 (FIPS 180-4), Ed25519 (RFC 8032, R481, R487 to R491) and CRC-32C (R397). Their algorithms are those that the spec names; they stand outside the spec (log 32). -/

namespace Sys2Proof.Machine

/-! ## SHA-512

FIPS 180-4 defines the constants by roots of primes; they are computed here from that definition, and the eight working variables stand as two
delay lines: the variable named a and its three earlier values, and the variable named e and its three earlier values. -/

/-- The primes below 410, which are the first 80. -/
def shaPrimes : List Nat := (List.range 410).filter (fun n => decide (2 ≤ n) && (List.range 19).all (fun d => d + 2 ≥ n || n % (d + 2) != 0))

/-- The largest number with a k-th power of at most n that agrees with x above its low bits, which are to be found. -/
def rootFloor (k n : Nat) : Nat → Nat → Nat
  | 0, x => x
  | b + 1, x => rootFloor k n b (if (x + 2 ^ b) ^ k ≤ n then x + 2 ^ b else x)

/-- The first 64 bits of the fraction of the k-th root of n. -/
def rootFraction (k n : Nat) : Nat := rootFloor k (n * 2 ^ (64 * k)) 70 0 % 2 ^ 64

/-- A 64-bit word turned right by each of some distances, all of them added bit by bit. -/
def turns (x : Nat) (by_ : List Nat) : Nat :=
  by_.foldl (fun acc n => acc ^^^ (x * 2 ^ 64 + x) / 2 ^ n % 2 ^ 64) 0

/-- A message of n bytes is filled up to whole blocks of 128: a one bit, zeros, and its length in bits. -/
def shaFill (n : Nat) : List Byte := [0x80] ++ List.replicate (127 - (n + 16) % 128) 0 ++ (natLe 16 (8 * n)).reverse

/-- The word of the schedule that follows sixteen others, oldest first. -/
def shaNext (w : List Nat) : Nat :=
  let old := w[1]?.getD 0
  let new := w[14]?.getD 0
  (w[0]?.getD 0 + (turns old [1, 8] ^^^ old / 2 ^ 7) + w[9]?.getD 0 + (turns new [19, 61] ^^^ new / 2 ^ 6)) % 2 ^ 64

/-- The two delay lines, each newest first. -/
structure ShaLines where
  as : List Nat
  es : List Nat
  deriving DecidableEq, Repr

/-- One round, with its constant and its word. -/
def ShaLines.round (x : ShaLines) (k w : Nat) : ShaLines :=
  let a (n : Nat) : Nat := x.as[n]?.getD 0
  let e (n : Nat) : Nat := x.es[n]?.getD 0
  let chosen := (e 0 &&& e 1) + ((e 0 ^^^ (2 ^ 64 - 1)) &&& e 2)
  let most := (a 0 &&& a 1) ||| ((a 0 ||| a 1) &&& a 2)
  let t := e 3 + turns (e 0) [14, 18, 41] + chosen + k + w
  { as := (t + turns (a 0) [28, 34, 39] + most) % 2 ^ 64 :: x.as.take 3, es := (a 3 + t) % 2 ^ 64 :: x.es.take 3 }

/-- Rounds with their constants; w holds the next sixteen words of the schedule. -/
def ShaLines.run : List Nat → List Nat → ShaLines → ShaLines
  | [], _, x => x
  | k :: ks, w, x => ShaLines.run ks (w.drop 1 ++ [shaNext w]) (x.round k (w.headD 0))

/-- A block joins the hash value. -/
def ShaLines.block (consts : List Nat) (x : ShaLines) (b : List Byte) : ShaLines :=
  let y := ShaLines.run consts ((List.range 16).map (fun i => leNat (cut b (8 * i) 8).reverse)) x
  let plus (u v : List Nat) : List Nat := (u.zip v).map (fun p => (p.1 + p.2) % 2 ^ 64)
  { as := plus x.as y.as, es := plus x.es y.es }

/-- The SHA-512 digest of a message, 64 bytes. -/
def sha512 (m : List Byte) : List Byte :=
  let p := m ++ shaFill m.length
  let h0 := (shaPrimes.take 8).map (rootFraction 2)
  let consts := shaPrimes.map (rootFraction 3)
  let out := (List.range (p.length / 128)).foldl (fun (x : ShaLines) i => x.block consts (cut p (128 * i) 128)) { as := h0.take 4, es := h0.drop 4 }
  (out.as ++ out.es).flatMap (fun w => (natLe 8 w).reverse)

/-! ## CRC-32C -/

/-- n steps of the reflected polynomial. -/
def crcBits : Nat → Nat → Nat
  | 0, c => c
  | n + 1, c => crcBits n (if c % 2 = 1 then c / 2 ^^^ 0x82F63B78 else c / 2)

/-- CRC-32C of bytes. -/
def crc32c (bs : List Byte) : Nat :=
  bs.foldl (fun c b => crcBits 8 (c ^^^ b.toNat)) 0xFFFFFFFF ^^^ 0xFFFFFFFF

/-! ## Ed25519 -/

/-- The field prime. -/
def edP : Nat := 2 ^ 255 - 19
/-- The group order. -/
def edL : Nat := 2 ^ 252 + 27742317777372353535851937790883648493

/-- b^e modulo the prime, over n bits of e from the top. -/
def edPow (b e : Nat) : Nat → Nat → Nat
  | 0, acc => acc
  | n + 1, acc =>
    let a := acc * acc % edP
    edPow b e n (if bitOf e n then a * b % edP else a)

/-- The inverse in the field. -/
def edInv (x : Nat) : Nat := edPow x (edP - 2) 255 1

/-- The curve's constant d. -/
def edD : Nat := (edP - 121665) * edInv 121666 % edP

/-- A square root of -1. -/
def edI : Nat := edPow 2 ((edP - 1) / 4) 255 1

/-- A point in extended coordinates. -/
structure EdPoint where
  x : Nat
  y : Nat
  z : Nat
  t : Nat
  deriving DecidableEq, Repr

/-- The neutral point. -/
def EdPoint.zero : EdPoint := { x := 0, y := 1, z := 1, t := 0 }

/-- The sum of two points. -/
def EdPoint.add (p q : EdPoint) : EdPoint :=
  let a := (p.y + edP - p.x) * (q.y + edP - q.x) % edP
  let b := (p.y + p.x) * (q.y + q.x) % edP
  let c := 2 * p.t * q.t % edP * edD % edP
  let d := 2 * p.z * q.z % edP
  let e := b + edP - a
  let f := d + edP - c
  let g := d + c
  let h := b + a
  { x := e * f % edP, y := g * h % edP, z := f * g % edP, t := e * h % edP }

/-- k times a point, over n bits of k from the top. -/
def EdPoint.mul (p : EdPoint) (k : Nat) : Nat → EdPoint → EdPoint
  | 0, acc => acc
  | n + 1, acc =>
    let d := acc.add acc
    p.mul k n (if bitOf k n then d.add p else d)

/-- The x coordinate of a y coordinate with a sign bit, if there is one (RFC 8032 5.1.3). -/
def edRecover (y : Nat) (sign : Bool) : Option Nat :=
  if edP ≤ y then none
  else
    let u := (y * y + edP - 1) % edP
    let v := (edD * (y * y % edP) + 1) % edP
    let w := u * edInv v % edP
    let r := edPow w ((edP + 3) / 8) 255 1
    let r := if r * r % edP = w then r else r * edI % edP
    if r * r % edP ≠ w then none
    else if r = 0 ∧ sign then none
    else some (if (r % 2 == 1) = sign then r else edP - r)

/-- The base point. -/
def edBase : EdPoint :=
  let y := 4 * edInv 5 % edP
  let x := (edRecover y false).getD 0
  { x := x, y := y, z := 1, t := x * y % edP }

/-- A point of its 32 bytes. -/
def edDecode (bs : List Byte) : Option EdPoint :=
  let n := leNat bs
  let y := n % 2 ^ 255
  (edRecover y (bitOf n 255)).map (fun x => { x := x, y := y, z := 1, t := x * y % edP })

/-- The 32 bytes of a point. -/
def EdPoint.encode (p : EdPoint) : List Byte :=
  let i := edInv p.z
  let x := p.x * i % edP
  let y := p.y * i % edP
  natLe 32 (y + x % 2 * 2 ^ 255)

/-- Two points are equal. -/
def EdPoint.same (p q : EdPoint) : Bool :=
  (p.x * q.z % edP == q.x * p.z % edP) && (p.y * q.z % edP == q.y * p.z % edP)

/-- The signature of 64 bytes is that of a message under a public key (RFC 8032 5.1.7). -/
def edVerify (key msg sig : List Byte) : Bool :=
  match edDecode key, edDecode (sig.take 32) with
  | some a, some r =>
    let s := leNat (sig.drop 32)
    let k := leNat (sha512 (sig.take 32 ++ key ++ msg)) % edL
    sig.length == 64 && key.length == 32 && decide (s < edL) &&
      (edBase.mul s 256 EdPoint.zero).same (r.add (a.mul k 256 EdPoint.zero))
  | _, _ => false

/-- The secret scalar of a seed (RFC 8032 5.1.5). -/
def edScalar (seed : List Byte) : Nat :=
  let h := leNat ((sha512 seed).take 32)
  h % 2 ^ 254 / 8 * 8 + 2 ^ 254

/-- The public key of a seed. -/
def edPublic (seed : List Byte) : List Byte := (edBase.mul (edScalar seed) 256 EdPoint.zero).encode

/-- The signature of a message with a seed's key (RFC 8032 5.1.6). -/
def edSign (seed msg : List Byte) : List Byte :=
  let pre := (sha512 seed).drop 32
  let r := leNat (sha512 (pre ++ msg)) % edL
  let rp := (edBase.mul r 256 EdPoint.zero).encode
  let k := leNat (sha512 (rp ++ edPublic seed ++ msg)) % edL
  rp ++ natLe 32 ((r + k * edScalar seed) % edL)

end Sys2Proof.Machine
end

