-- ==== Sys2Proof/Machine/Encoding.lean ====
section
/-! DEFINITION. The encoding tables: the raw fields of a 128-bit word (R55), what each opcode accepts (R116, R157, R197, R222, R233, R278, R303, R334, R373, R411, R443) and the install checks in the order of R67. -/

namespace Sys2Proof

/-- The fields of an instruction word as bits (R55). -/
structure Raw where
  opc   : BitVec 8
  fn    : BitVec 4
  ty    : BitVec 4
  ar    : BitVec 2
  np    : BitVec 2
  slot  : BitVec 12
  df0   : BitVec 2
  pt0   : BitVec 1
  ip0   : BitVec 20
  df1   : BitVec 2
  pt1   : BitVec 1
  ip1   : BitVec 20
  pri   : BitVec 2
  rm    : BitVec 3
  sat   : BitVec 1
  scope : BitVec 3
  mx    : BitVec 1
  qual  : BitVec 8
  imm   : BitVec 32
  deriving DecidableEq, Repr

/-- The fields of a word (R55, R62). -/
def Raw.ofWord (w : U128) : Raw :=
  { opc := field w 120 8, fn := field w 116 4, ty := field w 112 4, ar := field w 110 2, np := field w 108 2,
    slot := field w 96 12, df0 := field w 94 2, pt0 := field w 93 1, ip0 := field w 73 20,
    df1 := field w 71 2, pt1 := field w 70 1, ip1 := field w 50 20, pri := field w 48 2,
    rm := field w 45 3, sat := field w 44 1, scope := field w 41 3, mx := field w 40 1,
    qual := field w 32 8, imm := field w 0 32 }

/-- The word of its fields (R55, R62). -/
def Raw.toWord (r : Raw) : U128 :=
  r.opc ++ r.fn ++ r.ty ++ r.ar ++ r.np ++ r.slot ++ r.df0 ++ r.pt0 ++ r.ip0 ++ r.df1 ++ r.pt1 ++ r.ip1 ++
    r.pri ++ r.rm ++ r.sat ++ r.scope ++ r.mx ++ r.qual ++ r.imm

/-! ## Codes -/

/-- The type of a code (R81). -/
def EType.ofCode (c : BitVec 4) : EType :=
  match c.toNat with
  | 0 => .i64 | 1 => .n64 | 2 => .i32 | 3 => .n32 | 4 => .i16 | 5 => .i8 | 6 => .n8 | 7 => .i4
  | 8 => .f64 | 9 => .f32 | 10 => .bf16 | 11 => .f16 | 12 => .e4m3 | 13 => .e5m2 | 14 => .e2m3 | _ => .e2m1

/-- The code of a type (R81). -/
def EType.code : EType → BitVec 4
  | .i64 => 0 | .n64 => 1 | .i32 => 2 | .n32 => 3 | .i16 => 4 | .i8 => 5 | .n8 => 6 | .i4 => 7
  | .f64 => 8 | .f32 => 9 | .bf16 => 10 | .f16 => 11 | .e4m3 => 12 | .e5m2 => 13 | .e2m3 => 14 | .e2m1 => 15

/-- AR (R57). -/
def Arity.ofCode (c : BitVec 2) : Arity :=
  match c.toNat with
  | 0 => .monadic | 1 => .dyadic | 2 => .sticky | _ => .triadic

def Arity.code : Arity → BitVec 2
  | .monadic => 0 | .dyadic => 1 | .sticky => 2 | .triadic => 3

/-- NP (R58). -/
def NullPolicy.ofCode (c : BitVec 2) : NullPolicy :=
  match c.toNat with
  | 0 => .absorb | 1 => .pass | 2 => .identity | _ => .fault

def NullPolicy.code : NullPolicy → BitVec 2
  | .absorb => 0 | .pass => 1 | .identity => 2 | .fault => 3

/-- DF (R59). -/
def DestMode.ofCode (c : BitVec 2) : DestMode :=
  match c.toNat with
  | 0 => .same | 1 => .parent | 2 => .operand | _ => .discard

def DestMode.code : DestMode → BitVec 2
  | .same => 0 | .parent => 1 | .operand => 2 | .discard => 3

/-- RM (R62); 101 to 111 are illegal and are refused before this is read. -/
def Rounding.ofCode (c : BitVec 3) : Rounding :=
  match c.toNat with
  | 0 => .rne | 1 => .rtz | 2 => .rdn | 3 => .rup | _ => .sr

def Rounding.code : Rounding → BitVec 3
  | .rne => 0 | .rtz => 1 | .rdn => 2 | .rup => 3 | .sr => 4

/-- SCOPE (R62); 110 and 111 are illegal and are refused before this is read. -/
def Scope.ofCode (c : BitVec 3) : Scope :=
  match c.toNat with
  | 0 => .core | 1 => .quad | 2 => .stack | 3 => .pkg | 4 => .pod | _ => .sys

def Scope.code : Scope → BitVec 3
  | .core => 0 | .quad => 1 | .stack => 2 | .pkg => 3 | .pod => 4 | .sys => 5

/-- The width of a type in bits (R81). -/
def EType.width : EType → Nat
  | .i64 | .n64 | .f64 => 64
  | .i32 | .n32 | .f32 => 32
  | .i16 | .bf16 | .f16 => 16
  | .i8 | .n8 | .e4m3 | .e5m2 => 8
  | .e2m3 => 6
  | .i4 | .e2m1 => 4

/-- An I type (R81). -/
def EType.signed : EType → Bool
  | .i64 | .i32 | .i16 | .i8 | .i4 => true
  | _ => false

/-- A floating-point type (R81). -/
def EType.isFloat : EType → Bool
  | .f64 | .f32 | .bf16 | .f16 | .e4m3 | .e5m2 | .e2m3 | .e2m1 => true
  | _ => false

/-- Storage of an element in a tile, in bits (R81, R82). -/
def EType.storeBits : EType → Nat
  | .e2m3 => 8
  | t => t.width

/-! ## What each opcode accepts -/

/-- What the checks of R67 read of the object: the instruction count, the number of tile-shape records and the ids of its
templates (none stands for every id). -/
structure ObjInfo where
  ninstr : Nat
  shapes : Nat
  tmpls  : Option (List Nat)
  deriving DecidableEq, Repr

/-- The object declares the template. -/
def ObjInfo.hasTmpl (o : ObjInfo) (n : Nat) : Bool :=
  match o.tmpls with
  | none => true
  | some l => l.contains n

/-- An object that satisfies every check of R67 that reads the object, but for tape templates, of which it has all. -/
def ObjInfo.all : ObjInfo := { ninstr := 2 ^ 20, shapes := 4096, tmpls := none }

/-- What an opcode accepts, field by field. -/
structure OpRow where
  fn   : Raw → Bool
  ty   : Raw → Bool
  ar   : Raw → Bool
  np10 : Raw → Bool
  slot : Raw → Bool
  df   : ObjInfo → Raw → Bool
  xt   : Raw → Bool
  imm  : ObjInfo → Raw → Bool

namespace Enc

/-- Membership of a code in a range. -/
def within (lo hi x : Nat) : Bool := decide (lo ≤ x) && decide (x ≤ hi)

def fn0 (r : Raw) : Bool := r.fn.toNat == 0
def fnMax (n : Nat) (r : Raw) : Bool := decide (r.fn.toNat ≤ n)
def ty0 (r : Raw) : Bool := r.ty.toNat == 0
def tyIn (lo hi : Nat) (r : Raw) : Bool := within lo hi r.ty.toNat
def ar0 (r : Raw) : Bool := r.ar.toNat == 0
def ar01 (r : Raw) : Bool := r.ar.toNat == 1
def ar3 (r : Raw) : Bool := r.ar.toNat == 3
def ar12 (r : Raw) : Bool := r.ar.toNat == 1 || r.ar.toNat == 2
def ar012 (r : Raw) : Bool := decide (r.ar.toNat ≤ 2)
def ar0or1 (r : Raw) : Bool := decide (r.ar.toNat ≤ 1)
def no (_ : Raw) : Bool := false
def yes (_ : Raw) : Bool := true

/-- The SLOT limits of R57 where AR 00 names no slot. -/
def slotStd (r : Raw) : Bool :=
  match r.ar.toNat with
  | 0 => r.slot.toNat == 0
  | 3 => within 4 254 r.slot.toNat
  | _ => within 4 255 r.slot.toNat

/-- A named slot of AR 00 (R57). -/
def slotNamed (lo hi : Nat) (r : Raw) : Bool := within lo hi r.slot.toNat

/-- DF 00, 01 or 11. -/
def anyDf (d : BitVec 2) : Bool := d.toNat != 2
def dfAny (_ : ObjInfo) (r : Raw) : Bool := anyDf r.df0 && anyDf r.df1
/-- dest0 any, dest1 a discard. -/
def dfOne (_ : ObjInfo) (r : Raw) : Bool := anyDf r.df0 && r.df1.toNat == 3
/-- Both discarded. -/
def dfNone (_ : ObjInfo) (r : Raw) : Bool := r.df0.toNat == 3 && r.df1.toNat == 3
/-- dest0 any, dest1 same or parent. -/
def dfRet (_ : ObjInfo) (r : Raw) : Bool := anyDf r.df0 && decide (r.df1.toNat ≤ 1)

/-- The XT check of R62 and reason 8: every subfield that is not used is zero, and a used one is legal. -/
def xtUse (rm sat scope mx : Bool) (qual : Nat → Bool) (r : Raw) : Bool :=
  (if rm then decide (r.rm.toNat ≤ 4) else r.rm.toNat == 0) &&
  (if sat then true else r.sat.toNat == 0) &&
  (if scope then decide (r.scope.toNat ≤ 5) else r.scope.toNat == 0) &&
  (if mx then true else r.mx.toNat == 0) &&
  qual r.qual.toNat

def qual0 (q : Nat) : Bool := q == 0
def xt0 : Raw → Bool := xtUse false false false false qual0
/-- XT with QUAL bits at most q. -/
def xtQual (q : Nat → Bool) : Raw → Bool := xtUse false false false false q

def isSr (r : Raw) : Bool := r.rm.toNat == 4
/-- The format of the code is 16 bits or narrower (R62). -/
def narrow (c : Nat) : Bool := within 4 7 c || within 10 15 c
/-- RM and SAT of an operator whose result format is TY; RM is zero for an integer type (R233, R302). -/
def rmSat (sat : Bool) (r : Raw) : Bool :=
  (decide (r.ty.toNat ≥ 8) || r.rm.toNat == 0) && (!isSr r || narrow r.ty.toNat) &&
  xtUse true sat false false qual0 r

def imm0 (_ : ObjInfo) (r : Raw) : Bool := r.imm.toNat == 0
def immMax (n : Nat) (_ : ObjInfo) (r : Raw) : Bool := decide (r.imm.toNat ≤ n)
def immIn (lo hi : Nat) (_ : ObjInfo) (r : Raw) : Bool := within lo hi r.imm.toNat
def immAny (_ : ObjInfo) (_ : Raw) : Bool := true
/-- IMM is used under AR 00 and zero otherwise. -/
def immAr0 (p : Raw → Bool) (_ : ObjInfo) (r : Raw) : Bool := if ar0 r then p r else r.imm.toNat == 0

/-- The immediate of R219 lies in the range of the type (R84). -/
def immRange (r : Raw) : Bool :=
  let i := r.imm.toInt
  let n := r.imm.toNat
  match r.ty.toNat with
  | 4 => decide (-32768 ≤ i) && decide (i ≤ 32767)
  | 5 => decide (-128 ≤ i) && decide (i ≤ 127)
  | 6 => decide (n ≤ 255)
  | 7 => decide (-8 ≤ i) && decide (i ≤ 7)
  | _ => true

/-- The row of an integer operator with an R operand (R222). -/
def intRow (np : Bool) : OpRow :=
  { fn := fn0, ty := tyIn 0 7, ar := ar012, np10 := fun _ => np, slot := slotStd, df := dfAny, xt := xt0,
    imm := immAr0 immRange }

/-- The row of a shift (R222, R226). -/
def shiftRow : OpRow :=
  { intRow false with
      imm := immAr0 (fun r => decide (r.imm.toNat ≤ 255)) }

/-- The row of a monadic operator (R222). -/
def monRow (ty : Raw → Bool) : OpRow :=
  { fn := fn0, ty := ty, ar := ar0, np10 := no, slot := slotStd, df := dfAny, xt := xt0, imm := imm0 }

/-- The row of FADD and its like (R233). -/
def floatRow (np : Bool) : OpRow :=
  { fn := fn0, ty := tyIn 8 11, ar := ar12, np10 := fun _ => np, slot := slotStd, df := dfAny, xt := rmSat true,
    imm := imm0 }

/-- The row of an element-wise vector operator with a value operand (R303). -/
def vecRow (lo : Nat) (np : Bool) : OpRow :=
  { fn := fn0, ty := tyIn lo 11, ar := ar12, np10 := fun _ => np, slot := slotStd, df := dfAny,
    xt := rmSat true, imm := imm0 }

/-- QUAL of a vector unary form: PIN or POUT with AR 01, never both (R300, R303). -/
def qualPort (r : Raw) (q : Nat) : Bool := q == 0 || (ar01 r && (q == 128 || q == 64))

/-- The row of a unary vector operator (R303). -/
def unaryRow (ty : Raw → Bool) (rm : Bool) : OpRow :=
  { fn := fn0, ty := ty, ar := ar0or1, np10 := no, slot := slotStd, df := dfAny,
    xt := fun r => (!isSr r || narrow r.ty.toNat) && xtUse rm true false false (qualPort r) r, imm := imm0 }

/-- The row of a synchronisation operator (R372, R373). -/
def syncRow (fn ar : Raw → Bool) (xt : Raw → Bool) (imm : ObjInfo → Raw → Bool) : OpRow :=
  { fn := fn, ty := ty0, ar := ar, np10 := no, slot := slotStd, df := dfAny, xt := xt, imm := imm }

def xtScope : Raw → Bool := xtUse false false true false qual0
/-- 0-6 and 8-11, the types of a memory element. -/
def tyMem (r : Raw) : Bool := tyIn 0 6 r || tyIn 8 11 r
/-- BAR and COLL: channel in [3:0], N in [23:4], at least 1 (R373). -/
def immBar (_ : ObjInfo) (r : Raw) : Bool := within 16 0xFFFFFF r.imm.toNat

/-- XT of ATOM and RED (R373). -/
def xtAtom (r : Raw) : Bool :=
  (r.fn.toNat == 7 || r.rm.toNat == 0) && (r.fn.toNat == 0 || r.sat.toNat == 0) && !isSr r &&
  (r.qual.toNat == 1 || r.scope.toNat == 0) && xtUse true true true false (fun q => decide (q ≤ 1)) r

/-- TY of ATOM and RED by FN (R373). -/
def tyAtom (r : Raw) : Bool :=
  if r.fn.toNat ≤ 5 then tyIn 0 6 r else if r.fn.toNat == 6 then tyMem r else tyIn 8 11 r

/-- The row of a launch, tape, time or system operator. -/
def sysRow (fn ar slot : Raw → Bool) (df : ObjInfo → Raw → Bool) (imm : ObjInfo → Raw → Bool) : OpRow :=
  { fn := fn, ty := ty0, ar := ar, np10 := no, slot := slot, df := df, xt := xt0, imm := imm }

/-- The template named by IMM[15:0] is declared in the object (R162, R163). -/
def immTmpl (o : ObjInfo) (r : Raw) : Bool := decide (r.imm.toNat < 65536) && o.hasTmpl r.imm.toNat

/-- The context CSRs (R441). -/
def csrContext (n : Nat) : Bool := within 0 4 n || within 0x10 0x19 n
/-- The CSRs that exist (R441). -/
def csrKnown (n : Nat) : Bool := csrContext n || within 0x100 0x106 n || n == 0x200
/-- The CSRs that have a writer (R441). -/
def csrWritable (n : Nat) : Bool := n == 0 || n == 1 || n == 4 || within 0x10 0x19 n || n == 0x200

/-- A type that a matrix operand may have (R334). -/
def tyMat (r : Raw) : Bool := r.ty.toNat == 5 || tyIn 9 15 r
/-- An output type of the matrix array (R334). -/
def outMat (c : Nat) : Bool := c == 2 || within 8 15 c
/-- MX only with TY 12-15 (R334). -/
def mxOk (r : Raw) : Bool := r.mx.toNat == 0 || tyIn 12 15 r

end Enc

open Enc in
/-- What an opcode accepts, or none where the opcode is unassigned (R64). -/
def opRow (opc : Nat) : Option OpRow :=
  match opc with
  -- control (R197)
  | 0x00 => some (sysRow fn0 ar0 slotStd dfAny imm0)
  | 0x01 => some (sysRow fn0 ar0 slotStd
      (fun o r => decide (r.df0.toNat ≤ 1) && anyDf r.df1 &&
        decide (r.ip0.toNat + (r.imm.toNat % 16) ≤ o.ninstr)) (immIn 1 8))
  | 0x02 | 0x03 | 0x11 => some (sysRow fn0 ar12 slotStd dfAny imm0)
  | 0x04 => some (sysRow fn0 ar01 slotStd dfAny imm0)
  | 0x05 | 0x0C | 0x17 => some (sysRow fn0 ar0 slotStd dfNone imm0)
  | 0x06 => some { sysRow fn0 ar0 slotStd dfRet imm0 with
      xt := xtQual (fun q => decide (q % 16 ≤ 5) && decide (q / 16 ≤ 4)) }
  | 0x07 => some (sysRow (fnMax 1) ar0 slotStd dfNone imm0)
  | 0x08 => some (sysRow fn0 ar0 (slotNamed 4 255) dfAny (immMax 1))
  | 0x09 => some (sysRow fn0 ar0 (slotNamed 4 255) dfAny imm0)
  | 0x0A => some (sysRow (fnMax 1) ar0 (fun r => if fn0 r then slotNamed 0 255 r else slotStd r) dfAny imm0)
  | 0x0B => some { sysRow (fnMax 1) ar0 slotStd
      (fun _ r => (if fn0 r then r.df0.toNat == 0 else r.df0.toNat == 3) && decide (r.df1.toNat ≤ 1))
      (fun _ r => !fn0 r || r.imm.toNat == 0) with
      xt := fun r => xtQual (fun q => decide (q % 16 ≤ 5) && (if fn0 r then decide (q / 16 ≤ 4) else q / 16 == 0)) r }
  | 0x0D => some (sysRow fn0 ar12 slotStd (fun _ r => r.df0.toNat == 2) imm0)
  | 0x0E => some (sysRow (fnMax 1) ar0 slotStd dfAny (fun _ r => if fn0 r then r.imm.toNat == 0 else decide (r.imm.toNat ≤ 255)))
  | 0x0F => some (sysRow (fnMax 1) ar0 slotStd dfAny imm0)
  | 0x10 => some { sysRow (fnMax 5) ar0 (slotNamed 4 253) dfAny imm0 with
      ty := fun r => ty0 r || (within 1 3 r.fn.toNat && tyIn 1 1 r), np10 := yes }
  | 0x12 => some (sysRow fn0 ar01 (slotNamed 4 254) dfAny imm0)
  | 0x13 => some { sysRow fn0 ar0 (slotNamed 4 255) dfAny (immIn 1 4095) with
      xt := xtQual (fun q => decide (q ≤ 1)) }
  | 0x14 | 0x15 => some (sysRow (fnMax 1) ar0 slotStd dfAny imm0)
  | 0x16 => some { sysRow fn0 ar01 slotStd dfAny
      (fun _ r => if r.qual.toNat == 1 then r.imm.toNat == 0 else decide (r.imm.toNat ≤ 15)) with
      xt := xtQual (fun q => decide (q ≤ 1)) }
  -- scalar integer (R222)
  | 0x20 => some {
      fn := fnMax 1, ty := fun r => if fn0 r then tyIn 0 7 r else tyIn 0 1 r, ar := ar0, np10 := no,
      slot := slotStd, df := dfAny, xt := xt0, imm := fun _ r => !fn0 r || immRange r }
  | 0x21 | 0x22 | 0x23 | 0x27 | 0x28 | 0x29 | 0x2A | 0x2F | 0x30 => some (intRow true)
  | 0x24 | 0x25 | 0x26 => some (intRow false)
  | 0x2B | 0x2C | 0x2D | 0x2E => some shiftRow
  | 0x31 => some { monRow (fun r => ty0 r || tyIn 2 2 r || tyIn 4 5 r || tyIn 7 7 r) with
      xt := xtUse false true false false qual0 }
  | 0x32 => some { monRow (tyIn 0 7) with
      xt := xtUse false true false false qual0 }
  | 0x33 => some { intRow true with
      fn := fnMax 1 }
  | 0x34 => some { intRow false with
      fn := fnMax 6 }
  | 0x35 => some { monRow ty0 with
      ar := ar3 }
  | 0x36 | 0x37 | 0x38 => some (monRow (tyIn 0 7))
  | 0x39 => some { monRow ty0 with
      fn := fnMax 1, imm := fun _ r =>
      decide (r.imm.toNat < 0x4000) && r.imm.toNat / 64 % 4 == 0 &&
      decide (r.imm.toNat % 64 + (r.imm.toNat / 256 % 64 + 1) ≤ 64) }
  | 0x3A => some { monRow ty0 with
      ar := ar12, imm := fun _ r =>
      decide (r.imm.toNat < 0x4000) && r.imm.toNat / 64 % 4 == 0 &&
      decide (r.imm.toNat % 64 + (r.imm.toNat / 256 % 64 + 1) ≤ 64) }
  | 0x3B | 0x3C => some (monRow (tyIn 2 7))
  -- scalar float (R233)
  | 0x40 | 0x41 | 0x42 => some (floatRow true)
  | 0x43 => some { floatRow false with
      ar := ar3 }
  | 0x44 => some (floatRow false)
  | 0x45 => some { floatRow false with
      ar := ar0, xt := rmSat false }
  | 0x46 | 0x47 => some { floatRow true with
      xt := xt0 }
  | 0x48 => some { floatRow false with
      fn := fnMax 7, xt := xt0 }
  | 0x49 => some {
      fn := fun r => decide (r.fn.toNat ≤ 7) && r.fn.toNat + 8 != r.ty.toNat, ty := tyIn 8 15,
      ar := ar0, np10 := no, slot := slotStd, df := dfAny, xt := rmSat true, imm := imm0 }
  | 0x4A => some {
      fn := fnMax 7, ty := tyIn 0 7, ar := ar0, np10 := no, slot := slotStd, df := dfAny,
      xt := fun r => (!isSr r || narrow r.ty.toNat) && xtUse true false false false qual0 r, imm := imm0 }
  | 0x4B => some {
      fn := fnMax 7, ty := tyIn 8 15, ar := ar0, np10 := no, slot := slotStd, df := dfAny,
      xt := rmSat true, imm := imm0 }
  | 0x4C | 0x4D | 0x4E => some (monRow (tyIn 8 15))
  -- tile management (R278)
  | 0x50 => some { sysRow (fnMax 1) ar0 slotStd dfAny (fun o r => decide (r.imm.toNat < 4096) && decide (r.imm.toNat < o.shapes)) with
      xt := xtUse false false false true (fun q => decide (q ≤ 1)) }
  | 0x51 => some (sysRow fn0 ar0 slotStd dfOne imm0)
  | 0x52 => some (sysRow fn0 ar0 slotStd dfAny imm0)
  | 0x53 => some (sysRow fn0 ar012 slotStd dfAny (immAr0 (fun r => decide (r.imm.toNat < 0x1000000))))
  | 0x54 => some (sysRow (fnMax 4) ar0 slotStd dfAny imm0)
  | 0x55 => some { sysRow fn0 ar0 slotStd dfOne (fun o r => decide (r.imm.toNat < 4096) && decide (r.imm.toNat < o.shapes)) with
      xt := xtUse false false false true qual0 }
  | 0x56 => some (sysRow fn0 ar012 slotStd dfAny (immAr0 yes))
  | 0x57 => some { sysRow fn0 ar01 slotStd dfAny imm0 with
      xt := xtUse false false false true qual0 }
  -- memory and streams (R278, R287)
  | 0x60 => some { sysRow fn0 ar0or1 slotStd dfAny (immAr0 yes) with
      xt := xtQual (fun q => within 1 7 q) }
  | 0x61 => some { sysRow (fnMax 1) (fun r => if fn0 r then ar3 r else ar0 r) slotStd dfOne imm0 with
      xt := fun r => xtQual (fun q => if fn0 r then within 1 7 q else q == 0) r }
  | 0x62 => some { sysRow (fnMax 2) (fun r => if r.fn.toNat == 2 then ar01 r else ar01 r || ar3 r) slotStd dfAny immAny with
      xt := fun r =>
        let t8 := bitAt r.qual 0; let t16 := bitAt r.qual 1; let vfy := bitAt r.qual 2; let np := bitAt r.qual 3
        let fill := r.qual.toNat / 16
        xtUse false false false true (fun q => decide (q < 64)) r &&
        !(t8 && t16) && (np || fill == 0) && !((t8 || t16) && r.mx.toNat == 1) &&
        (!vfy || (r.fn.toNat == 1 && ar3 r)) && (r.fn.toNat != 2 || !(t8 || t16 || np)) }
  | 0x63 => some { sysRow (fnMax 2) (fun r => ar01 r || (fn0 r && ar3 r)) slotStd dfAny immAny with
      xt := xtUse false false false true qual0 }
  | 0x64 => some { sysRow fn0 (fun r => ar0or1 r || ar3 r) slotStd
      (fun _ r => (anyDf r.df0 || ar3 r) && anyDf r.df1) (immAr0 yes) with
      ty := tyMem, xt := xtQual (fun q => q == 0 || q == 8) }
  | 0x65 => some { sysRow fn0 (fun r => ar01 r || ar3 r) slotStd dfOne (fun _ r => ar01 r || r.imm.toNat == 0) with
      ty := tyMem }
  | 0x66 | 0x67 => some { sysRow (fnMax 1) ar3 slotStd dfAny imm0 with
      xt := xtQual (fun q => decide (q ≤ 4)) }
  | 0x68 => some (sysRow fn0 ar0 (slotNamed 4 248) dfOne (immMax 15))
  | 0x69 => some { sysRow fn0 ar0 slotStd dfOne (immMax 15) with
      xt := xtQual (fun q => decide (q ≤ 1)) }
  | 0x6A => some (sysRow fn0 ar0 slotStd dfOne (immMax 15))
  | 0x6B => some (sysRow (fnMax 4) (fun r => if within 2 3 r.fn.toNat then ar01 r else ar0 r) slotStd dfOne
      (fun _ r => match r.fn.toNat with
        | 0 => decide (r.imm.toNat ≤ 15)
        | 1 => decide (r.imm.toNat ≤ 255)
        | 3 => decide (1 ≤ r.imm.toNat)
        | _ => r.imm.toNat == 0))
  | 0x6C => some (sysRow fn0 ar0 slotStd dfAny (immIn 1 0x1FFFF))
  | 0x6D => some (sysRow fn0 ar0 (slotNamed 4 254) dfRet (fun _ r => within 1 8 (r.imm.toNat / 16)))
  | 0x6E => some (sysRow fn0 ar0 (slotNamed 4 254) dfOne (immIn 1 8))
  | 0x6F => some (sysRow (fnMax 1) (fun r => if fn0 r then ar0 r else ar01 r) slotStd
      (fun _ r => anyDf r.df0 && (if fn0 r then anyDf r.df1 else r.df1.toNat == 3)) imm0)
  | 0x70 => some (sysRow fn0 ar0 (slotNamed 4 252) dfOne imm0)
  | 0x71 => some (sysRow fn0 ar0 slotStd dfOne imm0)
  -- vector (R303)
  | 0x80 | 0x81 | 0x82 => some (vecRow 0 true)
  | 0x83 => some { vecRow 8 false with
      ar := ar3 }
  | 0x84 => some (vecRow 8 true)
  | 0x85 | 0x86 => some { vecRow 0 true with
      xt := xt0 }
  | 0x87 => some (unaryRow (fun r => ty0 r || tyIn 2 2 r || tyIn 4 5 r || tyIn 7 11 r) false)
  | 0x88 => some (unaryRow (tyIn 0 11) false)
  | 0x89 | 0x8A | 0x8E | 0x8F => some (unaryRow (tyIn 9 11) true)
  | 0x8B | 0x8C | 0x8D => some (unaryRow (tyIn 8 11) true)
  | 0x90 => some {
      fn := fun r => r.fn != r.ty, ty := yes, ar := ar01, np10 := no, slot := slotStd, df := dfAny,
      xt := fun r => (r.rm.toNat == 0 || decide (r.ty.toNat ≥ 8) || decide (r.fn.toNat ≥ 8)) &&
        (!isSr r || narrow r.ty.toNat) && xtUse true true false false (qualPort r) r, imm := imm0 }
  | 0x91 => some {
      fn := fun r => within 9 11 r.fn.toNat, ty := tyIn 12 15, ar := ar01, np10 := no, slot := slotStd,
      df := dfAny, xt := fun r => r.mx.toNat == 1 && xtUse true false false true qual0 r, imm := imm0 }
  | 0x92 => some {
      fn := fun r => decide (r.fn.toNat ≥ 12), ty := tyIn 9 11, ar := ar01, np10 := no, slot := slotStd,
      df := dfAny, xt := fun r => r.mx.toNat == 1 && (!isSr r || narrow r.ty.toNat) && xtUse true true false true qual0 r,
      imm := imm0 }
  | 0x93 => some { vecRow 0 false with
      fn := fnMax 7, ty := fun r => tyIn 0 11 r && (decide (r.fn.toNat ≤ 6) || tyIn 8 11 r), xt := xt0 }
  | 0x94 => some { vecRow 0 false with
      ty := yes, ar := ar3, xt := xt0 }
  | 0x95 => some { vecRow 0 false with
      ty := fun r => tyIn 0 4 r || tyIn 8 11 r, xt := fun r =>
      (decide (r.ty.toNat ≥ 8) || r.rm.toNat == 0) && (!isSr r || narrow r.ty.toNat) &&
      xtUse true true false false (fun q => q == 0 || q == 1 || q == 128 || q == 129) r }
  | 0x96 => some { vecRow 0 false with
      xt := xtQual (fun q => q == 0 || q == 1 || q == 128 || q == 129) }
  | 0x97 => some { vecRow 0 false with
      ty := fun r => tyIn 0 4 r || tyIn 8 11 r, ar := ar0or1 }
  | 0x98 => some { vecRow 0 false with
      fn := fnMax 1, ty := yes, xt := xt0 }
  | 0x99 => some { vecRow 0 false with
      fn := fnMax 5, ty := fun r => tyIn 8 11 r || (tyIn 0 4 r && r.fn.toNat != 3),
      xt := fun r => rmSat true r &&
      (decide (r.fn.toNat ≤ 3) || (r.rm.toNat == 0 && (decide (r.ty.toNat ≥ 8) || r.sat.toNat == 0))) }
  | 0x9A | 0x9C => some { vecRow 0 false with
      ty := fun r => tyIn 0 6 r || tyIn 8 14 r, ar := ar01, xt := xt0 }
  | 0x9B => some { vecRow 0 false with
      fn := fnMax 2, ar := ar0or1, imm := immAr0 yes }
  | 0x9D => some { vecRow 0 true with
      fn := fnMax 3, ty := tyIn 0 7, xt := xt0 }
  | 0x9E => some { vecRow 0 false with
      fn := fnMax 3, ty := tyIn 0 7, xt := xt0 }
  -- matrix (R334)
  | 0xA0 => some { monRow tyMat with
      xt := fun r => mxOk r && xtUse false false false true qual0 r }
  | 0xA1 => some (monRow ty0)
  | 0xA2 => some { monRow ty0 with
      fn := fnMax 1 }
  | 0xA3 => some { monRow tyMat with
      fn := fnMax 1, ar := ar12, xt := fun r => mxOk r &&
      (if fn0 r then xtUse false false false true (fun q => q == 1 || q == 2) r
       else (!isSr r || within 10 15 (r.qual.toNat / 4)) &&
         xtUse true true false true (fun q => q % 4 == 0 && outMat (q / 4)) r) }
  | 0xA4 => some { monRow tyMat with
      ar := ar12, xt := fun r => mxOk r && xtUse false false false true (fun q => q == 1 || q == 2) r }
  | 0xA5 => some { monRow tyMat with
      ar := ar12, imm := immMax 7, xt := fun r => mxOk r && xtUse false false false true (fun q => q == 1 || q == 2) r }
  | 0xA6 => some { monRow ty0 with
      fn := fnMax 1 }
  | 0xA7 => some { monRow (fun r => outMat r.ty.toNat) with
      ar := ar12, xt := fun r =>
      (!isSr r || tyIn 10 15 r) && xtUse true true false false qual0 r }
  | 0xA8 => some { monRow (fun r => outMat r.ty.toNat) with
      fn := fnMax 1, ar := ar12, xt := fun r =>
      (!isSr r || tyIn 10 15 r) && xtUse true true false false qual0 r }
  | 0xA9 => some (monRow (fun r => tyIn 2 2 r || tyIn 9 9 r))
  | 0xAA => some { monRow (tyIn 9 9) with
      ar := ar12 }
  | 0xAB => some { monRow ty0 with
      fn := fnMax 1 }
  -- synchronisation (R373)
  | 0xB0 => some (syncRow fn0 ar12 xt0 imm0)
  | 0xB1 => some (syncRow fn0 ar012 xt0 (immAr0 (fun r => within 1 0x7FFFFFFF r.imm.toNat)))
  | 0xB2 => some (syncRow (fnMax 2) (fun r => if fn0 r then ar0 r else ar12 r) xtScope imm0)
  | 0xB3 => some (syncRow fn0 ar012 xt0 (immAr0 (fun r => decide (r.imm.toNat ≤ 15))))
  | 0xB4 => some (syncRow fn0 ar0 xt0 imm0)
  | 0xB5 => some (syncRow fn0 ar0 xtScope immBar)
  | 0xB6 => some (syncRow (fnMax 1) (fun r => if fn0 r then ar12 r else ar0 r) xt0 imm0)
  | 0xB7 => some { syncRow (fnMax 9) ar3 xtAtom imm0 with
      ty := tyAtom }
  | 0xB8 => some { syncRow (fun r => fnMax 9 r && r.fn.toNat != 6) ar3 xtAtom imm0 with
      ty := tyAtom }
  | 0xB9 => some { syncRow fn0 ar3 (fun r => (r.qual.toNat == 1 || r.scope.toNat == 0) &&
      xtUse false false true false (fun q => decide (q ≤ 1)) r) imm0 with ty := fun r => tyIn 2 6 r || tyIn 9 11 r }
  | 0xBA => some (syncRow fn0 ar12 xt0 imm0)
  | 0xBB => some (syncRow fn0 ar0 xtScope imm0)
  | 0xBC => some (syncRow fn0 ar0 xtScope imm0)
  | 0xBD => some { syncRow fn0 ar0or1 xtScope (immAr0 yes) with
      ty := tyMem }
  | 0xBE => some { syncRow fn0 (fun r => ar01 r || ar3 r) xtScope (fun _ r => ar01 r || r.imm.toNat == 0) with
      ty := tyMem }
  | 0xBF => some { syncRow (fnMax 5) ar12 (fun r =>
      ((fn0 r && decide (r.ty.toNat ≥ 8)) || r.rm.toNat == 0) && ((fn0 r && decide (r.ty.toNat ≤ 7)) || r.sat.toNat == 0) &&
      !isSr r && xtUse true true true false qual0 r) immBar with
      ty := fun r => if r.fn.toNat ≤ 2 then tyMem r else if r.fn.toNat ≤ 4 then tyIn 0 6 r else true }
  -- tape (R157)
  | 0xC0 | 0xC2 => some (sysRow fn0 ar0 (slotNamed 4 248) dfRet imm0)
  | 0xC1 => some (sysRow fn0 ar0 slotStd dfOne imm0)
  | 0xC3 => some (sysRow fn0 ar0 slotStd dfOne (fun o r => decide (r.imm.toNat % 2 ^ 20 < o.ninstr) &&
      decide (r.imm.toNat / 2 ^ 20 ≤ 4)))
  | 0xC4 => some (sysRow (fnMax 1) ar0 slotStd dfOne (fun _ r => if fn0 r then decide (r.imm.toNat ≤ 5) else r.imm.toNat == 0))
  | 0xC5 => some (sysRow (fnMax 1) ar0 slotStd dfOne (fun o r => r.imm.toNat == 65536 || immTmpl o r))
  | 0xC6 => some (sysRow (fnMax 2) ar0 slotStd dfOne immTmpl)
  -- time (R411)
  | 0xC8 => some (sysRow (fnMax 1) ar0 slotStd dfAny imm0)
  | 0xC9 => some (sysRow fn0 (fun r => ar12 r || ar3 r) slotStd dfAny (fun _ r => ar12 r || r.imm.toNat == 0))
  | 0xCA => some { sysRow (fnMax 1) ar12 slotStd dfAny imm0 with
      xt := xtQual (fun q => decide (q ≤ 1)) }
  | 0xCB => some (sysRow (fnMax 1) ar0 slotStd dfAny imm0)
  -- launch (R116)
  | 0xD0 => some (sysRow fn0 ar0 (slotNamed 4 248) dfRet imm0)
  | 0xD1 => some (sysRow fn0 ar0 (slotNamed 4 248) dfOne imm0)
  | 0xD2 => some (sysRow fn0 ar0 slotStd dfAny imm0)
  | 0xD3 => some (sysRow fn0 ar01 slotStd dfOne imm0)
  | 0xD4 => some (sysRow fn0 ar0or1 slotStd dfOne (immAr0 yes))
  | 0xD5 => some (sysRow (fnMax 3) ar0 slotStd dfOne imm0)
  | 0xD6 => some (sysRow (fnMax 1) (fun r => if fn0 r then ar0or1 r else ar0 r) slotStd dfOne
      (fun _ r => (fn0 r && ar0 r) || r.imm.toNat == 0))
  | 0xD7 => some (sysRow (fnMax 4) ar0 slotStd dfOne imm0)
  -- system (R443)
  | 0xE0 => some (sysRow fn0 ar0 slotStd dfAny immAny)
  | 0xE1 => some (sysRow fn0 ar0 slotStd dfOne (immIn 32 63))
  | 0xE2 => some (sysRow (fnMax 1) ar0 slotStd dfOne (immMax 63))
  | 0xE3 => some (sysRow (fnMax 7) ar012 slotStd dfAny imm0)
  | 0xE4 => some (sysRow (fnMax 1) ar0 slotStd dfOne imm0)
  | 0xE5 | 0xE6 => some (sysRow fn0 ar0 slotStd dfOne imm0)
  | 0xE7 => some (sysRow fn0 ar12 slotStd dfOne imm0)
  | 0xE8 => some (sysRow fn0 ar0 slotStd dfAny (fun _ r => csrKnown (r.imm.toNat % 4096) &&
      (r.imm.toNat / 4096 == 0 || (r.imm.toNat / 4096 == 1 && csrContext (r.imm.toNat % 4096)))))
  | 0xE9 => some (sysRow fn0 ar012 slotStd dfOne (fun _ r => csrWritable r.imm.toNat))
  | 0xEA => some (sysRow (fnMax 7) ar0 slotStd dfAny imm0)
  | 0xEB => some (sysRow (fnMax 6) (fun r => if within 4 5 r.fn.toNat then ar0 r else if r.fn.toNat == 3 then ar3 r else ar12 r) slotStd dfOne imm0)
  | 0xEC => some (sysRow (fnMax 7) ar0 slotStd dfAny imm0)
  | 0xED => some (sysRow (fnMax 1) ar0 slotStd dfOne imm0)
  | _ => none

/-- NP is accepted (R58, R197): 10 only with an identity; NULLSET and ISNULL accept 00 only. -/
def npOk (row : OpRow) (r : Raw) : Bool :=
  if r.opc.toNat == 0x14 || r.opc.toNat == 0x15 then r.np.toNat == 0
  else r.np.toNat != 2 || row.np10 r

/-- The destination checks of reason 7: a discarding destination has PT = 0 and IP = 0, and a same-frame
destination lies below the instruction count (R59, R67). -/
def destOk (o : ObjInfo) (df : BitVec 2) (pt : BitVec 1) (ip : BitVec 20) : Bool :=
  match df.toNat with
  | 3 => pt.toNat == 0 && ip.toNat == 0
  | 0 => decide (ip.toNat < o.ninstr)
  | _ => true

/-- Why install refuses a word: the checks of R67, reasons 1 to 10 in this order. -/
inductive Reject where
  | opcode | function | type | arity | nullPolicy | slot | destination | modifier | immediate | padding
  deriving DecidableEq, Repr

/-- The reason code (R67). -/
def Reject.code : Reject → Nat
  | .opcode => 1 | .function => 2 | .type => 3 | .arity => 4 | .nullPolicy => 5 | .slot => 6
  | .destination => 7 | .modifier => 8 | .immediate => 9 | .padding => 10

/-- What a word decodes to. -/
inductive Decoded where
  | ok (i : Instr)
  | reject (r : Reject)
  deriving DecidableEq, Repr

/-- The first check of R67 (reasons 1 to 9) that a word fails, or none. -/
def installReason (o : ObjInfo) (r : Raw) : Option Reject :=
  match opRow r.opc.toNat with
  | none => some .opcode
  | some row =>
    if !row.fn r then some .function
    else if !row.ty r then some .type
    else if !row.ar r then some .arity
    else if !npOk row r then some .nullPolicy
    else if !row.slot r then some .slot
    else if !(row.df o r && destOk o r.df0 r.pt0 r.ip0 && destOk o r.df1 r.pt1 r.ip1) then some .destination
    else if !row.xt r then some .modifier
    else if !row.imm o r then some .immediate
    else none

/-! ## Fields, opcodes and constructors -/

/-- A destination of its bits (R59). -/
def Dest.ofBits (df : BitVec 2) (pt : BitVec 1) (ip : BitVec 20) : Dest :=
  { mode := DestMode.ofCode df, port := pt == 1, ip := ip }

/-- The named fields of a word (R55). -/
def Raw.fields (r : Raw) : Fields :=
  { fn := r.fn, ty := EType.ofCode r.ty, ar := Arity.ofCode r.ar, np := NullPolicy.ofCode r.np, slot := r.slot,
    d0 := Dest.ofBits r.df0 r.pt0 r.ip0, d1 := Dest.ofBits r.df1 r.pt1 r.ip1, pri := r.pri,
    rm := Rounding.ofCode r.rm, sat := r.sat == 1, scope := Scope.ofCode r.scope, mx := r.mx == 1,
    qual := r.qual, imm := r.imm }

/-- The bits of an opcode and named fields (R55). -/
def Raw.ofFields (opc : Nat) (f : Fields) : Raw :=
  { opc := BitVec.ofNat 8 opc, fn := f.fn, ty := f.ty.code, ar := f.ar.code, np := f.np.code, slot := f.slot,
    df0 := f.d0.mode.code, pt0 := bit1 f.d0.port, ip0 := f.d0.ip,
    df1 := f.d1.mode.code, pt1 := bit1 f.d1.port, ip1 := f.d1.ip, pri := f.pri, rm := f.rm.code,
    sat := bit1 f.sat, scope := f.scope.code, mx := bit1 f.mx, qual := f.qual, imm := f.imm }

/-- The operator of an opcode and FN with its fields (R64). -/
def mkOp (opc fn : Nat) (f : Fields) : Option Instr :=
  match opc with
  | 0x00 => some (.nop f)
  | 0x01 => some (.fork f)
  | 0x02 => some (.steer f)
  | 0x03 => some (.gate f)
  | 0x04 => some (.sync f)
  | 0x05 => some (.drop f)
  | 0x06 => some (.falloc f)
  | 0x07 => if fn = 0 then some (.ffreeFp f) else if fn = 1 then some (.ffreeSelf f) else none
  | 0x08 => some (.fstore f)
  | 0x09 => some (.fstick f)
  | 0x0A => if fn = 0 then some (.freadSlot f) else if fn = 1 then some (.freadSelf f) else none
  | 0x0B => if fn = 0 then some (.call f) else if fn = 1 then some (.callExt f) else none
  | 0x0C => some (.ret f)
  | 0x0D => some (.sendto f)
  | 0x0E => if fn = 0 then some (.iterNext f) else if fn = 1 then some (.iterSet f) else none
  | 0x0F => if fn = 0 then some (.punctMark f) else if fn = 1 then some (.punctAfter f) else none
  | 0x10 => some (.rjoin f)
  | 0x11 => some (.filter f)
  | 0x12 => some (.compact f)
  | 0x13 => some (.ordmerge f)
  | 0x14 => if fn = 0 then some (.nullsetAll f) else if fn = 1 then some (.nullsetIfz f) else none
  | 0x15 => if fn = 0 then some (.isnullNull f) else if fn = 1 then some (.isnullKind f) else none
  | 0x16 => some (.switch f)
  | 0x17 => some (.endOp f)
  | 0x20 => if fn = 0 then some (.moviLo f) else if fn = 1 then some (.moviHi f) else none
  | 0x21 => some (.add f)
  | 0x22 => some (.sub f)
  | 0x23 => some (.mul f)
  | 0x24 => some (.mulh f)
  | 0x25 => some (.div f)
  | 0x26 => some (.rem f)
  | 0x27 => some (.and f)
  | 0x28 => some (.or f)
  | 0x29 => some (.xor f)
  | 0x2A => some (.andn f)
  | 0x2B => some (.shl f)
  | 0x2C => some (.shr f)
  | 0x2D => some (.sar f)
  | 0x2E => some (.rol f)
  | 0x2F => some (.min f)
  | 0x30 => some (.max f)
  | 0x31 => some (.abs f)
  | 0x32 => some (.neg f)
  | 0x33 => if fn = 0 then some (.addsatAdd f) else if fn = 1 then some (.addsatSub f) else none
  | 0x34 => some (.cmp f)
  | 0x35 => some (.sel f)
  | 0x36 => some (.clz f)
  | 0x37 => some (.ctz f)
  | 0x38 => some (.popc f)
  | 0x39 => some (.bfx f)
  | 0x3A => some (.bfi f)
  | 0x3B => some (.sext f)
  | 0x3C => some (.zext f)
  | 0x40 => some (.fadd f)
  | 0x41 => some (.fsub f)
  | 0x42 => some (.fmul f)
  | 0x43 => some (.ffma f)
  | 0x44 => some (.fdiv f)
  | 0x45 => some (.fsqrt f)
  | 0x46 => some (.fmin f)
  | 0x47 => some (.fmax f)
  | 0x48 => some (.fcmp f)
  | 0x49 => some (.fcvt f)
  | 0x4A => some (.ftoi f)
  | 0x4B => some (.itof f)
  | 0x4C => some (.fabs f)
  | 0x4D => some (.fneg f)
  | 0x4E => some (.fclass f)
  | 0x50 => if fn = 0 then some (.tnewHere f) else if fn = 1 then some (.tnewAt f) else none
  | 0x51 => some (.trel f)
  | 0x52 => some (.tdup f)
  | 0x53 => some (.tview f)
  | 0x54 => some (.tinfo f)
  | 0x55 => some (.tlayout f)
  | 0x56 => some (.tfill f)
  | 0x57 => some (.tcopy f)
  | 0x60 => some (.xlate f)
  | 0x61 => if fn = 0 then some (.capcutCut f) else if fn = 1 then some (.capcutFree f) else none
  | 0x62 => if fn = 0 then some (.fetchGlb f) else if fn = 1 then some (.fetchEp f) else if fn = 2 then some (.fetchPort f) else none
  | 0x63 => if fn = 0 then some (.putGlb f) else if fn = 1 then some (.putEp f) else if fn = 2 then some (.putPort f) else none
  | 0x64 => some (.ldg f)
  | 0x65 => some (.stg f)
  | 0x66 => some (.ldv f)
  | 0x67 => some (.stv f)
  | 0x68 => some (.agset f)
  | 0x69 => some (.agrun f)
  | 0x6A => some (.agstop f)
  | 0x6B => if fn = 0 then some (.sbindAg f) else if fn = 1 then some (.sbindBq f) else if fn = 2 then some (.sbindPeer f) else if fn = 3 then some (.sbindEp f) else if fn = 4 then some (.sbindUnbind f) else none
  | 0x6C => some (.sbar f)
  | 0x6D => some (.mcast f)
  | 0x6E => some (.permit f)
  | 0x6F => if fn = 0 then some (.publishTile f) else if fn = 1 then some (.publishGlb f) else none
  | 0x70 => some (.epbind f)
  | 0x71 => some (.epdrop f)
  | 0x80 => some (.vadd f)
  | 0x81 => some (.vsub f)
  | 0x82 => some (.vmul f)
  | 0x83 => some (.vfma f)
  | 0x84 => some (.vdiv f)
  | 0x85 => some (.vmin f)
  | 0x86 => some (.vmax f)
  | 0x87 => some (.vabs f)
  | 0x88 => some (.vneg f)
  | 0x89 => some (.vexp2 f)
  | 0x8A => some (.vlog2 f)
  | 0x8B => some (.vrcp f)
  | 0x8C => some (.vrsq f)
  | 0x8D => some (.vsqrt f)
  | 0x8E => some (.vtanh f)
  | 0x8F => some (.vsigm f)
  | 0x90 => some (.vcvt f)
  | 0x91 => some (.vqmx f)
  | 0x92 => some (.vdqmx f)
  | 0x93 => some (.vcmp f)
  | 0x94 => some (.vsel f)
  | 0x95 => some (.vrsum f)
  | 0x96 => some (.vrmax f)
  | 0x97 => some (.vcsum f)
  | 0x98 => some (.vbcast f)
  | 0x99 => some (.vrbc f)
  | 0x9A => some (.vtrans f)
  | 0x9B => some (.viota f)
  | 0x9C => some (.vcomp f)
  | 0x9D => some (.vlogic f)
  | 0x9E => some (.vshift f)
  | 0xA0 => some (.mbind f)
  | 0xA1 => some (.munbind f)
  | 0xA2 => some (.macc f)
  | 0xA3 => if fn = 0 then some (.mrowAcc f) else if fn = 1 then some (.mrowOut f) else none
  | 0xA4 => some (.mma f)
  | 0xA5 => some (.mmag f)
  | 0xA6 => if fn = 0 then some (.msclSet f) else if fn = 1 then some (.msclClr f) else none
  | 0xA7 => some (.mrd f)
  | 0xA8 => if fn = 0 then some (.moutKeep f) else if fn = 1 then some (.moutClr f) else none
  | 0xA9 => some (.mclr f)
  | 0xAA => some (.mresc f)
  | 0xAB => if fn = 0 then some (.mdrainCur f) else if fn = 1 then some (.mdrainAll f) else none
  | 0xB0 => some (.tbinit f)
  | 0xB1 => some (.tbexp f)
  | 0xB2 => if fn = 0 then some (.tbarrArr f) else if fn = 1 then some (.tbarrTx f) else if fn = 2 then some (.tbarrArrtx f) else none
  | 0xB3 => some (.tbwait f)
  | 0xB4 => some (.tbinv f)
  | 0xB5 => some (.bar f)
  | 0xB6 => if fn = 0 then some (.ownsetSet f) else if fn = 1 then some (.ownsetClr f) else none
  | 0xB7 => some (.atom f)
  | 0xB8 => some (.red f)
  | 0xB9 => some (.cas f)
  | 0xBA => some (.lockq f)
  | 0xBB => some (.lockr f)
  | 0xBC => some (.fence f)
  | 0xBD => some (.acq f)
  | 0xBE => some (.rel f)
  | 0xBF => some (.coll f)
  | 0xC0 => some (.taperec f)
  | 0xC1 => some (.tapeend f)
  | 0xC2 => some (.tapeplay f)
  | 0xC3 => some (.tapegrd f)
  | 0xC4 => if fn = 0 then some (.tapepatArg f) else if fn = 1 then some (.tapepatConst f) else none
  | 0xC5 => if fn = 0 then some (.tapedropQuad f) else if fn = 1 then some (.tapedropAll f) else none
  | 0xC6 => some (.tapeinfo f)
  | 0xC8 => if fn = 0 then some (.timerdNow f) else if fn = 1 then some (.timerdStat f) else none
  | 0xC9 => some (.timecmp f)
  | 0xCA => if fn = 0 then some (.timewaitAbs f) else if fn = 1 then some (.timewaitRel f) else none
  | 0xCB => if fn = 0 then some (.timeadjSlew f) else if fn = 1 then some (.timeadjStep f) else none
  | 0xD0 => some (.launch f)
  | 0xD1 => some (.qpush f)
  | 0xD2 => some (.range f)
  | 0xD3 => some (.rgive f)
  | 0xD4 => some (.qprio f)
  | 0xD5 => some (.qinfo f)
  | 0xD6 => if fn = 0 then some (.qbindBind f) else if fn = 1 then some (.qbindUnbind f) else none
  | 0xD7 => some (.ctxinfo f)
  | 0xE0 => some (.trap f)
  | 0xE1 => some (.hcall f)
  | 0xE2 => if fn = 0 then some (.evbindBind f) else if fn = 1 then some (.evbindUnbind f) else none
  | 0xE3 => some (.fltrd f)
  | 0xE4 => if fn = 0 then some (.resumeRetry f) else if fn = 1 then some (.resumeDiscard f) else none
  | 0xE5 => some (.replayall f)
  | 0xE6 => some (.ctxsave f)
  | 0xE7 => some (.ctxload f)
  | 0xE8 => some (.csrrd f)
  | 0xE9 => some (.csrwr f)
  | 0xEA => some (.perfrd f)
  | 0xEB => if fn = 0 then some (.linkctlPause f) else if fn = 1 then some (.linkctlResume f) else if fn = 2 then some (.linkctlMap f) else if fn = 3 then some (.linkctlSched f) else if fn = 4 then some (.linkctlCancel f) else if fn = 5 then some (.linkctlClrcnt f) else if fn = 6 then some (.linkctlCfg f) else none
  | 0xEC => some (.linkst f)
  | 0xED => if fn = 0 then some (.corestopStop f) else if fn = 1 then some (.corestopStart f) else none
  | _ => none

/-- The opcode of an operator, the FN that its name fixes, and its fields; an event has none (R64). -/
def Instr.form : Instr → Option (Nat × Option Nat × Fields)
  | .nop f => some (0x00, none, f)
  | .fork f => some (0x01, none, f)
  | .steer f => some (0x02, none, f)
  | .gate f => some (0x03, none, f)
  | .sync f => some (0x04, none, f)
  | .drop f => some (0x05, none, f)
  | .falloc f => some (0x06, none, f)
  | .ffreeFp f => some (0x07, some 0, f)
  | .ffreeSelf f => some (0x07, some 1, f)
  | .fstore f => some (0x08, none, f)
  | .fstick f => some (0x09, none, f)
  | .freadSlot f => some (0x0A, some 0, f)
  | .freadSelf f => some (0x0A, some 1, f)
  | .call f => some (0x0B, some 0, f)
  | .callExt f => some (0x0B, some 1, f)
  | .ret f => some (0x0C, none, f)
  | .sendto f => some (0x0D, none, f)
  | .iterNext f => some (0x0E, some 0, f)
  | .iterSet f => some (0x0E, some 1, f)
  | .punctMark f => some (0x0F, some 0, f)
  | .punctAfter f => some (0x0F, some 1, f)
  | .rjoin f => some (0x10, none, f)
  | .filter f => some (0x11, none, f)
  | .compact f => some (0x12, none, f)
  | .ordmerge f => some (0x13, none, f)
  | .nullsetAll f => some (0x14, some 0, f)
  | .nullsetIfz f => some (0x14, some 1, f)
  | .isnullNull f => some (0x15, some 0, f)
  | .isnullKind f => some (0x15, some 1, f)
  | .switch f => some (0x16, none, f)
  | .endOp f => some (0x17, none, f)
  | .moviLo f => some (0x20, some 0, f)
  | .moviHi f => some (0x20, some 1, f)
  | .add f => some (0x21, none, f)
  | .sub f => some (0x22, none, f)
  | .mul f => some (0x23, none, f)
  | .mulh f => some (0x24, none, f)
  | .div f => some (0x25, none, f)
  | .rem f => some (0x26, none, f)
  | .and f => some (0x27, none, f)
  | .or f => some (0x28, none, f)
  | .xor f => some (0x29, none, f)
  | .andn f => some (0x2A, none, f)
  | .shl f => some (0x2B, none, f)
  | .shr f => some (0x2C, none, f)
  | .sar f => some (0x2D, none, f)
  | .rol f => some (0x2E, none, f)
  | .min f => some (0x2F, none, f)
  | .max f => some (0x30, none, f)
  | .abs f => some (0x31, none, f)
  | .neg f => some (0x32, none, f)
  | .addsatAdd f => some (0x33, some 0, f)
  | .addsatSub f => some (0x33, some 1, f)
  | .cmp f => some (0x34, none, f)
  | .sel f => some (0x35, none, f)
  | .clz f => some (0x36, none, f)
  | .ctz f => some (0x37, none, f)
  | .popc f => some (0x38, none, f)
  | .bfx f => some (0x39, none, f)
  | .bfi f => some (0x3A, none, f)
  | .sext f => some (0x3B, none, f)
  | .zext f => some (0x3C, none, f)
  | .fadd f => some (0x40, none, f)
  | .fsub f => some (0x41, none, f)
  | .fmul f => some (0x42, none, f)
  | .ffma f => some (0x43, none, f)
  | .fdiv f => some (0x44, none, f)
  | .fsqrt f => some (0x45, none, f)
  | .fmin f => some (0x46, none, f)
  | .fmax f => some (0x47, none, f)
  | .fcmp f => some (0x48, none, f)
  | .fcvt f => some (0x49, none, f)
  | .ftoi f => some (0x4A, none, f)
  | .itof f => some (0x4B, none, f)
  | .fabs f => some (0x4C, none, f)
  | .fneg f => some (0x4D, none, f)
  | .fclass f => some (0x4E, none, f)
  | .tnewHere f => some (0x50, some 0, f)
  | .tnewAt f => some (0x50, some 1, f)
  | .trel f => some (0x51, none, f)
  | .tdup f => some (0x52, none, f)
  | .tview f => some (0x53, none, f)
  | .tinfo f => some (0x54, none, f)
  | .tlayout f => some (0x55, none, f)
  | .tfill f => some (0x56, none, f)
  | .tcopy f => some (0x57, none, f)
  | .xlate f => some (0x60, none, f)
  | .capcutCut f => some (0x61, some 0, f)
  | .capcutFree f => some (0x61, some 1, f)
  | .fetchGlb f => some (0x62, some 0, f)
  | .fetchEp f => some (0x62, some 1, f)
  | .fetchPort f => some (0x62, some 2, f)
  | .putGlb f => some (0x63, some 0, f)
  | .putEp f => some (0x63, some 1, f)
  | .putPort f => some (0x63, some 2, f)
  | .ldg f => some (0x64, none, f)
  | .stg f => some (0x65, none, f)
  | .ldv f => some (0x66, none, f)
  | .stv f => some (0x67, none, f)
  | .agset f => some (0x68, none, f)
  | .agrun f => some (0x69, none, f)
  | .agstop f => some (0x6A, none, f)
  | .sbindAg f => some (0x6B, some 0, f)
  | .sbindBq f => some (0x6B, some 1, f)
  | .sbindPeer f => some (0x6B, some 2, f)
  | .sbindEp f => some (0x6B, some 3, f)
  | .sbindUnbind f => some (0x6B, some 4, f)
  | .sbar f => some (0x6C, none, f)
  | .mcast f => some (0x6D, none, f)
  | .permit f => some (0x6E, none, f)
  | .publishTile f => some (0x6F, some 0, f)
  | .publishGlb f => some (0x6F, some 1, f)
  | .epbind f => some (0x70, none, f)
  | .epdrop f => some (0x71, none, f)
  | .vadd f => some (0x80, none, f)
  | .vsub f => some (0x81, none, f)
  | .vmul f => some (0x82, none, f)
  | .vfma f => some (0x83, none, f)
  | .vdiv f => some (0x84, none, f)
  | .vmin f => some (0x85, none, f)
  | .vmax f => some (0x86, none, f)
  | .vabs f => some (0x87, none, f)
  | .vneg f => some (0x88, none, f)
  | .vexp2 f => some (0x89, none, f)
  | .vlog2 f => some (0x8A, none, f)
  | .vrcp f => some (0x8B, none, f)
  | .vrsq f => some (0x8C, none, f)
  | .vsqrt f => some (0x8D, none, f)
  | .vtanh f => some (0x8E, none, f)
  | .vsigm f => some (0x8F, none, f)
  | .vcvt f => some (0x90, none, f)
  | .vqmx f => some (0x91, none, f)
  | .vdqmx f => some (0x92, none, f)
  | .vcmp f => some (0x93, none, f)
  | .vsel f => some (0x94, none, f)
  | .vrsum f => some (0x95, none, f)
  | .vrmax f => some (0x96, none, f)
  | .vcsum f => some (0x97, none, f)
  | .vbcast f => some (0x98, none, f)
  | .vrbc f => some (0x99, none, f)
  | .vtrans f => some (0x9A, none, f)
  | .viota f => some (0x9B, none, f)
  | .vcomp f => some (0x9C, none, f)
  | .vlogic f => some (0x9D, none, f)
  | .vshift f => some (0x9E, none, f)
  | .mbind f => some (0xA0, none, f)
  | .munbind f => some (0xA1, none, f)
  | .macc f => some (0xA2, none, f)
  | .mrowAcc f => some (0xA3, some 0, f)
  | .mrowOut f => some (0xA3, some 1, f)
  | .mma f => some (0xA4, none, f)
  | .mmag f => some (0xA5, none, f)
  | .msclSet f => some (0xA6, some 0, f)
  | .msclClr f => some (0xA6, some 1, f)
  | .mrd f => some (0xA7, none, f)
  | .moutKeep f => some (0xA8, some 0, f)
  | .moutClr f => some (0xA8, some 1, f)
  | .mclr f => some (0xA9, none, f)
  | .mresc f => some (0xAA, none, f)
  | .mdrainCur f => some (0xAB, some 0, f)
  | .mdrainAll f => some (0xAB, some 1, f)
  | .tbinit f => some (0xB0, none, f)
  | .tbexp f => some (0xB1, none, f)
  | .tbarrArr f => some (0xB2, some 0, f)
  | .tbarrTx f => some (0xB2, some 1, f)
  | .tbarrArrtx f => some (0xB2, some 2, f)
  | .tbwait f => some (0xB3, none, f)
  | .tbinv f => some (0xB4, none, f)
  | .bar f => some (0xB5, none, f)
  | .ownsetSet f => some (0xB6, some 0, f)
  | .ownsetClr f => some (0xB6, some 1, f)
  | .atom f => some (0xB7, none, f)
  | .red f => some (0xB8, none, f)
  | .cas f => some (0xB9, none, f)
  | .lockq f => some (0xBA, none, f)
  | .lockr f => some (0xBB, none, f)
  | .fence f => some (0xBC, none, f)
  | .acq f => some (0xBD, none, f)
  | .rel f => some (0xBE, none, f)
  | .coll f => some (0xBF, none, f)
  | .taperec f => some (0xC0, none, f)
  | .tapeend f => some (0xC1, none, f)
  | .tapeplay f => some (0xC2, none, f)
  | .tapegrd f => some (0xC3, none, f)
  | .tapepatArg f => some (0xC4, some 0, f)
  | .tapepatConst f => some (0xC4, some 1, f)
  | .tapedropQuad f => some (0xC5, some 0, f)
  | .tapedropAll f => some (0xC5, some 1, f)
  | .tapeinfo f => some (0xC6, none, f)
  | .timerdNow f => some (0xC8, some 0, f)
  | .timerdStat f => some (0xC8, some 1, f)
  | .timecmp f => some (0xC9, none, f)
  | .timewaitAbs f => some (0xCA, some 0, f)
  | .timewaitRel f => some (0xCA, some 1, f)
  | .timeadjSlew f => some (0xCB, some 0, f)
  | .timeadjStep f => some (0xCB, some 1, f)
  | .launch f => some (0xD0, none, f)
  | .qpush f => some (0xD1, none, f)
  | .range f => some (0xD2, none, f)
  | .rgive f => some (0xD3, none, f)
  | .qprio f => some (0xD4, none, f)
  | .qinfo f => some (0xD5, none, f)
  | .qbindBind f => some (0xD6, some 0, f)
  | .qbindUnbind f => some (0xD6, some 1, f)
  | .ctxinfo f => some (0xD7, none, f)
  | .trap f => some (0xE0, none, f)
  | .hcall f => some (0xE1, none, f)
  | .evbindBind f => some (0xE2, some 0, f)
  | .evbindUnbind f => some (0xE2, some 1, f)
  | .fltrd f => some (0xE3, none, f)
  | .resumeRetry f => some (0xE4, some 0, f)
  | .resumeDiscard f => some (0xE4, some 1, f)
  | .replayall f => some (0xE5, none, f)
  | .ctxsave f => some (0xE6, none, f)
  | .ctxload f => some (0xE7, none, f)
  | .csrrd f => some (0xE8, none, f)
  | .csrwr f => some (0xE9, none, f)
  | .perfrd f => some (0xEA, none, f)
  | .linkctlPause f => some (0xEB, some 0, f)
  | .linkctlResume f => some (0xEB, some 1, f)
  | .linkctlMap f => some (0xEB, some 2, f)
  | .linkctlSched f => some (0xEB, some 3, f)
  | .linkctlCancel f => some (0xEB, some 4, f)
  | .linkctlClrcnt f => some (0xEB, some 5, f)
  | .linkctlCfg f => some (0xEB, some 6, f)
  | .linkst f => some (0xEC, none, f)
  | .corestopStop f => some (0xED, some 0, f)
  | .corestopStart f => some (0xED, some 1, f)
  | .clockChangeRequest _ _ => none
  | .clockSettled _ => none
  | .clampAct _ _ _ => none
  | .clampRelease _ => none
  | .thermalTrip => none
  | .tokenServe _ _ => none
  | .frameSpill _ => none
  | .frameFill _ _ => none
  | .deferredFree _ _ => none
  | .releaseMessage _ _ => none
  | .tileSpaceReturn _ _ => none
  | .hostPush _ _ _ _ => none
  | .distributorSelect _ => none
  | .priorityAging _ _ => none
  | .bind _ => none
  | .askForWork _ _ => none
  | .askServe _ => none
  | .partReport _ _ => none
  | .rangeTaskComplete _ => none
  | .pushPortRelease _ _ => none
  | .replayCursorGrant _ => none
  | .guardSnapshot _ => none
  | .replayIssue _ _ => none
  | .probeStart _ _ => none
  | .replayComplete _ _ => none
  | .replayFault _ _ => none
  | .installStart _ _ _ => none
  | .installComplete _ _ _ => none
  | .quarantineNotice _ => none
  | .abortFree _ _ => none
  | .switchAccept _ _ => none
  | .switchDrain _ _ => none
  | .bridgeProduce _ _ => none
  | .bridgeConsume _ _ => none
  | .objLoad _ => none
  | .objUnload _ => none
  | .lightDispatch _ => none
  | .engineDispatch _ => none
  | .dispatchTurn _ _ => none
  | .quiesced _ => none
  | .dividerEmit _ => none
  | .pageSetBump _ => none
  | .bumpDone _ => none
  | .translationWindowFill _ _ _ _ => none
  | .replicaPropagate _ => none
  | .publishSwap _ _ => none
  | .agRow _ _ => none
  | .tnewGrant _ => none
  | .splitPhaseComplete _ _ => none
  | .copyComplete _ _ => none
  | .vectorCommandStart _ => none
  | .vectorComplete _ => none
  | .reductionRelease _ _ _ => none
  | .matrixItemStart _ _ => none
  | .rowFiring _ _ => none
  | .matrixItemFinish _ _ => none
  | .markerItem _ _ => none
  | .bindingRelease _ => none
  | .gangGrant _ _ => none
  | .tbWaiterRelease _ => none
  | .tbwaitRetry _ _ => none
  | .barArrival _ _ => none
  | .collArrival _ _ => none
  | .updateApply _ _ => none
  | .lockGrant _ _ => none
  | .timewaitRelease _ => none
  | .timewaitRetry _ => none
  | .syncExchange _ => none
  | .timeMessage _ _ => none
  | .holdoverEnter _ => none
  | .holdoverTick _ => none
  | .podSyncExchange _ _ _ => none
  | .ptpMessage _ _ => none
  | .flitSend _ _ => none
  | .flitData _ _ => none
  | .flitOpen _ _ => none
  | .flitClose _ _ => none
  | .flitAck _ _ => none
  | .flitIdle _ _ => none
  | .ackDue _ _ => none
  | .retryWindow _ _ => none
  | .changeProposal _ _ => none
  | .changeReply _ _ => none
  | .changeQuiesce _ _ => none
  | .changeQuiet _ _ => none
  | .retrainStart _ _ => none
  | .trainingComplete _ _ => none
  | .linkLoss _ _ => none
  | .memoryError _ => none
  | .eventSend _ _ => none
  | .saveWrite _ => none
  | .taskCompletion _ => none
  | .nvmeCompletion _ _ _ => none
  | .registerWrite _ _ => none
  | .seedWrite _ _ => none
  | .flogrdWrite _ _ => none
  | .ctxActivate _ => none
  | .ctxDestroy _ => none
  | .apertureAccess _ _ _ => none
  | .windowWrite _ _ => none
  | .ownerkeyWrite _ => none
  | .signersWrite _ _ => none
  | .mboxQuote => none
  | .mboxLog => none
  | .linkPolicy _ => none
  | .moduleReset => none
  | .bootStage _ => none
  | .capEntryFree _ _ => none
  | .flitDiscard _ _ _ => none
  | .slewComplete _ => none
  | .freeSlotReport _ => none
  | .boardPowerOff => none

end Sys2Proof
end

