-- ==== Sys2Proof/WellFormed.lean ====
section
/-! DEFINITION. Which terms of Instr are steps of the machine: an operator whose word install accepts in some object (R67), and an event of an agent that exists. -/

namespace Sys2Proof

/-- The agents that an event names exist (R16, R18, R395). -/
def Instr.agentsOk : Instr → Bool
  | .nop _ => true
  | .fork _ => true
  | .steer _ => true
  | .gate _ => true
  | .sync _ => true
  | .drop _ => true
  | .falloc _ => true
  | .ffreeFp _ => true
  | .ffreeSelf _ => true
  | .fstore _ => true
  | .fstick _ => true
  | .freadSlot _ => true
  | .freadSelf _ => true
  | .call _ => true
  | .callExt _ => true
  | .ret _ => true
  | .sendto _ => true
  | .iterNext _ => true
  | .iterSet _ => true
  | .punctMark _ => true
  | .punctAfter _ => true
  | .rjoin _ => true
  | .filter _ => true
  | .compact _ => true
  | .ordmerge _ => true
  | .nullsetAll _ => true
  | .nullsetIfz _ => true
  | .isnullNull _ => true
  | .isnullKind _ => true
  | .switch _ => true
  | .endOp _ => true
  | .moviLo _ => true
  | .moviHi _ => true
  | .add _ => true
  | .sub _ => true
  | .mul _ => true
  | .mulh _ => true
  | .div _ => true
  | .rem _ => true
  | .and _ => true
  | .or _ => true
  | .xor _ => true
  | .andn _ => true
  | .shl _ => true
  | .shr _ => true
  | .sar _ => true
  | .rol _ => true
  | .min _ => true
  | .max _ => true
  | .abs _ => true
  | .neg _ => true
  | .addsatAdd _ => true
  | .addsatSub _ => true
  | .cmp _ => true
  | .sel _ => true
  | .clz _ => true
  | .ctz _ => true
  | .popc _ => true
  | .bfx _ => true
  | .bfi _ => true
  | .sext _ => true
  | .zext _ => true
  | .fadd _ => true
  | .fsub _ => true
  | .fmul _ => true
  | .ffma _ => true
  | .fdiv _ => true
  | .fsqrt _ => true
  | .fmin _ => true
  | .fmax _ => true
  | .fcmp _ => true
  | .fcvt _ => true
  | .ftoi _ => true
  | .itof _ => true
  | .fabs _ => true
  | .fneg _ => true
  | .fclass _ => true
  | .tnewHere _ => true
  | .tnewAt _ => true
  | .trel _ => true
  | .tdup _ => true
  | .tview _ => true
  | .tinfo _ => true
  | .tlayout _ => true
  | .tfill _ => true
  | .tcopy _ => true
  | .xlate _ => true
  | .capcutCut _ => true
  | .capcutFree _ => true
  | .fetchGlb _ => true
  | .fetchEp _ => true
  | .fetchPort _ => true
  | .putGlb _ => true
  | .putEp _ => true
  | .putPort _ => true
  | .ldg _ => true
  | .stg _ => true
  | .ldv _ => true
  | .stv _ => true
  | .agset _ => true
  | .agrun _ => true
  | .agstop _ => true
  | .sbindAg _ => true
  | .sbindBq _ => true
  | .sbindPeer _ => true
  | .sbindEp _ => true
  | .sbindUnbind _ => true
  | .sbar _ => true
  | .mcast _ => true
  | .permit _ => true
  | .publishTile _ => true
  | .publishGlb _ => true
  | .epbind _ => true
  | .epdrop _ => true
  | .vadd _ => true
  | .vsub _ => true
  | .vmul _ => true
  | .vfma _ => true
  | .vdiv _ => true
  | .vmin _ => true
  | .vmax _ => true
  | .vabs _ => true
  | .vneg _ => true
  | .vexp2 _ => true
  | .vlog2 _ => true
  | .vrcp _ => true
  | .vrsq _ => true
  | .vsqrt _ => true
  | .vtanh _ => true
  | .vsigm _ => true
  | .vcvt _ => true
  | .vqmx _ => true
  | .vdqmx _ => true
  | .vcmp _ => true
  | .vsel _ => true
  | .vrsum _ => true
  | .vrmax _ => true
  | .vcsum _ => true
  | .vbcast _ => true
  | .vrbc _ => true
  | .vtrans _ => true
  | .viota _ => true
  | .vcomp _ => true
  | .vlogic _ => true
  | .vshift _ => true
  | .mbind _ => true
  | .munbind _ => true
  | .macc _ => true
  | .mrowAcc _ => true
  | .mrowOut _ => true
  | .mma _ => true
  | .mmag _ => true
  | .msclSet _ => true
  | .msclClr _ => true
  | .mrd _ => true
  | .moutKeep _ => true
  | .moutClr _ => true
  | .mclr _ => true
  | .mresc _ => true
  | .mdrainCur _ => true
  | .mdrainAll _ => true
  | .tbinit _ => true
  | .tbexp _ => true
  | .tbarrArr _ => true
  | .tbarrTx _ => true
  | .tbarrArrtx _ => true
  | .tbwait _ => true
  | .tbinv _ => true
  | .bar _ => true
  | .ownsetSet _ => true
  | .ownsetClr _ => true
  | .atom _ => true
  | .red _ => true
  | .cas _ => true
  | .lockq _ => true
  | .lockr _ => true
  | .fence _ => true
  | .acq _ => true
  | .rel _ => true
  | .coll _ => true
  | .taperec _ => true
  | .tapeend _ => true
  | .tapeplay _ => true
  | .tapegrd _ => true
  | .tapepatArg _ => true
  | .tapepatConst _ => true
  | .tapedropQuad _ => true
  | .tapedropAll _ => true
  | .tapeinfo _ => true
  | .timerdNow _ => true
  | .timerdStat _ => true
  | .timecmp _ => true
  | .timewaitAbs _ => true
  | .timewaitRel _ => true
  | .timeadjSlew _ => true
  | .timeadjStep _ => true
  | .launch _ => true
  | .qpush _ => true
  | .range _ => true
  | .rgive _ => true
  | .qprio _ => true
  | .qinfo _ => true
  | .qbindBind _ => true
  | .qbindUnbind _ => true
  | .ctxinfo _ => true
  | .trap _ => true
  | .hcall _ => true
  | .evbindBind _ => true
  | .evbindUnbind _ => true
  | .fltrd _ => true
  | .resumeRetry _ => true
  | .resumeDiscard _ => true
  | .replayall _ => true
  | .ctxsave _ => true
  | .ctxload _ => true
  | .csrrd _ => true
  | .csrwr _ => true
  | .perfrd _ => true
  | .linkctlPause _ => true
  | .linkctlResume _ => true
  | .linkctlMap _ => true
  | .linkctlSched _ => true
  | .linkctlCancel _ => true
  | .linkctlClrcnt _ => true
  | .linkctlCfg _ => true
  | .linkst _ => true
  | .corestopStop _ => true
  | .corestopStart _ => true
  | .clockChangeRequest stack _ => decide (stack < 16)
  | .clockSettled stack => decide (stack < 16)
  | .clampAct stack _ _ => decide (stack < 16)
  | .clampRelease stack => decide (stack < 16)
  | .thermalTrip => true
  | .tokenServe core _ => decide (core < 4096)
  | .frameSpill core => decide (core < 4096)
  | .frameFill core _ => decide (core < 4096)
  | .deferredFree core _ => decide (core < 4096)
  | .releaseMessage core _ => decide (core < 4096)
  | .tileSpaceReturn core _ => decide (core < 4096)
  | .hostPush func _ _ _ => decide (func < 256)
  | .distributorSelect stack => decide (stack < 16)
  | .priorityAging stack _ => decide (stack < 16)
  | .bind stack => decide (stack < 16)
  | .askForWork core _ => decide (core < 4096)
  | .askServe stack => decide (stack < 16)
  | .partReport stack _ => decide (stack < 16)
  | .rangeTaskComplete _ => true
  | .pushPortRelease core _ => decide (core < 4096)
  | .replayCursorGrant quad => decide (quad < 1024)
  | .guardSnapshot quad => decide (quad < 1024)
  | .replayIssue quad _ => decide (quad < 1024)
  | .probeStart quad _ => decide (quad < 1024)
  | .replayComplete quad _ => decide (quad < 1024)
  | .replayFault quad _ => decide (quad < 1024)
  | .installStart core _ _ => decide (core < 4096)
  | .installComplete core _ _ => decide (core < 4096)
  | .quarantineNotice core => decide (core < 4096)
  | .abortFree core _ => decide (core < 4096)
  | .switchAccept stack ctx => decide (stack < 16) && decide (ctx < 4096)
  | .switchDrain stack ctx => decide (stack < 16) && decide (ctx < 4096)
  | .bridgeProduce core _ => decide (core < 4096)
  | .bridgeConsume core _ => decide (core < 4096)
  | .objLoad ctx => decide (ctx < 4096)
  | .objUnload ctx => decide (ctx < 4096)
  | .lightDispatch core => decide (core < 4096)
  | .engineDispatch core => decide (core < 4096)
  | .dispatchTurn core _ => decide (core < 4096)
  | .quiesced ctx => decide (ctx < 4096)
  | .dividerEmit core => decide (core < 4096)
  | .pageSetBump ctx => decide (ctx < 4096)
  | .bumpDone ctx => decide (ctx < 4096)
  | .translationWindowFill core _ _ _ => decide (core < 4096)
  | .replicaPropagate stack => decide (stack < 16)
  | .publishSwap core _ => decide (core < 4096)
  | .agRow core _ => decide (core < 4096)
  | .tnewGrant core => decide (core < 4096)
  | .splitPhaseComplete core _ => decide (core < 4096)
  | .copyComplete core _ => decide (core < 4096)
  | .vectorCommandStart core => decide (core < 4096)
  | .vectorComplete core => decide (core < 4096)
  | .reductionRelease core _ _ => decide (core < 4096)
  | .matrixItemStart core _ => decide (core < 4096)
  | .rowFiring core _ => decide (core < 4096)
  | .matrixItemFinish core _ => decide (core < 4096)
  | .markerItem core _ => decide (core < 4096)
  | .bindingRelease core => decide (core < 4096)
  | .gangGrant stack _ => decide (stack < 16)
  | .tbWaiterRelease core => decide (core < 4096)
  | .tbwaitRetry core _ => decide (core < 4096)
  | .barArrival core _ => decide (core < 4096)
  | .collArrival core _ => decide (core < 4096)
  | .updateApply core _ => decide (core < 4096)
  | .lockGrant _ _ => true
  | .timewaitRelease core => decide (core < 4096)
  | .timewaitRetry core => decide (core < 4096)
  | .syncExchange link => decide (link < 32)
  | .timeMessage link side => decide (link < 32) && decide (side < 2)
  | .holdoverEnter stack => decide (stack < 16)
  | .holdoverTick stack => decide (stack < 16)
  | .podSyncExchange _ _ _ => true
  | .ptpMessage _ _ => true
  | .flitSend link side => decide (link < 32) && decide (side < 2)
  | .flitData link side => decide (link < 32) && decide (side < 2)
  | .flitOpen link side => decide (link < 32) && decide (side < 2)
  | .flitClose link side => decide (link < 32) && decide (side < 2)
  | .flitAck link side => decide (link < 32) && decide (side < 2)
  | .flitIdle link side => decide (link < 32) && decide (side < 2)
  | .ackDue link side => decide (link < 32) && decide (side < 2)
  | .retryWindow link side => decide (link < 32) && decide (side < 2)
  | .changeProposal link side => decide (link < 32) && decide (side < 2)
  | .changeReply link side => decide (link < 32) && decide (side < 2)
  | .changeQuiesce link side => decide (link < 32) && decide (side < 2)
  | .changeQuiet link side => decide (link < 32) && decide (side < 2)
  | .retrainStart link side => decide (link < 32) && decide (side < 2)
  | .trainingComplete link _ => decide (link < 32)
  | .linkLoss link side => decide (link < 32) && decide (side < 2)
  | .memoryError _ => true
  | .eventSend stack _ => decide (stack < 16)
  | .saveWrite ctx => decide (ctx < 4096)
  | .taskCompletion _ => true
  | .nvmeCompletion core _ _ => decide (core < 4096)
  | .registerWrite _ _ => true
  | .seedWrite ctx _ => decide (ctx < 4096)
  | .flogrdWrite ctx _ => decide (ctx < 4096)
  | .ctxActivate ctx => decide (ctx < 4096)
  | .ctxDestroy ctx => decide (ctx < 4096)
  | .apertureAccess _ _ _ => true
  | .windowWrite _ _ => true
  | .ownerkeyWrite _ => true
  | .signersWrite _ _ => true
  | .mboxQuote => true
  | .mboxLog => true
  | .linkPolicy _ => true
  | .moduleReset => true
  | .bootStage _ => true
  | .capEntryFree core _ => decide (core < 4096)
  | .flitDiscard link side _ => decide (link < 32) && decide (side < 2)
  | .slewComplete stack => decide (stack < 16)
  | .freeSlotReport core => decide (core < 4096)
  | .boardPowerOff => true

/-- An operator's fields are accepted: the FN that the name fixes, and every check of R67 that does not need
one particular object. -/
def Instr.encodable (i : Instr) : Bool :=
  match i.form with
  | none => true
  | some (opc, fixed, f) =>
    (match fixed with
     | none => true
     | some k => f.fn.toNat == k) &&
    (installReason ObjInfo.all (Raw.ofFields opc f)).isNone

/-- A well-formed step. -/
def Instr.wf (i : Instr) : Bool := i.agentsOk && i.encodable

end Sys2Proof
end

