-- ==== Sys2Proof/Decode.lean ====
section
/-! DEFINITION. The decoder: from a 128-bit word to an operator or the check with which install refuses it (R55, R64, R67); and the encoder. -/

namespace Sys2Proof

/-- The operator of a word in a given object, or the check of R67 that it fails. -/
def decodeIn (o : ObjInfo) (w : U128) : Decoded :=
  let r := Raw.ofWord w
  match installReason o r with
  | some n => .reject n
  | none =>
    match mkOp r.opc.toNat r.fn.toNat r.fields with
    | some i => .ok i
    | none => .reject .function

/-- The operator of a word, whatever the object: the checks that read the object are met (R67). -/
def decode (w : U128) : Decoded := decodeIn ObjInfo.all w

/-- The word of an operator (R55); an event has none. -/
def encode (i : Instr) : Option U128 :=
  match i.form with
  | none => none
  | some (opc, _, f) => some (Raw.ofFields opc f).toWord

/-- The bytes of a word as memory holds them, least significant first (R7, R56). -/
def wordBytes (w : U128) : List Byte :=
  (List.range 16).map (fun k => field w (8 * k) 8)

/-- The word of 16 bytes in memory order (R7, R56). -/
def wordOfBytes : List Byte → U128
  | [] => 0
  | b :: t => (b.setWidth 128) ||| (wordOfBytes t <<< 8)

/-- The operator of a word, with the numbering of the opcode table: bit 0 is the least significant bit. -/
def decodeTableWord (nbits w : Nat) : Option Instr :=
  match decode (wordOfBytes (wordBytes (BitVec.ofNat 128 (w % 2 ^ nbits)))) with
  | .ok i => some i
  | .reject _ => none

end Sys2Proof
end

