-- ==== Sys2Proof/Machine/Ops.lean ====
section
/-! DEFINITION. The operations that the meanings share: frames and slots by pointer, TIME, events (R431 to R433), token delivery and emission (R42, R59, R60, R165), LIVE (R39) and the taking of a fault (R11, R422 to R428). -/

namespace Sys2Proof.Machine

/-- The 8-bit code of a fault class (R422). -/
def FaultClass.code : FaultClass → Nat
  | .kind => 0x01
  | .slotRange => 0x02
  | .roundRange => 0x03
  | .roundSkew => 0x04
  | .matchDup => 0x05
  | .stickyAbsent => 0x06
  | .markerSkew => 0x07
  | .nullOperand => 0x08
  | .noParent => 0x09
  | .ipRange => 0x0A
  | .operandRange => 0x0B
  | .privilege => 0x0C
  | .regionRange => 0x0D
  | .trap => 0x0E
  | .frameRoot => 0x10
  | .notRoot => 0x11
  | .doubleFree => 0x12
  | .slotBusy => 0x13
  | .frameSpill => 0x14
  | .mergeSpill => 0x15
  | .objDisabled => 0x16
  | .entryRange => 0x17
  | .switchBusy => 0x18
  | .objRejected => 0x19
  | .switchOrphan => 0x1A
  | .quarantined => 0x1B
  | .codeIllegal => 0x20
  | .codeFetch => 0x21
  | .codePoison => 0x22
  | .codeHash => 0x23
  | .objMalformed => 0x24
  | .objSignature => 0x25
  | .objUntrusted => 0x26
  | .objSource => 0x27
  | .taskMalformed => 0x30
  | .queueRange => 0x31
  | .queueAccess => 0x32
  | .notRange => 0x33
  | .rangeReturn => 0x34
  | .tapeStale => 0x35
  | .tapeUnrecordable => 0x36
  | .tapeProbe => 0x37
  | .staleHandle => 0x40
  | .viewRange => 0x41
  | .tileShadow => 0x42
  | .tileMalformed => 0x43
  | .refOverflow => 0x44
  | .tilePublished => 0x45
  | .layoutBusy => 0x46
  | .tileBound => 0x47
  | .xferType => 0x48
  | .xferShape => 0x49
  | .laneAlign => 0x4A
  | .laneRange => 0x4B
  | .xlateRefused => 0x50
  | .capForeign => 0x51
  | .capInvalid => 0x52
  | .capStale => 0x53
  | .capRange => 0x54
  | .capPerm => 0x55
  | .capFull => 0x56
  | .pageAbsent => 0x57
  | .pageMalformed => 0x58
  | .memUnbacked => 0x59
  | .memAlign => 0x5A
  | .publishShape => 0x5B
  | .integrity => 0x5C
  | .vfyShape => 0x5D
  | .pagePerm => 0x5E
  | .agMalformed => 0x60
  | .agBusy => 0x61
  | .agUnbound => 0x62
  | .portDir => 0x63
  | .portBusy => 0x64
  | .streamShape => 0x65
  | .streamShort => 0x66
  | .permitRange => 0x67
  | .bridgeBusy => 0x68
  | .bridgeRequired => 0x69
  | .epRange => 0x6A
  | .epPerm => 0x6B
  | .epUnbound => 0x6C
  | .epRefused => 0x6D
  | .epBusy => 0x6E
  | .vecRemote => 0x70
  | .vecType => 0x71
  | .vecShape => 0x72
  | .vecAlias => 0x73
  | .matBound => 0x74
  | .matUnbound => 0x75
  | .matRemote => 0x76
  | .matType => 0x77
  | .matMx => 0x78
  | .matShape => 0x79
  | .matAtype => 0x7A
  | .matGang => 0x7B
  | .tbShape => 0x80
  | .tbLive => 0x81
  | .tbActive => 0x82
  | .tbInactive => 0x83
  | .tbRange => 0x84
  | .tbArrival => 0x85
  | .tbOverrun => 0x86
  | .barMismatch => 0x87
  | .collMismatch => 0x88
  | .collShape => 0x89
  | .relAbort => 0x8A
  | .updUnsupported => 0x8B
  | .lockState => 0x8C
  | .ownRange => 0x8D
  | .ownOverlap => 0x8E
  | .ownFull => 0x8F
  | .redUnresolved => 0x90
  | .timeFollower => 0x91
  | .memTransient => 0x92
  | .memPoison => 0x93
  | .saveMalformed => 0x94
  | .saveOverflow => 0x95
  | .ctxState => 0x96

/-- The code of a KIND (R33). -/
def Kind.code : Kind → Nat
  | .scalar => 0 | .tile => 1 | .null => 2 | .marker => 3 | .cap => 4 | .permit => 5 | .fault => 6 | .reserved => 7

/-- The KIND of a code (R33). -/
def Kind.ofCode (n : Nat) : Kind :=
  match n with
  | 0 => .scalar | 1 => .tile | 2 => .null | 3 => .marker | 4 => .cap | 5 => .permit | 6 => .fault | _ => .reserved

/-! ## Sorting -/

/-- `x` put into a sorted list before the first element it does not follow. -/
def insertBy {α : Type} (le : α → α → Bool) (x : α) : List α → List α
  | [] => [x]
  | y :: t => if le x y then x :: y :: t else y :: insertBy le x t

/-- A list sorted by `le`; elements that are equal under it keep their order. -/
def sortBy {α : Type} (le : α → α → Bool) : List α → List α
  | [] => []
  | x :: t => insertBy le x (sortBy le t)

/-! ## Values -/

/-- A scalar of a round and tag, of no recorded descent. -/
def Val.scalar (v : U64) (round : BitVec 8) (prov : BitVec 4) : Val :=
  { kind := .scalar, value := v, round := round, prov := prov, lin := Lineage.none }

/-- A null (R33): VALUE 0 when emitted. -/
def Val.null (round : BitVec 8) (prov : BitVec 4) : Val :=
  { kind := .null, value := 0, round := round, prov := prov, lin := Lineage.none }

/-- An end-of-round marker (R33), with its tag and the recorded entries that it descends from. -/
def Val.marker (round : BitVec 8) (prov : BitVec 4 := 0) (anc : List Nat := []) : Val :=
  { kind := .marker, value := 0, round := round, prov := prov, lin := { out := none, anc := anc } }

/-- PROV DATA (R129). -/
def provData : BitVec 4 := 7

/-! ## Frame pointers and frames (R35 to R41) -/

def fpVcore (fp : U32) : Nat := (field fp 20 12).toNat
def fpBase (fp : U32) : Nat := (field fp 8 12).toNat
def fpGen (fp : U32) : BitVec 8 := field fp 0 8
/-- A frame pointer of its parts (R35). -/
def mkFp (vcore base : Nat) (gen : BitVec 8) : U32 :=
  BitVec.ofNat 12 vcore ++ BitVec.ofNat 12 base ++ gen

/-- BASE units of a class (R36). -/
def classUnits (cls : Nat) : Nat := 2 ^ (cls + 1)
/-- Slots of a class (R36). -/
def classSlots (cls : Nat) : Nat := 2 ^ (cls + 4)

/-- The frame pointer of a frame held by the core with virtual id v. -/
def Frame.fp (f : Frame) (v : BitVec 12) : U32 := mkFp v.toNat f.base f.gen

/-- The resident frame that a pointer names (R37): one at its BASE whose GEN and unit generation equal its GEN. -/
def Core.frame? (k : Core) (fp : U32) : Option Frame :=
  k.frames.find? (fun f => f.base == fpBase fp && f.gen == fpGen fp &&
    Table.look 0 k.unitGen f.base == fpGen fp)

/-- The spill directory entry of a pointer (R37, R46). -/
def Core.spilled? (k : Core) (fp : U32) : Option Spilled := k.spillDir.find? (fun e => e.fp == fp)

/-- A core with a change made to one resident frame. -/
def Core.modFrame (k : Core) (fp : U32) (g : Frame → Frame) : Core :=
  { k with frames := k.frames.map (fun f =>
      if f.base == fpBase fp && f.gen == fpGen fp then g f else f) }

/-- A core with a change made to a frame, resident or spilled. -/
def Core.modAny (k : Core) (fp : U32) (g : Frame → Frame) : Core :=
  match k.frame? fp with
  | some _ => k.modFrame fp g
  | none => { k with spillDir := k.spillDir.map (fun e => if e.fp == fp then { e with frame := g e.frame } else e) }

/-- The frame that a pointer names on its core, resident or spilled. -/
def Core.anyFrame? (k : Core) (fp : U32) : Option Frame :=
  match k.frame? fp with
  | some f => some f
  | none => (k.spilled? fp).map Spilled.frame

/-- A slot of a frame (R41); allocation leaves every user slot empty. -/
def Frame.slot (f : Frame) (n : Nat) : Slot := Table.look Slot.empty f.slots n

/-- A frame with a slot written; an empty slot is not listed. -/
def Frame.setSlot (f : Frame) (n : Nat) (x : Slot) : Frame :=
  { f with slots := if x = .empty then Table.del f.slots n else Table.put f.slots n x }

/-- PARKED (R39): the slots in the parked state. -/
def Frame.parked (f : Frame) : Nat :=
  (f.slots.filter (fun e => match e.2 with
    | .parked _ _ => true
    | _ => false)).length

/-- The header slots (R39). -/
def Frame.header (f : Frame) (n : Nat) : U64 :=
  match n with
  | 0 => f.obj ++ (0 : BitVec 20) ++ f.ctx
  | 1 => if f.hostc then (0 : BitVec 32) ++ f.rip ++ bit1 f.rport ++ (0 : BitVec 11)
         else f.pfp ++ f.rip ++ bit1 f.rport ++ (0 : BitVec 11)
  | 2 => BitVec.ofNat 16 f.parked ++ (0 : BitVec 16) ++ f.live
  | _ => BitVec.ofNat 4 f.cls ++ f.policy ++ f.anchor ++ (0 : BitVec 12) ++ f.fround ++ (0 : BitVec 16) ++
         bit1 f.root ++ bit1 f.hostc ++ bit1 f.abort ++ bit1 f.freepend ++ f.tmode ++ (0 : BitVec 2)

/-- The tag of a slot (R41). -/
def Slot.tag : Slot → U32
  | .empty => 0
  | .parked port v =>
    (1 : BitVec 1) ++ (0 : BitVec 1) ++ bit1 port ++ BitVec.ofNat 3 v.kind.code ++ v.round ++ v.prov ++ (0 : BitVec 14)
  | .sticky port v =>
    (1 : BitVec 1) ++ (1 : BitVec 1) ++ bit1 port ++ BitVec.ofNat 3 v.kind.code ++ v.round ++ v.prov ++ (0 : BitVec 14)


/-- Slot i of a frame as the store holds it: its value and its tag (R39, R41). Header slots read as sticky. -/
def Frame.stored (f : Frame) (i : Nat) : U64 × U32 :=
  if i < 4 then (f.header i, 0xC0000000)
  else
    match f.slot i with
    | .empty => (0, 0)
    | .parked p v => (v.value, (Slot.parked p v).tag)
    | .sticky p v => (v.value, (Slot.sticky p v).tag)

/-- The reserved bits of a VALUE of a KIND are zero (R33, R45). -/
def valueOk (k : Kind) (v : U64) : Bool :=
  match k with
  | .tile => field v 0 8 == 0
  | .cap => field v 0 38 == 0
  | .permit => field v 56 7 == 0 && field v 32 4 == 0
  | .fault => field v 32 12 == 0
  | _ => true

/-- A slot of its value and tag; none for what R33 and R41 do not allow. -/
def slotOf (v : U64) (t : U32) : Option Slot :=
  let p := bitAt t 31
  let st := bitAt t 30
  let x : Val := {
    kind := Kind.ofCode (field t 26 3).toNat, value := v, round := field t 18 8, prov := field t 14 4, lin := Lineage.none }
  if field t 0 14 != 0 || (!p && st) then none
  else if !p then some .empty
  else if x.kind = .reserved ∨ x.prov = 15 ∨ !valueOk x.kind v then none
  else if st then some (.sticky (bitAt t 29) x)
  else some (.parked (bitAt t 29) x)

/-- The value of a slot. -/
def Slot.val? : Slot → Option Val
  | .empty => none
  | .parked _ v => some v
  | .sticky _ v => some v

/-- A slot read back over the one it was written from: what the recorder knows of the value has stayed with the device. -/
def Slot.over (old : Slot) : Slot → Slot
  | .empty => .empty
  | .parked p v => .parked p { v with lin := (old.val?.map Val.lin).getD v.lin }
  | .sticky p v => .sticky p { v with lin := (old.val?.map Val.lin).getD v.lin }

/-- Every element, where all are there. -/
def allSome {α : Type} : List (Option α) → Option (List α)
  | [] => some []
  | none :: _ => none
  | some x :: t => (allSome t).map (x :: ·)

/-- The header of a frame as it was written: reserved fields zero, tags sticky (R9, R39, R41). -/
def headerSlotsOk (word : Nat → U64) (tag : Nat → U32) : Bool :=
  field (word 0) 12 20 == 0 && field (word 1) 0 11 == 0 && field (word 2) 32 16 == 0 && field (word 3) 32 12 == 0 &&
  field (word 3) 8 16 == 0 && field (word 3) 0 2 == 0 && decide ((field (word 3) 60 4).toNat < 5) &&
  (List.range 4).all (fun i => field (tag i) 30 2 == 3 && field (tag i) 0 14 == 0)

/-- A frame with the header and slots of the words and tags of its store (R39, R41); none where they are malformed. -/
def Frame.loaded (f : Frame) (word : Nat → U64) (tag : Nat → U32) : Option Frame :=
  let w1 := word 1
  let w3 := word 3
  match allSome ((List.range (classSlots f.cls - 4)).map (fun i => slotOf (word (i + 4)) (tag (i + 4)))) with
  | none => none
  | some l =>
    if !headerSlotsOk word tag then none
    else
      some { f with
        obj := field (word 0) 32 32, ctx := field (word 0) 0 12, pfp := if f.hostc then f.pfp else field w1 32 32,
        rip := field w1 12 20, rport := bitAt w1 11, live := field (word 2) 0 32,
        policy := field w3 56 4, anchor := field w3 44 12, fround := field w3 24 8, abort := bitAt w3 5, freepend := bitAt w3 4,
        tmode := field w3 2 2,
        slots := (l.zipIdx.filter (fun p => p.1 != .empty)).map (fun p => (p.2 + 4, (f.slot (p.2 + 4)).over p.1)) }

/-- The 96-byte record of unit u of a frame (R47). -/
def Frame.unitRecord (f : Frame) (u : Nat) : List Byte :=
  (List.range 8).flatMap (fun i => natLe 8 (f.stored (8 * u + i)).1.toNat) ++
  (List.range 8).flatMap (fun i => natLe 4 (f.stored (8 * u + i)).2.toNat)

/-- A frame with the contents of its records in unit order (R47, R48); LIVE, ABORT and FREEPEND, which may have changed since, stand in
the directory entry (log 116). -/
def Frame.ofRecords (f : Frame) (recs : List (List Byte)) : Frame :=
  let at_ (i off n : Nat) : Nat := leNat (((recs[i / 8]?.getD []).drop (off + n * (i % 8))).take n)
  match f.loaded (fun i => BitVec.ofNat 64 (at_ i 0 8)) (fun i => BitVec.ofNat 32 (at_ i 64 4)) with
  | some x => { x with live := f.live, abort := f.abort, freepend := f.freepend }
  | none => f

/-- The physical core whose frame a pointer names in a context (R165). -/
def State.fpCore (s : State) (ctx : Nat) (fp : U32) : Option Nat := (s.ctx ctx).phys (fpVcore fp)

/-- The frame of a firing, while it is resident. -/
def State.frameOf (s : State) (g : Firing) : Option Frame := (s.core g.core).frame? g.fp

/-- A change to the frame of a firing. -/
def State.modFrameOf (s : State) (g : Firing) (h : Frame → Frame) : State :=
  s.modCore g.core (fun k => k.modFrame g.fp h)

/-- The virtual id of the core of a firing in its context. -/
def State.vcoreOf (s : State) (core : Nat) : BitVec 12 := (s.core core).vcore

/-- The object record of a context's object (R177). -/
def Ctx.obj? (c : Ctx) (obj : U32) : Option ObjRec := c.objs.find? (fun o => o.obj == obj)

/-- The instruction count of an object, 0 where it is not loaded. -/
def State.ninstr (s : State) (ctx : Nat) (obj : U32) : Nat :=
  match (s.ctx ctx).obj? obj with
  | some o => o.ninstr
  | none => 0

/-! ## TIME, its bound and its state (R384 to R386) -/

/-- TIME of a stack as a register. -/
def Stack.timeReg (k : Stack) : U64 := BitVec.ofNat 64 k.time

/-- A bound that has grown: it holds at its highest value, which says that no bound is known (R385). -/
def errAdd (e : U32) (n : Nat) : U32 :=
  if e = 0xFFFFFFFF then e else BitVec.ofNat 32 (min 0xFFFFFFFF (e.toNat + n))

/-- ERR as read (R385, R388): it includes the residual, and holds at its highest value. -/
def Stack.errReg (k : Stack) : U32 := errAdd k.err k.residual.natAbs

/-- The bound of R393 for a domain. -/
def lockBound (dom : BitVec 3) : Nat :=
  match dom.toNat with
  | 1 => 15 | 2 => 320 | 3 => 3200 | _ => 0

/-- The bound of R393 holds. -/
def inLock (dom : BitVec 3) (err : U32) : Bool := dom != 0 && decide (err.toNat ≤ lockBound dom)

/-- LOCK (R386, R389, R393): the bound of its domain holds for the stack, which is not in holdover. -/
def Stack.locked (k : Stack) : Bool := !k.hold && inLock k.dom k.errReg

/-- TIME_STAT (R386). -/
def Stack.timeStat (k : Stack) (id : Nat) : U64 :=
  (0 : BitVec 16) ++ k.epoch ++ (0 : BitVec 6) ++ k.uplink ++ k.depth ++ BitVec.ofNat 4 id ++ (0 : BitVec 4) ++
    bit1 k.gm ++ bit1 k.slewing ++ bit1 k.hold ++ bit1 k.locked ++ (0 : BitVec 1) ++ k.dom

/-! ## The way between stacks (R25, R396) -/

/-- The stack or I/O die (16 and 17) at an end of a link (R396). -/
def linkNode (l side : Nat) : Nat :=
  if l < 12 then l / 3 * 4 + l % 3 + side
  else if l < 24 then l - 12 + 4 * side
  else if l < 28 then (if side = 0 then l - 24 else 16)
  else (if side = 0 then 12 + (l - 28) else 17)

/-- The sideband of an entry (R272). -/
def Entry.sideband (e : Entry) : Nat :=
  e.round.toNat + (if e.mark then 256 else 0) + (if e.eor then 512 else 0) + (if e.eot then 1024 else 0)


/-- The 128 bits of a token (R32). -/
def tokenWord (fp : U32) (ip : BitVec 20) (port : Bool) (v : Val) : BitVec 128 :=
  fp ++ ip ++ bit1 port ++ v.round ++ BitVec.ofNat 3 v.kind.code ++ v.value

/-- A message set on its way from a stack to a core: into the core's inbox, or into the token context (tag 0) of the
next link on its route (R25, R399). -/
def State.route (s : State) (stack dst : Nat) (m : Mail) : State :=
  match nextHop stack (coreStack dst) with
  | none => s.modCore dst (fun k => { k with inbox := k.inbox ++ [m] })
  | some (l, side, _) =>
    s.modLink l side (fun e => { e with out := e.out ++ [{ tag := 0, seq := 0, body := .tokens [(dst, m)] }] })

/-- A message from a core (or an agent of a stack, 4096 + stack) to a core. -/
def State.post (s : State) (src dst : Nat) (m : Msg) : State :=
  s.route (if src < 4096 then coreStack src else (src - 4096) % 16) dst { src := src, msg := m }

/-! ## Events (R431 to R433) -/

/-- An event's VALUE (R431). -/
def eventValue (chan ctx src : Nat) (arg : U32) : U64 :=
  (0 : BitVec 2) ++ BitVec.ofNat 6 chan ++ BitVec.ofNat 12 ctx ++ BitVec.ofNat 12 src ++ arg

/-- A channel of a stack. -/
def Stack.chan (k : Stack) (c : Nat) : Channel := Table.look Channel.reset k.chans c
def Stack.setChan (k : Stack) (c : Nat) (x : Channel) : Stack := { k with chans := Table.put k.chans c x }

/-- A counter that holds at its highest value. -/
def satInc (x : U32) : U32 := if x = 0xFFFFFFFF then x else x + 1

/-- The device raises an event: it is queued, or dropped and counted where 16 wait (R433). -/
def State.event (s : State) (stack chan ctx src : Nat) (arg : U32) : State :=
  s.modStack stack (fun k =>
    let c := k.chan chan
    if c.queue.length < 16 then k.setChan chan { c with queue := c.queue ++ [eventValue chan ctx src arg] }
    else { k with evlost := satInc k.evlost })

/-- The stack that holds a context's virtual core 0 (R426, R432). -/
def State.homeStack (s : State) (ctx : Nat) : Nat := coreStack (((s.ctx ctx).phys 0).getD 0)

/-! ## The fault record (R425 to R428) -/

/-- What a fault record says. -/
structure FaultRec where
  cls     : FaultClass
  ctx     : Nat
  core    : Nat
  obj     : U32
  ip      : BitVec 20
  fp      : U32
  precise : Bool
  parked  : Bool
  supv    : Bool
  token   : Bool
  port    : Nat
  reason  : Nat
  d0      : Nat
  d1      : Nat
  d2      : Nat
  deriving DecidableEq, Repr

/-- The 64 bytes of a record (R425) with index n. -/
def State.recordBytes (s : State) (r : FaultRec) (n : U32) : List Byte :=
  let st := coreStack r.core
  let k := s.stack st
  let flags := (if r.precise then 1 else 0) + (if r.parked then 2 else 0) + (if r.supv then 4 else 0) +
    (if r.token then 8 else 0)
  natLe 1 r.cls.code ++ natLe 1 flags ++ natLe 2 r.ctx ++ natLe 2 (s.vcoreOf r.core).toNat ++ natLe 1 r.port ++
  natLe 1 r.reason ++ natLe 4 r.obj.toNat ++ natLe 4 r.ip.toNat ++ natLe 4 r.fp.toNat ++ natLe 4 n.toNat ++
  natLe 8 k.timeReg.toNat ++ natLe 4 k.errReg.toNat ++ natLe 2 k.epoch.toNat ++
  natLe 1 (k.dom.toNat + 16 * st) ++ natLe 1 0 ++ natLe 8 r.d0 ++ natLe 8 r.d1 ++ natLe 8 r.d2

/-- A record goes to the context's fault log (R426): the state, and the index that tokens for the fault carry. -/
def State.logFault (s : State) (r : FaultRec) : State × U32 :=
  let c := s.ctx r.ctx
  let lost : State × U32 :=
    let n := satInc c.flogLost
    ((s.modCtx r.ctx (fun c => { c with flogLost := n })).event (s.homeStack r.ctx) 8 r.ctx 0 n, 0xFFFFFFFF)
  if c.flog = 0 ∨ c.flogn = 0 ∨ (c.flogWr - c.flogRd).toNat = c.flogn then lost
  else
    match s.ctxWrite r.ctx (c.flog.toNat + 64 * (c.flogWr.toNat % c.flogn)) (s.recordBytes r c.flogWr) with
    | .error _ => lost
    | .ok t => (t.modCtx r.ctx (fun c => { c with flogWr := c.flogWr + 1 }), c.flogWr)

/-- The VALUE of a fault token (R33). -/
def faultValue (cls : FaultClass) (vcore : BitVec 12) (n : U32) : U64 :=
  BitVec.ofNat 8 cls.code ++ vcore ++ (0 : BitVec 12) ++ n

/-- The context's fault handler is there to be sent to (R424): HFP is not 0 and names a core of the region. -/
def Ctx.hasHandler (c : Ctx) : Bool := c.hfp.toNat != 0 && (c.phys (fpVcore c.hfp)).isSome

/-- A token for the context's fault handler (R424). -/
def State.toHandler (s : State) (ctx core : Nat) (v : U64) : State :=
  let c := s.ctx ctx
  if c.hfp.toNat = 0 then s
  else
    match c.phys (fpVcore c.hfp) with
    | none => s
    | some dst =>
      (s.modCtx ctx (fun c => { c with quiet := false })).post core dst (.token {
        fp := c.hfp, ip := c.hip, port := c.hport,
        val := { kind := .fault, value := v, round := 0, prov := provData, lin := Lineage.none } } false)

/-- A fault that no operator carries: its record, and its token to the context's fault handler (R423). -/
def State.faultHandler (s : State) (r : FaultRec) : State :=
  let p := s.logFault { r with precise := true, token := (s.ctx r.ctx).hasHandler }
  p.1.toHandler r.ctx r.core (faultValue r.cls (s.vcoreOf r.core) p.2)

/-! ## Sending tokens -/

/-- The region cores in a stack, by rising virtual core id (R167). -/
def Ctx.cores (c : Ctx) (stack : Nat) : List (Nat × Nat) := c.region.filter (fun x => coreStack x.2 == stack)

/-- The core that stands for a context's agents of a stack in records and events: its lowest one there, else its virtual core 0 (log 131). -/
def State.lowCore (s : State) (ctx stack : Nat) : Nat :=
  match (s.ctx ctx).cores stack with
  | x :: _ => x.2
  | [] => ((s.ctx ctx).phys 0).getD (stack * 256)

/-- A token from a core to the frame its FP names (R165): outside the region it is discarded with REGION_RANGE to the
context's fault handler. -/
def State.send (s : State) (src ctx : Nat) (t : Token) (reply : Bool) : State :=
  match s.fpCore ctx t.fp with
  | some dst => (s.modCtx ctx (fun c => { c with quiet := false })).post src dst (.token t reply)
  | none =>
    s.faultHandler {
      cls := .regionRange, ctx := ctx, core := if src < 4096 then src else s.lowCore ctx ((src - 4096) % 16),
      obj := 0, ip := t.ip, fp := 0, precise := true, parked := false, supv := false, token := false, port := 0,
      reason := 0, d0 := fpVcore t.fp, d1 := 0, d2 := 0 }

/-- LIVE of a frame grows by one (R39). -/
def State.liveInc (s : State) (ctx : Nat) (fp : U32) : State :=
  match s.fpCore ctx fp with
  | none => s
  | some c => s.modCore c (fun k => k.modAny fp (fun f => { f with live := f.live + 1 }))

/-- LIVE of a frame falls by one, where it is not 0 (log 19); a free that waited for 0 takes effect at once (R39, R40). -/
def State.liveDec (s : State) (ctx : Nat) (fp : U32) : State :=
  match s.fpCore ctx fp with
  | none => s
  | some c =>
    match (s.core c).anyFrame? fp with
    | none => s
    | some f =>
      if f.live.toNat = 0 then s
      else
        let s := s.modCore c (fun k => k.modAny fp (fun f => { f with live := f.live - 1 }))
        if f.freepend && f.live.toNat == 1 then { s with due := s.due ++ [.deferredFree c fp] } else s

/-! ## The end of a recording (R138) -/

/-- The outcome word of TAPEINFO.LAST (R163). -/
def TapeEngine.setLast (e : TapeEngine) (ctx tmpl : Nat) (w : U64) : TapeEngine :=
  { e with last := (ctx, tmpl, w) :: e.last.filter (fun x => !(x.1 == ctx && x.2.1 == tmpl)) }

/-- The recording of a quad ends early: no tape is left, a TAPE_UNRECORDABLE record is logged (R138). The TAPEGRDs and TAPEENDs that
wait in it act as in NORMAL next. -/
def State.endRecording (s : State) (quad reason : Nat) : State :=
  match (s.engine quad).record with
  | none => s
  | some r =>
    let s := s.modEngine quad (fun e =>
      { e with record := none, freed := e.freed ++ r.atGuard }.setLast r.ctx r.tmpl (BitVec.ofNat 64 (9 + 256 * reason)))
    let s := s.modTask r.task (fun t => { t with tape := .none })
    match s.task? r.task with
    | none => s
    | some t =>
      (s.logFault {
        cls := .tapeUnrecordable, ctx := r.ctx, core := quadCore quad 0, obj := t.obj, ip := 0,
        fp := t.rootFp, precise := false, parked := false, supv := false, token := false, port := 0,
        reason := reason, d0 := 0, d1 := 0, d2 := 0 }).1

/-- The recording that watches a task on the quad of a core; a TAPEEND has ended the one it waits in (R135). -/
def State.recording? (s : State) (core task : Nat) : Option Recording :=
  match (s.engine (quadOf core)).record with
  | some r => if r.task == task && r.open_ then some r else none
  | none => none

/-! ## Emission (R59, R60) and the precise fault (R11, R423) -/

/-- A token to a destination's IP and port in a frame. -/
def State.sendAt (s : State) (g : Firing) (fp : U32) (d : Dest) (v : Val) (reply : Bool) : State :=
  s.send g.core g.ctx { fp := fp, ip := d.ip, port := d.port, val := v } reply

/-- The frame that a destination names (R59): none where it discards, where the parent is a host continuation, and
where the operand that should name it is no scalar. -/
def State.destFp (s : State) (g : Firing) (d : Dest) : Option U32 :=
  match d.mode with
  | .same => some g.fp
  | .discard => none
  | .parent =>
    match (s.core g.core).anyFrame? g.fp with
    | some f => if f.hostc then none else some f.pfp
    | none => none
  | .operand =>
    -- LDG names the frame in its third operand (R289), every other operator in R
    match (if g.t.isSome then g.t else g.r) with
    | some v => if v.kind = .scalar then some (field v.value 32 32) else none
    | none => none

/-- What a fault record says of the operator of a firing. -/
def Firing.fault (g : Firing) (cls : FaultClass) (d0 d1 d2 : Nat) : FaultRec :=
  { cls := cls, ctx := g.ctx, core := g.core, obj := g.obj, ip := g.ip, fp := g.fp, precise := true,
    parked := false, supv := false, token := false, port := 0, reason := 0, d0 := d0, d1 := d1, d2 := d2 }

/-- An output of a replayed command reaches its tape engine: a fault stops the replay, any other value is kept for later
descriptors (R140, R143). -/
def State.replayOut (s : State) (q t e : Nat) (second : Bool) (v : Val) : State :=
  s.modEngine q (fun en => { en with replays := en.replays.map (fun r =>
    if r.task != t then r
    else if v.kind = .fault then { r with fault := if r.fault = none then some v else r.fault }
    else { r with kept := Table.put r.kept (2 * e + (if second then 1 else 0)) v }) })

/-- The token of a fault with record index n, sent to dest0 (R60), or to the tape engine for a replayed command (R143). -/
def State.faultToken (s : State) (g : Firing) (d : Dest) (cls : FaultClass) (n : U32) (reply : Bool) : State :=
  let v : Val := {
    kind := .fault, value := faultValue cls (s.vcoreOf g.core) n, round := g.l.round, prov := provData,
    lin := Lineage.none }
  match g.replay, g.recorded with
  | some (q, t, e), false => s.replayOut q t e false v
  | _, _ =>
    match s.destFp g d with
    | none => s
    | some fp => s.sendAt g fp d v reply

/-- A precise fault of an operator: the record, the token to dest0, and no other effect (R11, R60, R423). A recording of
the task ends with reason 6 (R138). -/
def State.raise (s : State) (g : Firing) (d : Dest) (r : FaultRec) (reply : Bool) : State :=
  let replayed := g.replay.isSome && !g.recorded
  let p := s.logFault { r with token := d.mode != .discard && (replayed || (s.destFp g d).isSome) }
  let s := p.1.faultToken g d r.cls p.2 reply
  match s.recording? g.core g.task with
  | some _ => s.endRecording (quadOf g.core) 6
  | none => s

/-- A precise fault with its detail (R427). -/
def State.fault (s : State) (g : Firing) (f : Fields) (cls : FaultClass) (detail : Nat) : State :=
  s.raise g f.d0 (g.fault cls detail 0 0) false

/-- One token to a destination (R59): dest1 where second is set. A parent destination of a host continuation raises
NO_PARENT for this token. -/
def State.emitTo (s : State) (g : Firing) (f : Fields) (second : Bool) (v : Val) (reply : Bool) : State :=
  let d := if second then f.d1 else f.d0
  match d.mode with
  | .discard => s
  | .same => s.sendAt g g.fp d v reply
  | .operand =>
    match s.destFp g d with
    | some fp => s.sendAt g fp d v reply
    | none => s
  | .parent =>
    match (s.core g.core).anyFrame? g.fp with
    | none => s
    | some fr => if fr.hostc then s.fault g f .noParent 0 else s.sendAt g fr.pfp d v reply

/-- One token of an operator. A recorded command's output is the exact token of that command, with PROV DATA (R128, R130,
R131); a replayed command's output goes to no frame but to the engine (R140, R143). -/
def State.emit (s : State) (g : Firing) (f : Fields) (second : Bool) (v : Val) (reply : Bool := false) : State :=
  match g.replay with
  | none => s.emitTo g f second v reply
  | some (q, t, e) =>
    match g.recorded with
    | false => s.replayOut q t e second v
    | true =>
      let l : Lineage := { out := some (t * 65536 + e, second), anc := [t * 65536 + e] }
      s.emitTo g f second { v with prov := provData, lin := l } reply

/-- A result to every destination, dest0 first (R60). -/
def State.emitBoth (s : State) (g : Firing) (f : Fields) (v : Val) : State :=
  (s.emit g f false v).emit g f true v

/-- A logged fault (R423): a record and no token. -/
def State.faultLogged (s : State) (r : FaultRec) : State := (s.logFault { r with precise := false, token := false }).1

/-- A supervisor fault (R423): a record and an event on the stack of the core. -/
def State.faultSupervisor (s : State) (r : FaultRec) (chan : Nat) : State :=
  let p := s.logFault { r with precise := false, supv := true, token := false }
  p.1.event (coreStack r.core) chan r.ctx (s.vcoreOf r.core).toNat p.2

/-- A parked fault (R423): a record, a token to the context's fault handler, the PARKED event; with the record's index. -/
def State.faultParked (s : State) (r : FaultRec) : State × U32 :=
  let p := s.logFault { r with precise := false, parked := true, token := (s.ctx r.ctx).hasHandler }
  let s := p.1.toHandler r.ctx r.core (faultValue r.cls (s.vcoreOf r.core) p.2)
  (s.event (coreStack r.core) 4 r.ctx (s.vcoreOf r.core).toNat p.2, p.2)

/-- A step that follows at once. -/
def State.soon (s : State) (i : Instr) : State := { s with due := s.due ++ [i] }

/-- A number for a new command or task. -/
def State.newId (s : State) : State := { s with ids := s.ids + 1 }

/-- The firing has executed: no operator is in its cycle of execution. -/
def State.retire (s : State) : State := { s with cur := none }

/-- A firing at work counts one PERF counter of its core (R451). -/
def Core.count (k : Core) (n : Nat) : Core := { k with perf := Table.put k.perf n (Table.look 0 k.perf n + 1) }

end Sys2Proof.Machine
end

