-- ==== Sys2Proof/Machine/Operands.lean ====
section
/-! DEFINITION. The operands of a firing: the checks of R53 with markers (R188), nulls (R190) and fault tokens (R191), and the provenance of results (R130). -/

namespace Sys2Proof.Machine

/-! ## Provenance (R129, R130) -/

/-- The argument that a LIN or GRD tag names, or none for another tag. -/
def provArg (p : BitVec 4) : Option Nat :=
  if 1 ≤ p.toNat ∧ p.toNat ≤ 6 then some (p.toNat - 1)
  else if 8 ≤ p.toNat ∧ p.toNat ≤ 13 then some (p.toNat - 8)
  else none

/-- The tag of a result by rules 1, 3, 4 and 5 of R130. -/
def provJoin (ps : List (BitVec 4)) : BitVec 4 :=
  if ps.any (· == 7) then 7
  else
    match ps.filter (· != 0) with
    | [] => 0
    | p :: t =>
      match provArg p with
      | some k => if t.all (fun q => provArg q == some k) then BitVec.ofNat 4 (8 + k) else 14
      | none => 14

/-- LIN (R129). -/
def provLin (p : BitVec 4) : Bool := decide (1 ≤ p.toNat) && decide (p.toNat ≤ 6)

/-- The tag of ADD's result (R130, rule 2 before the others). -/
def provAdd (a b : BitVec 4) : BitVec 4 :=
  if provLin a && b == 0 then a else if provLin b && a == 0 then b else provJoin [a, b]

/-- The tag of SUB's result (R130, rule 2 before the others). -/
def provSub (a b : BitVec 4) : BitVec 4 := if provLin a && b == 0 then a else provJoin [a, b]

/-- The recorded entries that values descend from (R128). -/
def ancestors (vs : List Val) : List Nat :=
  (vs.flatMap (fun v => v.lin.anc)).eraseDups

/-- A scalar computed from operands: it takes the round of the firing and the tag given. -/
def Val.computed (x : U64) (round : BitVec 8) (prov : BitVec 4) (vs : List Val) : Val :=
  { kind := .scalar, value := x, round := round, prov := prov, lin := { out := none, anc := ancestors vs } }

/-- A value that passes an operator unchanged and descends from other operands as well (R128). -/
def Val.since (v : Val) (vs : List Val) : Val := { v with lin := { v.lin with anc := ancestors (v :: vs) } }

/-- The marker of a round that an operator makes of operands, with their tag (R130). -/
def Val.markerOf (round : BitVec 8) (vs : List Val) : Val := Val.marker round (provJoin (vs.map Val.prov)) (ancestors vs)

/-- A null that an operator makes of operands, with their tag (R130). -/
def Val.nullOf (round : BitVec 8) (vs : List Val) : Val :=
  { Val.null round (provJoin (vs.map Val.prov)) with lin := { out := none, anc := ancestors vs } }

/-- The operands of a firing that are there. -/
def Firing.vals (g : Firing) : List Val := g.l :: (g.r.toList ++ g.t.toList)

/-! ## The checks of R53 -/

/-- What the checks of R53 make of a firing. -/
inductive Checked where
  | forward (v : Val)
  | marker (v : Val)
  | nothing
  | nulls (v : Val)
  | fail (c : FaultClass)
  | go (l : Val) (r t : Option Val)
  deriving DecidableEq, Repr

/-- What an operator says of its operands: whether it is a handler (R191), whether it takes markers as values (R189),
whether it takes nulls as values (R213), the identities of NP 10 by operand (R190), and whether each operand must
be a scalar, a tile handle, or of any KIND; strictL says that a null L has no identity (R301). -/
structure Need where
  handler : Bool
  markers : Bool
  nulls   : Bool
  ident   : Nat → U64
  kl      : Kind → Bool
  kr      : Kind → Bool
  kt      : Kind → Bool
  strictL : Bool

def anyKind (_ : Kind) : Bool := true
def isScalar (k : Kind) : Bool := k == .scalar
def isTile (k : Kind) : Bool := k == .tile
def isCap (k : Kind) : Bool := k == .cap

/-- An operator that takes operands of any KIND. -/
def Need.any : Need :=
  { handler := false, markers := false, nulls := false, ident := fun _ => 0, kl := anyKind, kr := anyKind, kt := anyKind,
    strictL := false }

/-- An operator of scalars. -/
def Need.scalars : Need := { Need.any with kl := isScalar, kr := isScalar, kt := isScalar }

/-- Step 3 of R53 under NP 10: a null becomes the identity that the operator names. -/
def replaceNull (n : Need) (k : Nat) (v : Val) : Val :=
  if v.kind = .null then { v with kind := .scalar, value := n.ident k } else v

/-- The KIND of operand k is accepted; a null operand never is, unless nulls are values. -/
def kindsOk (n : Need) (l : Val) (r t : Option Val) : Bool :=
  n.kl l.kind &&
  (match r with
   | some v => n.kr v.kind
   | none => true) &&
  (match t with
   | some v => n.kt v.kind
   | none => true)

/-- The checks of R53, steps 1 to 4, in their order. -/
def Need.check (n : Need) (f : Fields) (g : Firing) : Checked :=
  let vs := g.vals
  match (if n.handler then none else vs.find? (fun v => v.kind = .fault)) with
  | some v => .forward v
  | none =>
    match (g.l :: g.r.toList).find? (fun v => v.kind = .marker) with
    | some v => if n.markers then .go g.l g.r g.t else .marker v
    | none =>
      if !n.nulls && vs.any (fun v => v.kind = .null) then
        match f.np with
        | .absorb => .nothing
        | .pass => .nulls (Val.nullOf g.l.round vs)
        | .fault => .fail .nullOperand
        | .identity =>
          if n.strictL && g.l.kind == .null then .fail .nullOperand
          else
          let l := replaceNull n 0 g.l
          let r := g.r.map (replaceNull n 1)
          let t := g.t.map (replaceNull n 2)
          if kindsOk n l r t then .go l r t else .fail .kind
      else if kindsOk n g.l g.r g.t then .go g.l g.r g.t
      else .fail .kind

/-- A firing carried through the checks of R53; what is left to do is given the operands. -/
def State.checked (s : State) (n : Need) (f : Fields) (g : Firing)
    (k : State → Val → Option Val → Option Val → State) : State :=
  match n.check f g with
  | .forward v => s.emit g f false v
  | .marker v => s.emitBoth g f v
  | .nothing => s
  | .nulls v => s.emitBoth g f v
  | .fail c => s.fault g f c 0
  | .go l r t => k s l r t

/-- The execution of the operator in its cycle: it leaves that cycle, and its checks and effect follow. With no operator
in execution nothing happens. -/
def State.execute (s : State) (k : State → Firing → State) : State :=
  match s.cur with
  | none => s
  | some g => k s.retire g

/-- A light operator: R53, then its effect. -/
def State.operate (s : State) (n : Need) (f : Fields)
    (k : State → Firing → Val → Option Val → Option Val → State) : State :=
  s.execute (fun s g => s.checked n f g (fun s l r t => k s g l r t))

/-! ## The instruction store (R178) -/

/-- The resident page of an instruction, if any. -/
def Core.pageOf (k : Core) (ctx : Nat) (obj : U32) (ip : BitVec 20) : Option PageFrame :=
  k.pages.find? (fun p => p.ctx == ctx && p.obj == obj && p.page == ip.toNat / 256)

/-- The word at an IP of a resident page. -/
def Core.wordAt (k : Core) (ctx : Nat) (obj : U32) (ip : BitVec 20) : Option U128 :=
  (k.pageOf ctx obj ip).map (fun p => Table.look 0 p.words (ip.toNat % 256))

/-- The operator and fields of a word. -/
def wordForm (w : U128) : Option (Nat × Fields) :=
  match decode w with
  | .ok i => i.form.map (fun x => (x.1, x.2.2))
  | .reject _ => none

/-- The opcode and fields of the operator of a firing. -/
def State.formOf (s : State) (g : Firing) : Option (Nat × Fields) :=
  match g.word with
  | some w => wordForm w
  | none => ((s.core g.core).wordAt g.ctx g.obj g.ip).bind wordForm

/-- A stateful operator, which takes markers as values (R189): RJOIN, COMPACT, ORDMERGE, VRSUM, VRMAX, MRD. -/
def statefulOp (opc : Nat) : Bool :=
  opc == 0x10 || opc == 0x12 || opc == 0x13 || opc == 0x95 || opc == 0x96 || opc == 0xA7

/-- A handler (R191, R442): ISNULL.KIND and FLTRD. -/
def handlerOp (opc : Nat) (f : Fields) : Bool := (opc == 0x15 && f.fn.toNat == 1) || opc == 0xE3

/-- The opcode dispatches in the light slot (R65). -/
def lightOp (opc : Nat) : Bool := decide (opc < 0x50) || (decide (0xC0 ≤ opc) && decide (opc < 0xD0))

end Sys2Proof.Machine
end

