-- ==== Sys2Proof/Machine/OrdMerge.lean ====
section
/-! DEFINITION. Rounds compared modulo 256 (R34) and the state machines of the stateful control operators: RJOIN (R210) and ORDMERGE (R194, R212). -/

namespace Sys2Proof.Machine

/-! ## Rounds (R34) -/

/-- How round a stands to round b. -/
inductive RoundOrder where
  | equal | later | earlier | undefined
  deriving DecidableEq, Repr

/-- R34. -/
def roundOrder (a b : BitVec 8) : RoundOrder :=
  let d := (a - b).toNat
  if d = 0 then .equal else if d < 128 then .later else if d = 128 then .undefined else .earlier

/-- FROUND advances to a later round (R209). -/
def Frame.advance (f : Frame) (r : BitVec 8) : Frame :=
  if roundOrder r f.fround = .later then { f with fround := r } else f

/-! ## RJOIN (R210) -/

/-- The state word of RJOIN: CUR, LM, RM, LM1, RM1. -/
structure Rjoin where
  cur : BitVec 8
  lm  : Bool
  rm  : Bool
  lm1 : Bool
  rm1 : Bool
  deriving DecidableEq, Repr

def Rjoin.word (j : Rjoin) : U64 :=
  j.cur ++ bit1 j.lm ++ bit1 j.rm ++ bit1 j.lm1 ++ bit1 j.rm1 ++ (0 : BitVec 52)

def Rjoin.ofWord (w : U64) : Rjoin :=
  { cur := field w 56 8, lm := bitAt w 55, rm := bitAt w 54, lm1 := bitAt w 53, rm1 := bitAt w 52 }

/-- The identity of RJOIN by FN and type (R210). -/
def rjoinIdentity (fn : Nat) (signed : Bool) : U64 :=
  match fn with
  | 2 => if signed then 0x7FFFFFFFFFFFFFFF else 0xFFFFFFFFFFFFFFFF
  | 3 => if signed then 0x8000000000000000 else 0
  | 5 => 0xFFFFFFFFFFFFFFFF
  | _ => 0

/-- The update of RJOIN by FN and type (R210). -/
def rjoinUpdate (fn : Nat) (signed : Bool) (acc v : U64) : U64 :=
  let less (a b : U64) : Bool := if signed then a.slt b else a.ult b
  match fn with
  | 0 => acc + 1
  | 1 => acc + v
  | 2 => if less v acc then v else acc
  | 3 => if less acc v then v else acc
  | 4 => acc ||| v
  | _ => acc &&& v

/-- What a token makes of RJOIN: refused with ROUND_SKEW or ROUND_RANGE, or the new state. second says that the
accumulator of CUR + 1 takes the token's value. -/
inductive RjoinStep where
  | refuse (c : FaultClass)
  | data (second : Bool)
  | mark (j : Rjoin)
  deriving DecidableEq, Repr

/-- The rule of R210 for a token of a round on a port. -/
def Rjoin.take (j : Rjoin) (marker port : Bool) (round : BitVec 8) : RjoinStep :=
  let seen := if port then j.rm else j.lm
  match roundOrder round j.cur with
  | .undefined => .refuse .roundRange
  | .earlier => .refuse .roundSkew
  | .equal =>
    if marker then .mark (if port then { j with rm := true } else { j with lm := true }) else .data false
  | .later =>
    if round != j.cur + 1 then .refuse .roundSkew
    else if marker then .mark (if port then { j with rm1 := true } else { j with lm1 := true })
    else if seen then .data true
    else .refuse .roundSkew

/-- RJOIN advances to the next round (R210). -/
def Rjoin.next (j : Rjoin) : Rjoin := { cur := j.cur + 1, lm := j.lm1, rm := j.rm1, lm1 := false, rm1 := false }

/-! ## ORDMERGE (R212) -/

/-- The state of ORDMERGE with its arms and what it has emitted, oldest first; marks holds the markers of CUR that have arrived,
faults the ROUND_SKEW and ROUND_RANGE faults of tokens it discarded, with their arm. -/
structure Merge where
  cur    : BitVec 8
  lm     : Bool
  rm     : Bool
  left   : List Val
  right  : List Val
  out    : List Val
  marks  : List Val
  faults : List (FaultClass × Bool × Val)
  deriving DecidableEq, Repr

/-- The state word of ORDMERGE (R212): LCNT and RCNT count the tokens in the arm buffers. -/
def Merge.word (m : Merge) (depth : Nat) : U64 :=
  m.cur ++ bit1 m.lm ++ bit1 m.rm ++ BitVec.ofNat 12 (min depth m.left.length) ++
    BitVec.ofNat 12 (min depth m.right.length) ++ (0 : BitVec 30)

/-- The token would be appended to its arm buffer (R212). -/
def mergeAppends (cur : BitVec 8) (lm : Bool) (port : Bool) (x : Val) : Bool :=
  match roundOrder x.round cur with
  | .equal => x.kind != .marker && (if port then !lm else lm)
  | .later => true
  | .earlier => false
  | .undefined => false

/-- One token through the rules of R212, without the replay that follows the end of a round. The Bool says that the
round has ended. -/
def Merge.take (m : Merge) (port : Bool) (x : Val) : Merge × Bool :=
  match roundOrder x.round m.cur with
  | .undefined => ({ m with faults := m.faults ++ [(.roundRange, port, x)] }, false)
  | .earlier => ({ m with faults := m.faults ++ [(.roundSkew, port, x)] }, false)
  | .later => (if port then { m with right := m.right ++ [x] } else { m with left := m.left ++ [x] }, false)
  | .equal =>
    if x.kind = .marker then
      let m := if port then { m with rm := true, marks := m.marks ++ [x] } else { m with lm := true, marks := m.marks ++ [x] }
      let own (v : Val) : Bool := v.round == m.cur && v.kind != .marker
      let m := if m.lm then
          { m with out := m.out ++ m.right.filter own, right := m.right.filter (fun v => !own v) }
        else m
      (m, m.lm && m.rm)
    else if mergeAppends m.cur m.lm port x then
      (if port then { m with right := m.right ++ [x] } else { m with left := m.left ++ [x] }, false)
    else ({ m with out := m.out ++ [x] }, false)

/-- Tokens through the rules of R212, with the replay of both buffers at the end of each round; fuel bounds the
tokens taken. -/
def Merge.run : Nat → Merge → List (Bool × Val) → Merge
  | 0, m, _ => m
  | _ + 1, m, [] => m
  | fuel + 1, m, (p, x) :: rest =>
    match m.take p x with
    | (m, false) => Merge.run fuel m rest
    | (m, true) =>
      let again := m.left.map (fun v => (false, v)) ++ m.right.map (fun v => (true, v))
      Merge.run fuel { m with
        out := m.out ++ [Val.markerOf m.cur m.marks], cur := m.cur + 1, lm := false, rm := false, left := [], right := [],
        marks := [] } (again ++ rest)

/-- The BASE units of one arm buffer of depth D (R194): the smallest block that holds 2D slots. -/
def armUnits (depth : Nat) : Nat :=
  ((List.range 11).map (fun k => 2 ^ k)).find? (fun u => decide (2 * depth ≤ 8 * u)) |>.getD 1024

/-- The state of ORDMERGE that a frame holds in slot n, or its first state (R212). -/
def Frame.merge (f : Frame) (n : Nat) : Merge :=
  let a := Table.find f.arms n
  let l := (a.map Arms.left).getD []
  let r := (a.map Arms.right).getD []
  match f.slot n with
  | .parked _ v =>
    let j := field v.value 54 2 != 0
    { cur := field v.value 56 8, lm := bitAt v.value 55, rm := bitAt v.value 54, left := l, right := r, out := [],
      marks := if j then [v] else [], faults := [] }
  | _ => { cur := f.fround, lm := false, rm := false, left := l, right := r, out := [], marks := [], faults := [] }

/-- A state slot as it reads (R210 to R212): parked, a scalar on port L. -/
def stateSlot (w : U64) (round : BitVec 8) (prov : BitVec 4) (anc : List Nat) : Slot :=
  .parked false { kind := .scalar, value := w, round := round, prov := prov, lin := { out := none, anc := anc } }

end Sys2Proof.Machine
end

