-- ==== Sys2Proof/Machine/Frames.lean ====
section
/-! DEFINITION. The frame store: buddy placement (R36, R37, R194), the freeing of frames (R40, R192, R205, R493), spill and fill (R46 to R49), and the serving of tokens (R37, R38, R42, R43, R182, R188, R191). -/

namespace Sys2Proof.Machine

/-! ## Placement in the frame store -/

/-- The blocks of BASE units in use: frames, and the arm buffers of ORDMERGE, of resident and spilled frames (R36, R194). -/
def Core.blocks (k : Core) : List (Nat × Nat) :=
  k.frames.map (fun f => (f.base, classUnits f.cls)) ++
  (k.frames ++ k.spillDir.map Spilled.frame).flatMap (fun f =>
    f.arms.flatMap (fun a => [(a.2.lbase, a.2.units), (a.2.rbase, a.2.units)]))

/-- Free frame-store slots (R168). -/
def Core.freeSlots (k : Core) : Nat := 32768 - 8 * (k.blocks.map Prod.snd).sum

/-- Two blocks of units overlap. -/
def blocksMeet (a b : Nat × Nat) : Bool := decide (a.1 < b.1 + b.2) && decide (b.1 < a.1 + a.2)

/-- The aligned free blocks of a number of units, a power of two (R36). -/
def Core.places (k : Core) (units : Nat) : List Nat :=
  let used := k.blocks
  ((List.range (4096 / units)).map (· * units)).filter (fun b => used.all (fun x => !blocksMeet x (b, units)))

/-- A free block, by the allocator's own choice (log 9). -/
def State.place (s : State) (core units : Nat) : Option Nat :=
  let ps := (s.core core).places units
  ps[s.choice ps.length]?

/-- The unit generation that a frame at a base takes: the unit's own, moved on while a spilled frame has the FP that
it would give (R37); none if every value is taken. -/
def Core.freshGen (k : Core) (vcore : BitVec 12) (base : Nat) : Nat → BitVec 8 → Option (BitVec 8)
  | 0, _ => none
  | fuel + 1, g =>
    if k.spillDir.any (fun e => e.fp == mkFp vcore.toNat base g) then k.freshGen vcore base fuel (g + 1)
    else some g

/-- The places of a frame with the generation it takes at each; a block at which every value is taken is none (R37). -/
def Core.framePlaces (k : Core) (units : Nat) : List (Nat × BitVec 8) :=
  (k.places units).filterMap (fun b => (k.freshGen k.vcore b 256 (Table.look 0 k.unitGen b)).map (fun g => (b, g)))

/-- A frame laid in the store of a core: at a free place, by the allocator's own choice (log 9), with its generation (R37). -/
def State.allocFrame (s : State) (core : Nat) (fr : Frame) : Option (State × U32) :=
  let k := s.core core
  let ps := k.framePlaces (classUnits fr.cls)
  match ps[s.choice ps.length]? with
  | none => none
  | some (b, g) =>
    let fr := { fr with base := b, gen := g, born := s.clock, stamp := s.clock }
    some ((s.spend).setCore core { k with frames := k.frames ++ [fr], unitGen := Table.put k.unitGen b g },
      mkFp k.vcore.toNat b g)

/-! ## Freeing (R40, R192, R205, R493) -/

/-- The release message for a freed child (R192), where RET has not taken the count with its reply. -/
def State.release (s : State) (core ctx : Nat) (fr : Frame) : State :=
  if fr.owes then
    match s.fpCore ctx fr.pfp with
    | some dst => s.post core dst (.release fr.pfp)
    | none => s
  else s

/-- What the freeing of a root frame tells its task (R464); a range task ends by R115, not with one of its workers. -/
def State.rootFreed (s : State) (fr : Frame) : State :=
  if fr.root then s.modTask fr.task (fun t => { t with freed := t.freed || t.range.isNone }) else s

/-- The free of a frame takes effect: its unit generation advances, its space and arm buffers return (R37, R40, R194),
and a resident or spilled frame leaves its place (R493: a spilled one's generation has advanced before). -/
def State.freeFrame (s : State) (core : Nat) (fp : U32) : State :=
  let k := s.core core
  let cx := k.ctx.getD 0
  match k.frame? fp with
  | some fr =>
    let k := { k with
      frames := k.frames.filter (fun f => !(f.base == fr.base && f.gen == fr.gen)),
      unitGen := Table.put k.unitGen fr.base (fr.gen + 1) }
    ((s.setCore core k).release core cx fr).rootFreed fr
  | none =>
    match k.spilled? fp with
    | some e =>
      let k := { k with spillDir := k.spillDir.filter (fun x => x.fp != fp) }
      ((s.setCore core k).release core cx e.frame).rootFreed e.frame
    | none => s

/-- A free of a resident frame (R40): at once where LIVE is 0, else when it reaches 0. -/
def State.freeOrWait (s : State) (core : Nat) (fp : U32) : State :=
  match (s.core core).frame? fp with
  | none => s
  | some fr =>
    if fr.live.toNat = 0 then s.freeFrame core fp
    else s.modCore core (fun k => k.modFrame fp (fun f => { f with freepend := true }))

/-- What is dropped under R37 counts as stale (R44; log 117). -/
def State.stale (s : State) (ctx : Nat) : State := s.modCtx ctx (fun c => { c with stalecnt := c.stalecnt + 1 })

/-! ## Spill and fill (R46 to R49) -/

/-- An entry of a ready class for the frame. -/
def readyFor (fp : U32) (l : List (Nat × Firing)) : Bool := l.any (fun e => e.2.fp == fp)

def msgFor (fp : U32) (m : Mail) : Bool :=
  match m.msg with
  | .token t _ => t.fp == fp
  | .release f => f == fp
  | .free f _ => f == fp

/-- A frame is spillable (R46): no token for it in the dispatch queue or the ready classes, none of its operators in
dispatch, no fill under way. -/
def State.spillable (s : State) (core : Nat) (fr : Frame) : Bool :=
  let k := s.core core
  let fp := fr.fp k.vcore
  !readyFor fp k.light && !readyFor fp k.engine && !(k.dispatchQ.any (msgFor fp)) &&
  !(k.installs.any (fun i => i.mail.any (msgFor fp))) &&
  (match s.cur with
   | some g => !(g.core == core && g.fp == fp)
   | none => true)

/-- The spillable frame served least recently, of those given. -/
def oldest (l : List Frame) : Option Frame :=
  l.foldl (fun b f =>
    match b with
    | none => some f
    | some x => if f.stamp < x.stamp then some f else some x) none

/-- The records that the backing area of a core holds (R47). -/
def Ctx.spillRecords (c : Ctx) : Nat := (c.fbasz.toNat - 65536) / 96

/-- The byte ranges of a spilled frame's records and directory entry in the backing area (R47). -/
def Ctx.recordRanges (c : Ctx) (vcore : Nat) (dir : Nat) (recs : List Nat) : List (Nat × Nat) :=
  let a := c.fba.toNat + vcore * c.fbasz.toNat
  (a + 16 * dir, 16) :: recs.map (fun r => (a + 65536 + 96 * r, 96))

/-- The class that stops a spill or fill at its pages (R49), or none. -/
def State.backingFault (s : State) (c : Ctx) (rs : List (Nat × Nat)) (k : Access) : Option FaultClass :=
  rs.findSome? (fun r =>
    match s.xlate c.ctxroot.toNat [] 0 k r.1 r.2 with
    | .ok _ => none
    | .err _ _ c _ => some c)

/-- FRAME_SPILL to the supervisor (R49): the record, the event, and the core's frame port parks. -/
def State.framePort (s : State) (core : Nat) (fp : U32) (obj : U32) : State :=
  let k := s.core core
  let s := s.faultSupervisor
    { cls := .frameSpill, ctx := k.ctx.getD 0, core := core, obj := obj, ip := 0, fp := fp, precise := false,
      parked := false, supv := true, token := false, port := 3 * 16, reason := 0, d0 := 0, d1 := 0, d2 := 0 } 5
  s.modCore core (fun k => { k with framePark := some .frameSpill })

/-- The bytes of a record of the backing area, as the core reads them. -/
def State.record (s : State) (core : Nat) (c : Ctx) (r : Nat × Nat) : List Byte :=
  match s.xlate c.ctxroot.toNat [] 0 .read r.1 r.2 with
  | .ok cs => s.readChunks (coreStack core) cs
  | .err _ _ _ _ => []

/-- A directory entry in the device's own form (R47; log 116): the FP, the class, the number of records, the index of the first
one, and LIVE. -/
def Spilled.bytes (e : Spilled) : List Byte :=
  natLe 4 e.fp.toNat ++ natLe 2 e.frame.cls ++ natLe 2 e.recs.length ++ natLe 4 (e.recs.headD 0) ++ natLe 4 e.frame.live.toNat

/-- One frame is written to the backing area (R46, R47), or the spill stops with FRAME_SPILL (R49). -/
def State.spillFrame (s : State) (core : Nat) (fr : Frame) : State × Bool :=
  let k := s.core core
  let cx := k.ctx.getD 0
  let c := s.ctx cx
  let fp := fr.fp k.vcore
  let used := k.spillDir.flatMap Spilled.recs
  let units := classUnits fr.cls
  let recs := ((List.range (min c.spillRecords (used.length + units))).filter (fun r => !used.contains r)).take units
  let dir := ((List.range 4096).find? (fun d => k.spillDir.all (fun e => e.dir != d))).getD 4096
  let full := decide (recs.length < units) || decide (4096 ≤ dir) || c.fbasz.toNat == 0
  let ranges := c.recordRanges k.vcore.toNat dir recs
  if full || (s.backingFault c ranges .write).isSome then (s.framePort core fp fr.obj, false)
  else
    let e : Spilled := { fp := fp, dir := dir, recs := recs, frame := fr }
    let k := { k with
      frames := k.frames.filter (fun f => !(f.base == fr.base && f.gen == fr.gen)),
      unitGen := Table.put k.unitGen fr.base (fr.gen + 1), spillDir := k.spillDir ++ [e] }
    let s := s.setCore core (k.count 3)
    let written := e.bytes :: (List.range units).map fr.unitRecord
    ((ranges.zip written).foldl (fun (s : State) w => s.ctxPut cx w.1.1 w.2) s, true)

/-- Frames are spilled, least recently served first, until what is asked for fits (R46); fuel bounds the frames. The
Bool says that it fits. -/
def State.makeRoom (s : State) (core : Nat) (fits : Core → Bool) : Nat → State × Bool
  | 0 => (s, fits (s.core core))
  | fuel + 1 =>
    if fits (s.core core) then (s, true)
    else
      match oldest ((s.core core).frames.filter (fun f => s.spillable core f)) with
      | none => (s, false)
      | some fr =>
        match s.spillFrame core fr with
        | (t, true) => t.makeRoom core fits fuel
        | (t, false) => (t, false)

/-- The frames on given units are spilled, if each is spillable (R48). -/
def State.clearUnits (s : State) (core : Nat) (b : Nat × Nat) : Nat → State × Bool
  | 0 => (s, false)
  | fuel + 1 =>
    match (s.core core).frames.find? (fun f => blocksMeet (f.base, classUnits f.cls) b) with
    | none => (s, true)
    | some fr =>
      if s.spillable core fr then
        match s.spillFrame core fr with
        | (t, true) => t.clearUnits core b fuel
        | (t, false) => (t, false)
      else (s, false)

/-- An arm buffer that stands on given units, with its frame, slot and side (R48). -/
def Core.armOn (k : Core) (b : Nat × Nat) : Option (U32 × Nat × Bool × Nat) :=
  (k.frames.map (fun f => (f.fp k.vcore, f)) ++ k.spillDir.map (fun e => (e.fp, e.frame))).findSome? (fun x =>
    x.2.arms.findSome? (fun a =>
      if blocksMeet (a.2.lbase, a.2.units) b then some (x.1, a.1, false, a.2.units)
      else if blocksMeet (a.2.rbase, a.2.units) b then some (x.1, a.1, true, a.2.units)
      else none))

/-- Arm buffers on given units move to other free units, which spills may free (R48). -/
def State.moveArms (s : State) (core : Nat) (b : Nat × Nat) : Nat → State × Bool
  | 0 => (s, false)
  | fuel + 1 =>
    match (s.core core).armOn b with
    | none => (s, true)
    | some (fp, slot, right, units) =>
      let places (k : Core) : List Nat := (k.places units).filter (fun p => !blocksMeet (p, units) b)
      let r := s.makeRoom core (fun k => !(places k).isEmpty) 4096
      let ps := places (r.1.core core)
      match ps[r.1.choice ps.length]? with
      | none => (r.1, false)
      | some p =>
        let t := r.1.spend.modCore core (fun k => k.modAny fp (fun f =>
          match Table.find f.arms slot with
          | none => f
          | some a =>
            { f with arms := Table.put f.arms slot (if right then { a with rbase := p } else { a with lbase := p }) }))
        t.moveArms core b fuel

/-- The header record of a spilled frame (R47): its first one. -/
def Ctx.headerRange (c : Ctx) (vcore : Nat) (e : Spilled) : List (Nat × Nat) := (c.recordRanges vcore 0 (e.recs.take 1)).drop 1

/-- The header record of a spilled frame does not read (R49, R493). -/
def State.headerFault (s : State) (core : Nat) (e : Spilled) : Bool :=
  let k := s.core core
  let c := s.ctx (k.ctx.getD 0)
  (s.backingFault c (c.headerRange k.vcore.toNat e) .read).isSome

/-- A free that names a spilled frame (R493): the core reads the header records. With LIVE 0 the frame goes, its records are
released and the free takes effect there; else the frame is filled back with FREEPEND. A page that does not read parks the frame
port (R49), and the free waits. -/
def State.freeSpilled (s : State) (core : Nat) (e : Spilled) : State :=
  let pend (s : State) : State := s.modCore core (fun k => k.modAny e.fp (fun f => { f with freepend := true }))
  if (s.core core).framePark.isSome then pend s
  else if s.headerFault core e then pend (s.framePort core e.fp e.frame.obj)
  else if e.frame.live.toNat = 0 then s.freeFrame core e.fp
  else pend s

/-- A free request served at the owning core (R205): a stale one is dropped, a root frame raises FRAME_ROOT, a
spilled frame is freed from its records or filled back first (R493); behind others that wait for its fill, or where the header
records do not read, the request waits with them. -/
def State.freeRequest (s : State) (core : Nat) (m : Mail) (fp : U32) (by_ : Firing) : State :=
  let k := s.core core
  let rootFault (s : State) : State :=
    s.raise by_ { mode := .discard, port := false, ip := 0 } (by_.fault .frameRoot 0 0 0) false
  match k.frame? fp with
  | some fr => if fr.root then rootFault s else s.freeOrWait core fp
  | none =>
    match k.spilled? fp with
    | none => s.stale (k.ctx.getD 0)
    | some e =>
      let wait (s : State) : State := s.modCore core (fun k => { k with fillQueue := k.fillQueue ++ [(fp, m)] })
      if k.framePark.isSome || k.fillQueue.any (fun x => x.1 == fp) then wait s
      else if s.headerFault core e then wait (s.framePort core fp e.frame.obj)
      else if e.frame.root then rootFault s
      else s.freeSpilled core e

/-- A spilled frame that a message waits for, or whose free waits for its LIVE (R48, R493). -/
def Core.wantsFill (k : Core) (e : Spilled) : Bool := e.frame.freepend || k.fillQueue.any (fun x => x.1 == e.fp)

/-- The first message that waits for the fill of a frame, if it is a free request, and the others. -/
def takeFree (fp : U32) : List (U32 × Mail) → Option (Mail × Firing × List (U32 × Mail))
  | [] => none
  | x :: t =>
    if x.1 == fp then
      match x.2.msg with
      | .free _ g => some (x.2, g, t)
      | _ => none
    else (takeFree fp t).map (fun p => (p.1, p.2.1, x :: p.2.2))

/-- A frame that was freed in the backing area leaves the fill queue: what waited for it takes its turn, and is stale. -/
def State.leaveFill (s : State) (core : Nat) (fp : U32) : State :=
  s.modCore core (fun k =>
    if (k.spilled? fp).isSome then k
    else { k with
      fillQueue := k.fillQueue.filter (fun x => x.1 != fp),
      dispatchQ := k.dispatchQ ++ (k.fillQueue.filter (fun x => x.1 == fp)).map Prod.snd })

/-- FRAME_FILL (R48): a spilled frame that a message waits for comes back to its own units; the waiting messages are
served in order. A free request first in line is treated under R493, as is a frame whose free waited for its header records. -/
def State.fill (s : State) (core : Nat) (fp : U32) : State :=
  let k := s.core core
  match k.spilled? fp, k.framePark, takeFree fp k.fillQueue with
  | some _, none, some (m, g, rest) =>
    let others := rest.filter (fun x => x.1 == fp)
    let t := (s.setCore core { k with fillQueue := rest.filter (fun x => x.1 != fp) }).freeRequest core m fp g
    (t.modCore core (fun k => { k with fillQueue := k.fillQueue ++ others })).leaveFill core fp
  | some e, none, none =>
    if !k.wantsFill e then s
    else if e.frame.freepend && e.frame.live.toNat == 0 then (s.freeSpilled core e).leaveFill core fp
    else
      let c := s.ctx (k.ctx.getD 0)
      let b := (e.frame.base, classUnits e.frame.cls)
      match s.clearUnits core b 4096 with
      | (s, false) => s
      | (s, true) =>
        match s.moveArms core b 64 with
        | (s, false) => s
        | (s, true) =>
          let k := s.core core
          let ranges := (c.recordRanges k.vcore.toNat 0 e.recs).drop 1
          if (s.backingFault c ranges .read).isSome then s.framePort core fp e.frame.obj
          else
            let waiting := (k.fillQueue.filter (fun x => x.1 == fp)).map Prod.snd
            let fr := { e.frame.ofRecords (ranges.map (s.record core c)) with stamp := s.clock }
            let k := { k with
              frames := k.frames ++ [fr],
              spillDir := k.spillDir.filter (fun x => x.fp != fp),
              unitGen := Table.put k.unitGen e.frame.base e.frame.gen,
              fillQueue := k.fillQueue.filter (fun x => x.1 != fp),
              dispatchQ := k.dispatchQ ++ waiting }
            s.setCore core (k.count 4)
  | _, _, _ => s

/-! ## Matching (R43) -/

/-- What the slot named by an instruction makes of an arriving token (R43). -/
inductive Match where
  | park
  | fire (slot : Slot) (l : Val) (r t : Option Val)
  | refuse (slot : Slot) (c : FaultClass)
  deriving DecidableEq, Repr

/-- The operands by port: the token's own port, and the other operand on the opposite one. -/
def byPort (port : Bool) (v w : Val) : Val × Val := if port then (w, v) else (v, w)

/-- Two tokens meet in a parked slot (R43, R188, R191): the arriving one x on port p, the parked one y on port q. -/
def meet (handler stateful : Bool) (p : Bool) (x : Val) (q : Bool) (y : Val) (third : Option Val) : Match :=
  let ops := byPort p x y
  if p == q then .refuse (.parked q y) .matchDup
  else if x.round != y.round then .refuse (.parked q y) .roundSkew
  else
    let fx := !handler && x.kind == .fault
    let fy := !handler && y.kind == .fault
    let mx := x.kind == .marker
    let my := y.kind == .marker
    if fx && my then .fire (.parked q y) x none none
    else if fy && mx then .fire (.parked p x) y none none
    else if (fx || fy) then .fire .empty ops.1 (some ops.2) third
    else if mx && !my then .refuse (.parked p x) .markerSkew
    else if my && !mx then .refuse (.parked q y) .markerSkew
    else if stateful && mx then .fire .empty ops.1 (some ops.2) third
    else .fire .empty ops.1 (some ops.2) third

/-- A sticky value as an operand: operands that fire together share the round of the token that fired (R187). -/
def Val.atRound (v : Val) (r : BitVec 8) : Val := { v with round := r }

/-- The table of R43 for AR 01, 10 and 11. third is the slot SLOT + 1. -/
def matchSlot (ar : Arity) (handler stateful : Bool) (p : Bool) (x : Val) (sl next : Slot) : Match :=
  match ar with
  | .monadic => .fire sl x none none
  | .sticky =>
    match sl with
    | .sticky _ y => .fire sl (byPort p x (y.atRound x.round)).1 (some (byPort p x (y.atRound x.round)).2) none
    | _ => .refuse sl .stickyAbsent
  | .dyadic =>
    match sl with
    | .empty => .park
    | .sticky _ y => .fire sl (byPort p x (y.atRound x.round)).1 (some (byPort p x (y.atRound x.round)).2) none
    | .parked q y => meet handler stateful p x q y none
  | .triadic =>
    match sl with
    | .empty => .park
    | .sticky _ y =>
      match next with
      | .sticky _ z => .fire sl (byPort p x (y.atRound x.round)).1 (some (byPort p x (y.atRound x.round)).2) (some (z.atRound x.round))
      | _ => .refuse sl .stickyAbsent
    | .parked q y =>
      match next with
      | .sticky _ z => meet handler stateful p x q y (some (z.atRound x.round))
      | _ =>
        if p == q then .refuse sl .matchDup
        else if x.round != y.round then .refuse sl .roundSkew
        else .refuse .empty .stickyAbsent

/-! ## The arms of ORDMERGE at arrival (R194) -/

/-- What an ORDMERGE makes of a token at its arrival: it goes on, it waits at the head of its mesh port, it waits for a
block of the arm buffers, or it waits with MERGE_SPILL. -/
inductive ArmGate where
  | pass | block | alloc | spillFault
  deriving DecidableEq, Repr

/-- The state slot of a firing of ORDMERGE. -/
def Firing.mergeSlot (g : Firing) : Option Nat :=
  match g.word.bind wordForm with
  | some (opc, f) => if opc = 0x13 then some f.slot.toNat else none
  | none => none

/-- The tokens of an arm with those that wait in the ready classes and would be appended. -/
def Core.armHeld (k : Core) (fp : U32) (n : Nat) (port : Bool) (m : Merge) : Nat :=
  (if port then m.right else m.left).length +
  (k.light.filter (fun e => e.2.fp == fp && e.2.port == port && e.2.l.kind != .fault && e.2.mergeSlot == some n &&
    mergeAppends m.cur m.lm port e.2.l)).length

/-- The tokens of the arms of a core that stand, or will stand, in its merge spill area (R194). -/
def Core.spillTaken (k : Core) : Nat :=
  ((k.frames.map (fun f => (f.fp k.vcore, f)) ++ k.spillDir.map (fun e => (e.fp, e.frame))).flatMap (fun x =>
    x.2.arms.map (fun a =>
      (k.armHeld x.1 a.1 false (x.2.merge a.1) - a.2.depth) + (k.armHeld x.1 a.1 true (x.2.merge a.1) - a.2.depth)))).sum

/-- The gate of R194 for a token at an ORDMERGE with state slot n and depth d; spill is QUAL[0]. -/
def State.armGate (s : State) (core : Nat) (fr : Frame) (t : Token) (n depth : Nat) (spill : Bool) : ArmGate :=
  let k := s.core core
  let c := s.ctx (k.ctx.getD 0)
  match Table.find fr.arms n with
  | none => if t.val.kind = .fault ∨ t.val.kind = .null then .pass else .alloc
  | some _ =>
    let m := fr.merge n
    if t.val.kind = .fault ∨ !mergeAppends m.cur m.lm t.port t.val then .pass
    else
      let taken := k.spillTaken
      if k.armHeld t.fp n t.port m < depth then .pass
      else if !spill || c.mspill.toNat == 0 || decide (32768 ≤ taken) then .block
      else if k.mergePark.isSome then .block
      else
        let at_ := c.mspill.toNat * 2 ^ 20 + k.vcore.toNat * 2 ^ 20 + 32 * taken
        match s.backingFault c [(at_, 32)] .write, s.backingFault c [(at_, 32)] .read with
        | none, none => .pass
        | _, _ => .spillFault

/-- A token waits for the arm buffers of a state slot, or the frame port is parked (R49, R194). -/
def Core.armsWait (k : Core) (fp : U32) (n : Nat) : Bool :=
  k.framePark.isSome || k.allocs.any (fun a =>
    match a with
    | .arms _ f m _ => f == fp && m == n
    | _ => false)

/-- The blocks of both arm buffers are taken from the frame store (R194, R212). -/
def State.allocArms (s : State) (core : Nat) (fp : U32) (n depth : Nat) : Option State :=
  let units := armUnits depth
  match s.place core units with
  | none => none
  | some l =>
    let s1 := s.spend
    let ps := ((s1.core core).places units).filter (fun b => !blocksMeet (l, units) (b, units))
    match ps[s1.choice ps.length]? with
    | none => none
    | some r =>
      let a : Arms := { lbase := l, rbase := r, units := units, depth := depth, left := [], right := [] }
      some (s1.spend.modCore core (fun k => k.modAny fp (fun f => { f with arms := Table.put f.arms n a })))

/-! ## Serving a token (TOKEN_SERVE) -/

/-- A ready entry of its class (R182, R183). -/
def State.ready (s : State) (core : Nat) (g : Firing) (opc : Nat) (f : Fields) : State :=
  let cls := min 3 (f.pri.toNat + (s.ctx g.ctx).cls)
  s.modCore core (fun k =>
    if lightOp opc then { k with light := k.light ++ [(cls, g)] } else { k with engine := k.engine ++ [(cls, g)] })

/-- Some class below a class holds an entry. -/
def lowerWaits (l : List (Nat × Firing)) (cls : Nat) : Bool := l.any (fun e => decide (e.1 < cls))

/-- The count of a slot returns to 0 where no lower class holds an entry (R184). -/
def Core.settle (k : Core) : Core :=
  let light := lowerWaits k.light k.lightLast
  let eng := lowerWaits k.engine k.engLast
  { k with
    lightTurn := if light then k.lightTurn else 0, lightDue := k.lightDue && light,
    engTurn := if eng then k.engTurn else 0, engDue := k.engDue && eng }

/-- All 1024 ready entries of a core are in use (R183). -/
def Core.readyFull (k : Core) : Bool := decide (1024 ≤ k.light.length + k.engine.length)

/-- A reply that has been delivered returns its count of LIVE (R39). -/
def State.delivered (s : State) (ctx : Nat) (fp : U32) (reply : Bool) : State :=
  if reply then s.liveDec ctx fp else s

/-- A token takes its turn at its slot: it parks, fires or faults (R38, R43). A token that would fire while every ready
entry is in use, or while others wait so, waits in the dispatch queue (R183). -/
def State.atSlot (s : State) (core : Nat) (m : Mail) (t : Token) (reply : Bool) (fr : Frame) (w : U128)
    (opc : Nat) (f : Fields) : State :=
  let k := s.core core
  let cx := k.ctx.getD 0
  let base : Firing :=
    { core := core, fp := t.fp, ip := t.ip, ctx := cx, obj := fr.obj, task := fr.task, port := t.port, l := t.val,
      r := none, t := none, replay := none, word := some w, recorded := false }
  let size := classSlots fr.cls
  let n := f.slot.toNat
  let depth := f.imm.toNat % 4096
  let gate : ArmGate := if opc = 0x13 ∧ n < size then s.armGate core fr t n depth (bitAt f.qual 0) else .pass
  let arms := if k.armsWait t.fp n then none else s.allocArms core t.fp n depth
  let served (s : State) : State :=
    (s.modCore core (fun k =>
      (k.modFrame t.fp (fun fr => { fr with stamp := s.clock })).count 2)).delivered cx t.fp reply
  if f.ar != .monadic && (decide (size ≤ n) || (f.ar == .triadic && decide (size ≤ n + 1))) then
    served (s.fault base f .slotRange 0)
  else if gate = .block then s.setCore core { k with blocked := m :: k.blocked }
  else if gate = .spillFault then
    let r : FaultRec := base.fault .mergeSpill 0 0 0
    (s.faultSupervisor { r with precise := false, supv := true, port := 5 * 16 } 7).modCore core
      (fun k => { k with mergePark := some .mergeSpill, blocked := m :: k.blocked })
  else if gate = .alloc ∧ arms.isNone then s.setCore core { k with allocs := k.allocs ++ [.arms m t.fp n depth] }
  else
    let s := if gate = .alloc then arms.getD s else s
    match matchSlot f.ar (handlerOp opc f) (statefulOp opc) t.port t.val (fr.slot n) (fr.slot (n + 1)) with
    | .park =>
      served (s.modCore core (fun k => k.modFrame t.fp (fun fr => fr.setSlot n (.parked t.port t.val))))
    | .refuse sl c =>
      let s := s.modCore core (fun k => k.modFrame t.fp (fun fr => if f.ar = .monadic then fr else fr.setSlot n sl))
      served (s.fault base f c 0)
    | .fire sl l r th =>
      if k.readyFull || !k.dispatchQ.isEmpty then s.modCore core (fun k => { k with dispatchQ := k.dispatchQ ++ [m] })
      else
        let s := s.modCore core (fun k => k.modFrame t.fp (fun fr => if f.ar = .monadic then fr else fr.setSlot n sl))
        served (s.ready core { base with l := l, r := r, t := th } opc f)

/-- A token waits for its code page (R178): behind the token that started the install, or as that token. -/
def Core.awaitPage (k : Core) (obj : U32) (page : Nat) (m : Mail) : Core :=
  if k.installs.any (fun i => i.obj == obj && i.page == page) then
    { k with installs := k.installs.map (fun i =>
        if i.obj == obj && i.page == page then { i with mail := i.mail ++ [m] } else i) }
  else { k with installs := k.installs ++ [{ obj := obj, page := page, active := false, parked := false, mail := [m] }] }

/-- A token arrives at the frame store of its core (R37, R38, R42, R43). -/
def State.serveToken (s : State) (core : Nat) (m : Mail) (t : Token) (reply : Bool) : State :=
  let k := s.core core
  match k.ctx with
  | none => s
  | some cx =>
    match k.frame? t.fp with
    | none =>
      match k.spilled? t.fp with
      | some _ => s.setCore core { k with fillQueue := k.fillQueue ++ [(t.fp, m)] }
      | none => s.stale cx
    | some fr =>
      if k.quar.contains fr.obj then s.delivered cx t.fp reply
      else if s.ninstr cx fr.obj ≤ t.ip.toNat then
        (s.faultHandler
          {
          cls := .ipRange, ctx := cx, core := core, obj := fr.obj, ip := t.ip, fp := t.fp, precise := true,
            parked := false, supv := false, token := false, port := 0, reason := 0, d0 := 0, d1 := 0, d2 := 0
          }).delivered cx t.fp reply
      else
        match k.wordAt cx fr.obj t.ip with
        | none => s.setCore core (k.awaitPage fr.obj (t.ip.toNat / 256) m)
        | some w =>
          match wordForm w with
          | none => s
          | some (opc, f) => s.atSlot core m t reply fr w opc f

/-- A message is served: a token, a release, which counts in STALECNT where its frame is gone (log 117), or a free request,
which is carried as a token (R205). Messages for a frame that has
others in the dispatch queue or the fill queue go behind them. -/
def State.serve (s : State) (core : Nat) (m : Mail) : State :=
  match m.msg with
  | .token t reply => s.serveToken core m t reply
  | .free fp by_ => s.freeRequest core m fp by_
  | .release fp =>
    let k := s.core core
    match k.frame? fp, k.spilled? fp with
    | some _, _ => s.liveDec (k.ctx.getD 0) fp
    | none, some _ => s.setCore core { k with fillQueue := k.fillQueue ++ [(fp, m)] }
    | none, none => s.stale (k.ctx.getD 0)

/-- The mesh input port by which a message reaches a core (R42): 0 local, 1 north, 2 east, 3 south, 4 west. -/
def portOf (dst src : Nat) : Nat :=
  if src ≥ 4096 then 0
  else if pkgY src < pkgY dst then 1
  else if pkgY dst < pkgY src then 3
  else if pkgX dst < pkgX src then 2
  else if pkgX src < pkgX dst then 4
  else 0

/-- The message is not a release (RELEASE_MESSAGE serves those). -/
def notRelease (m : Mail) : Bool :=
  match m.msg with
  | .release _ => false
  | _ => true

/-- The frame that a message is for. -/
def Msg.fp : Msg → U32
  | .token t _ => t.fp
  | .release f => f
  | .free f _ => f

/-- The first message of a source, and the others (R42: two tokens from one core arrive in order). -/
def takeFrom (src : Nat) : List Mail → Option (Mail × List Mail)
  | [] => none
  | m :: t =>
    if m.src = src then some (m, t)
    else (takeFrom src t).map (fun p => (p.1, m :: p.2))

/-- The source number that names the head of the dispatch queue in TOKEN_SERVE. -/
def srcQueue : Nat := 65535

/-- The source number that names the messages that wait at a mesh port in TOKEN_SERVE (R194): 60000 + port. -/
def srcBlocked : Nat := 60000

/-- The first message that waits at a mesh port, and the others. -/
def takeBlocked (core port : Nat) : List Mail → Option (Mail × List Mail)
  | [] => none
  | m :: t =>
    if portOf core m.src = port then some (m, t) else (takeBlocked core port t).map (fun p => (p.1, m :: p.2))

/-- An arriving message is put behind others for its frame that wait, else served. -/
def State.arrive (s : State) (core : Nat) (m : Mail) : State :=
  let k := s.core core
  if k.dispatchQ.any (msgFor m.msg.fp) then s.setCore core { k with dispatchQ := k.dispatchQ ++ [m] }
  else s.serve core m

/-- The head of the dispatch queue takes its turn with nothing before it; where it waits again, nothing has happened. -/
def State.serveQueued (s : State) (core : Nat) (m : Mail) (rest : List Mail) : State :=
  let t := (s.modCore core (fun k => { k with dispatchQ := [] })).serve core m
  if (t.core core).dispatchQ.isEmpty then t.modCore core (fun k => { k with dispatchQ := rest }) else s

/-- The head of a mesh port takes its turn (R194); none where it is blocked as before. -/
def State.tryBlocked (s : State) (core : Nat) (m : Mail) (rest : List Mail) : Option State :=
  let t := (s.modCore core (fun k => { k with blocked := rest })).arrive core m
  if (t.core core).blocked.length = rest.length + 1 ∧ (t.core core).mergePark = (s.core core).mergePark then none else some t

/-- The head of a mesh port takes its turn (R194); where it is blocked as before, nothing has happened. -/
def State.serveBlocked (s : State) (core : Nat) (m : Mail) (rest : List Mail) : State := (s.tryBlocked core m rest).getD s

/-- Every message that waits at a mesh port is a blocked one (R194, R195): the head of each port goes on waiting. -/
def State.allBlocked (s : State) (core : Nat) : Bool :=
  (List.range 5).all (fun p =>
    match takeBlocked core p (s.core core).blocked with
    | none => true
    | some (m, rest) => (s.tryBlocked core m rest).isNone)

/-- The messages of a core that TOKEN_SERVE and RELEASE_MESSAGE take from a source: the head of the dispatch queue, the head of a
mesh port, or the first message of the source in the inbox where no earlier message blocks its mesh port (R42, R194). -/
def State.takeMail (s : State) (core src : Nat) (releases : Bool) : State :=
  let k := s.core core
  if src = srcQueue then
    match k.dispatchQ with
    | [] => s
    | m :: rest => if notRelease m == releases then s else s.serveQueued core m rest
  else if srcBlocked ≤ src then
    match takeBlocked core (src - srcBlocked) k.blocked with
    | none => s
    | some (m, rest) => if notRelease m == releases then s else s.serveBlocked core m rest
  else
    match takeFrom src k.inbox with
    | none => s
    | some (m, rest) =>
      if notRelease m == releases then s
      else
        let s := s.setCore core { k with inbox := rest }
        if k.blocked.any (fun b => portOf core b.src == portOf core m.src) then
          s.modCore core (fun k => { k with blocked := k.blocked ++ [m] })
        else s.arrive core m

end Sys2Proof.Machine
end

