-- ==== Sys2Proof/Machine/Place.lean ====
section
/-! DEFINITION. Where frames are placed and how they come to be: the object table (R176), partition states (R169 to R172), the placement policies (R167, R168), confinement of tape tasks (R125), and the allocations that FALLOC, CALL, binding, probes and ORDMERGE make (R46, R54, R109, R141, R202, R203). -/

namespace Sys2Proof.Machine

/-! ## Objects (R176) -/

/-- The address of entry i of a context's object table. -/
def Ctx.objAddr (c : Ctx) (i : Nat) : Nat := c.objbase.toNat * 4096 + 64 * i

/-- The index and STATE of an object's entry in the object table. -/
def State.objEntry (s : State) (ctx : Nat) (obj : U32) : Option (Nat × Nat) :=
  let c := s.ctx ctx
  let st := s.homeStack ctx
  (List.range (c.objnm1.toNat + 1)).findSome? (fun i =>
    let state := s.ctxNat ctx st (c.objAddr i + 4) 1
    if state != 0 && s.ctxNat ctx st (c.objAddr i) 4 == obj.toNat then some (i, state) else none)

/-- What an object is to a binding, a SWITCH or a CALL (R176, R177). -/
inductive ObjStatus where
  | usable (o : ObjRec)
  | loading
  | unusable
  deriving DecidableEq, Repr

/-- R177: a use of an object of STATE 1 waits until its LOAD finishes. -/
def State.objStatus (s : State) (ctx : Nat) (obj : U32) : ObjStatus :=
  match (s.ctx ctx).obj? obj with
  | some o => .usable o
  | none =>
    match s.objEntry ctx obj with
    | some (_, 1) => .loading
    | _ => .unusable

/-- What an object is to a core, which may have received a quarantine notice of it (R181). -/
def State.objOn (s : State) (core ctx : Nat) (obj : U32) : ObjStatus :=
  if (s.core core).quar.contains obj then .unusable else s.objStatus ctx obj

/-! ## Partitions (R169) -/

/-- The partition of a context on a stack. -/
def Stack.part (k : Stack) (ctx : Nat) : Partition :=
  (k.parts.find? (fun p => p.ctx == ctx)).getD { ctx := ctx, states := [], reqs := [], switch := none, hold := [], edge := [] }

/-- A stack with a partition written. -/
def Stack.setPart (k : Stack) (p : Partition) : Stack :=
  { k with parts := p :: k.parts.filter (fun q => q.ctx != p.ctx) }

/-- The state of an object on a partition: enabled since it was verified, unless a switch has changed it (R169). -/
def Partition.state (p : Partition) (obj : U32) : ObjState :=
  ((p.states.find? (fun e => e.1 == obj)).map Prod.snd).getD .enabled

/-- A partition with an object's state written. -/
def Partition.setState (p : Partition) (obj : U32) (x : ObjState) : Partition :=
  { p with states := (obj, x) :: p.states.filter (fun e => e.1 != obj) }

/-- The partition of a context on a stack. -/
def State.part (s : State) (stack ctx : Nat) : Partition := (s.stack stack).part ctx
def State.setPart (s : State) (stack : Nat) (p : Partition) : State := s.modStack stack (fun k => k.setPart p)

/-- The items that a partition's hold queue takes (R172): 1024 on chip, and 65,536 in its hold area where it has one. -/
def Ctx.holdRoom (c : Ctx) : Nat := 1024 + (if c.holdbase.toNat = 0 then 0 else 65536)

/-- An item is held (R170, R172), behind others. With both capacities exhausted it waits in the mesh at the partition's edge, and
HOLD_FULL is raised by the first that does (log 15). -/
def State.hold (s : State) (stack ctx : Nat) (h : Held) : State :=
  let p := s.part stack ctx
  if p.edge.isEmpty && decide (p.hold.length < (s.ctx ctx).holdRoom) then s.setPart stack { p with hold := p.hold ++ [h] }
  else
    let s := s.setPart stack { p with edge := p.edge ++ [h] }
    if p.edge.isEmpty then s.event stack 3 ctx (s.vcoreOf (s.lowCore ctx stack)).toNat ((p.switch.map (fun x => x.1)).getD 0)
    else s

/-! ## Placement (R167, R168) -/

/-- The core of a list with the largest measure; ties go to the nearest to the anchor, then to the lower virtual core
id (R168). -/
def best (anchor : Nat) (measure : Nat → Nat) (near : Bool) (l : List (Nat × Nat)) : Option (Nat × Nat) :=
  l.foldl (fun b x =>
    match b with
    | none => some x
    | some y =>
      if measure y.2 < measure x.2 then some x
      else if near && measure x.2 == measure y.2 && decide (hops x.2 anchor < hops y.2 anchor) then some x
      else some y) none

/-- The target core of a policy among candidates (R168): a pair of virtual and physical core id. anchor is a physical
core; key serves HASH and PIN; cursor is SPREAD's; reports are ROOMY's. none where PIN leaves the region or there is
no candidate. -/
def State.target (s : State) (ctx : Nat) (cs : List (Nat × Nat)) (anchor policy : Nat) (key : U64) (cursor : Nat)
    (reports : Table Nat) : Option (Nat × Nat) :=
  let c := s.ctx ctx
  let nearestTo : Option (Nat × Nat) :=
    match cs.find? (fun x => x.2 == anchor) with
    | some x => some x
    | none => best anchor (fun _ => 0) true cs
  match policy with
  | 1 =>
    match best anchor (fun p => (s.core p).freeSlots) false (cs.filter (fun x => quadOf x.2 == quadOf anchor)) with
    | some x => some x
    | none => nearestTo
  | 2 =>
    match cs.find? (fun x => decide (cursor < x.1)) with
    | some x => some x
    | none => cs.head?
  | 3 => best anchor (fun p => Table.look 32768 reports p) true cs
  | 4 => cs[key.toNat % cs.length]?
  | 5 => (c.phys (key.toNat % 4096)).map (fun p => (key.toNat % 4096, p))
  | _ => nearestTo

/-- The quad that confines a task (R125): that of its root frame, for a task with TMODE other than NORMAL. -/
def State.confined (s : State) (ctx task : Nat) : Option Nat :=
  match s.task? task with
  | some t =>
    if t.tmode.toNat = 0 ∨ t.range.isSome then none
    else
      -- a task that is being replayed has no root frame: its quad is that of the tape engine
      match s.tapes.find? (fun e => (e.2.replays ++ e.2.waiting).any (fun r => r.task == task)) with
      | some e => some e.1
      | none => (s.fpCore ctx t.rootFp).map quadOf
  | none => none

/-- The target of a policy for FALLOC and CALL, confined under R125; a PIN outside the quad is taken as LOCAL in it
(log 18). -/
def State.childTarget (s : State) (ctx core task policy : Nat) (key : U64) : Option (Nat × Nat) :=
  let c := s.ctx ctx
  let st := coreStack core
  let at_ (cs : List (Nat × Nat)) : Option (Nat × Nat) :=
    s.target ctx cs core policy key (s.core core).cursor (s.stack st).reports
  match at_ (c.cores st) with
  | none => none
  | some x =>
    match s.confined ctx task with
    | none => some x
    | some q =>
      if quadOf x.2 = q then some x
      else
        let cs := c.region.filter (fun y => quadOf y.2 == q)
        match at_ cs with
        | some y => if quadOf y.2 = q then some y else s.target ctx cs core 0 key 0 []
        | none => s.target ctx cs core 0 key 0 []

/-! ## Frames that are made -/

/-- An argument as binding writes it into a slot (R54, R130). -/
def argSlot (a : Nat) (v : U64) : Slot := .sticky false (Val.scalar v 0 (BitVec.ofNat 4 (1 + a)))

/-- The argument slots 4 onwards. -/
def argSlots (args : List U64) : Table Slot := args.mapIdx (fun a v => (4 + a, argSlot a v))

/-- The root frame of a task (R54, R109), for a core that the allocator will fill in. -/
def Task.rootFrame (t : Task) (share : Option Nat) (anchor : BitVec 12) : Frame :=
  { base := 0, gen := 0, cls := t.cls, vcore := 0, obj := t.obj, ctx := BitVec.ofNat 12 t.ctx,
    pfp := if t.hostc then 0 else field t.cont 21 32, rip := if t.hostc then 0 else field t.cont 1 20,
    rport := !t.hostc && bitAt t.cont 0, live := 0, policy := t.policy, anchor := anchor, fround := 0, root := true,
    hostc := t.hostc, abort := false, freepend := false, tmode := t.tmode, task := t.id,
    worker := share.map (fun n => (n, 0, 0)), probe := false, owes := false, pobj := none, arms := [], born := 0, stamp := 0, released := [],
    slots := argSlots t.args }

/-- A probe frame (R141; log 16). -/
def Task.probeFrame (t : Task) (cls : Nat) : Frame :=
  { t.rootFrame none 0 with cls := cls, pfp := 0, rip := 0, rport := false, hostc := false, root := false, probe := true }

/-- The header of a frame made by FALLOC or CALL (R202). -/
def childFrame (fr : Frame) (parent : U32) (f : Fields) (obj : U32) (cls policy : Nat) (anchor : BitVec 12)
    (round : BitVec 8) : Frame :=
  { base := 0, gen := 0, cls := cls, vcore := 0, obj := obj, ctx := fr.ctx, pfp := parent, rip := f.d1.ip,
    rport := f.d1.port, live := 0, policy := BitVec.ofNat 4 policy, anchor := anchor, fround := round, root := false,
    hostc := false, abort := false, freepend := false, tmode := fr.tmode, task := fr.task, worker := none,
    probe := fr.probe, owes := true, pobj := some fr.obj, arms := [], born := 0, stamp := 0, released := [], slots := [] }

/-- A share of a stack's distributor by one number. -/
def shareNo (stack n : Nat) : Nat := stack * 2 ^ 20 + n

/-- A change to a share by its number; none removes it. -/
def State.modShare (s : State) (n : Nat) (h : Share → Option Share) : State :=
  s.modStack (n / 2 ^ 20) (fun k =>
    match Table.find k.shares (n % 2 ^ 20) with
    | none => k
    | some x =>
      match h x with
      | some y => { k with shares := Table.put k.shares (n % 2 ^ 20) y }
      | none => { k with shares := Table.del k.shares (n % 2 ^ 20) })

/-- A share's owner is the worker frame bound for it (R112, R114). -/
def State.ownShare (s : State) (core n : Nat) (fp : U32) : State :=
  s.modShare n (fun x => some { x with owner := some (core, fp), ready := true })

/-- The guard entry at which a replay's probe runs: its IP and class. -/
def Replay.probeAt (r : Replay) : Option (BitVec 20 × Nat) :=
  match r.probe with
  | none => none
  | some (n, _) =>
    match r.tape.entries[n]? with
    | some (.guard x) => some (x.ip, x.cls)
    | _ => none

/-- The tokens that wait for the arm buffers of a state slot, beside a first one, leave the allocations that wait (R194). -/
def Core.wakeArms (k : Core) (fp : U32) (n : Nat) (m : Mail) : Core :=
  let mine (a : AllocFor) : Option Mail :=
    match a with
    | .arms x f i _ => if f == fp && i == n then some x else none
    | _ => none
  { k with allocs := k.allocs.filter (fun a => (mine a).isNone), dispatchQ := k.dispatchQ ++ m :: k.allocs.filterMap mine }

/-- An allocation on a core succeeds with all that follows it, or finds no room (R46, R54, R109, R141, R202, R203). -/
def State.tryAlloc (s : State) (core : Nat) (a : AllocFor) : Option State :=
  let k := s.core core
  match a with
  | .bind task share anchor =>
    match s.task? task with
    | none => some s
    | some t =>
      match s.allocFrame core (t.rootFrame share anchor) with
      | none => none
      | some (s, fp) =>
        let s := match share with
          | some n => (s.ownShare core n fp).modTask task (fun t => { t with bound := true, workers := t.workers + 1 })
          | none => s.modTask task (fun t => { t with bound := true, rootFp := fp })
        some (s.send core t.ctx { fp := fp, ip := t.entry, port := false, val := Val.zero } false)
  | .probe quad task =>
    match s.task? task, (s.engine quad).replays.find? (fun r => r.task == task) with
    | some t, some r =>
      match r.probeAt with
      | none => some s
      | some (ip, cls) =>
        match s.allocFrame core (t.probeFrame cls) with
        | none => none
        | some (s, fp) =>
          let s := s.modEngine quad (fun e => { e with replays := e.replays.map (fun r =>
            if r.task == task then { r with probe := r.probe.map (fun p => (p.1, fp)) } else r) })
          some (s.send core t.ctx { fp := fp, ip := ip, port := false, val := Val.zero } false)
    | _, _ => some s
  | .arms m fp n depth =>
    let wake (s : State) : State := s.modCore core (fun k => k.wakeArms fp n m)
    match k.anyFrame? fp with
    | none => some (wake s)
    | some fr =>
      if (Table.find fr.arms n).isSome then some (wake s) else (s.allocArms core fp n depth).map wake
  | .firing g i fr =>
    if k.quar.contains fr.obj then
      match i.form with
      | some (_, _, f) => some (s.liveDec g.ctx fr.pfp |>.fault g f .objDisabled 0)
      | none => some s
    else
    match i.form with
    | some (0x06, _, f) =>
      match s.allocFrame core fr with
      | none => none
      | some (s, fp) =>
        some (s.emit g f false (Val.computed (fp ++ (0 : BitVec 32)) g.l.round provData [g.l]))
    | some (_, _, f) =>
      if f.fn.toNat = 0 then
        match s.allocFrame core fr with
        | none => none
        | some (s, fp) => some (s.sendAt g fp f.d0 g.l false)
      else
        match s.objOn core g.ctx fr.obj with
        | .loading => none
        | .unusable => some (s.liveDec g.ctx fr.pfp |>.fault g f .objDisabled 0)
        | .usable o =>
          match o.entries.head? with
          | none => some (s.liveDec g.ctx fr.pfp |>.fault g f .entryRange 0)
          | some (ip, cls) =>
            if o.ninstr ≤ ip.toNat then some (s.liveDec g.ctx fr.pfp |>.fault g f .entryRange 0)
            else
              match s.allocFrame core { fr with cls := cls } with
              | none => none
              | some (s, fp) => some (s.send g.core g.ctx { fp := fp, ip := ip, port := false, val := g.l } false)
    | none => some s

/-- The BASE units that an allocation needs. -/
def State.allocUnits (s : State) (a : AllocFor) : Nat :=
  match a with
  | .bind task _ _ => classUnits (((s.task? task).map Task.cls).getD 0)
  | .probe quad task =>
    classUnits ((((s.engine quad).replays.find? (fun r => r.task == task)).bind Replay.probeAt |>.map Prod.snd).getD 0)
  | .arms _ _ _ depth => armUnits depth
  | .firing g i fr =>
    match i.form, s.objStatus g.ctx fr.obj with
    | some (0x0B, _, f), .usable o =>
      if f.fn.toNat = 0 then classUnits fr.cls else classUnits ((o.entries.head?.map Prod.snd).getD 0)
    | _, _ => classUnits fr.cls

/-- The core has room for an allocation: a block for a frame, two for the arm buffers of ORDMERGE (R46, R194). -/
def State.fits (s : State) (a : AllocFor) (k : Core) : Bool :=
  match a with
  | .arms _ _ _ depth => decide (2 ≤ (k.places (armUnits depth)).length)
  | _ => !(k.framePlaces (s.allocUnits a)).isEmpty

/-- The allocation waits for the LOAD of its object (R177), or is a binding on a stopped core (R453). -/
def State.allocWaits (s : State) (core : Nat) (a : AllocFor) : Bool :=
  match a with
  | .firing g _ fr => decide (s.objStatus g.ctx fr.obj = .loading)
  | .bind task _ _ =>
    (s.core core).stopped ||
    (match s.task? task with
     | some t => decide (s.objStatus t.ctx t.obj = .loading)
     | none => false)
  | _ => false

/-- An allocation is made at once where there is room, or waits at the core (R46); while the frame port is parked it waits (R49). -/
def State.allocate (s : State) (core : Nat) (a : AllocFor) : State :=
  if !(s.core core).allocs.isEmpty || (s.core core).framePark.isSome || s.allocWaits core a then
    s.modCore core (fun k => { k with allocs := k.allocs ++ [a] })
  else
    match s.tryAlloc core a with
    | some t => t
    | none => s.modCore core (fun k => { k with allocs := k.allocs ++ [a] })

/-- The first allocation of a list that may be made now, and the others. -/
def State.nextAlloc (s : State) (core : Nat) : List AllocFor → Option (AllocFor × List AllocFor)
  | [] => none
  | a :: t => if s.allocWaits core a then (s.nextAlloc core t).map (fun p => (p.1, a :: p.2)) else some (a, t)

/-- FRAME_SPILL (R46): the first waiting allocation of a core makes room by spilling and is made; while no frame is
spillable it goes on waiting. -/
def State.serveAlloc (s : State) (core : Nat) : State :=
  let k := s.core core
  match k.framePark, s.nextAlloc core k.allocs with
  | none, some (a, rest) =>
    let make (s : State) : Option State := (s.modCore core (fun k => { k with allocs := rest })).tryAlloc core a
    match make s with
    | some u => u
    | none =>
      match s.makeRoom core (s.fits a) 4096 with
      | (t, false) => t
      | (t, true) => (make t).getD t
  | _, _ => s

end Sys2Proof.Machine
end

