-- ==== Sys2Proof/Machine/Control.lean ====
section
/-! DEFINITION. The control operators (R197 to R215). -/

namespace Sys2Proof.Machine

/-! ## Shared operations -/

/-- L to both destinations. -/
def passBoth (f : Fields) (s : State) (g : Firing) (l : Val) : State := s.emitBoth g f l

/-- An RET, END or FFREE in a frame whose FREEPEND is set raises DOUBLE_FREE (R205). -/
def State.freePending (s : State) (g : Firing) : Bool :=
  match s.frameOf g with
  | some fr => fr.freepend
  | none => false

/-- The selecting operand decides (R132): a recording task ends its recording where it carries DATA; LIN and GRD set
bits of GUARDMASK (R131). -/
def guardBits (patch : BitVec 6) (p : BitVec 4) : BitVec 6 :=
  if p = 14 then 0x3F
  else
    match provArg p with
    | some k => if provLin p && bitOf patch.toNat k then 0 else BitVec.ofNat 6 (2 ^ k)
    | none => 0

/-- The patch mask of a template of an object (R124). -/
def State.patchMask (s : State) (ctx : Nat) (obj : U32) (tmpl : Nat) : BitVec 6 :=
  match (s.ctx ctx).obj? obj with
  | some o => ((o.tmpls.find? (fun t => t.id == tmpl)).map Template.patch).getD 0
  | none => 0

/-- R132 for the selecting operand of STEER, GATE, FILTER and COMPACT. -/
def State.selects (s : State) (g : Firing) (v : Option Val) : State :=
  match s.recording? g.core g.task, v with
  | some r, some v =>
    if v.prov = provData then s.endRecording (quadOf g.core) 1
    else
      let bits := guardBits (s.patchMask g.ctx (((s.task? g.task).map Task.obj).getD g.obj) r.tmpl) v.prov
      s.modEngine (quadOf g.core) (fun e => { e with record := some { r with mask := r.mask ||| bits } })
  | _, _ => s

/-- An operator that chooses by its R operand: R132 wherever it does not merely pass a marker or a fault token on, then R53 and its
effect. -/
def State.selecting (s : State) (n : Need) (f : Fields) (k : State → Firing → Val → Option Val → State) : State :=
  s.execute (fun s g =>
    let passes := (g.l :: g.r.toList).any (fun v => v.kind == .marker || v.kind == .fault)
    let s := if passes then s else s.selects g g.r
    s.checked n f g (fun s l r _ => k s g l r))

/-- The operand is there and its 64 bits are not all zero. -/
def nonZero (v : Option Val) : Bool :=
  match v with
  | some v => v.value != 0
  | none => false

/-- A slot of the firing frame is written (R206). -/
def State.writeSlot (s : State) (g : Firing) (n : Nat) (x : Slot) : State := s.modFrameOf g (fun fr => fr.setSlot n x)

/-- A named slot at or beyond the frame's size (R38). -/
def State.slotBeyond (s : State) (g : Firing) (n : Nat) : Bool :=
  match s.frameOf g with
  | some fr => decide (classSlots fr.cls ≤ n)
  | none => false

/-- The slot as it stands; for a replayed command, which has no frame, the value that its tape gives it. -/
def State.readSlot (s : State) (g : Firing) (n : Nat) : Slot :=
  match g.replay, g.recorded with
  | some _, false => ((Table.find g.named n).map (Slot.sticky false)).getD .empty
  | _, _ =>
    match s.frameOf g with
    | some fr => fr.slot n
    | none => .empty

/-! ## Copies, routes and joins (R199 to R201) -/

/-- NOP (R199). -/
def execNop (f : Fields) (s : State) : Host.Outcome State Fault Refusal :=
  .next (s.operate .any f (fun s g l _ _ => passBoth f s g l))

/-- The copies of FORK to consecutive IPs (R199). -/
def forkCopies (f : Fields) (g : Firing) (v : Val) (n : Nat) (s : State) : State :=
  (List.range n).foldl (fun s k =>
    s.emit g { f with d0 := { f.d0 with ip := f.d0.ip + BitVec.ofNat 20 k } } false v) s

/-- FORK (R199). A marker goes to every destination the operator has (R188). -/
def execFork (f : Fields) (s : State) : Host.Outcome State Fault Refusal :=
  .next (s.operate { Need.any with markers := true, nulls := true } f (fun s g l _ _ =>
    let n := f.imm.toNat % 16
    if l.kind = .null then
      match f.np with
      | .absorb => s
      | .fault => s.fault g f .nullOperand 0
      | _ => (forkCopies f g (Val.null l.round l.prov) n s).emit g f true (Val.null l.round l.prov)
    else (forkCopies f g l n s).emit g f true l))

/-- STEER (R200). -/
def execSteer (f : Fields) (s : State) : Host.Outcome State Fault Refusal :=
  .next (s.selecting { Need.any with kr := isScalar } f (fun s g l r => s.emit g f (!nonZero r) (l.since r.toList)))

/-- GATE (R200). -/
def execGate (f : Fields) (s : State) : Host.Outcome State Fault Refusal :=
  .next (s.selecting { Need.any with kr := isScalar } f (fun s g l r =>
    if nonZero r then s.emitBoth g f (l.since r.toList) else s))

/-- FILTER (R200). -/
def execFilter (f : Fields) (s : State) : Host.Outcome State Fault Refusal :=
  .next (s.selecting { Need.any with kr := isScalar } f (fun s g l r =>
    s.emitBoth g f (if nonZero r then l.since r.toList else Val.nullOf l.round g.vals)))

/-- SYNC (R200). -/
def execSync (f : Fields) (s : State) : Host.Outcome State Fault Refusal :=
  .next (s.operate .any f (fun s g l r _ => passBoth f s g (l.since r.toList)))

/-- DROP (R201): L vanishes, whatever it is; a null under NP 11 raises NULL_OPERAND (R190). -/
def execDrop (f : Fields) (s : State) : Host.Outcome State Fault Refusal :=
  .next (s.execute (fun s g => if g.l.kind = .null ∧ f.np = .fault then s.fault g f .nullOperand 0 else s))

/-! ## Frames (R202 to R208) -/

/-- The parent that FALLOC and CALL give a child (R202): the firing frame, or under DF1 01 its parent. -/
def childParent (g : Firing) (f : Fields) (fr : Frame) : Option U32 :=
  if f.d1.mode = .parent then (if fr.hostc then none else some fr.pfp) else some g.fp

/-- The object may be allocated on the partition by the firing frame (R169), is pending on it, or may not. -/
inductive AllocState where
  | allowed | held | disabled
  deriving DecidableEq, Repr

/-- R169, R170 for FALLOC and CALL. -/
def State.allocState (s : State) (g : Firing) (obj : U32) (target : Nat) : AllocState :=
  match s.objOn g.core g.ctx obj with
  | .unusable => .disabled
  | _ =>
    match (s.part (coreStack target) g.ctx).state obj with
    | .enabled => .allowed
    | .draining => if coreStack g.core = coreStack target then .allowed else .disabled
    | .pending => .held
    | .disabled => .disabled

/-- An allocation by FALLOC or CALL (R202, R203): its checks, the count of LIVE, the placement, the request. -/
def State.allocChild (s : State) (g : Firing) (f : Fields) (i : Instr) (obj : U32) : State :=
  match s.frameOf g with
  | none => s
  | some fr =>
    let policy := f.qual.toNat % 16
    match childParent g f fr with
    | none => s.fault g f .noParent 0
    | some parent =>
      match s.childTarget g.ctx g.core g.task policy g.l.value with
      | none => s.fault g f .regionRange (g.l.value.toNat % 4096)
      | some (v, p) =>
        match s.allocState g obj p with
        | .disabled => s.fault g f .objDisabled 0
        | st =>
          let child := childFrame fr parent f obj (f.qual.toNat / 16) policy (s.vcoreOf g.core) g.l.round
          let s := s.modCore g.core (fun k => if policy = 2 then { k with cursor := v } else k)
          let s := s.liveInc g.ctx parent
          if st = .held then s.hold (coreStack p) g.ctx (.alloc p (.firing g i child))
          else s.allocate p (.firing g i child)

/-- Policies HASH and PIN take their key from L, a scalar (R202, R203). -/
def childNeed (f : Fields) : Need :=
  if 4 ≤ f.qual.toNat % 16 then { Need.any with kl := isScalar } else Need.any

/-- FALLOC (R202). -/
def execFalloc (f : Fields) (s : State) : Host.Outcome State Fault Refusal :=
  .next (s.operate (childNeed f) f (fun s g _ _ _ => s.allocChild g f (.falloc f) g.obj))

/-- CALL (R203): a frame of the caller's object. -/
def execCall (f : Fields) (s : State) : Host.Outcome State Fault Refusal :=
  .next (s.operate (childNeed f) f (fun s g _ _ _ => s.allocChild g f (.call f) g.obj))

/-- CALL.EXT (R203): a frame of the object whose id is IMM. -/
def execCallExt (f : Fields) (s : State) : Host.Outcome State Fault Refusal :=
  .next (s.operate (childNeed f) f (fun s g _ _ _ => s.allocChild g f (.callExt f) f.imm))

/-- FFREE.FP (R205): the request travels to the owning core as a token. -/
def execFfreeFp (f : Fields) (s : State) : Host.Outcome State Fault Refusal :=
  .next (s.operate { Need.any with kl := isScalar } f (fun s g l _ _ =>
    if s.freePending g then s.fault g f .doubleFree 0
    else
      let fp : U32 := field l.value 32 32
      match s.fpCore g.ctx fp with
      | some dst => s.post g.core dst (.free fp g)
      | none => s.faultHandler (g.fault .regionRange (fpVcore fp) 0 0)))

/-- FFREE.SELF (R205). -/
def execFfreeSelf (f : Fields) (s : State) : Host.Outcome State Fault Refusal :=
  .next (s.operate .any f (fun s g _ _ _ =>
    match s.frameOf g with
    | none => s
    | some fr =>
      if fr.freepend then s.fault g f .doubleFree 0
      else if fr.root then s.fault g f .frameRoot 0
      else s.freeOrWait g.core g.fp))

/-- RET (R204): L, whatever it is, goes to the parent at RIP; a marker does so without freeing the frame. -/
def execRet (f : Fields) (s : State) : Host.Outcome State Fault Refusal :=
  .next (s.operate { Need.any with handler := true, markers := true } f (fun s g l _ _ =>
    match s.frameOf g with
    | none => s
    | some fr =>
      let back (reply : Bool) (s : State) : State :=
        s.send g.core g.ctx { fp := fr.pfp, ip := fr.rip, port := fr.rport, val := l } reply
      if fr.freepend then s.fault g f .doubleFree 0
      else if fr.root then s.fault g f .frameRoot 0
      else if l.kind = .marker then back false s
      else
        let s := back fr.owes s
        (s.modFrameOf g (fun fr => { fr with owes := false })).freeOrWait g.core g.fp))

/-- FSTORE (R206). -/
def execFstore (f : Fields) (s : State) : Host.Outcome State Fault Refusal :=
  .next (s.operate .any f (fun s g l _ _ =>
    let n := f.slot.toNat
    if s.slotBeyond g n then s.fault g f .slotRange 0
    else if s.readSlot g n = .empty then (s.writeSlot g n (.parked (bitAt f.imm 0) l)).emitBoth g f l
    else s.fault g f .slotBusy 0))

/-- FSTICK (R206). -/
def execFstick (f : Fields) (s : State) : Host.Outcome State Fault Refusal :=
  .next (s.operate .any f (fun s g l _ _ =>
    let n := f.slot.toNat
    if s.slotBeyond g n then s.fault g f .slotRange 0
    else
      match s.readSlot g n with
      | .parked _ _ => s.fault g f .slotBusy 0
      | _ => (s.writeSlot g n (.sticky g.port l)).emitBoth g f l))

/-- The copy that FREAD.SLOT gives of a slot (R207). -/
def freadValue (fr : Frame) (n : Nat) (l : Val) : Val :=
  if n < 4 then Val.computed (fr.header n) l.round provData [l]
  else
    match fr.slot n with
    | .empty => { Val.nullOf l.round [l] with prov := provData }
    | .parked _ v => { v with round := l.round }.since [l]
    | .sticky _ v => { v with round := l.round }.since [l]

/-- FREAD.SLOT (R207). -/
def execFreadSlot (f : Fields) (s : State) : Host.Outcome State Fault Refusal :=
  .next (s.operate .any f (fun s g l _ _ =>
    let n := f.slot.toNat
    match s.frameOf g with
    | none => s
    | some fr =>
      if classSlots fr.cls ≤ n then s.fault g f .slotRange 0 else s.emitBoth g f (freadValue fr n l)))

/-- FREAD.SELF (R207). -/
def execFreadSelf (f : Fields) (s : State) : Host.Outcome State Fault Refusal :=
  .next (s.operate .any f (fun s g l _ _ =>
    s.emitBoth g f (Val.computed (g.fp ++ (0 : BitVec 32)) l.round provData [l])))

/-- SENDTO (R208): a marker goes to dest1 only, and nowhere when DF1 is 10 or 11. -/
def execSendto (f : Fields) (s : State) : Host.Outcome State Fault Refusal :=
  .next (s.operate { Need.any with kr := isScalar, markers := true } f (fun s g l r _ =>
    match (l :: r.toList).find? (fun v => v.kind = .marker) with
    | some v => if f.d1.mode = .operand then s else s.emit g f true v
    | none =>
      match r with
      | some y => s.emitBoth g f (l.since [y])
      | none => s))

/-! ## Rounds (R209) -/

/-- FROUND of the firing frame advances to a later round before an effect (R209). A round that cannot be compared with FROUND raises
ROUND_RANGE, and the token is discarded (R34). -/
def State.advancing (s : State) (g : Firing) (f : Fields) (r : BitVec 8) (k : State → State) : State :=
  match (s.frameOf g).map (fun fr => roundOrder r fr.fround) with
  | some .undefined => s.fault g f .roundRange 0
  | _ => k (s.modFrameOf g (fun fr => fr.advance r))

/-- ITER (R209): L, or a marker, with a new round; a data token advances FROUND. -/
def iterTo (f : Fields) (s : State) (g : Firing) (l : Val) (r : BitVec 8) : State :=
  let send (s : State) : State := s.emitBoth g f { l with round := r }
  if l.kind = .marker then send s else s.advancing g f r send

/-- ITER.NEXT (R209). -/
def execIterNext (f : Fields) (s : State) : Host.Outcome State Fault Refusal :=
  .next (s.operate { Need.any with markers := true } f (fun s g l _ _ => iterTo f s g l (l.round + 1)))

/-- ITER.SET (R209). -/
def execIterSet (f : Fields) (s : State) : Host.Outcome State Fault Refusal :=
  .next (s.operate { Need.any with markers := true } f (fun s g l _ _ => iterTo f s g l (field f.imm 0 8)))

/-- PUNCT.MARK (R209). -/
def execPunctMark (f : Fields) (s : State) : Host.Outcome State Fault Refusal :=
  .next (s.operate .any f (fun s g l _ _ =>
    s.advancing g f (l.round + 1) (fun s => s.emitBoth g f (Val.markerOf l.round [l]))))

/-- PUNCT.AFTER (R209). -/
def execPunctAfter (f : Fields) (s : State) : Host.Outcome State Fault Refusal :=
  .next (s.operate .any f (fun s g l _ _ =>
    s.advancing g f (l.round + 1) (fun s =>
      let s := (s.emit g f false l).emit g f false (Val.markerOf l.round [l])
      (s.emit g f true l).emit g f true (Val.markerOf l.round [l]))))

/-! ## Stateful operators (R210 to R212) -/

/-- The value of a parked state slot, or another value where it is not parked. -/
def slotVal (x : Slot) (d : Val) : Val :=
  match x with
  | .parked _ v => v
  | .sticky _ v => v
  | .empty => d

/-- A round of RJOIN ends: its accumulator and its marker go to dest0, and then to dest1 (R210). marks are the markers that have
arrived. -/
def rjoinEnds (f : Fields) (g : Firing) (a : Val) (marks : List Val) (cur : BitVec 8) (s : State) : State :=
  let v := Val.computed a.value cur a.prov [a]
  let m := Val.markerOf cur marks
  let s := (s.emit g f false v).emit g f false m
  (s.emit g f true v).emit g f true m

/-- RJOIN with an operand that is a data token or a marker (R210). Where both markers of CUR + 1 have arrived before the last one
of CUR, that round ends with it. -/
def rjoinStep (f : Fields) (s : State) (g : Firing) (l : Val) : State :=
  match s.frameOf g with
  | none => s
  | some fr =>
    let n := f.slot.toNat
    let signed := f.ty = .i64
    let ident : Val := Val.scalar (rjoinIdentity f.fn.toNat signed) 0 0
    let first := fr.slot n = .empty
    let j : Rjoin :=
      if first then { cur := fr.fround, lm := false, rm := false, lm1 := false, rm1 := false }
      else Rjoin.ofWord (slotVal (fr.slot n) ident).value
    -- the state slot carries the tag of the markers that have arrived and not been emitted
    let marks : List Val := if first then [] else [slotVal (fr.slot n) ident]
    let a := if first then ident else slotVal (fr.slot (n + 1)) ident
    let b := if first then ident else slotVal (fr.slot (n + 2)) ident
    let put (j : Rjoin) (marks : List Val) (a b : Val) (s : State) : State :=
      s.modFrameOf g (fun fr =>
        (((fr.setSlot n (stateSlot j.word j.cur (provJoin (marks.map Val.prov)) (ancestors marks))).setSlot (n + 1)
          (stateSlot a.value j.cur a.prov a.lin.anc)).setSlot (n + 2) (stateSlot b.value (j.cur + 1) b.prov b.lin.anc)))
    let add (x : Val) : Val :=
      Val.computed (rjoinUpdate f.fn.toNat signed x.value l.value) 0 (provJoin [x.prov, l.prov]) [x, l]
    match j.take (decide (l.kind = .marker)) g.port l.round with
    | .refuse c => (put j marks a b s).fault g f c 0
    | .data false => put j marks (add a) b s
    | .data true => put j marks a (add b) s
    | .mark j =>
      let marks := marks ++ [l]
      if j.lm && j.rm then
        let k := j.next
        if k.lm && k.rm then rjoinEnds f g b marks k.cur (rjoinEnds f g a marks j.cur (put k.next [] ident ident s))
        else rjoinEnds f g a marks j.cur (put k (if k.lm || k.rm then marks else []) b ident s)
      else put j marks a b s

/-- RJOIN (R210). -/
def execRjoin (f : Fields) (s : State) : Host.Outcome State Fault Refusal :=
  .next (s.operate
    { Need.any with
      markers := true, ident := fun _ => rjoinIdentity f.fn.toNat (f.ty = .i64),
      kl := fun k => k == .scalar || k == .marker } f
    (fun s g l _ _ =>
      if s.slotBeyond g (f.slot.toNat + 2) then s.fault g f .slotRange 0 else rjoinStep f s g l))

/-- COMPACT (R211). A marker that meets a sticky value ends the round as a pair of markers does (log 118). -/
def execCompact (f : Fields) (s : State) : Host.Outcome State Fault Refusal :=
  .next (s.selecting { Need.any with markers := true, kr := isScalar } f (fun s g l r =>
    let n := f.slot.toNat + 1
    if s.slotBeyond g n then s.fault g f .slotRange 0
    else
      let old := slotVal (s.readSlot g n) (Val.scalar 0 0 0)
      let put (c : U64) (p : BitVec 4) (anc : List Nat) (s : State) : State :=
        s.writeSlot g n (stateSlot c l.round p anc)
      match (l :: r.toList).filter (fun v => v.kind = .marker) with
      | [] =>
        let p := provJoin (old.prov :: (r.toList.map Val.prov))
        let anc := ancestors (old :: r.toList)
        if nonZero r then
          (put (BitVec.ofNat 64 ((old.value.toNat + 1) % 2 ^ 32)) p anc s).emit g f false (l.since r.toList)
        else put old.value p anc s
      | marks =>
        let v := Val.computed old.value l.round old.prov [old]
        let s := (put 0 0 [] s).emit g f true v
        s.emitBoth g f (Val.markerOf l.round marks)))

/-- ORDMERGE (R212). -/
def execOrdmerge (f : Fields) (s : State) : Host.Outcome State Fault Refusal :=
  .next (s.operate { Need.any with markers := true } f (fun s g l _ _ =>
    let n := f.slot.toNat
    match s.frameOf g with
    | none => s
    | some fr =>
      if classSlots fr.cls ≤ n then s.fault g f .slotRange 0
      else
        let m := fr.merge n
        let items := m.left.length + m.right.length + 1
        let m := Merge.run ((items + 1) * (items + 1)) m [(g.port, l)]
        let s := s.modFrameOf g (fun fr =>
          let fr := fr.setSlot n (stateSlot (m.word (f.imm.toNat % 4096)) m.cur (provJoin (m.marks.map Val.prov))
            (ancestors m.marks))
          match Table.find fr.arms n with
          | none => fr
          | some a => { fr with arms := Table.put fr.arms n { a with left := m.left, right := m.right } })
        let s := m.out.foldl (fun s v => s.emitBoth g f v) s
        m.faults.foldl (fun s x =>
          s.fault { g with l := x.2.2, port := x.2.1 } f x.1 (if x.1 = .roundSkew then (bit1 x.2.1).toNat else 0)) s))

/-! ## Nulls and kinds (R213) -/

/-- NULLSET.ALL (R213). -/
def execNullsetAll (f : Fields) (s : State) : Host.Outcome State Fault Refusal :=
  .next (s.operate { Need.any with nulls := true } f (fun s g l _ _ =>
    s.emitBoth g f (Val.nullOf l.round [l])))

/-- NULLSET.IFZ (R213). -/
def execNullsetIfz (f : Fields) (s : State) : Host.Outcome State Fault Refusal :=
  .next (s.operate { Need.any with nulls := true } f (fun s g l _ _ =>
    if l.kind = .scalar ∧ l.value = 0 then
      s.emitBoth g f (Val.nullOf l.round [l])
    else s.emitBoth g f l))

/-- ISNULL.NULL (R213). -/
def execIsnullNull (f : Fields) (s : State) : Host.Outcome State Fault Refusal :=
  .next (s.operate { Need.any with nulls := true } f (fun s g l _ _ =>
    s.emitBoth g f (Val.computed (if l.kind = .null then 1 else 0) l.round (provJoin [l.prov]) [l])))

/-- ISNULL.KIND (R213): a handler. -/
def execIsnullKind (f : Fields) (s : State) : Host.Outcome State Fault Refusal :=
  .next (s.operate { Need.any with nulls := true, handler := true } f (fun s g l _ _ =>
    s.emitBoth g f (Val.computed (BitVec.ofNat 64 l.kind.code) l.round (provJoin [l.prov]) [l])))

/-! ## SWITCH and END (R214, R215) -/

/-- SWITCH (R214): the request goes to the switch agent of a partition. -/
def execSwitch (f : Fields) (s : State) : Host.Outcome State Fault Refusal :=
  .next (s.operate .scalars f (fun s g _ _ _ =>
    let submit (stack : Nat) : State :=
      let p := s.part stack g.ctx
      s.setPart stack { p with reqs := p.reqs ++ [g] }
    if bitAt f.qual 0 then submit (coreStack g.core)
    else
      match (s.ctx g.ctx).phys (f.imm.toNat % 16 * 256) with
      | some p => submit (coreStack p)
      | none => s.fault g f .regionRange (f.imm.toNat % 16 * 256)))

/-- A worker has ended (R115): a fault that its END carries is kept, the first one. -/
def Task.workerEnds (t : Task) (v : Val) : Task :=
  { t with
    workers := t.workers - 1
    ended := if v.kind = .fault ∧ t.ended = none then some v else t.ended }

/-- The shares of a worker frame lose their owner's claim when it ends: an empty one goes, one that still holds
iterations becomes unowned (log 17). -/
def State.disown (s : State) (core : Nat) (fp : U32) : State :=
  match ((s.core core).anyFrame? fp).bind Frame.worker with
  | none => s
  | some w =>
    s.modShare w.1 (fun x =>
      if x.owner ≠ some (core, fp) then some x
      else if x.lo < x.hi then some { x with owner := none }
      else none)

/-- END (R215): a fault token is the completion value as any other; a marker is discarded. -/
def execEndOp (f : Fields) (s : State) : Host.Outcome State Fault Refusal :=
  .next (s.operate { Need.any with handler := true, markers := true } f (fun s g l _ _ =>
    match s.frameOf g with
    | none => s
    | some fr =>
      if l.kind = .marker then s
      else if fr.freepend then s.fault g f .doubleFree 0
      else if !fr.root then s.fault g f .notRoot 0
      else
        let s :=
          match fr.worker with
          | some _ => (s.modTask g.task (fun t => t.workerEnds l)).disown g.core g.fp
          | none => s.modTask g.task (fun t => { t with ended := some l })
        s.freeOrWait g.core g.fp))

end Sys2Proof.Machine
end

