-- ==== Sys2Proof/Machine/NumFmt.lean ====
section
/-! DEFINITION. The number formats (R81 to R88, R494), exact values, and their rounding (R89 to R92, R96). An exact magnitude is known through its scaled floors, from which every mode rounds. -/

namespace Sys2Proof.Machine

/-! ## Formats -/

/-- The width in bits of a type (R81). -/
def tyWidth : EType → Nat
  | .i64 | .n64 | .f64 => 64
  | .i32 | .n32 | .f32 => 32
  | .i16 | .bf16 | .f16 => 16
  | .i8 | .n8 | .e4m3 | .e5m2 => 8
  | .e2m3 => 6
  | .i4 | .e2m1 => 4

/-- Storage in a tile, in half bytes (R81). -/
def tyNibbles : EType → Nat
  | .i64 | .n64 | .f64 => 16
  | .i32 | .n32 | .f32 => 8
  | .i16 | .bf16 | .f16 => 4
  | .i8 | .n8 | .e4m3 | .e5m2 | .e2m3 => 2
  | .i4 | .e2m1 => 1

/-- A signed integer type. -/
def tySigned : EType → Bool
  | .i64 | .i32 | .i16 | .i8 | .i4 => true
  | _ => false

/-- A floating-point type. -/
def tyFloat : EType → Bool
  | .f64 | .f32 | .bf16 | .f16 | .e4m3 | .e5m2 | .e2m3 | .e2m1 => true
  | _ => false

/-- The type of a code (R81). -/
def tyOf (n : Nat) : EType :=
  match n with
  | 0 => .i64 | 1 => .n64 | 2 => .i32 | 3 => .n32 | 4 => .i16 | 5 => .i8 | 6 => .n8 | 7 => .i4
  | 8 => .f64 | 9 => .f32 | 10 => .bf16 | 11 => .f16 | 12 => .e4m3 | 13 => .e5m2 | 14 => .e2m3 | _ => .e2m1

/-- The code of a type (R81). -/
def tyCode : EType → Nat
  | .i64 => 0 | .n64 => 1 | .i32 => 2 | .n32 => 3 | .i16 => 4 | .i8 => 5 | .n8 => 6 | .i4 => 7
  | .f64 => 8 | .f32 => 9 | .bf16 => 10 | .f16 => 11 | .e4m3 => 12 | .e5m2 => 13 | .e2m3 => 14 | .e2m1 => 15

/-- The least value of an integer type (R84). -/
def tyMin (t : EType) : Int := if tySigned t then -(2 ^ (tyWidth t - 1) : Int) else 0
/-- The greatest value of an integer type (R84). -/
def tyMax (t : EType) : Int := if tySigned t then 2 ^ (tyWidth t - 1) - 1 else 2 ^ tyWidth t - 1

/-- Mantissa bits m of a floating-point type (R85). -/
def fmtM : EType → Nat
  | .f64 => 52 | .f32 => 23 | .bf16 => 7 | .f16 => 10 | .e4m3 => 3 | .e5m2 => 2 | .e2m3 => 3 | _ => 1
/-- Bias (R85). -/
def fmtBias : EType → Nat
  | .f64 => 1023 | .f32 => 127 | .bf16 => 127 | .f16 => 15 | .e4m3 => 7 | .e5m2 => 15 | _ => 1
/-- The encoding of the largest finite value (R85). -/
def fmtMax : EType → Nat
  | .f64 => 0x7FEFFFFFFFFFFFFF | .f32 => 0x7F7FFFFF | .bf16 => 0x7F7F | .f16 => 0x7BFF
  | .e4m3 => 0x7E | .e5m2 => 0x7B | .e2m3 => 0x1F | _ => 0x7
/-- The format has infinities (R85). -/
def fmtInf : EType → Bool
  | .f64 | .f32 | .bf16 | .f16 | .e5m2 => true
  | _ => false
/-- The canonical NaN (R87); E2M3 and E2M1 have none, and a NaN brought there is +0 (R91). -/
def fmtNan : EType → Nat
  | .f64 => 0x7FF8000000000000 | .f32 => 0x7FC00000 | .bf16 => 0x7FC0 | .f16 => 0x7E00
  | .e5m2 => 0x7E | .e4m3 => 0x7F | _ => 0
/-- The smallest subnormal is 2 to minus this (R85). -/
def fmtUlp (t : EType) : Nat := fmtBias t - 1 + fmtM t

/-- The sign bit of an encoding. -/
def signBit (t : EType) (neg : Bool) : Nat := if neg then 2 ^ (tyWidth t - 1) else 0
/-- ±MAX (R90). -/
def fmtMaxEnc (t : EType) (neg : Bool) : Nat := fmtMax t + signBit t neg
/-- ±∞, or ±MAX where the format has no infinity (R494). -/
def fmtInfEnc (t : EType) (neg : Bool) : Nat := (if fmtInf t then fmtMax t + 1 else fmtMax t) + signBit t neg
/-- 1.0 as a floating-point type has it, or the integer 1. -/
def fmtOne (t : EType) : Nat := if tyFloat t then fmtBias t * 2 ^ fmtM t else 1

/-! ## Exact values of encodings -/

/-- A NaN, an infinity, or the number ±n / 2^u; a zero keeps its sign. -/
inductive Num where
  | nan (signalling : Bool)
  | inf (neg : Bool)
  | fin (neg : Bool) (n u : Nat)
  deriving DecidableEq, Repr

/-- The value of the low bits of a word as an encoding of a floating-point type (R85, R87). -/
def decodeFloat (t : EType) (bits : Nat) : Num :=
  let w := tyWidth t
  let x := bits % 2 ^ w
  let neg := decide (2 ^ (w - 1) ≤ x)
  let a := x % 2 ^ (w - 1)
  let m := fmtM t
  let e := a / 2 ^ m
  if fmtInf t && decide (fmtMax t < a) then
    if a = fmtMax t + 1 then .inf neg else .nan (decide (a % 2 ^ m < 2 ^ (m - 1)))
  else if t = .e4m3 ∧ a = 0x7F then .nan false
  else if e = 0 then .fin neg a (fmtUlp t)
  else .fin neg ((a % 2 ^ m + 2 ^ m) * 2 ^ (e - 1)) (fmtUlp t)

/-- The value of the low bits of a word as an integer type (R84, R218). -/
def decodeInt (t : EType) (bits : Nat) : Int :=
  let w := tyWidth t
  let x := bits % 2 ^ w
  if tySigned t && decide (2 ^ (w - 1) ≤ x) then (x : Int) - 2 ^ w else x

/-- An integer reduced to the w bits of its type (R84). -/
def wrapInt (t : EType) (v : Int) : Nat := (v % (2 ^ tyWidth t : Int)).toNat

/-- A w-bit pattern extended to 64 bits (R83). -/
def extend (t : EType) (bits : Nat) : U64 :=
  let w := tyWidth t
  let x := bits % 2 ^ w
  if tySigned t && decide (2 ^ (w - 1) ≤ x) then BitVec.ofNat 64 (x + (2 ^ 64 - 2 ^ w)) else BitVec.ofNat 64 x

/-- An exact integer as a number. -/
def Num.ofInt (v : Int) : Num := .fin (decide (v < 0)) v.natAbs 0

/-- A number of an element of a type (R81). -/
def decodeNum (t : EType) (bits : Nat) : Num :=
  if tyFloat t then decodeFloat t bits else Num.ofInt (decodeInt t bits)

/-! ## Exact magnitudes -/

/-- A positive exact magnitude: a ratio, its square root, 2^(±n/d), |log2 (n/d)|, tanh (n/d), or the logistic function of
±n/d (R96). -/
inductive Mag where
  | ratio (n d : Nat)
  | root (n d : Nat)
  | exp2 (neg : Bool) (n d : Nat)
  | log2 (n d : Nat)
  | tanh (n d : Nat)
  | sigm (neg : Bool) (n d : Nat)
  deriving DecidableEq, Repr

/-- floor of the square root of n, from bit b down. -/
def isqrtFrom (n : Nat) : Nat → Nat → Nat
  | 0, r => r
  | b + 1, r => if (r + 2 ^ b) * (r + 2 ^ b) ≤ n then isqrtFrom n b (r + 2 ^ b) else isqrtFrom n b r

/-- floor of the square root of n. -/
def isqrt (n : Nat) : Nat := isqrtFrom n (Nat.log2 n / 2 + 1) 0

/-- floor (n / d · 2^k) and whether that is exact. -/
def ratioFloor (n d : Nat) (k : Int) : Nat × Bool :=
  let a := n * 2 ^ k.toNat
  let b := d * 2 ^ (-k).toNat
  (a / b, a % b == 0)

/-! ### Intervals: bounds in units of 2^-p -/

/-- The sum of z^(2k+1) / (2k+1) from term k on, each step rounded down; z2 is z². -/
def oddSum (p z2 : Nat) : Nat → Nat → Nat → Nat → Nat
  | 0, _, _, acc => acc
  | fuel + 1, k, t, acc =>
    if t = 0 then acc else oddSum p z2 fuel (k + 2) (t * z2 / 2 ^ p) (acc + t / k)

/-- Bounds of 2·artanh z for 0 ≤ z ≤ 1/3 between bounds. -/
def artanh2 (p lo hi : Nat) : Nat × Nat :=
  (2 * oddSum p (lo * lo / 2 ^ p) p 1 lo 0, 2 * oddSum p (hi * hi / 2 ^ p + 1) p 1 hi 0 + 8 * (p + 4))

/-- Bounds of ln 2. -/
def ln2 (p : Nat) : Nat × Nat := artanh2 p (2 ^ p / 3) (2 ^ p / 3 + 1)

/-- The sum of y^k / k! from term k on, each step rounded down. -/
def expSum (p y : Nat) : Nat → Nat → Nat → Nat → Nat
  | 0, _, _, acc => acc
  | fuel + 1, k, t, acc =>
    if t = 0 then acc else expSum p y fuel (k + 1) (t * y / (2 ^ p * k)) (acc + t)

/-- Bounds of e^y for 0 ≤ y < 1 between bounds. -/
def expUnit (p lo hi : Nat) : Nat × Nat :=
  (expSum p lo (p + 4) 1 (2 ^ p) 0, expSum p hi (p + 4) 1 (2 ^ p) 0 + 4 * (p + 8))

/-- Bounds of e^(n/d). -/
def expBounds (p n d : Nat) : Nat × Nat :=
  let l := ln2 p
  let x := n * 2 ^ p / d
  let i := x / l.2
  let e := expUnit p (x - i * l.2) (x + 1 - i * l.1)
  (e.1 * 2 ^ i, e.2 * 2 ^ i)

/-- Bounds of a transcendental magnitude in units of 2^-p. -/
def Mag.bounds (p : Nat) : Mag → Nat × Nat
  | .ratio n d => (n * 2 ^ p / d, n * 2 ^ p / d + 1)
  | .root n d => (isqrt (n * 2 ^ (2 * p) / d), isqrt (n * 2 ^ (2 * p) / d) + 1)
  | .exp2 neg n d =>
    -- 2^(±n/d) = 2^i · 2^f with 0 ≤ f < 1
    let i := n / d
    let f := n % d
    let up := if neg then d - f else f
    let l := ln2 p
    let e := expUnit p (l.1 * up / d) (l.2 * up / d + 1)
    if neg then (e.1 / 2 ^ (i + 1), e.2 / 2 ^ (i + 1) + 1) else (e.1 * 2 ^ i, e.2 * 2 ^ i)
  | .log2 n d =>
    -- n/d = 2^e · m with 1 ≤ m < 2
    let e0 : Int := (Nat.log2 n : Int) - Nat.log2 d
    let e : Int := if n * 2 ^ (-e0).toNat < d * 2 ^ e0.toNat then e0 - 1 else e0
    let a := n * 2 ^ (-e).toNat
    let b := d * 2 ^ e.toNat
    let z := (a - b) * 2 ^ p / (a + b)
    let g := artanh2 p z (z + 1)
    let l := ln2 p
    let lo := g.1 * 2 ^ p / l.2
    let hi := g.2 * 2 ^ p / l.1 + 1
    if 0 ≤ e then (e.toNat * 2 ^ p + lo, e.toNat * 2 ^ p + hi)
    else ((-e).toNat * 2 ^ p - hi, (-e).toNat * 2 ^ p - lo)
  | .tanh n d =>
    let e := expBounds p (2 * n) d
    ((e.1 - 2 ^ p) * 2 ^ p / (e.1 + 2 ^ p), (e.2 - 2 ^ p) * 2 ^ p / (e.2 + 2 ^ p) + 1)
  | .sigm neg n d =>
    let e := expBounds p n d
    if neg then (2 ^ p * 2 ^ p / (e.2 + 2 ^ p), 2 ^ p * 2 ^ p / (e.1 + 2 ^ p) + 1)
    else (e.1 * 2 ^ p / (e.1 + 2 ^ p), e.2 * 2 ^ p / (e.2 + 2 ^ p) + 1)

/-- floor (m · 2^k) of a magnitude that is no dyadic number: the precision doubles until both bounds agree. -/
def Mag.refine (m : Mag) (k : Int) : Nat → Nat → Nat
  | 0, p => (ratioFloor (m.bounds p).1 (2 ^ p) k).1
  | fuel + 1, p =>
    let b := m.bounds p
    let lo := (ratioFloor b.1 (2 ^ p) k).1
    if lo = (ratioFloor b.2 (2 ^ p) k).1 then lo else m.refine k fuel (2 * p)

/-- A power of two as a ratio: the exponent of log2 of an exact power, none otherwise. -/
def isPow2 (n : Nat) : Bool := n != 0 && n == 2 ^ Nat.log2 n

/-- floor (m · 2^k) and whether that is exact. -/
def Mag.floor (m : Mag) (k : Int) : Nat × Bool :=
  match m with
  | .ratio n d => ratioFloor n d k
  | .root n d =>
    let a := n * 2 ^ (2 * k).toNat
    let b := d * 2 ^ (-(2 * k)).toNat
    let r := isqrt (a / b)
    (r, r * r * b == a)
  | .exp2 neg n d =>
    if 32768 * d ≤ n then ratioFloor (if neg then 1 else 2 ^ 32768) (if neg then 2 ^ 32768 else 1) k
    else if n % d = 0 then ratioFloor (if neg then 1 else 2 ^ (n / d)) (if neg then 2 ^ (n / d) else 1) k
    else (m.refine k 8 (k.toNat + n / d + 64), false)
  | .log2 n d =>
    let g := Nat.gcd n d
    if isPow2 (n / g) && isPow2 (d / g) then
      ratioFloor ((Nat.log2 (n / g) - Nat.log2 (d / g)) + (Nat.log2 (d / g) - Nat.log2 (n / g))) 1 k
    else (m.refine k 8 (k.toNat + 64), false)
  | .tanh n d =>
    if d * (k.toNat + 1) ≤ n then (if 0 ≤ k then (2 ^ k.toNat - 1, false) else (0, false))
    else (m.refine k 8 (k.toNat + 64), false)
  | .sigm neg n d =>
    if d * (k.toNat + 1) ≤ n then (if 0 ≤ k && !neg then (2 ^ k.toNat - 1, false) else (0, false))
    else (m.refine k 8 (k.toNat + 64), false)

/-! ## Rounding (R89, R90, R92) -/

/-- The bits of FPSTAT (R94), from NV in bit 0 to ISAT in bit 5. -/
abbrev Flags := BitVec 6
def flagNV : Flags := 1
def flagDZ : Flags := 2
def flagOF : Flags := 4
def flagUF : Flags := 8
def flagNX : Flags := 16
def flagISAT : Flags := 32

/-- A value to be rounded: NaN, an infinity, a zero of a sign, or a magnitude with a sign. -/
inductive Exact where
  | nan
  | inf (neg : Bool)
  | zero (neg : Bool)
  | mag (neg : Bool) (m : Mag)
  deriving DecidableEq, Repr

/-- The choice of the neighbour away from zero (R89, R92) for a magnitude that lies between q and q + 1 units of 2^-k
and equals q only if exact. -/
def roundsUp (m : Mag) (k : Int) (neg : Bool) (rm : Rounding) (rnd : U32) : Bool :=
  let q := (m.floor k).1
  match rm with
  | .rtz => false
  | .rdn => neg
  | .rup => !neg
  | .rne =>
    let h := m.floor (k + 1)
    h.1 % 2 == 1 && (!h.2 || q % 2 == 1)
  | .sr =>
    let h := m.floor (k + 32)
    let frac := h.1 - q * 2 ^ 32
    if neg then !decide (2 ^ 32 ≤ (2 ^ 32 - frac - (if h.2 then 0 else 1)) + rnd.toNat)
    else decide (2 ^ 32 ≤ frac + rnd.toNat)

/-- The mode in which t of R89 is rounded: the same, but under SR towards the side of the neighbour chosen. -/
def tinyUp (m : Mag) (k : Int) (neg : Bool) (rm : Rounding) (up : Bool) : Bool :=
  match rm with
  | .sr => up
  | r => roundsUp m k neg r 0

/-- BIG (R90). -/
def fmtBig (t : EType) (sat neg : Bool) : Nat :=
  if sat then fmtMaxEnc t neg
  else if t = .e4m3 then 0x7F
  else fmtInfEnc t neg

/-- An overflow (R90). -/
def overflowEnc (t : EType) (rm : Rounding) (sat neg : Bool) : Nat :=
  match rm with
  | .rne | .sr => fmtBig t sat neg
  | .rtz => fmtMaxEnc t neg
  | .rdn => if neg then fmtBig t sat true else fmtMaxEnc t false
  | .rup => if neg then fmtMaxEnc t true else fmtBig t sat false

/-- round_to for a magnitude and a floating-point format (R89, R90). DESIGN CHOICE (log 47): a value that lies on the grid continued above MAX
is its own rounding, so that every mode overflows with OF and NX. -/
def roundMag (t : EType) (rm : Rounding) (sat : Bool) (rnd : U32) (neg : Bool) (m : Mag) : Nat × Flags :=
  let w := fmtM t
  let k0 : Int := fmtUlp t
  let q0 := (m.floor k0).1
  -- the exponent steps above the subnormal spacing
  let j := if q0 < 2 ^ (w + 1) then 0 else Nat.log2 q0 - w
  let k : Int := k0 - j
  let f := m.floor k
  let up := !f.2 && roundsUp m k neg rm rnd
  let enc := j * 2 ^ w + f.1 + (if up then 1 else 0)
  if fmtMax t < enc then (overflowEnc t rm sat neg, flagOF ||| flagNX)
  else if f.2 then (enc + signBit t neg, 0)
  else
    let tiny :=
      if 2 ^ w ≤ f.1 then false
      else if f.1 + 1 < 2 ^ w then true
      else
        -- just below the smallest normal number: t has one bit more
        let h := m.floor (k0 + 1)
        decide (h.1 + 1 < 2 ^ (w + 1)) || h.2 || !tinyUp m (k0 + 1) neg rm up
    (enc + signBit t neg, flagNX ||| (if tiny then flagUF else 0))

/-- round_to for a floating-point format (R89 to R91): the encoding and the flags. -/
def roundFloat (t : EType) (rm : Rounding) (sat : Bool) (rnd : U32) (x : Exact) : Nat × Flags :=
  match x with
  | .nan => (fmtNan t, if fmtNan t = 0 then flagNV else 0)
  | .inf neg =>
    if fmtInf t then (fmtInfEnc t neg, 0)
    else if t = .e4m3 ∧ !sat then (0x7F, flagNV)
    else (fmtMaxEnc t neg, flagNV)
  | .zero neg => (signBit t neg, 0)
  | .mag neg m => roundMag t rm sat rnd neg m

/-- The integer that a magnitude rounds to (R89), and whether it is exact. -/
def roundToInt (rm : Rounding) (rnd : U32) (neg : Bool) (m : Mag) : Int × Bool :=
  let f := m.floor 0
  let up := !f.2 && roundsUp m 0 neg rm rnd
  let n : Nat := f.1 + (if up then 1 else 0)
  (if neg then -(n : Int) else n, f.2)

/-- Float to integer (R91): the w-bit pattern and the flags. -/
def roundInt (t : EType) (rm : Rounding) (rnd : U32) (x : Exact) : Nat × Flags :=
  match x with
  | .nan => (0, flagNV)
  | .inf neg => (wrapInt t (if neg then tyMin t else tyMax t), flagNV)
  | .zero _ => (0, 0)
  | .mag neg m =>
    let v := roundToInt rm rnd neg m
    if v.1 < tyMin t then (wrapInt t (tyMin t), flagNV)
    else if tyMax t < v.1 then (wrapInt t (tyMax t), flagNV)
    else (wrapInt t v.1, if v.2 then 0 else flagNX)

/-- round_to (R89, R91) for every type. -/
def roundTo (t : EType) (rm : Rounding) (sat : Bool) (rnd : U32) (x : Exact) : Nat × Flags :=
  if tyFloat t then roundFloat t rm sat rnd x else roundInt t rm rnd x

/-- An exact integer brought to an integer type (R84): wrapped, or saturated with ISAT. -/
def fitInt (t : EType) (sat : Bool) (v : Int) : Nat × Flags :=
  if sat && decide (v < tyMin t) then (wrapInt t (tyMin t), flagISAT)
  else if sat && decide (tyMax t < v) then (wrapInt t (tyMax t), flagISAT)
  else (wrapInt t v, 0)

/-- A number as a value to be rounded; a zero keeps its sign. -/
def Num.exact : Num → Exact
  | .nan _ => .nan
  | .inf neg => .inf neg
  | .fin neg n u => if n = 0 then .zero neg else .mag neg (.ratio n (2 ^ u))

/-- A signalling NaN sets NV (R87). -/
def Num.signals : Num → Flags
  | .nan true => flagNV
  | _ => 0

/-- The conversion of an element between types (R91). -/
def convertTy (src dst : EType) (rm : Rounding) (sat : Bool) (rnd : U32) (bits : Nat) : Nat × Flags :=
  if tyFloat src || tyFloat dst then
    let x := decodeNum src bits
    let r := roundTo dst rm sat rnd x.exact
    (r.1, r.2 ||| x.signals)
  else if tyWidth src < tyWidth dst then (wrapInt dst (decodeInt src bits), 0)
  else fitInt dst sat (decodeInt src bits)

/-! ## The generator of stochastic rounding (R92) -/

/-- One step of the Galois LFSR. -/
def lfsrStep (x : U64) : U64 := if x.getLsbD 0 then (x >>> 1) ^^^ 0xD800000000000000 else x >>> 1

/-- n steps. -/
def lfsrRun : Nat → U64 → U64
  | 0, x => x
  | n + 1, x => lfsrRun n (lfsrStep x)

/-- A draw: the state after 32 steps; rnd is its low half. -/
def lfsrDraw (x : U64) : U64 := lfsrRun 32 x

/-- The state that a seed loads into a core with a virtual id. -/
def lfsrSeed (seed : U64) (vcore : BitVec 12) : U64 :=
  let x := seed ^^^ (vcore ++ (0 : BitVec 52))
  if x = 0 then 1 else x

/-- n draws: the state after them and the values drawn, in order. -/
def lfsrDraws : Nat → U64 → U64 × List U32
  | 0, x => (x, [])
  | n + 1, x =>
    let y := lfsrDraw x
    let r := lfsrDraws n y
    (r.1, y.setWidth 32 :: r.2)

end Sys2Proof.Machine
end

