-- ==== Sys2Proof/Machine/Flags.lean ====
section
/-! DEFINITION. Floating-point arithmetic with the flags it sets (R86, R87, R94 to R96, R234 to R238), integer arithmetic (R224 to R232), comparisons, and the flags of a context. -/

namespace Sys2Proof.Machine

/-! ## Exact floating-point results -/

/-- A finite number as a signed integer in units of 2^-u. -/
def signedAt (neg : Bool) (n u v : Nat) : Int := if neg then -((n * 2 ^ (v - u) : Nat) : Int) else ((n * 2 ^ (v - u) : Nat) : Int)

/-- A signed number in units of 2^-u; rdn gives the sign of an exact zero sum of opposite signs (R86). -/
def exactSum (v : Int) (u : Nat) (zero : Bool) : Exact :=
  if v = 0 then .zero zero else .mag (decide (v < 0)) (.ratio v.natAbs (2 ^ u))

/-- x + y (R86, R95, R234). -/
def numAdd (rm : Rounding) (x y : Num) : Exact × Flags :=
  let sig := x.signals ||| y.signals
  match x, y with
  | .nan _, _ => (.nan, sig)
  | _, .nan _ => (.nan, sig)
  | .inf a, .inf b => if a = b then (.inf a, 0) else (.nan, flagNV)
  | .inf a, .fin _ _ _ => (.inf a, 0)
  | .fin _ _ _, .inf b => (.inf b, 0)
  | .fin a n u, .fin b m v =>
    let w := max u v
    (exactSum (signedAt a n u w + signedAt b m v w) w
      (if n = 0 ∧ m = 0 ∧ a = b then a else decide (rm = .rdn)), 0)

/-- A number with its sign inverted. -/
def Num.neg : Num → Num
  | .nan s => .nan s
  | .inf a => .inf (!a)
  | .fin a n u => .fin (!a) n u

/-- x − y. -/
def numSub (rm : Rounding) (x y : Num) : Exact × Flags := numAdd rm x y.neg

/-- The exact product as a number (R234): 0 × ∞ is invalid. -/
def numProduct (x y : Num) : Num × Flags :=
  let sig := x.signals ||| y.signals
  match x, y with
  | .nan _, _ => (.nan false, sig)
  | _, .nan _ => (.nan false, sig)
  | .inf a, .inf b => (.inf (a != b), 0)
  | .inf a, .fin b n _ => if n = 0 then (.nan false, flagNV) else (.inf (a != b), 0)
  | .fin a n _, .inf b => if n = 0 then (.nan false, flagNV) else (.inf (a != b), 0)
  | .fin a n u, .fin b m v => (.fin (a != b) (n * m) (u + v), 0)

/-- x × y. -/
def numMul (x y : Num) : Exact × Flags :=
  let p := numProduct x y
  (p.1.exact, p.2)

/-- x × y + z, exact until the one rounding (R95). -/
def numFma (rm : Rounding) (x y z : Num) : Exact × Flags :=
  let p := numProduct x y
  let r := numAdd rm p.1 z
  (r.1, p.2 ||| r.2 ||| z.signals)

/-- x / y (R234). -/
def numDiv (x y : Num) : Exact × Flags :=
  let sig := x.signals ||| y.signals
  match x, y with
  | .nan _, _ => (.nan, sig)
  | _, .nan _ => (.nan, sig)
  | .inf _, .inf _ => (.nan, flagNV)
  | .inf a, .fin b _ _ => (.inf (a != b), 0)
  | .fin a _ _, .inf b => (.zero (a != b), 0)
  | .fin a n u, .fin b m v =>
    if m = 0 then (if n = 0 then (.nan, flagNV) else (.inf (a != b), flagDZ))
    else if n = 0 then (.zero (a != b), 0)
    else (.mag (a != b) (.ratio (n * 2 ^ v) (m * 2 ^ u)), 0)

/-- √x (R96, R234). -/
def numSqrt (x : Num) : Exact × Flags :=
  match x with
  | .nan _ => (.nan, x.signals)
  | .inf a => if a then (.nan, flagNV) else (.inf false, 0)
  | .fin a n u => if n = 0 then (.zero a, 0) else if a then (.nan, flagNV) else (.mag false (.root n (2 ^ u)), 0)

/-- 2^x (R96). -/
def numExp2 (x : Num) : Exact × Flags :=
  match x with
  | .nan _ => (.nan, x.signals)
  | .inf a => (if a then .zero false else .inf false, 0)
  | .fin a n u => (.mag false (.exp2 (a && n != 0) n (2 ^ u)), 0)

/-- log2 x (R96). -/
def numLog2 (x : Num) : Exact × Flags :=
  match x with
  | .nan _ => (.nan, x.signals)
  | .inf a => if a then (.nan, flagNV) else (.inf false, 0)
  | .fin a n u =>
    if n = 0 then (.inf true, flagDZ)
    else if a then (.nan, flagNV)
    else if n = 2 ^ u then (.zero false, 0)
    else (.mag (decide (n < 2 ^ u)) (.log2 n (2 ^ u)), 0)

/-- 1 / x (R96). -/
def numRcp (x : Num) : Exact × Flags :=
  match x with
  | .nan _ => (.nan, x.signals)
  | .inf a => (.zero a, 0)
  | .fin a n u => if n = 0 then (.inf a, flagDZ) else (.mag a (.ratio (2 ^ u) n), 0)

/-- 1 / √x (R96). -/
def numRsq (x : Num) : Exact × Flags :=
  match x with
  | .nan _ => (.nan, x.signals)
  | .inf a => if a then (.nan, flagNV) else (.zero false, 0)
  | .fin a n u =>
    if n = 0 then (.inf a, flagDZ) else if a then (.nan, flagNV) else (.mag false (.root (2 ^ u) n), 0)

/-- tanh x (R96). -/
def numTanh (x : Num) : Exact × Flags :=
  match x with
  | .nan _ => (.nan, x.signals)
  | .inf a => (.mag a (.ratio 1 1), 0)
  | .fin a n u => if n = 0 then (.zero a, 0) else (.mag a (.tanh n (2 ^ u)), 0)

/-- 1 / (1 + e^-x) (R96). -/
def numSigm (x : Num) : Exact × Flags :=
  match x with
  | .nan _ => (.nan, x.signals)
  | .inf a => (if a then .zero false else .mag false (.ratio 1 1), 0)
  | .fin a n u => if n = 0 then (.mag false (.ratio 1 2), 0) else (.mag false (.sigm a n (2 ^ u)), 0)

/-- An exact result rounded into a type, with all its flags. -/
def rounded (t : EType) (rm : Rounding) (sat : Bool) (rnd : U32) (r : Exact × Flags) : Nat × Flags :=
  let x := roundTo t rm sat rnd r.1
  (x.1, x.2 ||| r.2)

/-! ## Comparison and selection of floating-point values -/

/-- How two numbers stand: none where either is a NaN. −0 and +0 are equal (R236). -/
def numCompare (x y : Num) : Option Ordering :=
  match x, y with
  | .nan _, _ => none
  | _, .nan _ => none
  | .inf a, .inf b => some (if a = b then .eq else if a then .lt else .gt)
  | .inf a, .fin _ _ _ => some (if a then .lt else .gt)
  | .fin _ _ _, .inf b => some (if b then .gt else .lt)
  | .fin a n u, .fin b m v =>
    let w := max u v
    some (compare (signedAt a n u w) (signedAt b m v w))

/-- A NaN. -/
def Num.isNan : Num → Bool
  | .nan _ => true
  | _ => false

/-- The sign of a number. -/
def Num.negative : Num → Bool
  | .nan _ => false
  | .inf a => a
  | .fin a _ _ => a

/-- minimumNumber (max false) and maximumNumber (max true) of two encodings (R95, R235). -/
def floatPick (t : EType) (max : Bool) (a b : Nat) : Nat × Flags :=
  let x := decodeFloat t a
  let y := decodeFloat t b
  let sig := x.signals ||| y.signals
  match x.isNan, y.isNan with
  | true, true => (fmtNan t, sig)
  | true, false => (b, sig)
  | false, true => (a, sig)
  | false, false =>
    let less : Bool :=
      match numCompare x y with
      | some .lt => true
      | some .eq => x.negative && !y.negative
      | _ => false
    let more : Bool :=
      match numCompare x y with
      | some .gt => true
      | some .eq => !x.negative && y.negative
      | _ => false
    (if max then (if less then b else a) else (if more then b else a), 0)

/-- The condition of FCMP by FN (R236), and its flags. -/
def floatTest (fn : Nat) (x y : Num) : Bool × Flags :=
  let c := numCompare x y
  let ordered := c.isSome
  let holds : Bool :=
    match fn with
    | 0 => decide (c = some .eq)
    | 1 => decide (c ≠ some .eq)
    | 2 => decide (c = some .lt)
    | 3 => decide (c = some .lt) || decide (c = some .eq)
    | 4 => decide (c = some .gt)
    | 5 => decide (c = some .gt) || decide (c = some .eq)
    | 6 => !ordered
    | _ => ordered
  let quiet : Flags := if !ordered && decide (2 ≤ fn) && decide (fn ≤ 5) then flagNV else 0
  (holds, x.signals ||| y.signals ||| quiet)

/-- The class bit of FCLASS (R238). -/
def floatClass (t : EType) (bits : Nat) : Nat :=
  match decodeFloat t bits with
  | .nan true => 8
  | .nan false => 9
  | .inf true => 0
  | .inf false => 7
  | .fin true n _ => if n = 0 then 3 else if n < 2 ^ fmtM t then 2 else 1
  | .fin false n _ => if n = 0 then 4 else if n < 2 ^ fmtM t then 5 else 6

/-! ## Integers -/

/-- DIV and REM (R225): quotient and remainder. -/
def intDivRem (t : EType) (x y : Int) : Int × Int :=
  if y = 0 then (if tySigned t then -1 else tyMax t, x)
  else if tySigned t ∧ x = tyMin t ∧ y = -1 then (x, 0)
  else (x.tdiv y, x - y * x.tdiv y)

/-- SHL, SHR, SAR and ROL on the w bits of x, by s (R226). -/
def shiftBits (op : Nat) (w x s : Nat) : Nat :=
  let x := x % 2 ^ w
  match op with
  | 0 => if w ≤ s then 0 else x * 2 ^ s % 2 ^ w
  | 1 => if w ≤ s then 0 else x / 2 ^ s
  | 2 =>
    let s := min s (w - 1)
    if x < 2 ^ (w - 1) then x / 2 ^ s else x / 2 ^ s + (2 ^ w - 2 ^ (w - s))
  | _ =>
    let s := s % w
    x * 2 ^ s % 2 ^ w + x / 2 ^ (w - s)

/-- The zero bits above the highest one bit of the w bits (R230). -/
def clzBits (w x : Nat) : Nat := if x % 2 ^ w = 0 then w else w - 1 - Nat.log2 (x % 2 ^ w)

/-- The zero bits below the lowest one bit of the w bits (R230). -/
def ctzBits (w x : Nat) : Nat := ((List.range w).find? (fun i => bitOf x i)).getD w

/-- The one bits of the w bits (R230). -/
def popBits (w x : Nat) : Nat := ((List.range w).filter (fun i => bitOf x i)).length

/-- The condition of CMP by FN (R228) on the w bits of a type. -/
def intTest (fn : Nat) (t : EType) (a b : Nat) : Bool :=
  let x := decodeInt t a
  let y := decodeInt t b
  match fn with
  | 0 => decide (x = y)
  | 1 => decide (x ≠ y)
  | 2 => decide (x < y)
  | 3 => decide (x ≤ y)
  | 4 => decide (y < x)
  | 5 => decide (y ≤ x)
  | _ => (a &&& b) % 2 ^ tyWidth t != 0

/-! ## The flags of a context (R94) -/

/-- Flags are set in FPSTAT of a context. -/
def State.setFlags (s : State) (ctx : Nat) (fl : Flags) : State :=
  if fl = 0 then s else s.modCtx ctx (fun c => { c with fpstat := c.fpstat ||| fl })

/-- n draws of a core's generator (R92). -/
def State.draws (s : State) (core n : Nat) : State × List U32 :=
  let r := lfsrDraws n (s.core core).lfsr
  (s.modCore core (fun k => { k with lfsr := r.1 }), r.2)

/-- One draw where RM is SR; else nothing is drawn. -/
def State.drawFor (s : State) (core : Nat) (rm : Rounding) : State × U32 :=
  if rm = .sr then
    let x := lfsrDraw (s.core core).lfsr
    (s.modCore core (fun k => { k with lfsr := x }), x.setWidth 32)
  else (s, 0)

end Sys2Proof.Machine
end

