-- ==== Sys2Proof/Machine/Tiles.lean ====
section
/-! DEFINITION. Tile handles and descriptors (R45, R50 to R52), where elements and block scales lie in a vault (R82, R88, R243 to R245), and the reading and writing of elements. -/

namespace Sys2Proof.Machine

/-! ## Handles (R45) -/

def hVcore (v : U64) : Nat := (field v 52 12).toNat
def hIndex (v : U64) : Nat := (field v 40 12).toNat
def hGen (v : U64) : BitVec 8 := field v 32 8
def hRow0 (v : U64) : Nat := (field v 20 12).toNat
def hNrows (v : U64) : Nat := (field v 8 12).toNat

/-- A handle of its parts. -/
def mkHandle (vcore : BitVec 12) (index : Nat) (gen : BitVec 8) (row0 nrows : Nat) : U64 :=
  vcore ++ BitVec.ofNat 12 index ++ gen ++ BitVec.ofNat 12 row0 ++ BitVec.ofNat 12 nrows ++ (0 : BitVec 8)

/-- A tile of a core. -/
def Core.tile (k : Core) (i : Nat) : Tile := Table.look Tile.reset k.tiles i

/-- A change to a tile of a core. -/
def State.modTile (s : State) (core i : Nat) (h : Tile → Tile) : State :=
  s.modCore core (fun k => { k with tiles := Table.put k.tiles i (h (k.tile i)) })

/-- A handle that has passed R51: the vault's core, the index, the descriptor, the first row and the rows of the view
(R295). -/
structure View where
  core  : Nat
  index : Nat
  tile  : Tile
  row0  : Nat
  n     : Nat
  deriving DecidableEq, Repr

/-- The checks of R51 on a handle in a context. A handle of a core outside the region fails with REGION_RANGE (R165). A malformed
descriptor (R50) is found once the handle is known to name it, before its ROWS are compared (log 123); its reserved fields are zero by
form. -/
def State.view (s : State) (ctx : Nat) (h : U64) (shadowOk : Bool) : Except FaultClass View :=
  match (s.ctx ctx).phys (hVcore h) with
  | none => .error .regionRange
  | some c =>
    let t := (s.core c).tile (hIndex h)
    if field h 0 8 != 0 then .error .kind
    else if !t.valid || t.gen != hGen h then .error .staleHandle
    else if t.rows = 0 ∨ t.cols = 0 ∨ 2 ^ 22 < t.base + t.size * 64 + 64 then .error .tileMalformed
    else if t.rows < hRow0 h + max 1 (hNrows h) then .error .viewRange
    else if t.shadow && !shadowOk then .error .tileShadow
    else .ok {
      core := c, index := hIndex h, tile := t, row0 := hRow0 h,
      n := if hNrows h = 0 then t.rows - hRow0 h else hNrows h }

/-- The view of a handle that passed R51 when its command was accepted. BUSY keeps the tile's index, place and data until that command ends,
its last TREL notwithstanding (R52). -/
def State.viewFlight (s : State) (ctx : Nat) (h : U64) : Option View :=
  ((s.ctx ctx).phys (hVcore h)).map (fun c =>
    let t := (s.core c).tile (hIndex h)
    { core := c, index := hIndex h, tile := t, row0 := hRow0 h, n := if hNrows h = 0 then t.rows - hRow0 h else hNrows h })

/-- The detail of a fault of R51: the virtual core id of REGION_RANGE (R165), else 0 (R427). -/
def viewDetail (e : FaultClass) (h : U64) : Nat := if e = .regionRange then hVcore h else 0

/-! ## Layouts -/

/-- The lines of a tile are columns (R82, R245): COL and SLICE. -/
def Tile.colLines (t : Tile) : Bool := t.layout == 1 || t.layout == 2

/-- The length of a line (R88). -/
def Tile.lineLen (t : Tile) : Nat := if t.colLines then t.rows else t.cols
/-- The number of lines. -/
def Tile.lineCount (t : Tile) : Nat := if t.colLines then t.cols else t.rows

/-- The place of element (i, j) in half bytes from the vault's first byte (R50, R82, R243, R244). -/
def Tile.place (t : Tile) (i j : Nat) : Nat :=
  let nib := tyNibbles t.etype
  match t.layout.toNat with
  | 0 => 2 * (t.base + i * t.pitch) + j * nib
  | 1 => 2 * (t.base + j * t.pitch) + i * nib
  | 2 =>
    let e := 64 / nib
    2 * (t.base + ((j / 64) * (t.pitch / 32) + i / e) * 2048 + j % 64 * 32) + i % e * nib
  | _ =>
    let u := j * nib
    let w := u / 8
    2 * (t.base + i * t.pitch + 4 * (w / 32 * 32 + (w % 32 ^^^ i % 32))) + u % 8

/-- Bytes that one line of L elements takes, rounded up to a whole byte (R82). -/
def lineBytes (ty : EType) (l : Nat) : Nat := (l * tyNibbles ty + 1) / 2

/-- The data span of a shape in bytes, with alignment of BASE, or none where the layout's rules are broken
(R50, R243, R244, R279). -/
def Shape.span (x : Shape) : Option (Nat × Nat) :=
  match x.layout.toNat with
  | 0 => if x.pitch < lineBytes x.etype x.cols ∨ x.pitch % 4 ≠ 0 then none else some (x.rows * x.pitch, 64)
  | 1 => if x.pitch < lineBytes x.etype x.rows ∨ x.pitch % 4 ≠ 0 then none else some (x.cols * x.pitch, 64)
  | 2 =>
    let e := 64 / tyNibbles x.etype
    if x.pitch % 32 ≠ 0 ∨ x.pitch < (x.rows + e - 1) / e * 32 then none
    else some ((x.cols + 63) / 64 * (x.pitch / 32) * 2048, 2048)
  | _ => if x.pitch < lineBytes x.etype x.cols ∨ x.pitch % 128 ≠ 0 then none else some (x.rows * x.pitch, 128)

/-- The bytes of block scales of a shape (R88, R279). -/
def Shape.scales (x : Shape) : Nat :=
  let col := x.layout == 1 || x.layout == 2
  (if col then x.cols else x.rows) * (((if col then x.rows else x.cols) + 31) / 32)

/-- A type that takes block scales (R88): codes 12 to 15. -/
def tyMx (t : EType) : Bool := decide (12 ≤ tyCode t)

/-- The vault offset of the scale of block b of a line (R88). -/
def Tile.scaleAt (t : Tile) (line b : Nat) : Nat := t.scale + line * ((t.lineLen + 31) / 32) + b

/-- The scale's place for element (i, j) (R88, R245). -/
def Tile.scaleOf (t : Tile) (i j : Nat) : Nat :=
  if t.colLines then t.scaleAt j (i / 32) else t.scaleAt i (j / 32)

/-! ## Elements in a vault -/

/-- A byte of a vault; offsets wrap in 22 bits. -/
def State.vaultByte (s : State) (core off : Nat) : Nat := (s.vault.read (vaultKey core (off % 2 ^ 22))).toNat

/-- A byte of a vault is written. -/
def State.setVaultByte (s : State) (core off b : Nat) : State :=
  { s with vault := s.vault.write (vaultKey core (off % 2 ^ 22)) (BitVec.ofNat 8 b) }

/-- n bytes of a vault. -/
def State.vaultBytes (s : State) (core off n : Nat) : List Byte := s.vault.readBytes (vaultKey core off) n

/-- Bytes are written into a vault. -/
def State.setVaultBytes (s : State) (core off : Nat) (bs : List Byte) : State :=
  { s with vault := s.vault.writeBytes (vaultKey core off) bs }

/-- The bit pattern of element (i, j) of a tile; the unused bits of an E2M3 byte are ignored (R82). -/
def State.elem (s : State) (core : Nat) (t : Tile) (i j : Nat) : Nat :=
  let p := t.place i j
  if tyNibbles t.etype = 1 then s.vaultByte core (p / 2) / (if p % 2 = 1 then 16 else 1) % 16
  else (s.vault.readNat (vaultKey core (p / 2)) (tyNibbles t.etype / 2)) % 2 ^ tyWidth t.etype

/-- Element (i, j) is written; the unused high nibble of a line's last byte is written as zero (R82). -/
def State.setElem (s : State) (core : Nat) (t : Tile) (i j : Nat) (bits : Nat) : State :=
  let p := t.place i j
  let x := bits % 2 ^ tyWidth t.etype
  if tyNibbles t.etype = 1 then
    let b := s.vaultByte core (p / 2)
    let k := if t.colLines then i else j
    if p % 2 = 1 then s.setVaultByte core (p / 2) (b % 16 + 16 * x)
    else if k + 1 = t.lineLen then s.setVaultByte core (p / 2) x
    else s.setVaultByte core (p / 2) (b / 16 * 16 + x)
  else s.setVaultBytes core (p / 2) (natLe (tyNibbles t.etype / 2) x)

/-- Row i of the view as bit patterns. -/
def State.viewRow (s : State) (v : View) (i : Nat) : List Nat :=
  (List.range v.tile.cols).map (fun j => s.elem v.core v.tile (v.row0 + i) j)

/-- Row i of the view is written. -/
def State.setViewRow (s : State) (v : View) (i : Nat) (xs : List Nat) : State :=
  (xs.zipIdx).foldl (fun s e => s.setElem v.core v.tile (v.row0 + i) e.2 e.1) s

/-- The rows of a view as bit patterns. -/
def State.viewRows (s : State) (v : View) : List (List Nat) := (List.range v.n).map (s.viewRow v)

/-- The rows of a view are written. -/
def State.setViewRows (s : State) (v : View) (rows : List (List Nat)) : State :=
  (rows.zipIdx).foldl (fun s e => s.setViewRow v e.2 e.1) s

/-- The bytes of a packed row of elements of a type (R82). -/
def packRow (ty : EType) (xs : List Nat) : List Byte :=
  let nib := tyNibbles ty
  natLe (lineBytes ty xs.length)
    ((xs.zipIdx).foldl (fun a e => a + e.1 % 2 ^ tyWidth ty * 2 ^ (4 * nib * e.2)) 0)

/-- The elements of a packed row. -/
def unpackRow (ty : EType) (n : Nat) (bs : List Byte) : List Nat :=
  let x := leNat bs
  (List.range n).map (fun j => x / 2 ^ (4 * tyNibbles ty * j) % 2 ^ tyWidth ty)

/-- The view's lines are whole blocks (R267, R284): for column lines it begins at a multiple of 32 rows, and it has a
multiple of 32 rows or reaches the last row. -/
def View.blocksWhole (v : View) : Bool :=
  !v.tile.colLines || (v.row0 % 32 == 0 && (v.n % 32 == 0 || v.row0 + v.n == v.tile.rows))

/-- The vault offsets of the scale bytes of the blocks that a view covers, in the order of R267. -/
def View.scalePlaces (v : View) : List Nat :=
  if v.tile.colLines then
    (List.range v.tile.cols).flatMap (fun j =>
      (List.range ((v.n + 31) / 32)).map (fun b => v.tile.scaleAt j (v.row0 / 32 + b)))
  else
    (List.range v.n).flatMap (fun i =>
      (List.range ((v.tile.cols + 31) / 32)).map (fun b => v.tile.scaleAt (v.row0 + i) b))

/-! ## Reference counts and BUSY (R52) -/

/-- The tile's index and space are free (R52, R279). -/
def Tile.free (t : Tile) : Bool := !t.valid && !t.held

/-- A command begins to use tiles: BUSY grows (R52). -/
def State.tilesUse (s : State) (ts : List (Nat × Nat)) : State :=
  ts.foldl (fun s t => s.modTile t.1 t.2 (fun x => { x with busy := x.busy + 1 })) s

/-- A command stops using tiles: BUSY falls, and a released tile at 0 returns its space (R52). -/
def State.tilesDrop (s : State) (ts : List (Nat × Nat)) : State :=
  ts.foldl (fun s t =>
    let s := s.modTile t.1 t.2 (fun x => { x with busy := x.busy - 1 })
    let x := (s.core t.1).tile t.2
    if x.held && x.busy == 0 then s.soon (.tileSpaceReturn t.1 t.2) else s) s

/-- TILE_SPACE_RETURN (R52). -/
def State.tileReturn (s : State) (core i : Nat) : State :=
  let t := (s.core core).tile i
  if t.held && t.busy == 0 then s.modTile core i (fun x => { x with held := false }) else s

/-- The spans of a vault in use (R279). -/
def Core.spans (k : Core) : List (Nat × Nat) :=
  k.tiles.filterMap (fun e => if e.2.free then none else some (e.2.base, e.2.size * 64 + 64))

/-- The lowest free span of a length and alignment (R279): 0, or the end of a span in use, rounded up. -/
def Core.freeSpan (k : Core) (len align : Nat) : Option Nat :=
  let used := k.spans
  let cands := (0 :: used.map (fun x => (x.1 + x.2 + align - 1) / align * align)).filter (fun b =>
    decide (b + len ≤ 2 ^ 22) && used.all (fun x => decide (b + len ≤ x.1) || decide (x.1 + x.2 ≤ b)))
  cands.foldl (fun m b =>
    match m with
    | none => some b
    | some x => some (min x b)) none

end Sys2Proof.Machine
end

