-- ==== Sys2Proof/Machine/Engine.lean ====
section
/-! DEFINITION. What engine commands share: their acceptance, their completion and its tokens (R39, R52, R261), the checks of capabilities (R255) and endpoints (R259), the memory that a copy reads or writes (R248, R257 to R259), parked accesses (R434), scopes and covered sets (R357). -/

namespace Sys2Proof.Machine

/-! ## Commands -/

/-- The command of a core with a number. -/
def Core.cmd? (k : Core) (id : Nat) : Option Cmd := k.cmds.find? (fun c => c.id == id)

/-- A change to a command. -/
def State.modCmd (s : State) (core id : Nat) (h : Cmd → Cmd) : State :=
  s.modCore core (fun k => { k with cmds := k.cmds.map (fun c => if c.id == id then h c else c) })

/-- A command as it is accepted: nothing used, nothing waited for. -/
def Cmd.start (id : Nat) (g : Firing) (i : Instr) (e : Engine) : Cmd :=
  { id := id, fire := g, instr := i, engine := e, phase := .work, covers := [], tiles := [], caps := [], shadow := none,
    row := 0, aux := 0, data := [], parked := none, pport := (2, 0), precord := 0, retry := false, aborted := false, live := false }

/-- The fields of a command's operator. -/
def Cmd.fields (c : Cmd) : Option Fields := c.instr.form.map (fun x => x.2.2)

/-- The frames whose LIVE counts a split-phase request (R39; log 13): those that its replies name, each once. -/
def State.replyFrames (s : State) (g : Firing) (f : Fields) : List U32 :=
  if g.replay.isSome && !g.recorded then []
  else ((s.destFp g f.d0).toList ++ (s.destFp g f.d1).toList).eraseDups

/-- LIVE of frames grows by one each, or falls by one each (R39). -/
def State.liveIncs (s : State) (ctx : Nat) (fps : List U32) : State := fps.foldl (fun s fp => s.liveInc ctx fp) s
def State.liveDecs (s : State) (ctx : Nat) (fps : List U32) : State := fps.foldl (fun s fp => s.liveDec ctx fp) s

/-- A change to BUSY of capability entries of a core (R252). -/
def State.capsBusy (s : State) (core : Nat) (cs : List Nat) (h : Nat → Nat) : State :=
  cs.foldl (fun s i => s.modCore core (fun k =>
    { k with caps := Table.put k.caps i { Table.look Cap.reset k.caps i with
        busy := h (Table.look Cap.reset k.caps i).busy } })) s

/-- Fields with two destinations and nothing else: what an emission reads. -/
def Fields.ofDests (d0 d1 : Dest) : Fields :=
  { fn := 0, ty := .i64, ar := .monadic, np := .absorb, slot := 0, d0 := d0, d1 := d1, pri := 0, rm := .rne, sat := false,
    scope := .core, mx := false, qual := 0, imm := 0 }

/-- A command begins to use tiles, and to write one: BUSY grows, SHADOW is set (R52, R263). -/
def State.engage (s : State) (c : Cmd) (ts : List (Nat × Nat)) (shadow : Option (Nat × Nat)) : State :=
  let s := s.tilesUse ts
  let s := match shadow with
    | some t => s.modTile t.1 t.2 (fun x => { x with shadow := true })
    | none => s
  s.modCmd c.fire.core c.id (fun c =>
    { c with tiles := c.tiles ++ ts, shadow := if c.shadow = none then shadow else c.shadow })

/-- An engine accepts a command: it takes its number, BUSY of the entries it uses grows (R252), and a split-phase request
counts one of LIVE (R39). -/
def State.accept (s : State) (f : Fields) (c : Cmd) : State × Cmd :=
  let fps := s.replyFrames c.fire f
  let live := decide (c.engine = .split) && !fps.isEmpty
  let c := { c with id := s.ids, live := live }
  let s := s.newId.capsBusy c.fire.core c.caps (· + 1)
  let s := if live then s.liveIncs c.fire.ctx fps else s
  (s.modCore c.fire.core (fun k => { k with cmds := k.cmds ++ [c] }), c)

/-- A command uses nothing any more: BUSY falls; SHADOW is cleared where clear says so (R52, R263, R269). -/
def State.release_ (s : State) (c : Cmd) (clear : Bool) : State :=
  let s := (s.tilesDrop c.tiles).capsBusy c.fire.core c.caps (· - 1)
  match c.shadow with
  | some t => if clear then s.modTile t.1 t.2 (fun x => { x with shadow := false }) else s
  | none => s

/-- The command leaves its engine. -/
def State.finish (s : State) (c : Cmd) (clear : Bool) : State :=
  (s.release_ c clear).modCore c.fire.core (fun k => { k with cmds := k.cmds.filter (fun x => x.id != c.id) })

/-- The frames whose LIVE a command counts in (R39). -/
def State.counted (s : State) (c : Cmd) (f : Fields) : List U32 := if c.live then s.replyFrames c.fire f else []

/-- The core of a command has received a quarantine notice of its object (R181). -/
def State.quarantined (s : State) (c : Cmd) : Bool := (s.core c.fire.core).quar.contains c.fire.obj

/-- The tokens of a command's end: the first one for a counted frame is its reply, and a count that no token returns goes at once
(R39). Those of a quarantined object are discarded (R181). -/
def State.replies (s : State) (c : Cmd) (f : Fields) (outs : List (Bool × Val)) : State :=
  let outs := if s.quarantined c then [] else outs
  let r := outs.foldl (fun (a : State × List U32) o =>
    match a.1.destFp c.fire (if o.1 then f.d1 else f.d0) with
    | some fp => (a.1.emit c.fire f o.1 o.2 (a.2.contains fp), a.2.filter (· != fp))
    | none => (a.1.emit c.fire f o.1 o.2, a.2)) (s, s.counted c f)
  r.1.liveDecs c.fire.ctx r.2

/-- The command ends with tokens; a shadow destination of a quarantined object stays in shadow (R181). -/
def State.answer (s : State) (c : Cmd) (f : Fields) (outs : List (Bool × Val)) : State :=
  (s.finish c (!s.quarantined c)).replies c f outs

/-- A value to both destinations. -/
def both (v : Val) : List (Bool × Val) := [(false, v), (true, v)]

/-- An engine's scalar result (R130: DATA), of the round of its firing. -/
def Cmd.scalar (c : Cmd) (x : U64) : Val := Val.scalar x c.fire.l.round provData

/-- An operand that a command emits as it is, with PROV DATA (R130, R278). -/
def Cmd.pass (c : Cmd) (v : Val) : Val := { v with prov := provData, round := c.fire.l.round, lin := Lineage.none }

/-- The fault token of a command that has ended: k sends it to dest0, as the reply or not; counts that it does not return go at
once (R39). The token of a quarantined object is discarded (R181). -/
def State.failReply (s : State) (c : Cmd) (f : Fields) (k : State → Dest → Bool → State) : State :=
  let d : Dest := if s.quarantined c then { mode := .discard, port := false, ip := 0 } else f.d0
  let fps := s.counted c f
  match s.destFp c.fire d with
  | some fp => (k s d (fps.contains fp)).liveDecs c.fire.ctx (fps.filter (· != fp))
  | none => (k s d false).liveDecs c.fire.ctx fps

/-- The command ends with a fault token to dest0 in place of its completion (R262, R430); precise as given. A shadow destination of
a quarantined object stays in shadow (R181). -/
def State.fail (s : State) (c : Cmd) (f : Fields) (r : FaultRec) (clear : Bool) : State :=
  (s.finish c (clear && !s.quarantined c)).failReply c f (fun s d reply => s.raise c.fire d r reply)

/-- A precise fault of a command with a detail. -/
def State.failWith (s : State) (c : Cmd) (f : Fields) (cls : FaultClass) (d0 d1 d2 : Nat) : State :=
  s.fail c f (c.fire.fault cls d0 d1 d2) true

/-- The code of an access in a record (R427). -/
def Access.code : Access → Nat
  | .read => 1 | .write => 2 | .update => 3

/-- The classes whose records hold the access (R427); every other class holds the detail of `fault`, or nothing. -/
def FaultClass.ofAccess : FaultClass → Bool
  | .capRange | .capPerm | .memAlign | .capStale | .pageAbsent | .pageMalformed | .pagePerm | .memUnbacked => true
  | _ => false

/-- The access in D2 of a record (R427). -/
def accessDetail (cls : FaultClass) (k : Access) : Nat := if cls.ofAccess then k.code else 0

/-- A precise fault with the details of an access (R427). -/
def State.accessFault (s : State) (g : Firing) (f : Fields) (cls : FaultClass) (va : Nat) (k : Access) : State :=
  s.raise g f.d0 (g.fault cls va 0 (accessDetail cls k)) false

/-- A parked access stands at a port and holds back those behind it (R434). -/
def Core.heldBack (k : Core) (port : Nat × Nat) (id : Nat) : Bool :=
  k.cmds.any (fun c => c.parked.isSome && c.pport == port && decide (c.id < id))

/-- An access of a command parks at a port (R423, R434): the record, the handler's token, the PARKED event. Behind a parked
access it waits unlooked at. -/
def State.park (s : State) (c : Cmd) (cls : FaultClass) (va dev : Nat) (k : Access) (port : Nat × Nat) : State :=
  if (s.core c.fire.core).heldBack port c.id then s
  else
  let r : FaultRec := { c.fire.fault cls va dev k.code with port := port.2 + 16 * port.1 }
  let p := s.faultParked r
  p.1.modCmd c.fire.core c.id (fun c => { c with parked := some cls, pport := port, precord := p.2 })

/-! ## Who is at work -/

/-- The firings of commands that a core holds in any engine and has not finished. -/
def Core.work (k : Core) : List Firing :=
  (k.cmds.map Cmd.fire) ++ (k.vecQueue.map Cmd.fire) ++ (k.vecRun.toList.map Cmd.fire) ++ (k.tnewQueue.map Cmd.fire) ++
  ((k.acc0.queue ++ k.acc0.held ++ k.acc1.queue ++ k.acc1.held).map MatItem.fire) ++
  (k.gens.filterMap (fun e => e.2.run)) ++ (k.gens.flatMap (fun e => e.2.stopReq)) ++
  (k.ports.filterMap (fun e => e.2.unbind)) ++
  (k.waiters.map Waiter.fire) ++ (k.waits.map Wait.fire) ++ (k.waitRetry.map Wait.fire) ++
  (k.divider.map DivResult.fire) ++ (k.mat.toList.filterMap MatBinding.closing) ++
  (k.reds.filterMap Reduction.marker)

/-- Every unfinished command of the module, with the TAPEGRDs and TAPEENDs that wait. -/
def State.work (s : State) : List Firing :=
  s.cores.flatMap (fun e => e.2.work) ++ s.gangs.map Cmd.fire ++ s.linkReqs.map LinkReq.fire ++
  s.stackTab.flatMap (fun e => e.2.chans.flatMap (fun c => c.2.calls)) ++
  s.tapes.flatMap (fun e => (e.2.record.toList.flatMap Recording.atGuard ++ e.2.freed).map Prod.fst)

/-! ## Capabilities (R252, R255) -/

/-- What R255 makes of a capability operand up to its GEN. -/
inductive CapOperand where
  | bad (c : FaultClass)
  | stale (index : Nat) (cap : Cap)
  | ok (index : Nat) (cap : Cap)
  deriving DecidableEq, Repr

/-- The entry of a core's capability table. -/
def Core.cap (k : Core) (i : Nat) : Cap := Table.look Cap.reset k.caps i

/-- The checks of R255 up to GEN. -/
def State.capOperand (s : State) (g : Firing) (v : U64) : CapOperand :=
  let i := (field v 46 6).toNat
  let c := (s.core g.core).cap i
  if field v 0 38 != 0 then .bad .kind
  else if field v 52 12 != s.vcoreOf g.core then .bad .capForeign
  else if !c.valid then .bad .capInvalid
  else if c.gen != field v 38 8 then .stale i c
  else .ok i c

/-- The base address of the entry that a capability operand names: with an offset, the address that the record of a stale access
gives (R427). -/
def State.capBase (s : State) (core : Nat) (v : U64) : Nat := ((s.core core).cap (field v 46 6).toNat).vbase

/-- The GEN with which a command uses its operand k (0 for L, 1 for R, 2 for the third): the token's, or the one that a RESUME has made it
adopt (R256). -/
def Cmd.genOf (c : Cmd) (k : Nat) (v : U64) : BitVec 8 :=
  if c.aux < 2 ^ 32 then field v 38 8 else BitVec.ofNat 8 (c.aux / 2 ^ 32 / 256 ^ k)

/-- The checks of R255 up to GEN on operand k of a command. -/
def State.capOf (s : State) (c : Cmd) (k : Nat) (v : U64) : CapOperand :=
  s.capOperand c.fire (field v 46 18 ++ c.genOf k v ++ field v 0 38)

/-- An access of a command would go through an entry whose GEN has moved on since the check of R255 (R256). -/
def State.capStale (s : State) (c : Cmd) : Bool :=
  ([((0 : Nat), c.fire.l)] ++ c.fire.r.toList.map (fun v => (1, v)) ++ c.fire.t.toList.map (fun v => (2, v))).any
    (fun (p : Nat × Val) =>
    p.2.kind == Kind.cap && c.caps.contains (field p.2.value 46 6).toNat &&
    (match s.capOf c p.1 p.2.value with
     | .stale _ _ => true
     | _ => false))

/-- A command adopts the current GEN of the entries it names (R256, R435). -/
def State.adopt (s : State) (c : Cmd) : Cmd :=
  let gen (v : U64) : Nat := ((s.core c.fire.core).caps |> fun t => (Table.look Cap.reset t (field v 46 6).toNat).gen).toNat
  { c with
    parked := none, retry := true,
    aux := c.aux % 2 ^ 32 + 2 ^ 32 * (2 ^ 24 + gen c.fire.l.value + 256 * gen ((c.fire.r.map Val.value).getD 0) +
      65536 * gen ((c.fire.t.map Val.value).getD 0)) }

/-- A capability's token value (R33). -/
def capToken (vcore : BitVec 12) (i : Nat) (gen : BitVec 8) : U64 :=
  vcore ++ BitVec.ofNat 6 i ++ gen ++ (0 : BitVec 38)

/-- The entry permits an access. -/
def Cap.permits (c : Cap) : Access → Bool
  | .read => c.r | .write => c.w | .update => c.u

/-- What R255 makes of an access of n bytes at an offset through a capability: a fault with its address, a parked
access, or the entry. -/
inductive CapAccess where
  | bad (c : FaultClass) (va : Nat)
  | stale (index : Nat) (cap : Cap)
  | ok (index : Nat) (cap : Cap)
  deriving DecidableEq, Repr

/-- R255 for an access. -/
def State.capAccess (s : State) (g : Firing) (v : U64) (off n : Nat) (k : Access) : CapAccess :=
  match s.capOperand g v with
  | .bad c => .bad c 0
  | .stale i c => .stale i c
  | .ok i c =>
    if c.extent < off + n then .bad .capRange (c.vbase + off)
    else if !c.permits k then .bad .capPerm (c.vbase + off)
    else .ok i c

/-! ## Endpoints (R259, R474) -/

/-- An endpoint of a context. -/
def Ctx.ep (c : Ctx) (n : Nat) : Endpoint := Table.look Endpoint.reset c.eps n

/-- A window holds a bus range for a requester id with a permission (R474). -/
def Window.grants (w : Window) (rid : BitVec 16) (addr n : Nat) (write : Bool) : Bool :=
  w.v && w.rid == rid && decide (w.base.toNat * 4096 ≤ addr) && decide (addr + n ≤ (w.base.toNat + w.pages.toNat) * 4096) &&
  (if write then w.w else w.r)

/-- A window by its index. -/
def State.window (s : State) (i : Nat) : Window := Table.look Window.reset s.mod.windows i

/-- The checks of R259 on a transfer of n bytes at an offset; into says that it writes the endpoint's range. -/
def State.epCheck (s : State) (ctx ep off n : Nat) (into : Bool) : Except FaultClass Endpoint :=
  let e := (s.ctx ctx).ep ep
  if e.kind = 0 then .error .epUnbound
  else if e.extent < off + n then .error .epRange
  else if !(if into then e.w else e.r) then .error .epPerm
  else if e.kind = 1 ∧ !(s.window e.win).grants e.rid (e.pointer + off) n into then .error .epPerm
  else .ok e

/-! ## The memory that copies reach -/

/-- The memory side of a transfer: a capability of a core, or an endpoint of a context. -/
inductive Side where
  | cap (core index : Nat)
  | ep (ctx ep stack : Nat)
  deriving DecidableEq, Repr

/-- How a read of memory ends. -/
inductive Got where
  | ok (bs : List Byte)
  | park (c : FaultClass) (va dev : Nat)
  deriving DecidableEq, Repr

/-- A window of a size takes an entry as its most recently used one; the least recently used goes where it is full (R257). -/
def winInsert (win : List WinEntry) (size : Nat) (e : WinEntry) : List WinEntry :=
  let w := win.filter (fun x => !(x.cap == e.cap && x.page == e.page && x.log == e.log))
  (if w.length < size then w else w.drop (w.length + 1 - size)) ++ [e]

/-- The pages of an access through capability i become the most recently used entries of a window (R250, R257). -/
def winUse (win : List WinEntry) (size i : Nat) (x : Xlate) : List WinEntry :=
  match x with
  | .ok cs | .err cs _ _ _ =>
    cs.foldl (fun w c => winInsert w size { cap := i, page := c.va / 2 ^ c.log, log := c.log, leaf := BitVec.ofNat 64 c.leaf }) win

/-- The split-phase unit translates the n bytes at an offset of a side through its window, which takes their pages (R257). -/
def State.sideUse (s : State) (x : Side) (off n : Nat) (k : Access) : State :=
  match x with
  | .cap core i =>
    s.modCore core (fun c =>
      let e := c.cap i
      { c with win := winUse c.win 16 i (s.xlate e.root.toNat c.win i k (e.vbase + off) n) })
  | .ep _ _ _ => s

/-- A replicated chunk is read, at a replica or at its home, where a write that has come there is still on its way to other replicas:
the read waits, so that no read after it returns an older write (R258, R353; log 125). -/
def State.halfSeen (s : State) (stack : Option Nat) (c : Chunk) : Bool :=
  let mask := bitsAt c.leaf 40 16
  let o := bitsAt (devAddr c.leaf c.log c.va) 0 36
  bitOf c.leaf 6 && s.props.any (fun p =>
    decide (o < p.off + p.bytes.length) && decide (p.off < o + c.len) && p.lacking.any (bitOf mask) &&
    (match stack with
     | some k => !p.lacking.contains (nearest mask k)
     | none => true))

/-- A stack's read of a chunk waits (R25, R353). -/
def State.readWaits (s : State) (stack : Nat) (c : Chunk) : Bool :=
  s.halfSeen (some stack) c || !s.keyUp stack (s.readKey stack c)

/-- A read of a range of a side waits (R25, R353). -/
def State.sideHalf (s : State) (x : Side) (off n : Nat) : Bool :=
  let half (st : Nat) (y : Xlate) : Bool :=
    match y with
    | .ok cs | .err cs _ _ _ => cs.any (s.readWaits st)
  match x with
  | .cap core i =>
    let e := (s.core core).cap i
    half (coreStack core) (s.xlate e.root.toNat (s.core core).win i .read (e.vbase + off) n)
  | .ep ctx ep stack =>
    let e := (s.ctx ctx).ep ep
    e.kind == 3 && half stack (s.xlate (s.ctx ctx).ctxroot.toNat [] 0 .read (e.pointer + off) n)

/-- n bytes at an offset of a side (R247, R257, R258, R259). -/
def State.sideRead (s : State) (x : Side) (off n : Nat) : Got :=
  match x with
  | .cap core i =>
    let k := s.core core
    let c := k.cap i
    match s.xlate c.root.toNat k.win i .read (c.vbase + off) n with
    | .ok cs => .ok (s.readChunks (coreStack core) cs)
    | .err _ va c dev => .park c va dev
  | .ep ctx ep stack =>
    let e := (s.ctx ctx).ep ep
    match e.kind with
    | 1 => .ok (s.host.readBytes (e.pointer + off) n)
    | 2 => .ok (s.storage.readBytes (storageKey e.rid.toNat e.nsid.toNat (e.pointer + off)) n)
    | _ =>
      match s.xlate (s.ctx ctx).ctxroot.toNat [] 0 .read (e.pointer + off) n with
      | .ok cs => .ok (s.readChunks stack cs)
      | .err _ va c dev => .park c va dev

/-- How a write of memory ends: all is written, or the bytes before an address are and the access parks there. -/
inductive Put where
  | ok (s : State)
  | park (s : State) (done : Nat) (c : FaultClass) (va dev : Nat)

/-- Chunks written with bytes, and the outcome of the translation that gave them. -/
def State.putChunks (s : State) (x : Xlate) (bs : List Byte) (core cmd : Nat) (own : Option (Nat × Nat)) : Put :=
  match x with
  | .ok cs => .ok (s.writeChunks cs bs core cmd own)
  | .err cs va c dev =>
    let n := (cs.map Chunk.len).sum
    .park (s.writeChunks cs (bs.take n) core cmd own) n c va dev

/-- Bytes written at an offset of a side for a command. -/
def State.sideWrite (s : State) (x : Side) (off : Nat) (bs : List Byte) (core cmd : Nat) (own : Option (Nat × Nat)) : Put :=
  match x with
  | .cap kc i =>
    let k := s.core kc
    let c := k.cap i
    s.putChunks (s.xlate c.root.toNat k.win i .write (c.vbase + off) bs.length) bs core cmd own
  | .ep ctx ep _ =>
    let e := (s.ctx ctx).ep ep
    match e.kind with
    | 1 => .ok { s with host := s.host.writeBytes (e.pointer + off) bs }
    | 2 =>
      .ok { s with storage := s.storage.writeBytes (storageKey e.rid.toNat e.nsid.toNat (e.pointer + off)) bs }
    | _ => s.putChunks (s.xlate (s.ctx ctx).ctxroot.toNat [] 0 .write (e.pointer + off) bs.length) bs core cmd own

/-- The tape whose own commands a firing belongs to (R154): its context and template. -/
def State.ownTape (s : State) (g : Firing) : Option (Nat × Nat) :=
  match g.replay with
  | some (_, t, _) => (s.task? t).map (fun x => (g.ctx, x.tmpl))
  | none => none

/-! ## Scopes and covered sets (R20, R357) -/

/-- Two cores share the instance of a scope. -/
def sameScope (sc : Scope) (a b : Nat) : Bool :=
  match sc with
  | .core => a == b
  | .quad => quadOf a == quadOf b
  | .stack => coreStack a == coreStack b
  | .pkg | .pod | .sys => true

/-- A device address lies within the scope of a core (R357). -/
def State.devWithin (s : State) (sc : Scope) (core dev : Nat) : Bool :=
  match bitsAt dev 60 4 with
  | 0 =>
    match sc with
    | .core | .quad => false
    | .stack => bitsAt dev 36 4 == coreStack core
    | _ => true
  | 1 =>
    match sc with
    | .core | .quad | .stack => false
    | _ => true
  | _ =>
    match sc with
    | .pod | .sys => true
    | .pkg => bitsAt dev 50 10 == bitsAt s.mod.podcfg.toNat 0 10
    | .stack =>
      bitsAt dev 50 10 == bitsAt s.mod.podcfg.toNat 0 10 && bitsAt dev 36 4 == coreStack core
    | _ => false

/-- The number by which the rows of an address generator propagate (R258). -/
def genCover (g : Nat) : Nat := 2 ^ 40 + g

/-- The number by which a covered set names a row of an address generator. -/
def rowCover (g row : Nat) : Nat := 2 ^ 48 + g + 16 * row

/-- A row of a generator has been issued and not performed: its access is parked, waits to be made again after a RESUME, or propagates. -/
def State.genPending (s : State) (core g : Nat) : Bool :=
  let a := Table.look AddrGen.reset (s.core core).gens g
  a.parked.isSome || a.again || s.unperformed core (genCover g)

/-- The row of a generator that is issued and not performed: the next one while its access is held up, else the one that propagates. -/
def AddrGen.pendingRow (a : AddrGen) : Nat := if a.parked.isSome || a.again then a.next else a.next - 1

/-- The row of a generator that a covered set names. -/
def State.rowOf (s : State) (core g : Nat) : Nat := rowCover g (Table.look AddrGen.reset (s.core core).gens g).pendingRow

/-- An access of a covered set is performed, or dropped; a row that is issued later is another one. -/
def State.coverDone (s : State) (core n : Nat) : Bool :=
  if 2 ^ 48 ≤ n then
    let g := n % 16
    !(s.genPending core g && rowCover g (Table.look AddrGen.reset (s.core core).gens g).pendingRow == n)
  else
    let k := s.core core
    (k.cmd? n).isNone && (k.vecQueue ++ k.vecRun.toList).all (fun c => c.id != n) &&
    (k.acc0.queue ++ k.acc1.queue).all (fun i => i.id != n) && s.gangs.all (fun c => c.id != n)

/-- Every access that a command waits for is performed. -/
def State.covered (s : State) (c : Cmd) : Bool := c.covers.all (s.coverDone c.fire.core)

/-- An SBAR holds back a unit of a core for commands after it (R275): bit 16 is the split-phase unit. -/
def Core.barred (k : Core) (bit id : Nat) : Bool :=
  k.cmds.any (fun c =>
    match c.instr with
    | .sbar f => bitOf f.imm.toNat bit && decide (c.id < id)
    | _ => false)

/-! ## The operands of engine commands -/

/-- A handle operand with R51, or the fault of the operator. -/
def State.withView (s : State) (g : Firing) (f : Fields) (v : Val) (shadowOk : Bool) (k : View → State) : State :=
  match s.view g.ctx v.value shadowOk with
  | .error c => s.fault g f c (viewDetail c v.value)
  | .ok x => k x

/-- The value of the third operand, or 0. -/
def optVal (v : Option Val) : Nat := (v.map Val.value |>.getD 0).toNat

/-- A value of an operand that is there, or the zero scalar. -/
def theVal (v : Option Val) : Val := v.getD Val.zero

/-- The destination conditions of R495: PUBLISHED, bound as B (R319), an active barrier (R360). -/
def State.destCheck (s : State) (v : View) : Option FaultClass :=
  if v.tile.published then some .tilePublished
  else if s.cores.any (fun e =>
      match e.2.mat with
      | some b => b.core == v.core && b.index == v.index
      | none => false) then some .tileBound
  else if !v.tile.bars.isEmpty then some .tbLive
  else none

end Sys2Proof.Machine
end

