-- ==== Sys2Proof/Machine/TileOps.lean ====
section
/-! DEFINITION. Tile management (R279 to R282, R286): TNEW, TREL, TDUP, TVIEW, TINFO and TLAYOUT, each one update or read of one descriptor at its owning core (R52, R260, R261). -/

namespace Sys2Proof.Machine

/-! ## Shared operations -/

/-- A transaction barrier leaves the active set: ACT is cleared, and each waiter gets a null of its round (R360, R376). -/
def State.tbInvalidate (s : State) (core idx off : Nat) : State :=
  let s := s.modTile core idx (fun t => { t with bars := t.bars.filter (· != off) })
  let x := s.vault.readNat (vaultKey core off) 16
  let x := (if bitOf x 47 then x - 2 ^ 47 else x) / 2 ^ 32 * 2 ^ 32 + 0xFFFF * 2 ^ 16
  let s := s.setVaultBytes core off (natLe 16 x)
  let ws := (s.core core).waiters.filter (fun w => w.bar == off && !w.released)
  let s := s.modCore core (fun k => { k with waiters := k.waiters.filter (fun w => !(w.bar == off && !w.released)) })
  ws.foldl (fun s w => s.emitBoth w.fire (Fields.ofDests w.d0 w.d1) (Val.null w.fire.l.round provData)) s

/-- The last reference goes (R52): barriers are invalidated (R360), PUBLISHED falls with VALID (R265), GEN advances, and
index and space return at once or when BUSY reaches 0. -/
def State.tileGone (s : State) (core i : Nat) : State :=
  let t := (s.core core).tile i
  let s := t.bars.foldl (fun s off => s.tbInvalidate core i off) s
  s.modTile core i (fun t =>
    { t with
      refcnt := 0, valid := false, gen := t.gen + 1, published := false, shadow := false, bars := [],
      held := t.busy != 0 })

/-- The shape record of an instruction's object (R79). -/
def State.shapeOf (s : State) (g : Firing) (n : Nat) : Option Shape :=
  ((s.ctx g.ctx).obj? g.obj).bind (fun o => o.shapes[n]?)

/-- The bytes of a tile of a shape (R279): data, scales after it, rounded up to 64; with the alignment of BASE and the
offset of the scales from BASE, 0 for none. none where the shape is malformed or can never fit. -/
def shapeSize (x : Shape) (mx : Bool) : Option (Nat × Nat × Nat) :=
  match x.span with
  | none => none
  | some (d, align) =>
    let d64 := (d + 63) / 64 * 64
    if mx && !tyMx x.etype then none
    else
      let total := if mx then (d64 + x.scales + 63) / 64 * 64 else d64
      if 2 ^ 22 < total then none else some (total, align, if mx then d64 else 0)

/-- A tile is made at a free index and span (R52, R279); none where there is no room. -/
def State.newTile (s : State) (core : Nat) (x : Shape) (size : Nat × Nat × Nat) : Option (State × Nat) :=
  let k := s.core core
  let i := (List.range 4096).find? (fun i => (k.tile i).free)
  match i, k.freeSpan size.1 size.2.1 with
  | some i, some b =>
    some (s.modTile core i (fun t =>
      { t with
        base := b, rows := x.rows, cols := x.cols, etype := x.etype, layout := x.layout, pitch := x.pitch, refcnt := 1,
        valid := true, shadow := false, published := false, nullpad := false, size := size.1 / 64 - 1,
        scale := if size.2.2 = 0 then 0 else b + size.2.2, busy := 0, held := false, bars := [] }), i)
  | _, _ => none

/-- A TNEW at the vault's core: it makes its tile, waits in the allocation queue, or gives a null under NOWAIT (R279). -/
def State.tnewAtVault (s : State) (core : Nat) (c : Cmd) (f : Fields) : State :=
  match s.shapeOf c.fire (f.imm.toNat % 4096) with
  | none => s.failWith c f .tileMalformed 0 0 0
  | some x =>
    match shapeSize x f.mx with
    | none => s.failWith c f .tileMalformed 0 0 0
    | some size =>
      let room := if (s.core core).tnewQueue.isEmpty then s.newTile core x size else none
      match room with
      | some (s, i) =>
        let h := mkHandle (s.vcoreOf core) i ((s.core core).tile i).gen 0 0
        s.answer c f (both { Val.scalar h c.fire.l.round provData with kind := .tile })
      | none =>
        if bitAt f.qual 0 then s.answer c f (both (Val.null c.fire.l.round provData))
        else
          let s := s.modCore c.fire.core (fun k => { k with cmds := k.cmds.filter (fun y => y.id != c.id) })
          s.modCore core (fun k => { k with tnewQueue := k.tnewQueue ++ [{ c with phase := .queued }] })

/-- A handle with its view's fields replaced. -/
def withRows (h : U64) (row0 nrows : Nat) : U64 :=
  field h 32 32 ++ BitVec.ofNat 12 row0 ++ BitVec.ofNat 12 nrows ++ (0 : BitVec 8)

/-- A tile handle value of a command's round. -/
def Cmd.handle (c : Cmd) (h : U64) : Val := { c.scalar h with kind := .tile }

/-- TVIEW's result (R281): the new handle, or the fault. -/
def viewOf (h : U64) (v : View) (d : Nat) : Except FaultClass U64 :=
  let off := d % 4096
  let m := d / 4096 % 4096
  if 2 ^ 24 ≤ d then .error .operandRange
  else if v.n < off + max 1 m ∨ 4096 ≤ v.row0 + off then .error .viewRange
  else .ok (withRows h (v.row0 + off) (if m = 0 then (if hNrows h = 0 then 0 else v.n - off) else m))

/-- TLAYOUT's new descriptor (R282), or the fault. -/
def Tile.relayout (t : Tile) (x : Shape) (mx : Bool) : Except FaultClass Tile :=
  if t.refcnt ≠ 1 ∨ t.busy ≠ 0 ∨ t.shadow ∨ t.published then .error .layoutBusy
  else
    match x.span with
    | none => .error .tileMalformed
    | some (d, align) =>
      let fin := t.base + t.size * 64 + 64
      if t.base % align ≠ 0 ∨ fin < t.base + d then .error .tileMalformed
      else if mx && (decide (t.scale < t.base + d) || decide (fin < t.scale + x.scales)) then
        .error .tileMalformed
      else .ok { t with
        rows := x.rows, cols := x.cols, etype := x.etype, layout := x.layout, pitch := x.pitch,
        scale := if mx then t.scale else 0 }

/-- TINFO's word by FN (R286). -/
def tinfoWord (fn : Nat) (v : View) : U64 :=
  let t := v.tile
  BitVec.ofNat 64 (
    match fn with
    | 0 => t.rows % 2 ^ 13 + t.cols % 2 ^ 13 * 2 ^ 13 + tyCode t.etype * 2 ^ 26 + t.layout.toNat * 2 ^ 30
    | 1 => v.row0 + v.n % 2 ^ 12 * 2 ^ 12
    | 2 => t.refcnt
    | 3 =>
      (if t.shadow then 1 else 0) + (if t.published then 2 else 0) + (if t.nullpad then 4 else 0) +
        (if t.scale ≠ 0 then 8 else 0) + t.busy % 2 ^ 16 * 16
    | _ => t.pitch + t.size * 2 ^ 16)

/-- A tile held in shadow by no command: its writer was discarded (R269, R430, R469), so its last TREL may free it
(log 33). -/
def State.orphanShadow (s : State) (ctx : Nat) (h : U64) : Bool :=
  match (s.ctx ctx).phys (hVcore h) with
  | none => false
  | some c => ((s.core c).tile (hIndex h)).busy == 0

/-- A vault-class command is applied at the owning core, and its result emitted (R52, R496). -/
def State.vaultWork (s : State) (c : Cmd) : State :=
  let g := c.fire
  let h := g.l.value
  match c.instr with
  | .tnewHere f => s.tnewAtVault g.core c f
  | .tnewAt f =>
    match (s.ctx g.ctx).phys (h.toNat % 4096) with
    | none => s.failWith c f .regionRange (h.toNat % 4096) 0 0
    | some core => s.tnewAtVault core c f
  | .trel f =>
    match s.view g.ctx h (s.orphanShadow g.ctx h) with
    | .error e => s.failWith c f e (viewDetail e h) 0 0
    | .ok v =>
      if 1 < v.tile.refcnt then
        (s.modTile v.core v.index (fun t => { t with refcnt := t.refcnt - 1 })).answer c f
          [(false, c.scalar (BitVec.ofNat 64 (v.tile.refcnt - 1)))]
      else (s.tileGone v.core v.index).answer c f [(false, c.scalar 0)]
  | .tdup f =>
    match s.view g.ctx h false with
    | .error e => s.failWith c f e (viewDetail e h) 0 0
    | .ok v =>
      if v.tile.refcnt = 65535 then s.failWith c f .refOverflow 0 0 0
      else
        (s.modTile v.core v.index (fun t => { t with refcnt := t.refcnt + 1 })).answer c f (both (c.pass g.l))
  | .tview f =>
    match s.view g.ctx h false with
    | .error e => s.failWith c f e (viewDetail e h) 0 0
    | .ok v =>
      match viewOf h v (match g.r with
        | some r => r.value.toNat
        | none => f.imm.toNat) with
      | .error e => s.failWith c f e 0 0 0
      | .ok h => s.answer c f (both (c.handle h))
  | .tinfo f =>
    match s.view g.ctx h true with
    | .error e => s.failWith c f e (viewDetail e h) 0 0
    | .ok v => s.answer c f (both (c.scalar (tinfoWord f.fn.toNat v)))
  | .tlayout f =>
    match s.view g.ctx h false, s.shapeOf g (f.imm.toNat % 4096) with
    | .error e, _ => s.failWith c f e (viewDetail e h) 0 0
    | .ok _, none => s.failWith c f .tileMalformed 0 0 0
    | .ok v, some x =>
      match v.tile.relayout x f.mx with
      | .error e => s.failWith c f e 0 0 0
      | .ok t => (s.modTile v.core v.index (fun _ => t)).answer c f [(false, c.handle (withRows h 0 0))]
  | _ => s

/-- A vault-class operator: applied at once in the firing core's own vault; for another vault the command travels to the
owning core, and SPLIT_PHASE_COMPLETE applies it there (R260). Behind an SBAR it waits in its unit (R275). -/
def State.vaultCmd (s : State) (g : Firing) (f : Fields) (i : Instr) (vcore : Nat) : State :=
  match (s.ctx g.ctx).phys vcore with
  | none => s.fault g f .regionRange vcore
  | some core =>
    let now := decide (core = g.core) && !(s.core g.core).barred 16 s.ids
    let c := { Cmd.start 0 g i .split with phase := if now then .work else .owner }
    let p := s.accept f c
    if now then p.1.vaultWork p.2 else p.1

/-! ## The operators -/

/-- TNEW.HERE (R279). -/
def execTnewHere (f : Fields) (s : State) : Host.Outcome State Fault Refusal :=
  .next (s.operate .any f (fun s g _ _ _ => s.vaultCmd g f (.tnewHere f) (s.vcoreOf g.core).toNat))

/-- TNEW.AT (R279). -/
def execTnewAt (f : Fields) (s : State) : Host.Outcome State Fault Refusal :=
  .next (s.operate .scalars f (fun s g l _ _ => s.vaultCmd g f (.tnewAt f) (l.value.toNat % 4096)))

/-- An operator of one handle. -/
def Need.tile : Need := { Need.any with kl := isTile }

/-- TREL (R280). -/
def execTrel (f : Fields) (s : State) : Host.Outcome State Fault Refusal :=
  .next (s.operate .tile f (fun s g l _ _ => s.vaultCmd g f (.trel f) (hVcore l.value)))

/-- TDUP (R280). -/
def execTdup (f : Fields) (s : State) : Host.Outcome State Fault Refusal :=
  .next (s.operate .tile f (fun s g l _ _ => s.vaultCmd g f (.tdup f) (hVcore l.value)))

/-- TVIEW (R281). -/
def execTview (f : Fields) (s : State) : Host.Outcome State Fault Refusal :=
  .next (s.operate { Need.tile with kr := isScalar } f (fun s g l _ _ => s.vaultCmd g f (.tview f) (hVcore l.value)))

/-- TINFO (R286). -/
def execTinfo (f : Fields) (s : State) : Host.Outcome State Fault Refusal :=
  .next (s.operate .tile f (fun s g l _ _ => s.vaultCmd g f (.tinfo f) (hVcore l.value)))

/-- TLAYOUT (R282). -/
def execTlayout (f : Fields) (s : State) : Host.Outcome State Fault Refusal :=
  .next (s.operate .tile f (fun s g l _ _ => s.vaultCmd g f (.tlayout f) (hVcore l.value)))

/-- TNEW_GRANT (R279): the first TNEW of the vault's allocation queue gets its index and span. -/
def execTnewGrant (core : Nat) (s : State) : Host.Outcome State Fault Refusal :=
  .next (
    match (s.core core).tnewQueue with
    | [] => s
    | c :: rest =>
      match c.fields with
      | none => s
      | some f =>
        match s.shapeOf c.fire (f.imm.toNat % 4096) with
        | none => s
        | some x =>
          match shapeSize x f.mx with
          | none => s
          | some size =>
            match s.newTile core x size with
            | none => s
            | some (s, i) =>
              let h := mkHandle (s.vcoreOf core) i ((s.core core).tile i).gen 0 0
              (s.modCore core (fun k => { k with tnewQueue := rest })).answer c f (both (c.handle h)))

/-- TILE_SPACE_RETURN (R52). -/
def execTileSpaceReturn (core index : Nat) (s : State) : Host.Outcome State Fault Refusal :=
  .next (s.tileReturn core index)

end Sys2Proof.Machine
end

