-- ==== Sys2Proof/Machine/Ports.lean ====
section
/-! DEFINITION. Stream ports (R272, R274): their FIFOs, what entries carry, peers in one stack (R288), the branches of a multicast with their space tokens (R276), and unbinding. -/

namespace Sys2Proof.Machine

/-- A port by the key of a port reference (R272): inputs 0 to 7, outputs 8 to 15. -/
def Core.port (k : Core) (p : Nat) : Port := Table.look Port.reset k.ports p

/-- A change to a port. -/
def State.modPort (s : State) (core p : Nat) (h : Port → Port) : State :=
  s.modCore core (fun k => { k with ports := Table.put k.ports p (h (k.port p)) })

/-- The port that a port reference names (R272). -/
def portRef (v : U64) : Option Nat := if v.toNat < 16 then some v.toNat else none

/-- The port is an output port. -/
def portIsOut (p : Nat) : Bool := decide (8 ≤ p)

/-- The free entries of a port (R272). -/
def State.portRoom (s : State) (core p : Nat) : Nat := 16 - ((s.core core).port p).fifo.length

/-- An end-of-round entry (R272). -/
def markEntry (round : BitVec 8) : Entry :=
  { data := List.replicate 64 0, eot := false, eor := false, mark := true, round := round }

/-- One entry between an endpoint and the port bound to it (R288): written from an output port, read into an input port,
each a row of its own; a MARK entry carries no data and only leaves an output port. None where nothing can move. -/
def State.epMove (s : State) (core p : Nat) : Option State :=
  let x := (s.core core).port p
  match x.bound with
  | some (.endpoint ep off left round) =>
    let side : Side := .ep ((s.core core).ctx.getD 0) ep (coreStack core)
    let next : Option Binding := some (.endpoint ep (off + 64) (left - 1) round)
    if portIsOut p then
      match x.fifo with
      | [] => none
      | e :: rest =>
        if e.mark then some (s.modPort core p (fun x => { x with fifo := rest }))
        else if left = 0 then none
        else
          match s.sideWrite side off e.data core 0 none with
          | .ok s => some (s.modPort core p (fun x => { x with fifo := rest, bound := next }))
          | .park _ _ _ _ _ => none
    else if left = 0 ∨ 16 ≤ x.fifo.length ∨ s.sideHalf side off 64 then none
    else
      match s.sideRead side off 64 with
      | .ok bs =>
        let e : Entry := { data := bs, eot := false, eor := true, mark := false, round := round }
        some (s.modPort core p (fun x => { x with fifo := x.fifo ++ [e], bound := next }))
      | .park _ _ _ => none
  | _ => none

/-- Entries move on as room allows (R288): from an output port to the peer input port it is bound to, and between a port
and its endpoint; fuel bounds them. -/
def State.pump (s : State) (core p : Nat) : Nat → State
  | 0 => s
  | fuel + 1 =>
    let x := (s.core core).port p
    match x.bound, x.fifo with
    | some (.endpoint _ _ _ _), _ =>
      match s.epMove core p with
      | some t => t.pump core p fuel
      | none => s
    | some (.peer c q), e :: rest =>
      if !portIsOut p || s.portRoom c q = 0 then s
      else
        ((s.modPort core p (fun x => { x with fifo := rest })).modPort c q
          (fun y => { y with fifo := y.fifo ++ [e] })).pump core p fuel
    | _, _ => s

/-- An entry enters a port. -/
def State.portPush (s : State) (core p : Nat) (e : Entry) : State :=
  (s.modPort core p (fun x => { x with fifo := x.fifo ++ [e] })).pump core p 16

/-- The output port that an unfinished command still pushes to (PUT.PORT, POUT of the vector unit, the matrix outputs). -/
def pushesTo (i : Instr) (g : Firing) : Option Nat :=
  match i.form with
  | none => none
  | some (opc, fn, f) =>
    let r := (g.r.map Val.value).bind portRef
    let l := portRef g.l.value
    if opc = 0x63 ∧ fn.getD 0 = 2 then r
    else if 0x80 ≤ opc ∧ opc ≤ 0x9F ∧ bitAt f.qual 6 then r
    else if opc = 0xA3 ∧ fn.getD 0 = 1 then some (8 + bitsAt (optVal g.r) 35 3)
    else if opc = 0xA8 then l
    else none

/-- A firing whose row is under way or queued pushes to the port. -/
def Core.pushing (k : Core) (p : Nat) : Bool :=
  (k.cmds ++ k.vecQueue ++ k.vecRun.toList).any (fun c => pushesTo c.instr c.fire == some p) ||
  (k.acc0.queue ++ k.acc1.queue).any (fun i => !i.marker && pushesTo i.instr i.fire == some p)

/-- The input port that an unfinished command takes entries from. -/
def pullsFrom (i : Instr) (g : Firing) : Option Nat :=
  match i.form with
  | none => none
  | some (opc, fn, f) =>
    let l := portRef g.l.value
    if opc = 0x62 ∧ fn.getD 0 = 2 then l
    else if 0x80 ≤ opc ∧ opc ≤ 0x9F ∧ bitAt f.qual 7 then l
    else if opc = 0xA3 then l
    else none

/-- A command of a lower number of the core works the same port: entries go by command order. -/
def Core.portTurn (k : Core) (w : Instr → Firing → Option Nat) (p id : Nat) : Bool :=
  (k.cmds ++ k.vecQueue ++ k.vecRun.toList).all (fun c => !(decide (c.id < id) && w c.instr c.fire == some p)) &&
  (k.acc0.queue ++ k.acc1.queue).all (fun c => !(decide (c.id < id) && !c.marker && w c.instr c.fire == some p))

/-- The producer of a port has finished (R288). -/
def State.producerDone (s : State) (core p : Nat) : Bool :=
  let k := s.core core
  if portIsOut p then !k.pushing p
  else
    match (k.port p).bound with
    | some (.gen g) => !(Table.look AddrGen.reset k.gens g).running
    | some (.peer c q) => ((s.core c).port q).fifo.isEmpty && !(s.core c).pushing q
    | some (.endpoint _ _ left _) => left == 0
    | some (.branch c g _) => !(Table.look AddrGen.reset (s.core c).gens g).running
    | _ => true

/-- A port becomes free, with the generator or far port it was bound to (R288). -/
def State.unbindPort (s : State) (core p : Nat) : State :=
  let b := ((s.core core).port p).bound
  let s := s.modPort core p (fun x => { x with bound := none, seen := 0, unbind := none, wrote := false })
  match b with
  | some (.gen g) =>
    s.modCore core (fun k =>
      let a := Table.look AddrGen.reset k.gens g
      { k with gens := Table.put k.gens g { a with port := none } })
  | some (.peer c q) => s.modPort c q (fun x => { x with bound := none, seen := 0 })
  | some (.branch c g _) =>
    s.modCore c (fun k =>
      let a := Table.look AddrGen.reset k.gens g
      { k with gens := Table.put k.gens g { a with mcast := a.mcast.filter (fun b => b != (core, p)) } })
  | some (.bridge b) =>
    s.modCtx ((s.core core).ctx.getD 0) (fun c => { c with bridges := c.bridges.filter (fun x => x != (b, portIsOut p)) })
  | _ => s

/-- SBIND.UNBIND's wait ends where its port is empty and the producer has finished: the port is freed and 0 emitted
(R288). -/
def State.settle (s : State) (core p : Nat) : State :=
  let x := (s.core core).port p
  match x.unbind with
  | some g =>
    if x.fifo.isEmpty && s.producerDone core p then
      let s := s.unbindPort core p
      match s.formOf g with
      | some (_, f) => s.emit g f false (Val.scalar 0 g.l.round provData)
      | none => s
    else s
  | none => s

/-- Every waiting unbind of a core is looked at. -/
def State.settleAll (s : State) (core : Nat) : State := (List.range 16).foldl (fun s p => s.settle core p) s

/-- A space token of a branch (R33, R276). -/
def spaceValue (vcore : BitVec 12) (g : Nat) (seq : Nat) : U64 :=
  (0 : BitVec 8) ++ BitVec.ofNat 4 g ++ vcore ++ (0 : BitVec 8) ++ BitVec.ofNat 32 seq

/-- The rows of a generator's run (R270). -/
def AddrGen.total (a : AddrGen) : Nat := (a.extm1.map (· + 1)).foldl (· * ·) 1

/-- The first entry leaves a port (R272): a branch counts EOT and gives a space token, and is unbound after the run's last
EOT (R276); a peer passes on more entries; a waiting unbind is looked at. -/
def State.portPop (s : State) (core p : Nat) : Option (Entry × State) :=
  let x := (s.core core).port p
  match x.fifo with
  | [] => none
  | e :: rest =>
    let s := s.modPort core p (fun x => { x with fifo := rest, seen := if e.eot then x.seen + 1 else x.seen })
    let s :=
      match x.bound with
      | some (.branch c g w) =>
        if e.eot then
          let a := Table.look AddrGen.reset (s.core c).gens g
          let v : Val := { Val.scalar (spaceValue (s.vcoreOf c) g x.seen) w.l.round provData with kind := .permit }
          let s := match s.formOf w with
            | some (_, f) => s.emit w f true v
            | none => s
          if a.trows ≠ 0 ∧ a.total / a.trows ≤ x.seen + 1 then s.unbindPort core p else s
        else s
      | some (.peer c q) => if portIsOut p then s else s.pump c q 16
      | some (.endpoint _ _ _ _) => s.pump core p 16
      | _ => s
    some (e, s.settle core p)

end Sys2Proof.Machine
end

