-- ==== Sys2Proof/Machine/Transfer.lean ====
section
/-! DEFINITION. The copy-class commands (R260 to R269, R283, R284, R287, R290, R497): TFILL, TCOPY, FETCH, PUT, LDV and STV, with COPY_COMPLETE and NVME_COMPLETION. -/

namespace Sys2Proof.Machine

/-! ## The operands of a copy -/

/-- An operand of a copy that R51 or R255 checks: a tile, with dest on the one that is written, or a capability, by its
operand number. -/
inductive Part where
  | tile (v : Val) (dest : Bool)
  | cap (k : Nat) (v : Val)
  deriving DecidableEq, Repr

/-- Operand R of a FETCH: a destination tile, or a capability. -/
def partR (v : Val) : Part := if v.kind = .cap then .cap 1 v else .tile v true

/-- What a copy-class command names, in operand order (R278). -/
def Cmd.parts (c : Cmd) : List Part :=
  let l := c.fire.l
  let r := theVal c.fire.r
  let t := theVal c.fire.t
  match c.instr with
  | .tfill _ => [.tile l true]
  | .tcopy _ => [.tile l false, .tile r true]
  | .fetchGlb _ => [.cap 0 l, partR r]
  | .fetchEp f => if bitAt f.qual 2 then [partR r, .tile t false] else [partR r]
  | .fetchPort _ => [.tile r true]
  | .putGlb _ => [.tile l false, .cap 1 r]
  | .putEp _ => [.tile l false]
  | .putPort _ => [.tile l false]
  | .ldv f => if f.fn.toNat = 1 then [.tile l false, .tile r true, .tile t false] else [.tile l false, .tile r true]
  | .stv f => if f.fn.toNat = 1 then [.tile l false, .tile r true, .tile t false] else [.tile l false, .tile r true]
  | _ => []

/-- The tile lies in another vault than the firing core's. -/
def State.partRemote (s : State) (c : Cmd) : Part → Bool
  | .tile v _ => (s.ctx c.fire.ctx).phys (hVcore v.value) != some c.fire.core
  | .cap _ _ => false

/-- A view that R51 lets the checks of a command look at, whether its tile is in shadow or not. -/
def State.viewAny (s : State) (ctx : Nat) (v : Val) : Option View := (s.view ctx v.value true).toOption

/-- The tiles of the parts that are looked at, for BUSY. -/
def State.partTiles (s : State) (c : Cmd) (arrived : Bool) : List (Nat × Nat) :=
  c.parts.filterMap (fun p =>
    match p with
    | .tile v _ =>
      if s.partRemote c p != arrived then none else (s.viewAny c.fire.ctx v).map (fun x => (x.core, x.index))
    | .cap _ _ => none)

/-- The destination tile of a copy. -/
def State.copyDest (s : State) (c : Cmd) : Option View :=
  c.parts.findSome? (fun p =>
    match p with
    | .tile v true => s.viewAny c.fire.ctx v
    | _ => none)

/-- The entries that a copy names. -/
def Cmd.capParts (c : Cmd) : List Nat :=
  c.parts.filterMap (fun p =>
    match p with
    | .cap _ v => some (field v.value 46 6).toNat
    | .tile _ _ => none)

/-! ## The memory side (R267, R268, R287) -/

/-- The memory side of a FETCH or PUT: what it is, the byte offset, the bytes of its range. -/
structure MemSide where
  side   : Side
  off    : Nat
  extent : Nat

/-- The memory side of a command: the source of a FETCH, the destination of a PUT. -/
def State.memSide (s : State) (c : Cmd) : Option MemSide :=
  let g := c.fire
  let cap (v : Val) (off : Nat) : MemSide :=
    let i := (field v.value 46 6).toNat
    { side := .cap g.core i, off := off, extent := ((s.core g.core).cap i).extent }
  let ep (v : Val) : MemSide :=
    { side := .ep g.ctx (v.value.toNat % 256) (coreStack g.core), off := v.value.toNat / 256,
      extent := ((s.ctx g.ctx).ep (v.value.toNat % 256)).extent }
  match c.instr with
  | .fetchGlb _ => some (cap g.l (optVal g.t))
  | .fetchEp _ => some (ep g.l)
  | .putGlb _ => some (cap (theVal g.r) (optVal g.t))
  | .putEp _ => some (ep (theVal g.r))
  | _ => none

/-- The transposed form (R267). -/
def transposed (f : Fields) : Bool := bitAt f.qual 0 || bitAt f.qual 1

/-- The pitch of the memory side (R267). -/
def View.memPitch (v : View) (f : Fields) (tr : Bool) : Nat :=
  if f.imm.toNat ≠ 0 then f.imm.toNat
  else if tr then v.n * (tyNibbles v.tile.etype / 2)
  else lineBytes v.tile.etype v.tile.cols

/-- The runs of bytes of the memory side: offset and length of each row, or of each column where transposed; then the
scales (R267). -/
def View.runs (v : View) (f : Fields) (o : Nat) (tr : Bool) : List (Nat × Nat) :=
  let p := v.memPitch f tr
  let data :=
    if tr then (List.range v.tile.cols).map (fun j => (o + j * p, v.n * (tyNibbles v.tile.etype / 2)))
    else (List.range v.n).map (fun i => (o + i * p, lineBytes v.tile.etype v.tile.cols))
  if f.mx then data ++ [(o + v.n * p, v.scalePlaces.length)] else data

/-- The runs of a command's memory side: those of its tile, or the whole extent of a destination capability (R267). -/
def State.copyRuns (s : State) (c : Cmd) (f : Fields) (m : MemSide) : List (Nat × Nat) :=
  match c.instr with
  | .fetchGlb _ | .fetchEp _ =>
    match c.fire.r with
    | some r =>
      if r.kind = .cap then [(m.off, ((s.core c.fire.core).cap (field r.value 46 6).toNat).extent)]
      else
        match s.viewFlight c.fire.ctx r.value with
        | some v => v.runs f m.off (transposed f)
        | none => []
    | none => []
  | _ =>
    match s.viewFlight c.fire.ctx c.fire.l.value with
    | some v => v.runs f m.off false
    | none => []

/-- The end of the last run. -/
def runsEnd (rs : List (Nat × Nat)) : Nat := rs.foldl (fun m r => max m (r.1 + r.2)) 0

/-- The fill value of null padding (R268, R494). -/
def fillBits (t : EType) (q : Nat) : Nat :=
  match q with
  | 0 => 0
  | 1 => fmtOne t
  | 2 => if tyFloat t then fmtInfEnc t false else (tyMax t).toNat
  | _ => if tyFloat t then fmtInfEnc t true else wrapInt t (tyMin t)

/-- NULLPAD applies: the bit is set and the destination is a tile (R267, R268). -/
def Cmd.nullpads (c : Cmd) (f : Fields) : Bool :=
  match c.instr with
  | .fetchGlb _ | .fetchEp _ => bitAt f.qual 3 && decide ((theVal c.fire.r).kind ≠ .cap)
  | _ => false

/-- The checks that a copy of a tile with MX makes (R267). -/
def View.mxCheck (v : View) : Option FaultClass :=
  if v.tile.scale = 0 then some .tileMalformed else if v.blocksWhole then none else some .xferShape

/-! ## The description of each copy -/

/-- The length of a tag tile's row (R269). -/
def View.tagShape (v : View) (pages : Nat) : Bool :=
  decide (v.n = 1) && decide (v.tile.etype = .n8) && decide (16 + 64 * pages ≤ v.tile.cols)

/-- The transfer of a FETCH.EP.VFY as R269 has it: from a page to a page, with the tag tile's row. -/
def State.vfyShape (s : State) (c : Cmd) (m : MemSide) (rs : List (Nat × Nat)) : Bool :=
  let len := runsEnd rs - m.off
  let e := (s.ctx c.fire.ctx).ep (c.fire.l.value.toNat % 256)
  m.off % 2 ^ 21 == 0 && len % 2 ^ 21 == 0 && e.kind == 2 &&
  (match s.viewFlight c.fire.ctx (theVal c.fire.t).value with
   | some v => v.tagShape (len / 2 ^ 21)
   | none => false)

/-- The memory side's own checks: R255's range and permission, or R259. -/
def State.memCheck (s : State) (c : Cmd) (f : Fields) (m : MemSide) (rs : List (Nat × Nat)) (into : Bool) :
    Option (FaultClass × Nat × Nat) :=
  let pads := c.nullpads f
  match m.side with
  | .cap core i =>
    let e := (s.core core).cap i
    let k : Access := if into then .write else .read
    match rs.find? (fun r => !pads && decide (e.extent < r.1 + r.2)) with
    | some r => some (.capRange, e.vbase + r.1, k.code)
    | none => if e.permits k then none else some (.capPerm, e.vbase + m.off, k.code)
  | .ep ctx ep _ =>
    let e := (s.ctx ctx).ep ep
    let fin := if pads then min e.extent (runsEnd rs) else runsEnd rs
    let lo := min m.off fin
    match s.epCheck ctx ep lo (fin - lo) into with
    | .error x => some (x, 0, 0)
    | .ok _ => none

/-- R255's range and permission for capability operand k of a copy (R53, R278). Where the tile that gives the range does not pass R51, no
range is known, and only the permission is looked at. -/
def State.capReach (s : State) (c : Cmd) (f : Fields) (k : Nat) : Option (FaultClass × Nat × Nat) :=
  let r := theVal c.fire.r
  let e := (s.core c.fire.core).cap (field r.value 46 6).toNat
  match c.instr, k, s.memSide c with
  | .fetchGlb _, 0, some m =>
    s.memCheck c f m (if r.kind = .cap || (s.viewAny c.fire.ctx r).isSome then s.copyRuns c f m else []) false
  | .fetchGlb _, _, _ | .fetchEp _, _, _ => if e.w then none else some (.capPerm, e.vbase, 2)
  | .putGlb _, _, some m => s.memCheck c f m (s.copyRuns c f m) true
  | _, _, _ => none

/-- R259 for the endpoint of a copy. -/
def State.epReach (s : State) (c : Cmd) (f : Fields) (m : MemSide) (into : Bool) : Option (FaultClass × Nat × Nat) :=
  match m.side with
  | .cap _ _ => none
  | .ep _ _ _ => s.memCheck c f m (s.copyRuns c f m) into

/-- The tile and capability checks of the operands in their order (R51, R53, R255): a fault, or whether an access goes to a stale capability.
arrived says which tiles are looked at: those of other vaults on arrival, the others at acceptance. The range and the permission of a
capability follow once no tile is left for the arrival. -/
def State.partsCheck (s : State) (c : Cmd) (f : Fields) (arrived : Bool) : List Part → Except (FaultClass × Nat × Nat) Bool
  | [] => .ok false
  | .tile v d :: t =>
    if (s.ctx c.fire.ctx).phys (hVcore v.value) = none then .error (.regionRange, hVcore v.value, 0)
    else if s.partRemote c (.tile v d) != arrived then s.partsCheck c f arrived t
    else
      match s.view c.fire.ctx v.value false with
      | .error e => .error (e, viewDetail e v.value, 0)
      | .ok _ => s.partsCheck c f arrived t
  | .cap k v :: t =>
    match s.capOf c k v.value with
    | .bad e => .error (e, 0, 0)
    | .stale _ _ => (s.partsCheck c f arrived t).map (fun _ => true)
    | .ok _ _ =>
      match (if arrived || c.parts.all (fun p => !s.partRemote c p) then s.capReach c f k else none) with
      | some x => .error x
      | none => s.partsCheck c f arrived t

/-- The lane offsets of LDV and STV (R290): lane i's offset, or none for an inactive lane; or the fault of the offset
tile. -/
def State.lanes (s : State) (c : Cmd) (f : Fields) : Except FaultClass (List (Option Int)) :=
  let t := theVal c.fire.t
  if f.fn.toNat = 0 then
    let x := t.value.toNat
    let stride : Int := (BitVec.ofNat 32 (x / 2 ^ 32)).toInt
    .ok ((List.range 32).map (fun (i : Nat) => some (((x % 2 ^ 32 : Nat) : Int) + (i : Int) * stride)))
  else
    match s.viewFlight c.fire.ctx t.value with
    | none => .ok []
    | some v =>
      if v.tile.etype ≠ .n32 then .error .xferType
      else if v.n ≠ 1 ∨ v.tile.cols ≠ 32 then .error .xferShape
      else .ok ((s.viewRow v 0).map (fun (x : Nat) => if x = 0xFFFFFFFF then none else some (x : Int)))

/-- The width of a lane access (R278). -/
def laneWidth (f : Fields) : Nat := 2 ^ (f.qual.toNat % 8)

/-- The vault tile of LDV is L, that of STV is R (R290). -/
def State.laneTile (s : State) (c : Cmd) : Option View :=
  match c.instr with
  | .ldv _ => s.viewFlight c.fire.ctx c.fire.l.value
  | _ => s.viewFlight c.fire.ctx (theVal c.fire.r).value

/-- The vault offsets of the active lanes, by lane; or the fault (R241, R290). Offsets count from BASE of the vault
tile. -/
def State.laneOffsets (s : State) (c : Cmd) (f : Fields) : Except FaultClass (List (Nat × Nat)) :=
  match s.lanes c f, s.laneTile c with
  | .error e, _ => .error e
  | .ok _, none => .ok []
  | .ok ls, some v =>
    let w := laneWidth f
    let act : List (Nat × Int) :=
      (ls.zipIdx).filterMap (fun p => p.1.map (fun x => (p.2, (v.tile.base : Int) + x)))
    if act.any (fun a => decide (a.2 < 0) || decide (2 ^ 22 ≤ a.2) || a.2 % (w : Int) != 0) then .error .laneAlign
    else if act.any (fun a => decide (a.2 < v.tile.base) || decide ((v.tile.base + v.tile.size * 64 + 64 : Nat) < a.2 + w))
    then .error .laneRange
    else .ok (act.map (fun a => (a.1, a.2.toNat)))

/-- The type and shape checks that the description of a command makes (R267, R269, R284, R287, R290), and R259 before them. -/
def State.describe (s : State) (c : Cmd) (f : Fields) : Option (FaultClass × Nat × Nat) :=
  let g := c.fire
  let l := s.viewFlight g.ctx g.l.value
  let r := s.viewFlight g.ctx (theVal g.r).value
  let only (e : Option FaultClass) : Option (FaultClass × Nat × Nat) := e.map (fun e => (e, 0, 0))
  let mx (v : Option View) : Option (FaultClass × Nat × Nat) := only (if f.mx then v.bind View.mxCheck else none)
  match c.instr with
  | .tcopy _ =>
    match l, r with
    | some x, some y =>
      if x.tile.etype ≠ y.tile.etype ∨ x.tile.cols ≠ y.tile.cols ∨ x.n ≠ y.n then some (.xferShape, 0, 0)
      else if !f.mx then none
      else if x.tile.scale = 0 ∨ y.tile.scale = 0 then some (.tileMalformed, 0, 0)
      else if x.tile.colLines != y.tile.colLines then some (.xferShape, 0, 0)
      else if x.tile.colLines &&
          !(x.row0 % 32 == 0 && y.row0 % 32 == 0 &&
            (x.n % 32 == 0 || (x.row0 + x.n == x.tile.rows && y.row0 + y.n == y.tile.rows))) then
        some (.xferShape, 0, 0)
      else none
    | _, _ => none
  | .fetchGlb _ | .fetchEp _ =>
    match s.memSide c with
    | none => none
    | some m =>
      match s.epReach c f m false with
      | some x => some x
      | none =>
        let vfy := only (if bitAt f.qual 2 && !s.vfyShape c m (s.copyRuns c f m) then some .vfyShape else none)
        if (theVal g.r).kind = .cap then vfy
        else
          let nib := (r.map (fun v => tyNibbles v.tile.etype)).getD 0
          if (bitAt f.qual 0 && nib != 2) || (bitAt f.qual 1 && nib != 4) then some (.xferType, 0, 0)
          else (mx r).or vfy
  | .fetchPort _ =>
    match portRef g.l.value with
    | none => some (.portDir, 0, 0)
    | some p => if portIsOut p || ((s.core g.core).port p).bound.isNone then some (.portDir, 0, 0) else mx r
  | .putPort _ =>
    match portRef (theVal g.r).value with
    | none => some (.portDir, 0, 0)
    | some p => if portIsOut p then mx l else some (.portDir, 0, 0)
  | .putGlb _ | .putEp _ =>
    match s.memSide c with
    | some m => (s.epReach c f m true).or (mx l)
    | none => none
  | .ldv _ | .stv _ =>
    match s.laneOffsets c f with
    | .error e => some (e, 0, 0)
    | .ok _ => none
  | _ => none

/-! ## Acceptance -/

/-- The conditions on the destination (R495). -/
def State.copyDestCheck (s : State) (c : Cmd) : Option FaultClass := (s.copyDest c).bind s.destCheck

/-- The destination tile, where it is looked at now. -/
def State.destHere (s : State) (c : Cmd) (arrived : Bool) : Option (Nat × Nat) :=
  c.parts.findSome? (fun p =>
    match p with
    | .tile v true =>
      if s.partRemote c p != arrived then none else (s.viewAny c.fire.ctx v).map (fun x => (x.core, x.index))
    | _ => none)

/-- The first access of a copy through a stale capability: its address and what it does (R255, R427). -/
def State.staleAccess (s : State) (c : Cmd) : Nat × Access :=
  let off := ((s.memSide c).map MemSide.off).getD 0
  (c.parts.findSome? (fun p =>
    match p with
    | .cap k v =>
      match s.capOf c k v.value, c.instr with
      | .stale _ e, .putGlb _ => some (e.vbase + off, Access.write)
      | .stale _ e, _ => some (if k = 0 then (e.vbase + off, Access.read) else (e.vbase, Access.write))
      | _, _ => none
    | .tile _ _ => none)).getD (0, .read)

/-- A copy parks on a stale capability. -/
def State.parkStale (s : State) (c : Cmd) : State :=
  let a := s.staleAccess c
  s.park c .capStale a.1 0 a.2 (2, 0)

/-- A copy-class command is accepted (R260, R263): its local tiles and its capabilities are checked; with no tile in
another vault and no stale capability its description and R495 follow at once. A stale capability parks it (R255). -/
def State.copyCmd (s : State) (g : Firing) (f : Fields) (i : Instr) : State :=
  let c := Cmd.start 0 g i .split
  let c := { c with caps := c.capParts }
  match s.partsCheck c f false c.parts with
  | .error (e, d0, d2) => s.raise g f.d0 (g.fault e d0 0 d2) false
  | .ok stale =>
    let remote := c.parts.any (s.partRemote c)
    match (if remote || stale then none else s.describe c f) with
    | some (e, d0, d2) => s.raise g f.d0 (g.fault e d0 0 d2) false
    | none =>
      match (if (s.destHere c false).isSome then s.copyDestCheck c else none) with
      | some e => s.fault g f e 0
      | none =>
        let p := s.accept f { c with phase := if remote || stale then .owner else .work }
        let s := p.1.engage p.2 (s.partTiles c false) (s.destHere c false)
        if stale then s.parkStale p.2 else s

/-- A lane-face command (R241). -/
def isLane : Instr → Bool
  | .ldv _ | .stv _ => true
  | _ => false

/-- The command reaches the other vault, or repeats its checks after a RESUME (R260, R435). A lane-face command takes its place in the
vault's arrival order (R240). -/
def State.copyArrive (s : State) (c : Cmd) (f : Fields) : State :=
  match s.partsCheck c f true c.parts with
  | .error (e, d0, d2) => s.failWith c f e d0 0 d2
  | .ok true => s.parkStale c
  | .ok false =>
    match s.describe c f with
    | some (e, d0, d2) => s.failWith c f e d0 0 d2
    | none =>
      match (if (s.destHere c true).isSome then s.copyDestCheck c else none) with
      | some e => s.failWith c f e 0 0 0
      | none =>
        let ts := s.partTiles c true
        let dst := s.destHere c true
        let s := if isLane c.instr then s.newId.modCmd c.fire.core c.id (fun c => { c with aux := s.ids }) else s
        (s.modCmd c.fire.core c.id (fun c => { c with phase := .work, retry := false })).engage c ts dst

/-! ## The bytes of a copy -/

/-- The bytes of runs as they are read; or where the read parks. -/
def State.readRuns (s : State) (x : Side) : List (Nat × Nat) → List (List Byte) → Except (FaultClass × Nat × Nat) (List (List Byte))
  | [], acc => .ok acc.reverse
  | (o, n) :: t, acc =>
    match s.sideRead x o n with
    | .park c va dev => .error (c, va, dev)
    | .ok bs => s.readRuns x t (bs :: acc)

/-- Element k of a run of elements of a type, or none where a byte of it is missing. -/
def runElem (t : EType) (bs : List Byte) (k : Nat) : Option Nat :=
  let nib := tyNibbles t
  if bs.length * 2 < k * nib + nib then none
  else some (leNat ((bs.drop (k * nib / 2)).take ((nib + 1) / 2)) / (if k * nib % 2 = 1 then 16 else 1) % 2 ^ tyWidth t)

/-- Element (i, j) of the view as runs give it. -/
def runAt (t : EType) (tr : Bool) (runs : List (List Byte)) (i j : Nat) : Option Nat :=
  if tr then runElem t (runs[j]?.getD []) i else runElem t (runs[i]?.getD []) j

/-- The scale bytes of the blocks that a view covers (R267). -/
def State.scaleBytes (s : State) (v : View) : List Byte := v.scalePlaces.map (fun p => BitVec.ofNat 8 (s.vaultByte v.core p))

/-- The scales of a view are written; one that is missing is 0x7F (R268). -/
def State.setScales (s : State) (v : View) (bs : List Byte) : State :=
  (v.scalePlaces.zipIdx).foldl (fun s p => s.setVaultByte v.core p.1 ((bs[p.2]?.map BitVec.toNat).getD 0x7F)) s

/-- A view is written from runs, with a fill value where bytes are missing; NULLPAD is set where any is (R267, R268). -/
def State.fillView (s : State) (v : View) (f : Fields) (tr : Bool) (runs : List (List Byte)) : State :=
  let t := v.tile.etype
  let cells := (List.range v.n).map (fun i => (List.range v.tile.cols).map (fun j => runAt t tr runs i j))
  let fill := fillBits t (f.qual.toNat / 16 % 4)
  let s := s.setViewRows v (cells.map (fun r => r.map (fun x => x.getD fill)))
  let sc := runs[if tr then v.tile.cols else v.n]?.getD []
  let s := if f.mx then s.setScales v sc else s
  let padded := cells.any (fun r => r.any Option.isNone) || (f.mx && decide (sc.length < v.scalePlaces.length))
  if padded then s.modTile v.core v.index (fun t => { t with nullpad := true }) else s

/-- The bytes of a view for memory: its rows, then its scales (R267). -/
def State.viewRuns (s : State) (v : View) (mx : Bool) : List Byte :=
  (s.viewRows v).flatMap (fun r => packRow v.tile.etype r) ++ (if mx then s.scaleBytes v else [])

/-- What is left of runs after n bytes. -/
def dropRuns : Nat → List (Nat × Nat) → List (Nat × Nat)
  | _, [] => []
  | n, (o, k) :: t => if k ≤ n then dropRuns (n - k) t else (o + n, k - n) :: t

/-- Bytes written over runs in order; done counts the bytes before them. -/
def State.writeRuns (s : State) (x : Side) (core cmd : Nat) (own : Option (Nat × Nat)) :
    List (Nat × Nat) → List Byte → Nat → Put
  | [], _, _ => .ok s
  | (o, n) :: t, bs, done =>
    match s.sideWrite x o (bs.take n) core cmd own with
    | .ok s => s.writeRuns x core cmd own t (bs.drop n) (done + n)
    | .park s k c va dev => .park s (done + k) c va dev

/-- The access after which nothing more is due: the command ends, or waits until every replica holds its writes (R258). -/
def State.copyDone (s : State) (c : Cmd) (f : Fields) (v : Val) : State :=
  if s.unperformed c.fire.core c.id then
    s.modCmd c.fire.core c.id (fun c => { c with phase := .propagating })
  else s.answer c f (both (c.pass v))

/-- A global destination is written with the bytes that the command has read; what has been written stays written where
the access parks (R262, R435). -/
def State.copyWrite (s : State) (c : Cmd) (f : Fields) (x : Side) (rs : List (Nat × Nat)) (bs : List Byte) (v : Val) :
    State :=
  let s := (dropRuns c.row rs).foldl (fun s r => s.sideUse x r.1 r.2 .write) s
  match s.writeRuns x c.fire.core c.id (s.ownTape c.fire) (dropRuns c.row rs) (bs.drop c.row) c.row with
  | .ok s => s.copyDone c f v
  | .park s done e va dev =>
    (s.modCmd c.fire.core c.id (fun c => { c with row := done, data := bs })).park c e va dev .write (2, 0)

/-! ## VFY (R269, R483) -/

/-- The first transfer page whose tag does not match. -/
def firstMismatch (img : List Byte) (tags : List Byte) (off : Nat) (data : List Byte) : Nat → Nat → Option Nat
  | _, 0 => none
  | k, n + 1 =>
    let page := (data.drop (k * 2 ^ 21)).take (2 ^ 21)
    if sha512 (img ++ natLe 8 (off + k * 2 ^ 21) ++ page) = (tags.drop (64 * k)).take 64 then
      firstMismatch img tags off data (k + 1) n
    else some k

/-- The row of the tag tile. -/
def State.tagRow (s : State) (c : Cmd) : List Byte :=
  match s.viewFlight c.fire.ctx (theVal c.fire.t).value with
  | some v => (s.viewRow v 0).map (BitVec.ofNat 8)
  | none => []

/-- A range joins the taint list of an entry (R269). -/
def Cap.addTaint (c : Cap) (lo n : Nat) : Cap :=
  let a := (c.vbase + lo) / 2 ^ 21 * 2 ^ 21
  let b := (c.vbase + lo + n + 2 ^ 21 - 1) / 2 ^ 21 * 2 ^ 21
  if c.taint.contains (a, b - a) then c
  else if c.taint.length < 4 then { c with taint := c.taint ++ [(a, b - a)] }
  else { c with taint := [(c.vbase, c.extent)] }

/-- A transfer that fails VFY at page k: the pages before it are written, the rest is not; a tile keeps SHADOW, a
capability's range is tainted (R269). -/
def State.vfyFail (s : State) (c : Cmd) (f : Fields) (m : MemSide) (rs : List (Nat × Nat)) (runs : List (List Byte)) (k : Nat) :
    State :=
  let r := theVal c.fire.r
  let fin := m.off + k * 2 ^ 21
  let s :=
    if r.kind = .cap then
      let i := (field r.value 46 6).toNat
      let bs := (runs[0]?.getD []).take (k * 2 ^ 21)
      let s := match s.writeRuns (.cap c.fire.core i) c.fire.core c.id (s.ownTape c.fire) [(0, bs.length)] bs 0 with
        | .ok s => s
        | .park s _ _ _ _ => s
      s.modCore c.fire.core (fun x => { x with
        caps := Table.put x.caps i ((x.cap i).addTaint 0 (x.cap i).extent) })
    else
      match s.viewFlight c.fire.ctx r.value with
      | none => s
      | some v =>
        let t := v.tile.etype
        let ok (o n k : Nat) : Bool := decide (o + (k * tyNibbles t + tyNibbles t + 1) / 2 ≤ fin) && decide (k < n)
        let cells := (List.range v.n).flatMap (fun i => (List.range v.tile.cols).map (fun j => (i, j)))
        cells.foldl (fun s p =>
          let run := rs[if transposed f then p.2 else p.1]?.getD (0, 0)
          let e := if transposed f then p.1 else p.2
          if ok run.1 (run.2 * 2) e then
            s.setElem v.core v.tile (v.row0 + p.1) p.2 ((runAt t (transposed f) runs p.1 p.2).getD 0)
          else s) s
  s.fail c f (c.fire.fault .integrity k fin 0) false

/-! ## The work of each copy -/

/-- TFILL's value: R, the constant, or IMM (R283). -/
def fillValue (f : Fields) (g : Firing) : Nat :=
  match g.r with
  | some r => r.value.toNat
  | none => f.imm.toNat

/-- The source of a FETCH is read and its destination written. -/
def State.fetchWork (s : State) (c : Cmd) (f : Fields) : State :=
  let r := theVal c.fire.r
  match s.memSide c with
  | none => s
  | some m =>
    let rs := s.copyRuns c f m
    let read := rs.map (fun r => (r.1, min r.2 ((if c.nullpads f then m.extent else runsEnd rs) - r.1)))
    let dst : Option Side := if r.kind = .cap then some (.cap c.fire.core (field r.value 46 6).toNat) else none
    match dst, c.data with
    | some d, b :: bs => s.copyWrite c f d [(0, (b :: bs).length)] (b :: bs) r
    | _, _ =>
      let half := read.any (fun r => s.sideHalf m.side r.1 r.2)
      let s := read.foldl (fun s r => s.sideUse m.side r.1 r.2 .read) s
      if half then s
      else
      match s.readRuns m.side read [] with
      | .error (e, va, dev) => s.park c e va dev .read (2, 0)
      | .ok runs =>
        let len := runsEnd rs - m.off
        let bad :=
          if !bitAt f.qual 2 then none
          else
            match s.sideRead m.side m.off len with
            | .park _ _ _ => none
            | .ok data =>
              let row := s.tagRow c
              firstMismatch (row.take 16) (row.drop 16) m.off data 0 (len / 2 ^ 21)
        match bad with
        | some k => s.vfyFail c f m rs runs k
        | none =>
          match dst with
          | some d => s.copyWrite c f d [(0, (runs.flatten).length)] runs.flatten r
          | none =>
            match s.viewFlight c.fire.ctx r.value with
            | none => s
            | some v => (s.fillView v f (transposed f) runs).answer c f (both (c.pass r))

/-- A tile is read and the destination of a PUT written. -/
def State.putWork (s : State) (c : Cmd) (f : Fields) : State :=
  match s.memSide c, s.viewFlight c.fire.ctx c.fire.l.value with
  | some m, some v =>
    let bs := if c.data.isEmpty then s.viewRuns v f.mx else c.data
    s.copyWrite c f m.side (s.copyRuns c f m) bs (theVal c.fire.r)
  | _, _ => s

/-- The rows that a view moves through a port: the bytes of each, with MX a last row of its scales (R267; log 124). -/
def View.portRows (v : View) (mx : Bool) : List Nat :=
  List.replicate v.n (lineBytes v.tile.etype v.tile.cols) ++ (if mx then [v.scalePlaces.length] else [])

/-- FETCH.PORT takes one entry from its port (R272, R287). -/
def State.fetchPortWork (s : State) (c : Cmd) (f : Fields) : State :=
  let core := c.fire.core
  match portRef c.fire.l.value, s.viewFlight c.fire.ctx (theVal c.fire.r).value with
  | some p, some v =>
    if !(s.core core).portTurn pullsFrom p c.id then s
    else
      match ((s.core core).port p).fifo with
      | [] => s
      | e :: _ =>
        if e.mark && !c.data.isEmpty then s.failWith c f .streamShape 0 0 0
        else
          match s.portPop core p with
          | none => s
          | some (_, s) =>
            if e.mark then
              let s := if bitAt f.qual 3 then
                  let fill := fillBits v.tile.etype (f.qual.toNat / 16 % 4)
                  let s := ((List.range v.n).drop c.row).foldl (fun s i =>
                    s.setViewRow v i (List.replicate v.tile.cols fill)) s
                  let s := if f.mx then s.setScales v [] else s
                  (s.modTile v.core v.index (fun t => { t with nullpad := true })).answer c f (both (c.pass (theVal c.fire.r)))
                else s.failWith c f .streamShort 0 0 0
              s.emitBoth c.fire f (Val.marker e.round provData)
            else
              let data := c.data ++ e.data
              if !e.eor then s.modCmd core c.id (fun c => { c with data := data })
              else
                let rows := v.portRows f.mx
                let lb := rows[c.row]?.getD 0
                if data.length ≠ (lb + 63) / 64 * 64 then s.failWith c f .streamShape 0 0 0
                else
                  let s := if c.row < v.n then s.setViewRow v c.row (unpackRow v.tile.etype v.tile.cols (data.take lb))
                    else s.setScales v (data.take lb)
                  if c.row + 1 = rows.length then s.answer c f (both (c.pass (theVal c.fire.r)))
                  else s.modCmd core c.id (fun c => { c with row := c.row + 1, data := [] })
  | _, _ => s

/-- PUT.PORT puts one entry into its port (R287): entry k of its rows in order. -/
def State.putPortWork (s : State) (c : Cmd) (f : Fields) : State :=
  let core := c.fire.core
  match portRef (theVal c.fire.r).value, s.viewFlight c.fire.ctx c.fire.l.value with
  | some p, some v =>
    if !(s.core core).portTurn pushesTo p c.id || s.portRoom core p = 0 then s
    else
      let ne := (lineBytes v.tile.etype v.tile.cols + 63) / 64
      let ns := if f.mx then (v.scalePlaces.length + 63) / 64 else 0
      let e := if c.row < v.n * ne
        then (rowEntries (packRow v.tile.etype (s.viewRow v (c.row / ne))) c.fire.l.round ne)[c.row % ne]?
        else (rowEntries (s.scaleBytes v) c.fire.l.round ns)[c.row - v.n * ne]?
      match e with
      | none => s
      | some e =>
        let s := s.portPush core p e
        if c.row + 1 = v.n * ne + ns then (s.answer c f (both (c.pass (theVal c.fire.r)))).settle core p
        else s.modCmd core c.id (fun c => { c with row := c.row + 1 })
  | _, _ => s

/-- The passes of a lane-face command (R241). -/
def lanePasses (w : Nat) (offs : List (Nat × Nat)) : Nat :=
  let groups : List (Nat × Nat) :=
    if w ≤ 4 then [(0, 32)] else if w = 8 then [(0, 16), (16, 32)] else [(0, 8), (8, 16), (16, 24), (24, 32)]
  (groups.map (fun g =>
    let words := ((offs.filter (fun o => decide (g.1 ≤ o.1) && decide (o.1 < g.2))).flatMap (fun o =>
      (List.range ((w + 3) / 4)).map (fun k => o.2 / 4 + k))).eraseDups
    ((List.range 32).map (fun b => (words.filter (fun x => x % 32 == b)).length)).foldl max 0)).sum

/-- LDV and STV: one lane-face command, performed whole (R241, R242, R290). PERF 5 counts its passes (R451). -/
def State.laneWork (s : State) (c : Cmd) (f : Fields) : State :=
  match s.laneOffsets c f, s.viewFlight c.fire.ctx c.fire.l.value, s.viewFlight c.fire.ctx (theVal c.fire.r).value with
  | .ok offs, some l, some r =>
    let w := laneWidth f
    let vt := (s.laneTile c).getD l
    let s := s.modCore vt.core (fun k =>
      { k with perf := Table.put k.perf 5 (Table.look 0 k.perf 5 + BitVec.ofNat 64 (lanePasses w offs)) })
    let s :=
      match c.instr with
      | .ldv _ =>
        let lb := lineBytes r.tile.etype r.tile.cols
        let old := packRow r.tile.etype (s.viewRow r 0)
        let vals := offs.map (fun (o : Nat × Nat) => (o.1 * w, s.vaultBytes l.core o.2 w))
        let row := vals.foldl (fun (b : List Byte) (p : Nat × List Byte) => b.take p.1 ++ p.2 ++ b.drop (p.1 + w)) (old ++ List.replicate (32 * w) 0)
        s.setViewRow r 0 (unpackRow r.tile.etype r.tile.cols (row.take lb))
      | _ =>
        let row := packRow l.tile.etype (s.viewRow l 0) ++ List.replicate (32 * w) 0
        offs.foldl (fun (s : State) (o : Nat × Nat) => s.setVaultBytes r.core o.2 ((row.drop (o.1 * w)).take w)) s
    s.answer c f (both (c.pass (theVal c.fire.r)))
  | .error e, _, _ => s.failWith c f e 0 0 0
  | _, _, _ => s

/-- A storage transfer, which the NVMe command performs (R479). -/
def State.storageCmd (s : State) (c : Cmd) : Bool :=
  match s.memSide c with
  | some m =>
    match m.side with
    | .ep ctx ep _ => ((s.ctx ctx).ep ep).kind == 2
    | .cap _ _ => false
  | none => false

/-- The place of a lane-face command in the arrival order of its vault (R240): its number at acceptance, or on arrival. -/
def Cmd.arrivalNo (c : Cmd) : Nat := if c.aux = 0 then c.id else c.aux

/-- No lane-face command that came to the same vault before is still to be performed (R242). One that an SBAR holds back has not been
issued (R275). -/
def State.laneTurn (s : State) (c : Cmd) : Bool :=
  let vault (c : Cmd) : Option Nat := (s.laneTile c).map View.core
  s.cores.all (fun e => e.2.cmds.all (fun d =>
    !(isLane d.instr && d.phase == .work && !e.2.barred 16 d.id && decide (d.arrivalNo < c.arrivalNo) && vault d == vault c)))

/-- The work of a copy-class command. -/
def State.copyWork (s : State) (c : Cmd) (f : Fields) : State :=
  match c.instr with
  | .tfill _ =>
    match s.viewFlight c.fire.ctx c.fire.l.value with
    | none => s
    | some v =>
      (s.setViewRows v (List.replicate v.n (List.replicate v.tile.cols (fillValue f c.fire)))).answer c f
        (both (c.pass c.fire.l))
  | .tcopy _ =>
    match s.viewFlight c.fire.ctx c.fire.l.value, s.viewFlight c.fire.ctx (theVal c.fire.r).value with
    | some l, some r =>
      let scales := s.scaleBytes l
      let s := s.setViewRows r (s.viewRows l)
      let s := if f.mx then s.setScales r scales else s
      s.answer c f (both (c.pass (theVal c.fire.r)))
    | _, _ => s
  | .fetchGlb _ | .fetchEp _ => s.fetchWork c f
  | .fetchPort _ => s.fetchPortWork c f
  | .putGlb _ | .putEp _ => s.putWork c f
  | .putPort _ => s.putPortWork c f
  | .ldv _ | .stv _ => if s.laneTurn c then s.laneWork c f else s
  | _ => s

/-- The value that a copy emits at its completion. -/
def Cmd.copyResult (c : Cmd) : Val :=
  match c.instr with
  | .tfill _ => c.pass c.fire.l
  | _ => c.pass (theVal c.fire.r)

/-- A copy-class command. -/
def isCopy : Instr → Bool
  | .tfill _ | .tcopy _ | .fetchGlb _ | .fetchEp _ | .fetchPort _ | .putGlb _ | .putEp _ | .putPort _ | .ldv _ | .stv _ => true
  | _ => false

/-- The command may act: it is not parked, no SBAR holds its unit back, and no parked access stands before it (R275, R434). -/
def State.splitMay (s : State) (c : Cmd) : Bool :=
  let k := s.core c.fire.core
  c.parked.isNone && !k.barred 16 c.id && (c.caps.isEmpty || !k.heldBack (2, 0) c.id)

/-- The vaults of a copy's tiles are within reach of its core (R25, R240). -/
def State.partsUp (s : State) (c : Cmd) : Bool :=
  c.parts.all (fun p =>
    match p with
    | .tile v _ => s.wayUp (coreStack c.fire.core) (coreStack (((s.ctx c.fire.ctx).phys (hVcore v.value)).getD c.fire.core))
    | .cap _ _ => true)

/-- A copy takes its next step. -/
def State.copyStep (s : State) (c : Cmd) (f : Fields) (nvme : Bool) : State :=
  match c.phase with
  | .owner => if s.partsUp c then s.copyArrive c f else s
  | .propagating =>
    if s.unperformed c.fire.core c.id then s else s.answer c f (both c.copyResult)
  | _ =>
    if s.storageCmd c != nvme || !s.partsUp c then s
    else if s.capStale c then s.parkStale c
    else s.copyWork c f

/-! ## The operators -/

/-- The operand is a tile handle or a capability. -/
def isTileOrCap (k : Kind) : Bool := k == .tile || k == .cap

/-- TFILL (R283). -/
def execTfill (f : Fields) (s : State) : Host.Outcome State Fault Refusal :=
  .next (s.operate { Need.tile with kr := isScalar } f (fun s g _ _ _ => s.copyCmd g f (.tfill f)))

/-- TCOPY (R284). -/
def execTcopy (f : Fields) (s : State) : Host.Outcome State Fault Refusal :=
  .next (s.operate { Need.tile with kr := isTile } f (fun s g _ _ _ => s.copyCmd g f (.tcopy f)))

/-- FETCH.GLB (R287). -/
def execFetchGlb (f : Fields) (s : State) : Host.Outcome State Fault Refusal :=
  .next (s.operate { Need.any with kl := isCap, kr := isTileOrCap, kt := isScalar } f (fun s g _ _ _ =>
    s.copyCmd g f (.fetchGlb f)))

/-- FETCH.EP (R269, R287). -/
def execFetchEp (f : Fields) (s : State) : Host.Outcome State Fault Refusal :=
  .next (s.operate
    { Need.any with kl := isScalar, kr := isTileOrCap, kt := fun k => !bitAt f.qual 2 || isTile k } f
    (fun s g _ _ _ => s.copyCmd g f (.fetchEp f)))

/-- FETCH.PORT (R287). -/
def execFetchPort (f : Fields) (s : State) : Host.Outcome State Fault Refusal :=
  .next (s.operate { Need.any with kl := isScalar, kr := isTile } f (fun s g _ _ _ => s.copyCmd g f (.fetchPort f)))

/-- PUT.GLB (R287). -/
def execPutGlb (f : Fields) (s : State) : Host.Outcome State Fault Refusal :=
  .next (s.operate { Need.tile with kr := isCap, kt := isScalar } f (fun s g _ _ _ => s.copyCmd g f (.putGlb f)))

/-- PUT.EP (R287). -/
def execPutEp (f : Fields) (s : State) : Host.Outcome State Fault Refusal :=
  .next (s.operate { Need.tile with kr := isScalar } f (fun s g _ _ _ => s.copyCmd g f (.putEp f)))

/-- PUT.PORT (R287). -/
def execPutPort (f : Fields) (s : State) : Host.Outcome State Fault Refusal :=
  .next (s.operate { Need.tile with kr := isScalar } f (fun s g _ _ _ => s.copyCmd g f (.putPort f)))

/-- The operands of LDV and STV (R290). -/
def laneNeed (f : Fields) : Need :=
  { Need.tile with kr := isTile, kt := fun k => if f.fn.toNat = 0 then isScalar k else isTile k }

/-- LDV (R290). -/
def execLdv (f : Fields) (s : State) : Host.Outcome State Fault Refusal :=
  .next (s.operate (laneNeed f) f (fun s g _ _ _ => s.copyCmd g f (.ldv f)))

/-- STV (R290). -/
def execStv (f : Fields) (s : State) : Host.Outcome State Fault Refusal :=
  .next (s.operate (laneNeed f) f (fun s g _ _ _ => s.copyCmd g f (.stv f)))

/-! ## The events -/

/-- COPY_COMPLETE (R263): an accepted copy takes its next step, which is its completion where nothing holds it. -/
def execCopyComplete (core cmd : Nat) (s : State) : Host.Outcome State Fault Refusal :=
  .next (
    match (s.core core).cmd? cmd with
    | none => s
    | some c =>
      match c.fields with
      | none => s
      | some f => if isCopy c.instr && s.splitMay c then s.copyStep c f false else s)

/-- NVME_COMPLETION (R479): the NVMe command of a storage transfer completes; its status decides. It needs the link policy's
gate of the storage link, or to have been in flight when that gate closed (R491). -/
def execNvmeCompletion (core cmd : Nat) (status : NvmeStatus) (s : State) : Host.Outcome State Fault Refusal :=
  .next (
    match (s.core core).cmd? cmd with
    | none => s
    | some c =>
      match c.fields with
      | none => s
      | some f =>
        if !(isCopy c.instr && s.splitMay c && s.storageCmd c && decide (c.phase = .work) &&
            (bitAt s.mod.gates 9 || s.mod.draining.contains c.id)) then s
        else
          match status with
          | .success => s.copyStep c f true
          | .lbaOutOfRange => s.failWith c f .epRange 0 0 0
          | .otherError => s.failWith c f .memPoison 0 0 0)

end Sys2Proof.Machine
end

