-- ==== Sys2Proof/Machine/Split.lean ====
section
/-! DEFINITION. Scalar accesses and capabilities (R252 to R257, R285, R289), publication (R264, R265), the bump of a page set (R256), translation windows (R257) and replicas (R258). -/

namespace Sys2Proof.Machine

/-! ## LDG and STG (R289) -/

/-- The byte offset of LDG or STG. -/
def scalarOffset (f : Fields) (g : Firing) (load : Bool) : Nat :=
  if load then
    match g.r with
    | some r => r.value.toNat
    | none => f.imm.toNat
  else
    match g.t with
    | some t => t.value.toNat
    | none => f.imm.toNat

/-- Bytes of TY. -/
def scalarBytes (f : Fields) : Nat := tyWidth f.ty / 8

/-- What the checks of a scalar access say: R255, then the alignment (R289). -/
inductive ScalarCheck where
  | fault (c : FaultClass) (va : Nat)
  | null
  | stale
  | ok (index : Nat)
  deriving DecidableEq, Repr

/-- The checks of LDG or STG, with the GEN that the command uses. -/
def State.scalarCheck (s : State) (c : Cmd) (f : Fields) (load : Bool) : ScalarCheck :=
  let off := scalarOffset f c.fire load
  let k : Access := if load then .read else .write
  match s.capOf c 0 c.fire.l.value with
  | .bad e => .fault e 0
  | .stale _ _ => .stale
  | .ok i e =>
    if e.extent < off + scalarBytes f then
      if load && bitAt f.qual 3 then .null else .fault .capRange (e.vbase + off)
    else if !e.permits k then .fault .capPerm (e.vbase + off)
    else if off % scalarBytes f ≠ 0 then .fault .memAlign (e.vbase + off)
    else .ok i

/-- LDG or STG is accepted (R255, R260, R289). -/
def State.scalarCmd (s : State) (g : Firing) (f : Fields) (i : Instr) (load : Bool) : State :=
  let k : Access := if load then .read else .write
  let c := { Cmd.start 0 g i .split with caps := [(field g.l.value 46 6).toNat] }
  match s.scalarCheck c f load with
  | .fault e va => s.accessFault g f e va k
  | .null => s.emitBoth g f (Val.null g.l.round provData)
  | .stale =>
    let p := s.accept f c
    p.1.park p.2 .capStale (s.capBase g.core g.l.value + scalarOffset f g load) 0 k (2, 0)
  | .ok _ => (s.accept f c).1

/-- The access of LDG or STG is made, or parks (R255 to R258, R289). -/
def State.scalarWork (s : State) (c : Cmd) (f : Fields) (load : Bool) : State :=
  let k : Access := if load then .read else .write
  let off := scalarOffset f c.fire load
  let n := scalarBytes f
  match s.scalarCheck c f load with
  | .fault e va => s.failWith c f e va 0 (accessDetail e k)
  | .null => s.answer c f (both (Val.null c.fire.l.round provData))
  | .stale => s.park c .capStale (s.capBase c.fire.core c.fire.l.value + off) 0 k (2, 0)
  | .ok i =>
    let half := load && s.sideHalf (.cap c.fire.core i) off n
    let s := s.sideUse (.cap c.fire.core i) off n k
    if half then s
    else if load then
      match s.sideRead (.cap c.fire.core i) off n with
      | .park e va dev => s.park c e va dev k (2, 0)
      | .ok bs => s.answer c f (both (c.scalar (extend f.ty (leNat bs))))
    else
      match s.sideWrite (.cap c.fire.core i) off (natLe n (theVal c.fire.r).value.toNat) c.fire.core c.id
          (s.ownTape c.fire) with
      | .park s _ e va dev => s.park c e va dev k (2, 0)
      | .ok s =>
        if s.unperformed c.fire.core c.id then
          s.modCmd c.fire.core c.id (fun c => { c with phase := .propagating })
        else s.answer c f [(false, c.scalar 0)]

/-- LDG (R289). -/
def execLdg (f : Fields) (s : State) : Host.Outcome State Fault Refusal :=
  .next (s.operate { Need.any with kl := isCap, kr := isScalar, kt := isScalar } f (fun s g _ _ _ =>
    s.scalarCmd g f (.ldg f) true))

/-- STG (R289). -/
def execStg (f : Fields) (s : State) : Host.Outcome State Fault Refusal :=
  .next (s.operate { Need.any with kl := isCap, kr := isScalar, kt := isScalar } f (fun s g _ _ _ =>
    s.scalarCmd g f (.stg f) false))

/-! ## Capabilities (R252, R254, R285) -/

/-- A device-owned area of a context (R254): base and extent. -/
def Ctx.areas (c : Ctx) : List (Nat × Nat) :=
  let n := c.topCore + 1
  [(c.fba.toNat, n * c.fbasz.toNat), (c.flog.toNat, c.flogn * 64),
   (c.save.toNat, 2 ^ 21 + n * (5 * 2 ^ 20)), (c.tapebase.toNat * 2 ^ 21, 1024 * c.tapeqsz.toNat * 2 ^ 21),
   (c.holdbase.toNat * 2 ^ 21, 32 * 2 ^ 20), (c.mspill.toNat * 2 ^ 20, n * 2 ^ 20),
   (c.qrbase.toNat * 4096, 4096 * 2 ^ c.qrlog.toNat), (c.bqbase.toNat * 4096, 16384)]

/-- The range meets a device-owned area of an active context (R254). -/
def State.ownedArea (s : State) (va n : Nat) : Bool :=
  s.ctxs.any (fun e => e.2.live && e.2.areas.any (fun a => a.1 != 0 && decide (a.1 < va + n) && decide (va < a.1 + a.2)))

/-- The level 0 entry at an index of the table of a root (R249), or none where it is absent or malformed. -/
def State.level0 (s : State) (root i : Nat) : Option Nat :=
  let e := s.hbm.readNat (root * 4096 + 8 * i) 8
  if root = 0 then none
  else if !bitOf e 0 || bitOf e 1 || bitsAt e 60 4 != 0 || bitsAt e 40 4 != 0 || bitsAt e 2 10 != 0 then none
  else some (bitsAt e 44 16)

/-- The page set of a range's level 0 entries, where they agree (R285). -/
def State.rangePset (s : State) (root va n : Nat) : Option Nat :=
  let lo := va / 2 ^ 39
  match (List.range ((va + n - 1) / 2 ^ 39 + 1 - lo)).map (fun k => s.level0 root (lo + k)) with
  | some p :: t => if t.all (· == some p) then some p else none
  | _ => none

/-- The lowest entry of a capability table that is not VALID. -/
def Core.freeCap (k : Core) : Option Nat := (List.range 64).find? (fun i => !(k.cap i).valid)

/-- A new entry is written (R252), GEN unchanged since the entry's last free; its token's value. -/
def State.newCap (s : State) (core i : Nat) (c : Cap) : State × U64 :=
  let gen := ((s.core core).cap i).gen
  (s.modCore core (fun k => { k with caps := Table.put k.caps i { c with gen := gen } }),
    capToken (s.vcoreOf core) i gen)

/-- The extent of XLATE. -/
def xlateExtent (f : Fields) (g : Firing) : Nat :=
  match g.r with
  | some r => r.value.toNat
  | none => f.imm.toNat

/-- XLATE's work (R285). -/
def State.xlateWork (s : State) (c : Cmd) (f : Fields) : State :=
  let g := c.fire
  let va := g.l.value.toNat
  let n := xlateExtent f g
  let root := (s.ctx g.ctx).ctxroot
  if 2 ^ 48 ≤ va ∨ n = 0 ∨ 2 ^ 48 < va + n then s.failWith c f .xlateRefused 0 0 0
  else
    match s.rangePset root.toNat va n with
    | none => s.failWith c f .xlateRefused 0 0 0
    | some pset =>
      if s.ownedArea va n then s.failWith c f .xlateRefused 0 0 0
      else
        match (s.core g.core).freeCap with
        | none => s.failWith c f .capFull 0 0 0
        | some i =>
          let p := s.newCap g.core i {
            vbase := va, extent := n, root := root, pset := BitVec.ofNat 16 pset, gen := 0, valid := true,
            u := bitAt f.qual 2, w := bitAt f.qual 1, r := bitAt f.qual 0, busy := 0, taint := [] }
          p.1.answer c f (both { c.scalar p.2 with kind := .cap })

/-- The parts of a list of ranges that lie within another one. -/
def clipRanges (l : List (Nat × Nat)) (lo n : Nat) : List (Nat × Nat) :=
  l.filterMap (fun r =>
    let a := max r.1 lo
    let b := min (r.1 + r.2) (lo + n)
    if a < b then some (a, b - a) else none)

/-- CAPCUT.CUT's work (R269, R285): the parent is held by BUSY. -/
def State.capcutWork (s : State) (c : Cmd) (f : Fields) : State :=
  let g := c.fire
  let e := (s.core g.core).cap (field g.l.value 46 6).toNat
  match (s.core g.core).freeCap with
  | none => s.failWith c f .capFull 0 0 0
  | some i =>
    let off := (theVal g.r).value.toNat
    let n := (theVal g.t).value.toNat
    let p := s.newCap g.core i {
      vbase := e.vbase + off, extent := n, root := e.root, pset := e.pset, gen := 0, valid := true,
      u := e.u && bitAt f.qual 2, w := e.w && bitAt f.qual 1, r := e.r && bitAt f.qual 0, busy := 0,
      taint := clipRanges e.taint (e.vbase + off) n }
    p.1.answer c f [(false, { c.scalar p.2 with kind := .cap })]

/-- XLATE (R285): accepted, and answered when its reads have returned. -/
def execXlate (f : Fields) (s : State) : Host.Outcome State Fault Refusal :=
  .next (s.operate .scalars f (fun s g _ _ _ => (s.accept f (Cmd.start 0 g (.xlate f) .split)).1))

/-- CAPCUT.CUT (R285). -/
def execCapcutCut (f : Fields) (s : State) : Host.Outcome State Fault Refusal :=
  .next (s.operate { Need.scalars with kl := isCap } f (fun s g l r t =>
    match s.capOperand g l.value with
    | .bad e => s.fault g f e 0
    | .stale _ _ => s.fault g f .capStale 0
    | .ok i e =>
      let off := optVal r
      let n := optVal t
      if n = 0 ∨ e.extent < off + n then s.fault g f .capRange (e.vbase + off)
      else (s.accept f { Cmd.start 0 g (.capcutCut f) .split with caps := [i] }).1))

/-- CAPCUT.FREE (R275, R285): the entry is marked by a command of the split-phase unit that waits. -/
def execCapcutFree (f : Fields) (s : State) : Host.Outcome State Fault Refusal :=
  .next (s.operate { Need.any with kl := isCap } f (fun s g l _ _ =>
    match s.capOperand g l.value with
    | .bad e => s.fault g f e 0
    | .stale _ _ => s.fault g f .capStale 0
    | .ok i _ =>
      (s.accept f { Cmd.start 0 g (.capcutFree f) .split with phase := .queued, aux := i }).1))

/-- The accesses through an entry that are in flight (R252): its commands, and the issued rows of generators. -/
def State.capBusy (s : State) (core i : Nat) : Nat :=
  ((s.core core).cap i).busy +
  (s.core core).gens.countP (fun e => (field e.2.cap.value 46 6).toNat == i && s.genPending core e.1)

/-- Accesses through an entry are in flight. -/
def State.capInUse (s : State) (core i : Nat) : Bool := s.capBusy core i != 0

/-- The commands that mark an entry for freeing. -/
def Core.freeing (k : Core) (i : Nat) : List Cmd :=
  k.cmds.filter (fun c =>
    match c.instr with
    | .capcutFree _ => c.aux == i
    | _ => false)

/-- CAP_ENTRY_FREE (R285): a marked entry whose BUSY is 0 becomes invalid, GEN advances, the taint list is cleared, and
CAPCUT.FREE emits 0; an SBAR holds a later one back (R275). Window entries filled through it go with it. -/
def execCapEntryFree (core index : Nat) (s : State) : Host.Outcome State Fault Refusal :=
  .next (
    let k := s.core core
    let e := k.cap index
    if (k.freeing index).all (fun c => k.barred 16 c.id) || s.capInUse core index then s
    else
      let s := s.modCore core (fun k =>
        { k with
          caps := Table.put k.caps index { e with valid := false, gen := e.gen + 1, taint := [] },
          win := k.win.filter (fun w => w.cap != index),
          gens := k.gens.map (fun g => (g.1, { g.2 with win := g.2.win.filter (fun w => w.cap != index) })) })
      (k.freeing index).foldl (fun s c =>
        match c.fields with
        | some f => s.answer c f [(false, c.scalar 0)]
        | none => s) s)

/-! ## Publication (R264, R265) -/

/-- PUBLISH.TILE's work at the owning core (R265). -/
def State.publishTileWork (s : State) (c : Cmd) (f : Fields) : State :=
  match s.view c.fire.ctx c.fire.l.value false with
  | .error e => s.failWith c f e (viewDetail e c.fire.l.value) 0 0
  | .ok v =>
    (s.modTile v.core v.index (fun t => { t with published := true })).answer c f (both (c.pass c.fire.l))

/-- PUBLISH.TILE (R265): at once in the firing core's own vault, else on arrival (R260). -/
def execPublishTile (f : Fields) (s : State) : Host.Outcome State Fault Refusal :=
  .next (s.operate .tile f (fun s g l _ _ =>
    match (s.ctx g.ctx).phys (hVcore l.value) with
    | none => s.fault g f .regionRange (hVcore l.value)
    | some core =>
      let p := s.accept f { Cmd.start 0 g (.publishTile f) .stream with phase := if core = g.core then .work else .owner }
      if core = g.core then p.1.publishTileWork p.2 f else p.1))

/-- PUBLISH.GLB (R264): both capabilities pass R255, and the publish agent is asked for its swap instant. -/
def execPublishGlb (f : Fields) (s : State) : Host.Outcome State Fault Refusal :=
  .next (s.operate { Need.any with kl := isCap, kr := isCap } f (fun s g l r _ =>
    let bad (x : CapOperand) : Option FaultClass :=
      match x with
      | .bad e => some e
      | .stale _ _ => some .capStale
      | .ok _ _ => none
    match bad (s.capOperand g l.value), bad (s.capOperand g (theVal r).value) with
    | some e, _ => s.fault g f e 0
    | none, some e => s.fault g f e 0
    | none, none =>
      (s.accept f
        { Cmd.start 0 g (.publishGlb f) .stream with
          caps := [(field l.value 46 6).toNat, (field (theVal r).value 46 6).toNat] }).1))

/-- The place in HBM of the 2 MiB leaf of an address, with the leaf, if it is one that may be swapped (R249, R264). -/
def State.leafPlace (s : State) (root va : Nat) : Option (Nat × Nat) :=
  match walk s.hbm root va with
  | .ok leaf 21 _ =>
    let e0 := s.hbm.readNat (root * 4096 + 8 * bitsAt va 39 9) 8
    let e1 := s.hbm.readNat (bitsAt e0 12 28 * 4096 + 8 * bitsAt va 30 9) 8
    if bitOf leaf 6 || decide (1 < bitsAt leaf 60 4) then none
    else some (bitsAt e1 12 28 * 4096 + 8 * bitsAt va 21 9, leaf)
  | _ => none

/-- The shape that PUBLISH.GLB asks of its ranges (R264). -/
def State.publishShape (s : State) (a b : Cap) : Bool :=
  a.vbase % 2 ^ 21 == 0 && b.vbase % 2 ^ 21 == 0 && a.extent == b.extent && a.extent % 2 ^ 21 == 0 && a.w && b.w &&
  (List.range (a.extent / 2 ^ 21)).all (fun k =>
    (s.leafPlace a.root.toNat (a.vbase + k * 2 ^ 21)).isSome && (s.leafPlace b.root.toNat (b.vbase + k * 2 ^ 21)).isSome)

/-- A leaf with the FRAME field of another (R249, R264). -/
def withFrame (leaf other : Nat) : Nat := leaf - bitsAt leaf 21 39 * 2 ^ 21 + bitsAt other 21 39 * 2 ^ 21

/-- The leaves of page k of both ranges exchange their FRAME fields. -/
def State.swapPage (s : State) (a b : Cap) (k : Nat) : State :=
  match s.leafPlace a.root.toNat (a.vbase + k * 2 ^ 21), s.leafPlace b.root.toNat (b.vbase + k * 2 ^ 21) with
  | some (p, x), some (q, y) =>
    (s.hbmWrite p (natLe 8 (withFrame x y)) none).hbmWrite q (natLe 8 (if p = q then x else withFrame y x)) none
  | _, _ => s

/-- A window entry maps a page of a range. -/
def WinEntry.meets (w : WinEntry) (lo n : Nat) : Bool :=
  decide (w.page * 2 ^ w.log < lo + n) && decide (lo < (w.page + 1) * 2 ^ w.log)

/-- Window entries of a context that satisfy a test are cleared. -/
def State.clearWindows (s : State) (ctx : Nat) (bad : Nat → WinEntry → Bool) : State :=
  let clear (n : Nat) (k : Core) : Core :=
    { k with
      win := k.win.filter (fun w => !bad n w),
      gens := k.gens.map (fun g => (g.1, { g.2 with win := g.2.win.filter (fun w => !bad n w) })) }
  { s with cores := s.cores.map (fun e => if e.2.ctx = some ctx then (e.1, clear e.1 e.2) else e) }

/-- PUBLISH_SWAP (R264, R269): the publish agent's swap instant. -/
def execPublishSwap (core cmd : Nat) (s : State) : Host.Outcome State Fault Refusal :=
  .next (
    match (s.core core).cmd? cmd with
    | some c =>
      match c.instr with
      | .publishGlb f =>
        let k := s.core core
        let a := k.cap (field c.fire.l.value 46 6).toNat
        let b := k.cap (field (theVal c.fire.r).value 46 6).toNat
        if !s.publishShape a b then s.failWith c f .publishShape 0 0 0
        else if k.caps.any (fun e => e.2.valid && !(clipRanges e.2.taint b.vbase b.extent).isEmpty) then
          s.failWith c f .integrity 0 0 0
        else
          let n := a.extent / 2 ^ 21
          let s := (List.range n).foldl (fun s k => s.swapPage a b k) s
          let s := s.clearWindows c.fire.ctx (fun _ w => w.meets a.vbase a.extent || w.meets b.vbase b.extent)
          s.answer c f [(false, c.scalar (BitVec.ofNat 64 n))]
      | _ => s
    | none => s)

/-! ## The bump of a page set (R256) -/

/-- An entry of a core belongs to a page set. -/
def Core.ofPset (k : Core) (p : BitVec 16) (i : Nat) : Bool := (k.cap i).pset == p

/-- PAGE_SET_BUMP (R256): GEN of every entry of the page set advances on every core of the context, and the window entries
filled through them are cleared. -/
def execPageSetBump (ctx : Nat) (s : State) : Host.Outcome State Fault Refusal :=
  .next (
    let c := s.ctx ctx
    if c.bump ≠ 1 then s
    else
      let s := s.clearWindows ctx (fun core w => (s.core core).ofPset c.pset w.cap)
      let bumped (k : Core) : Core :=
        { k with caps := k.caps.map (fun x => if x.2.pset = c.pset then (x.1, { x.2 with gen := x.2.gen + 1 }) else x) }
      let s : State :=
        { s with cores := s.cores.map (fun e => if e.2.ctx = some ctx then (e.1, bumped e.2) else e) }
      s.modCtx ctx (fun c => { c with bump := 2 }))

/-- An access through an old generation of the page set stands unparked on a core, or a write through it is not performed
everywhere yet (R256). -/
def State.oldAccess (s : State) (core : Nat) (p : BitVec 16) : Bool :=
  let k := s.core core
  k.cmds.any (fun c =>
    c.caps.any (k.ofPset p) &&
    ((c.parked.isNone && s.capStale c) || s.unperformed core c.id)) ||
  k.gens.any (fun a =>
    let i := (field a.2.cap.value 46 6).toNat
    k.ofPset p i &&
    ((a.2.running && a.2.parked.isNone && field a.2.cap.value 38 8 != (k.cap i).gen) ||
      s.unperformed core (genCover a.1)))

/-- BUMP_DONE (R256): BUSY clears when no access through the old generation is left unparked or unperformed. -/
def execBumpDone (ctx : Nat) (s : State) : Host.Outcome State Fault Refusal :=
  .next (
    let c := s.ctx ctx
    if c.bump ≠ 2 then s
    else if s.cores.any (fun e => e.2.ctx == some ctx && s.oldAccess e.1 c.pset) then s
    else s.modCtx ctx (fun c => { c with bump := 0 }))

/-! ## Windows (R257) and replicas (R258) -/

/-- The byte offset of a row (R270): dimension 0 is innermost. -/
def AddrGen.rowOffset (a : AddrGen) (r : Nat) : Int :=
  ((a.strides.zip a.extm1).foldl (fun (x : Int × Nat) d =>
    (x.1 + ((x.2 % (d.2 + 1) : Nat) : Int) * d.1, x.2 / (d.2 + 1))) ((a.offset : Int), r)).1

/-- The pages of the rows of a generator from row r on, in access order and each once, as far as eight; page gives the first address of the
page of an address (R257). -/
def AddrGen.pagesFrom (a : AddrGen) (vbase : Nat) (page : Nat → Nat) : Nat → Nat → List Nat → List Nat
  | 0, _, acc => acc.take 8
  | fuel + 1, r, acc =>
    if 8 ≤ acc.length ∨ a.total ≤ r then acc.take 8
    else
      let add (l : List Nat) (p : Nat) : List Nat := if l.contains p then l else l ++ [p]
      let lo := vbase + (a.rowOffset r).toNat
      a.pagesFrom vbase page fuel (r + 1) (add (add acc (page lo)) (page (lo + a.rowb - 1)))

/-- The unit may fill its window with the page of an address of capability i (R257): the split-phase unit (16) for a command that
uses the capability, a running generator with the first of the 8 pages ahead that it lacks and whose walk does not fail. -/
def State.wantsPage (s : State) (core unit i va : Nat) : Bool :=
  let k := s.core core
  if unit = 16 then k.cmds.any (fun c => c.caps.contains i)
  else
    let a := Table.look AddrGen.reset k.gens unit
    let root := (k.cap i).root.toNat
    let page (x : Nat) : Nat :=
      match walk s.hbm root x with
      | .ok _ log _ => x / 2 ^ log * 2 ^ log
      | .err _ => x / 2 ^ 21 * 2 ^ 21
    let lacks (p : Nat) : Bool :=
      (winFind a.win i p).isNone &&
      (match walk s.hbm root p with
       | .ok _ _ _ => true
       | .err _ => false)
    a.running && (field a.cap.value 46 6).toNat == i && field a.cap.value 38 8 == (k.cap i).gen &&
    (a.pagesFrom (k.cap i).vbase page (a.total - a.next) a.next []).find? lacks == some (page va)

/-- TRANSLATION_WINDOW_FILL (R250, R257): a unit's window takes the leaf of a page of a capability it will use; a walk that
fails leaves it as it is. -/
def execTranslationWindowFill (core unit cap : Nat) (va : U64) (s : State) : Host.Outcome State Fault Refusal :=
  .next (
    let k := s.core core
    let e := k.cap cap
    if !e.valid || va.toNat < e.vbase || e.vbase + e.extent ≤ va.toNat || 16 < unit || !s.wantsPage core unit cap va.toNat then s
    else
      match walk s.hbm e.root.toNat va.toNat with
      | .err _ => s
      | .ok leaf log _ =>
        let w : WinEntry := { cap := cap, page := va.toNat / 2 ^ log, log := log, leaf := BitVec.ofNat 64 leaf }
        if unit = 16 then s.setCore core { k with win := winInsert k.win 16 w }
        else
          let a := Table.look AddrGen.reset k.gens unit
          s.setCore core { k with gens := Table.put k.gens unit { a with win := winInsert a.win 8 w } })

/-- The first propagation that a stack lacks, taken from a list. -/
def takeProp (stack : Nat) : List Propagation → Option (Propagation × List Propagation)
  | [] => none
  | p :: t =>
    if p.lacking.contains stack then
      let rest := p.lacking.filter (· != stack)
      some (p, if rest.isEmpty then t else { p with lacking := rest } :: t)
    else (takeProp stack t).map (fun x => (x.1, p :: x.2))

/-- REPLICA_PROPAGATE (R258): a stack takes the next write of the home order that it lacks. -/
def execReplicaPropagate (stack : Nat) (s : State) : Host.Outcome State Fault Refusal :=
  .next (
    match takeProp stack s.props with
    | none => s
    | some (p, rest) => { s with hbm := s.hbm.writeBytes (stack * 2 ^ 36 + p.off) p.bytes, props := rest })

end Sys2Proof.Machine
end

