-- ==== Sys2Proof/Machine/Streams.lean ====
section
/-! DEFINITION. Streams: address generators (R270, R271, R291), the binding of ports (R288), bridge queues (R173 to R175, R273), SBAR (R275), multicast and permits (R276, R277, R292), and the binding of endpoints (R293). -/

namespace Sys2Proof.Machine

/-! ## Address generators -/

/-- A generator of a core. -/
def Core.gen (k : Core) (g : Nat) : AddrGen := Table.look AddrGen.reset k.gens g

/-- A change to a generator. -/
def State.modGen (s : State) (core g : Nat) (h : AddrGen → AddrGen) : State :=
  s.modCore core (fun k => { k with gens := Table.put k.gens g (h (k.gen g)) })

/-- The value of a sticky slot of the firing frame. -/
def State.stickyAt (s : State) (g : Firing) (n : Nat) : Option Val :=
  match s.readSlot g n with
  | .sticky _ v => some v
  | _ => none

/-- The sticky slots from n on that an operator names, or the fault of the first that is missing (R38, R43). -/
def State.stickies (s : State) (g : Firing) (n k : Nat) : Except (FaultClass × Nat) (List Val) :=
  if s.slotBeyond g (n + k - 1) then .error (.slotRange, n + k - 1)
  else
    let xs := (List.range k).map (fun i => s.stickyAt g (n + i))
    match xs.findIdx? Option.isNone with
    | some i => .error (.stickyAbsent, n + i)
    | none => .ok (xs.filterMap id)

/-- The parameters of AGSET (R270): eight slots, or none where they are malformed. -/
def agParse (vs : List Val) : Option AddrGen :=
  match vs with
  | [c, o, p, d0, d1, d2, d3, t] =>
    let w2 := p.value.toNat
    let rowb := w2 % 2 ^ 17
    let ndim := w2 / 2 ^ 17 % 8
    let dims := [d0, d1, d2, d3].map (fun v => v.value.toNat)
    let used := dims.take ndim
    let trows := t.value.toNat % 2 ^ 16
    let pwin := t.value.toNat / 2 ^ 16 % 16
    if [o, p, d0, d1, d2, d3, t].any (fun v => v.kind != .scalar) || 2 ^ 48 ≤ o.value.toNat || 2 ^ 21 ≤ w2 ||
        rowb % 32 != 0 || rowb < 32 || 65536 < rowb || ndim = 0 || 4 < ndim || used.any (fun x => decide (2 ^ 48 ≤ x)) ||
        (dims.drop ndim).any (· != 0) || 2 ^ 20 ≤ t.value.toNat ||
        (if trows = 0 then pwin != 0 else pwin = 0 || 8 < pwin) then none
    else
      some { AddrGen.reset with
        loaded := true, cap := c, offset := o.value.toNat, rowb := rowb, write := bitOf w2 20,
        strides := used.map (fun x => (BitVec.ofNat 32 x).toInt), extm1 := used.map (fun x => x / 2 ^ 32),
        trows := trows, pwin := pwin }
  | _ => none

/-- AGSET (R270, R291): the parameters are loaded, and the run begins at row 0; the binding stays. -/
def execAgset (f : Fields) (s : State) : Host.Outcome State Fault Refusal :=
  .next (s.operate .any f (fun s g _ _ _ =>
    let n := f.imm.toNat % 16
    let old := (s.core g.core).gen n
    match s.stickies g f.slot.toNat 8 with
    | .error (e, d) => s.fault g f e d
    | .ok vs =>
      let c := vs.headD Val.zero
      if c.kind != .cap then s.fault g f .kind 0
      else
        match agParse vs with
        | none => s.fault g f .agMalformed 0
        | some a =>
          let need : Access := if a.write then .write else .read
          match s.capAccess g c.value 0 0 need with
          | .bad e va => s.accessFault g f e va need
          | .stale _ _ => s.fault g f .capStale 0
          | .ok _ _ =>
            if old.running then s.fault g f .agBusy 0
            else
              let s := s.modGen g.core n (fun o => { a with port := o.port, mcast := o.mcast, released := o.released })
              s.emit g f false (Val.scalar (BitVec.ofNat 64 n) g.l.round provData)))

/-- AGRUN (R291): the generator starts or continues. -/
def execAgrun (f : Fields) (s : State) : Host.Outcome State Fault Refusal :=
  .next (s.operate .any f (fun s g _ _ _ =>
    let n := f.imm.toNat % 16
    let a := (s.core g.core).gen n
    if !a.loaded || (a.port.isNone && a.mcast.isEmpty) then s.fault g f .agUnbound 0
    else if (a.port.map portIsOut).getD false != a.write then s.fault g f .portDir 0
    else s.modGen g.core n (fun a => { a with running := true, run := some g, moved := 0 })))

/-- AGSTOP (R291): a running generator stops after its current row; 0 is emitted once it is idle. -/
def execAgstop (f : Fields) (s : State) : Host.Outcome State Fault Refusal :=
  .next (s.operate .any f (fun s g _ _ _ =>
    let n := f.imm.toNat % 16
    if ((s.core g.core).gen n).running then s.modGen g.core n (fun a => { a with stopReq := a.stopReq ++ [g] })
    else s.emit g f false (Val.scalar 0 g.l.round provData)))

/-- The ports that a generator moves entries through. -/
def AddrGen.targets (a : AddrGen) (core : Nat) : List (Nat × Nat) :=
  match a.port with
  | some p => [(core, p)]
  | none => a.mcast

/-- The stream port that stands for a generator (R434). -/
def AddrGen.parkPort (a : AddrGen) : Nat × Nat :=
  match a.port with
  | some p => (if portIsOut p then 1 else 0, p % 8)
  | none => (0, (a.mcast.head?.map Prod.snd).getD 0 % 8)

/-- A run's end: the generator is idle, and each AGSTOP that waits emits 0. -/
def State.agIdle (s : State) (core n : Nat) (next : Nat) : State :=
  let a := (s.core core).gen n
  let s := s.modGen core n (fun a =>
    { a with running := false, run := none, stopReq := [], next := next, data := [], entry := 0, done := 0, parked := none, again := false })
  let s := a.stopReq.foldl (fun s g =>
    match s.formOf g with
    | some (_, f) => s.emit g f false (Val.scalar 0 g.l.round provData)
    | none => s) s
  s.settleAll core

/-- A run ends with its scalar (R291): the rows moved, and bit 63 where it stopped. -/
def State.agEnd (s : State) (core n : Nat) (g : Firing) (f : Fields) (stopped : Bool) : State :=
  let a := (s.core core).gen n
  let w : U64 := BitVec.ofNat 64 (a.moved % 2 ^ 32 + (if stopped then 2 ^ 63 else 0))
  let s := s.emit g f false (Val.scalar w g.l.round provData)
  s.agIdle core n (if stopped then a.next else 0)

/-- A run ends with a fault in place of its scalar (R271). -/
def State.agFail (s : State) (core n : Nat) (g : Firing) (f : Fields) (e : FaultClass) (d0 d2 : Nat) : State :=
  (s.raise g f.d0 (g.fault e d0 0 d2) false).agIdle core n 0

/-- A generator's access parks at its stream port (R434). -/
def State.agPark (s : State) (core n : Nat) (g : Firing) (e : FaultClass) (va dev : Nat) (k : Access) : State :=
  let a := (s.core core).gen n
  let p := a.parkPort
  let q := s.faultParked { g.fault e va dev (k.code + 256 * n) with port := p.2 + 16 * p.1 }
  q.1.modGen core n (fun a => { a with parked := some e, precord := q.2, again := false })

/-- Entries of a row in progress are moved into every port of a read generator, as far as all have room (R271, R276); fuel
bounds them. -/
def State.agPush (s : State) (core n : Nat) (round : BitVec 8) : Nat → State
  | 0 => s
  | fuel + 1 =>
    let a := (s.core core).gen n
    let es := rowEntries a.data round ((a.rowb + 63) / 64)
    let ts := a.targets core
    match es[a.entry]? with
    | none => s
    | some e =>
      if ts.any (fun t => s.portRoom t.1 t.2 = 0) then s
      else
        let e := { e with eot := e.eor && a.trows != 0 && (a.next + 1) % a.trows == 0 }
        let s := ts.foldl (fun s t => s.portPush t.1 t.2 e) s
        if e.eor then
          s.modGen core n (fun a => { a with data := [], entry := 0, next := a.next + 1, moved := a.moved + 1 })
        else (s.modGen core n (fun a => { a with entry := a.entry + 1 })).agPush core n round fuel

/-- What R255 says of a row that a generator reaches. -/
def State.agAccess (s : State) (core : Nat) (a : AddrGen) : CapAccess :=
  let i := (field a.cap.value 46 6).toNat
  let c := (s.core core).cap i
  let off := a.rowOffset a.next
  let k : Access := if a.write then .write else .read
  if !c.valid then .bad .capInvalid 0
  else if c.gen != field a.cap.value 38 8 then .stale i c
  else if off < 0 ∨ (c.extent : Int) < off + a.rowb then .bad .capRange (((c.vbase : Int) + off).toNat)
  else if !c.permits k then .bad .capPerm (c.vbase + off.toNat)
  else .ok i c

/-- A read generator reads its next row (R255, R266, R271). -/
def State.agRead (s : State) (core n : Nat) (g : Firing) (f : Fields) : State :=
  let a := (s.core core).gen n
  match s.agAccess core a with
  | .bad e va => s.agFail core n g f e va (1 + 256 * n)
  | .stale _ c => s.agPark core n g .capStale ((c.vbase : Int) + a.rowOffset a.next).toNat 0 .read
  | .ok i c =>
    let x := s.xlate c.root.toNat a.win i .read (c.vbase + (a.rowOffset a.next).toNat) a.rowb
    let s := s.modGen core n (fun a => { a with win := winUse a.win 8 i x })
    match x with
    | .err _ va e dev => s.agPark core n g e va dev .read
    | .ok cs =>
      if cs.any (s.readWaits (coreStack core)) then s
      else
      let bs := s.readChunks (coreStack core) cs
      (s.modGen core n (fun a => { a with data := bs, entry := 0, again := false })).agPush core n g.l.round 1024

/-- A write generator writes the row it has taken (R262, R271). -/
def State.agWrite (s : State) (core n : Nat) (g : Firing) (f : Fields) : State :=
  let a := (s.core core).gen n
  match s.agAccess core a with
  | .bad e va => s.agFail core n g f e va (2 + 256 * n)
  | .stale _ c => s.agPark core n g .capStale (((c.vbase : Int) + a.rowOffset a.next).toNat + a.done) 0 .write
  | .ok i c =>
    let va := c.vbase + (a.rowOffset a.next).toNat + a.done
    let x := s.xlate c.root.toNat a.win i .write va (a.rowb - a.done)
    let s := s.modGen core n (fun a => { a with win := winUse a.win 8 i x })
    match s.putChunks x ((a.data.take a.rowb).drop a.done) core (genCover n) (s.ownTape g) with
    | .ok s => s.modGen core n (fun a => { a with
      data := [], entry := 0, done := 0, next := a.next + 1, moved := a.moved + 1, again := false })
    | .park s k e va dev => (s.modGen core n (fun a => { a with done := a.done + k })).agPark core n g e va dev .write

/-- A write generator takes one entry of its next row, and writes the row with its last one unless an SBAR holds it back (R271, R272, R275,
R291). -/
def State.agTake (s : State) (core n : Nat) (g : Firing) (f : Fields) : State :=
  let a := (s.core core).gen n
  match a.port with
  | none => s
  | some p =>
    match ((s.core core).port p).fifo with
    | [] => s
    | e :: _ =>
      if e.mark && a.entry != 0 then s.agFail core n g f .streamShape a.next 0
      else
        match s.portPop core p with
        | none => s
        | some (_, s) =>
          if e.mark then (s.agEnd core n g f false).emit g f false (Val.marker e.round provData)
          else
            let ne := (a.rowb + 63) / 64
            if e.eor != decide (a.entry + 1 = ne) then s.agFail core n g f .streamShape a.next 0
            else
              let s := s.modGen core n (fun a => { a with data := a.data ++ e.data, entry := a.entry + 1 })
              if e.eor && !(s.core core).barred n s.ids then s.agWrite core n g f else s

/-- A multicast generator may begin its next row: enough permits have been released (R276). -/
def AddrGen.permitted (a : AddrGen) : Bool :=
  a.port.isSome || a.trows = 0 || decide (a.next / a.trows < a.pwin + a.released)

/-- AG_ROW (R271, R276, R291): a running generator takes its next step: the row in progress moves on, a stop takes effect, the run ends, or the
next row begins. One whose context is being saved stops after its current row, as by AGSTOP (R436). -/
def execAgRow (core gen : Nat) (s : State) : Host.Outcome State Fault Refusal :=
  .next (
    let a := (s.core core).gen gen
    match a.run with
    | none => s
    | some g =>
      match s.formOf g with
      | none => s
      | some (_, f) =>
        let held := (s.core core).barred gen s.ids
        if !a.running || a.parked.isSome then s
        else if a.again then (if a.write then s.agWrite core gen g f else s.agRead core gen g f)
        else if !a.write && !a.data.isEmpty then s.agPush core gen g.l.round 1024
        else if a.write && a.entry != 0 then
          if a.entry < (a.rowb + 63) / 64 then s.agTake core gen g f else if held then s else s.agWrite core gen g f
        else if !a.stopReq.isEmpty then s.agEnd core gen g f true
        else if a.write && s.genPending core gen then s
        else if a.total ≤ a.next then
          if bitAt f.qual 0 && !a.write then
            let ts := a.targets core
            if ts.any (fun t => s.portRoom t.1 t.2 = 0) then s
            else (ts.foldl (fun s t => s.portPush t.1 t.2 (markEntry g.l.round)) s).agEnd core gen g f false
          else s.agEnd core gen g f false
        else if (s.ctx g.ctx).saving then s.agEnd core gen g f true
        else if held || !a.permitted || (s.ctx g.ctx).phase ≠ .active then s
        else if a.write then s.agTake core gen g f
        else s.agRead core gen g f)

/-! ## The binding of ports (R274, R288) -/

/-- An SBIND takes effect: the port's binding, and 0 to dest0. -/
def State.bindPort (s : State) (g : Firing) (f : Fields) (p : Nat) (b : Binding) : State :=
  let s := (s.modPort g.core p (fun x => { x with bound := some b, seen := 0, obj := g.obj })).pump g.core p 16
  s.emit g f false (Val.scalar 0 g.l.round provData)

/-- A port reference operand, or PORT_DIR where it names no port (R272). -/
def State.withPort (s : State) (g : Firing) (f : Fields) (k : Nat → State) : State :=
  match portRef g.l.value with
  | none => s.fault g f .portDir 0
  | some p => k p

/-- SBIND.AG (R288). -/
def execSbindAg (f : Fields) (s : State) : Host.Outcome State Fault Refusal :=
  .next (s.operate .scalars f (fun s g _ _ _ => s.withPort g f (fun p =>
    let n := f.imm.toNat % 16
    let a := (s.core g.core).gen n
    if !a.loaded then s.fault g f .agMalformed 0
    else if portIsOut p != a.write then s.fault g f .portDir 0
    else if ((s.core g.core).port p).bound.isSome || a.port.isSome || !a.mcast.isEmpty then s.fault g f .portBusy 0
    else (s.modGen g.core n (fun a => { a with port := some p })).bindPort g f p (.gen n))))

/-- A bridge descriptor (R173): ring, entries of the ring, counts. -/
structure Bridge where
  ring   : Nat
  size   : Nat
  wcnt   : Nat
  rcnt   : Nat
  deriving DecidableEq, Repr

/-- The address of a bridge descriptor. -/
def Ctx.bridgeAddr (c : Ctx) (b : Nat) : Nat := c.bqbase.toNat * 4096 + 64 * b

/-- A bridge descriptor as it stands in memory, none where it is malformed or not VALID (R9, R173). -/
def State.bridge (s : State) (ctx b : Nat) : Option Bridge :=
  match s.ctxRead ctx (s.homeStack ctx) ((s.ctx ctx).bridgeAddr b) 64 with
  | .error _ => none
  | .ok bs =>
    let at_ (o n : Nat) : Nat := leNat ((bs.drop o).take n)
    let log := at_ 8 1
    if at_ 0 8 % 4096 != 0 || log < 12 || 26 < log || at_ 9 1 != 1 || 16 ≤ at_ 10 1 || 16 ≤ at_ 11 1 || at_ 12 4 != 0 ||
        at_ 32 8 != 0 || at_ 40 8 != 0 || at_ 48 8 != 0 || at_ 56 8 != 0 then none
    else some { ring := at_ 0 8, size := 2 ^ (log - 6), wcnt := at_ 16 8, rcnt := at_ 24 8 }

/-- SBIND.BQ (R174, R288): an output port is bound as producer, an input port as consumer. -/
def execSbindBq (f : Fields) (s : State) : Host.Outcome State Fault Refusal :=
  .next (s.operate .scalars f (fun s g _ _ _ => s.withPort g f (fun p =>
    let b := f.imm.toNat % 256
    if ((s.core g.core).port p).bound.isSome then s.fault g f .portBusy 0
    else if (s.bridge g.ctx b).isNone then s.fault g f .operandRange 0
    else if (s.ctx g.ctx).bridges.contains (b, portIsOut p) then s.fault g f .bridgeBusy 0
    else
      (s.modCtx g.ctx (fun c => { c with bridges := c.bridges ++ [(b, portIsOut p)] })).bindPort g f p (.bridge b))))

/-- SBIND.PEER (R288). -/
def execSbindPeer (f : Fields) (s : State) : Host.Outcome State Fault Refusal :=
  .next (s.operate .scalars f (fun s g _ r _ => s.withPort g f (fun p =>
    let w := optVal r
    let q := w / 4096 % 8
    match (s.ctx g.ctx).phys (w % 4096) with
    | none => s.fault g f .regionRange (w % 4096)
    | some c =>
      if !portIsOut p then s.fault g f .portDir 0
      else if coreStack c ≠ coreStack g.core then s.fault g f .bridgeRequired 0
      else if ((s.core g.core).port p).bound.isSome || ((s.core c).port q).bound.isSome then s.fault g f .portBusy 0
      else (s.modPort c q (fun x => { x with bound := some (.peer g.core p), seen := 0, obj := g.obj })).bindPort g f p (.peer c q))))

/-- SBIND.EP (R259, R288). -/
def execSbindEp (f : Fields) (s : State) : Host.Outcome State Fault Refusal :=
  .next (s.operate .scalars f (fun s g _ r _ => s.withPort g f (fun p =>
    let w := optVal r
    let n := f.imm.toNat
    if ((s.core g.core).port p).bound.isSome then s.fault g f .portBusy 0
    else
      match s.epCheck g.ctx (w % 256) (w / 256) (64 * n) (portIsOut p) with
      | .error e => s.fault g f e (w / 256)
      | .ok _ => s.bindPort g f p (.endpoint (w % 256) (w / 256) n g.l.round))))

/-- SBIND.UNBIND (R288). -/
def execSbindUnbind (f : Fields) (s : State) : Host.Outcome State Fault Refusal :=
  .next (s.operate .scalars f (fun s g _ _ _ => s.withPort g f (fun p =>
    if ((s.core g.core).port p).unbind.isSome then s.fault g f .portBusy 0
    else (s.modPort g.core p (fun x => { x with unbind := some g })).settle g.core p)))

/-! ## Bridge queues (R173, R174, R273) -/

/-- An entry of its bytes and sideband; none where reserved bits are set (R9, R272). -/
def Entry.of (bs : List Byte) (w : Nat) : Option Entry :=
  if w < 2048 then some { data := bs, eot := bitOf w 10, eor := bitOf w 9, mark := bitOf w 8, round := BitVec.ofNat 8 w }
  else none

/-- The number by which the writes of a port to its bridge ring propagate (R174, R258). -/
def bridgeCover (port : Nat) : Nat := 2 ^ 41 + port

/-- The first entry of an output port is written into its bridge ring, data and then sideband (R173). -/
def State.bridgeWrite (s : State) (core port ctx : Nat) (q : Bridge) (e : Entry) : Except AccessStop State :=
  match s.ctxWriteFor ctx (q.ring + 64 * (q.wcnt % q.size)) e.data core (bridgeCover port) with
  | .error c => .error c
  | .ok t => t.ctxWriteFor ctx (q.ring + 64 * q.size + 2 * (q.wcnt % q.size)) (natLe 2 e.sideband) core (bridgeCover port)

/-- BRIDGE_PRODUCE (R173, R174, R273): the first entry of an output port bound to a bridge queue is written into the ring, data and then
sideband, and once it is performed at every replica WCNT advances, a release at pkg scope. A full ring or an absent page makes it
wait. An endpoint's port moves an entry. -/
def execBridgeProduce (core port : Nat) (s : State) : Host.Outcome State Fault Refusal :=
  .next (
    let x := (s.core core).port port
    let ctx := (s.core core).ctx.getD 0
    match x.bound, x.fifo with
    | some (.bridge b), e :: _ =>
      match (if portIsOut port then s.bridge ctx b else none) with
      | none => s
      | some q =>
        let wrote (s : State) (w : Bool) : State := s.modPort core port (fun p => { p with wrote := w })
        let advance (s : State) : State :=
          if s.unperformed core (bridgeCover port) then wrote s true
          else
            match s.portPop core port with
            | none => s
            | some (_, t) => (wrote t false).ctxPut ctx ((s.ctx ctx).bridgeAddr b + 16) (natLe 8 (q.wcnt + 1))
        if q.size ≤ q.wcnt - q.rcnt then s
        else if x.wrote then advance s
        else
          match s.bridgeWrite core port ctx q e with
          | .error _ => s
          | .ok t => advance t
    | some (.endpoint _ _ _ _), _ => (s.pump core port 16).settle core port
    | _, _ => s)

/-- BRIDGE_CONSUME (R173, R174, R273): an input port bound to a bridge queue takes the next entry that WCNT covers, and RCNT
advances. A malformed entry is not taken (R9; log 119). -/
def execBridgeConsume (core port : Nat) (s : State) : Host.Outcome State Fault Refusal :=
  .next (
    let x := (s.core core).port port
    let ctx := (s.core core).ctx.getD 0
    match x.bound with
    | some (.bridge b) =>
      match (if portIsOut port then none else s.bridge ctx b) with
      | none => s
      | some q =>
        let i := q.rcnt % q.size
        if q.wcnt = q.rcnt ∨ s.portRoom core port = 0 then s
        else
          match s.ctxRead ctx (coreStack core) (q.ring + 64 * i) 64,
              s.ctxRead ctx (coreStack core) (q.ring + 64 * q.size + 2 * i) 2 with
          | .ok bs, .ok w =>
            match Entry.of bs (leNat w) with
            | some e => (s.portPush core port e).ctxPut ctx ((s.ctx ctx).bridgeAddr b + 24) (natLe 8 (q.rcnt + 1))
            | none => s
          | _, _ => s
    | some (.endpoint _ _ _ _) => s.pump core port 16
    | _ => s)

/-! ## SBAR (R275) -/

/-- The accesses that the engines of a mask have issued and not performed: commands of the split-phase unit, and rows of
generators. -/
def State.issued (s : State) (core mask : Nat) : List Nat :=
  let k := s.core core
  (if bitOf mask 16 then (k.cmds.filter (fun c => decide (c.engine = .split))).map Cmd.id else []) ++
  ((List.range 16).filter (fun i => bitOf mask i && s.genPending core i)).map (s.rowOf core)

/-- SBAR (R275): L is emitted, and the engines released, when every access issued before is performed. -/
def execSbar (f : Fields) (s : State) : Host.Outcome State Fault Refusal :=
  .next (s.operate .any f (fun s g _ _ _ =>
    let mask := f.imm.toNat % 2 ^ 17
    let p := s.accept f { Cmd.start 0 g (.sbar f) .stream with phase := .covered, covers := s.issued g.core mask }
    if p.2.covers.isEmpty then p.1.answer p.2 f (both (p.2.pass g.l)) else p.1))

/-! ## Multicast (R276, R277, R292) -/

/-- The branches that MCAST names in its slots: virtual core id and input port; none where a bit that should be zero is
not (R292). -/
def mcastBranches (vs : List Val) (b : Nat) : Option (List (Nat × Nat)) :=
  let fields := vs.flatMap (fun v => (List.range 4).map (fun i => v.value.toNat / 2 ^ (16 * i) % 2 ^ 16))
  if vs.any (fun v => v.kind != .scalar) || fields.any (fun x => bitOf x 15) || (fields.drop b).any (· != 0) then none
  else some ((fields.take b).map (fun x => (x % 4096, x / 4096)))

/-- MCAST (R276, R292). -/
def execMcast (f : Fields) (s : State) : Host.Outcome State Fault Refusal :=
  .next (s.operate .any f (fun s g _ _ _ =>
    let n := f.imm.toNat % 16
    let b := f.imm.toNat / 16 % 16
    let a := (s.core g.core).gen n
    match s.stickies g f.slot.toNat ((b + 3) / 4) with
    | .error (e, d) => s.fault g f e d
    | .ok vs =>
      match mcastBranches vs b with
      | none => s.fault g f .operandRange 0
      | some bs =>
        let cs := bs.map (fun x => ((s.ctx g.ctx).phys x.1, x.2))
        let ports := cs.filterMap (fun x => x.1.map (fun c => (c, x.2)))
        if cs.any (fun x => x.1.isNone) then s.fault g f .regionRange 0
        else if ports.any (fun x => coreStack x.1 != coreStack g.core) then s.fault g f .bridgeRequired 0
        else if ports.any (fun x => ((s.core x.1).port x.2).bound.isSome) || ports.eraseDups.length != ports.length ||
            a.port.isSome || !a.mcast.isEmpty then s.fault g f .portBusy 0
        else if !a.loaded || a.write || a.trows = 0 then s.fault g f .agMalformed 0
        else
          let s := ports.foldl (fun s x => s.modPort x.1 x.2 (fun p =>
            { p with bound := some (.branch g.core n g), seen := 0, obj := g.obj })) s
          let s := s.modGen g.core n (fun a => { a with mcast := ports, released := 0 })
          s.emit g f false (Val.scalar 0 g.l.round provData)))

/-- The permits that PERMIT emits while the count for T equals b, with the new T and counts (R277); fuel bounds the eight
counts. -/
def permitRun (b : Nat) : Nat → Nat → List Nat → List Nat → Nat × List Nat × List Nat
  | 0, t, cs, out => (t, cs, out)
  | fuel + 1, t, cs, out =>
    if cs.headD 0 = b then permitRun b fuel ((t + 1) % 2 ^ 32) (cs.drop 1 ++ [0]) (out ++ [t]) else (t, cs, out)

/-- A permit token (R33, R277). -/
def permitValue (vcore g b seq : Nat) : U64 :=
  (1 : BitVec 1) ++ (0 : BitVec 7) ++ BitVec.ofNat 4 g ++ BitVec.ofNat 12 vcore ++ BitVec.ofNat 4 b ++ (0 : BitVec 4) ++
    BitVec.ofNat 32 seq

/-- PERMIT (R277). -/
def execPermit (f : Fields) (s : State) : Host.Outcome State Fault Refusal :=
  .next (s.operate .any f (fun s g l _ _ =>
    let n := f.slot.toNat
    let b := f.imm.toNat % 16
    if s.slotBeyond g (n + 1) then s.fault g f .slotRange 0
    else if l.kind != .permit || bitAt l.value 63 then s.fault g f .kind 0
    else
      let w := (slotVal (s.readSlot g n) Val.zero).value.toNat
      let t := w / 2 ^ 32
      let src := l.value.toNat / 2 ^ 40 % 2 ^ 16
      let known := match s.readSlot g (n + 1) with
        | .empty => src
        | x => (slotVal x Val.zero).value.toNat
      let d := (l.value.toNat % 2 ^ 32 + 2 ^ 32 - t) % 2 ^ 32
      if 8 ≤ d ∨ src ≠ known then s.fault g f .permitRange 0
      else
        let cs := ((List.range 8).map (fun i => w / 2 ^ (4 * i) % 16)).modify d (fun c => (c + 1) % 16)
        let r := permitRun b 8 t cs []
        let word := r.1 * 2 ^ 32 + (r.2.1.zipIdx.map (fun p => p.1 * 2 ^ (4 * p.2))).sum
        let s := (s.writeSlot g n (stateSlot (BitVec.ofNat 64 word) l.round provData [])).writeSlot g (n + 1)
          (stateSlot (BitVec.ofNat 64 src) l.round provData [])
        let gi := src / 2 ^ 12
        r.2.2.foldl (fun s q =>
          let v : Val := { Val.scalar (permitValue (src % 2 ^ 12) gi b q) l.round provData with kind := .permit }
          let s := s.emit g f false v
          match (s.ctx g.ctx).phys (src % 2 ^ 12) with
          | some c => s.modGen c gi (fun a => { a with released := q + 1 })
          | none => s) s))

/-! ## Endpoints (R293) -/

/-- The target context of EPBIND and EPDROP, and the endpoint. -/
def epOperand (v : U64) : Nat × Nat := (v.toNat / 256 % 4096, v.toNat % 256)

/-- The descriptor of an endpoint in four slots (R259, R293). -/
def epParse (vs : List Val) : Endpoint :=
  match vs with
  | [lo, k, e, p] =>
    { pointer := p.value.toNat, extent := e.value.toNat, kind := k.value.toNat / 2 ^ 60, w := bitAt k.value 59,
      r := bitAt k.value 58, win := k.value.toNat / 2 ^ 48 % 256, nsid := field k.value 16 32, rid := field k.value 0 16,
      qp := field lo.value 48 16 }
  | _ => Endpoint.reset

/-- The function that owns a context (R473): the virtual function whose FUNCMAP entry names it, or else 0, the physical
function. -/
def State.functionOf (s : State) (ctx : Nat) : Nat :=
  match (List.range 64).find? (fun v =>
    bitAt (Table.look 0 s.mod.funcmap v) 12 && field (Table.look 0 s.mod.funcmap v) 0 12 == BitVec.ofNat 12 ctx) with
  | some v => v + 1
  | none => 0

/-- The checks of EPBIND (R293). -/
def State.epBindable (s : State) (ctx : Nat) (vs : List Val) (e : Endpoint) : Bool :=
  let lo := (vs[0]?.getD Val.zero).value
  let k := (vs[1]?.getD Val.zero).value
  vs.all (fun v => v.kind == .scalar) && field lo 0 48 == 0 && field k 56 2 == 0 &&
  (match e.kind with
   | 1 =>
     let w := s.window e.win
     w.v && w.rid == e.rid && decide (w.base.toNat * 4096 ≤ e.pointer) &&
       decide (e.pointer + e.extent ≤ (w.base.toNat + w.pages.toNat) * 4096) && e.rid == Config.functionRid (s.functionOf ctx)
   | 2 =>
     e.pointer % 4096 == 0 && e.extent % 4096 == 0 && Config.storagePeer e.rid && Config.storageAssigned e.rid e.nsid e.qp
   | 3 => true
   | _ => false)

/-- EPBIND (R293). -/
def execEpbind (f : Fields) (s : State) : Host.Outcome State Fault Refusal :=
  .next (s.operate .scalars f (fun s g l _ _ =>
    if !(s.ctx g.ctx).sup then s.fault g f .privilege 0
    else
      let t := epOperand l.value
      match s.stickies g f.slot.toNat 4 with
      | .error (e, d) => s.fault g f e d
      | .ok vs =>
        let e := epParse vs
        if ((s.ctx t.1).ep t.2).kind ≠ 0 then s.fault g f .epBusy 0
        else if !s.epBindable t.1 vs e then s.fault g f .epRefused 0
        else
          let s := s.modCtx t.1 (fun c => { c with eps := Table.put c.eps t.2 e })
          s.emit g f false (Val.scalar 0 g.l.round provData)))

/-- The endpoint that a transfer of a command goes through. -/
def Cmd.epUsed (c : Cmd) : Option Nat :=
  match c.instr with
  | .fetchEp _ => some (c.fire.l.value.toNat % 256)
  | .putEp _ => some ((theVal c.fire.r).value.toNat % 256)
  | _ => none

/-- A transfer through an endpoint of a context is in flight (R293). -/
def State.epInFlight (s : State) (ctx ep : Nat) : Bool :=
  s.cores.any (fun k => k.2.ctx == some ctx &&
    (k.2.cmds.any (fun c => c.epUsed == some ep) ||
      k.2.ports.any (fun p =>
        match p.2.bound with
        | some (.endpoint e _ left _) => e == ep && left != 0
        | _ => false)))

/-- EPDROP's end, where no transfer is in flight (R293). -/
def State.epDropWork (s : State) (c : Cmd) (f : Fields) : State :=
  let t := epOperand c.fire.l.value
  if s.epInFlight t.1 t.2 then s
  else (s.modCtx t.1 (fun c => { c with eps := Table.del c.eps t.2 })).answer c f [(false, c.scalar 0)]

/-- EPDROP (R293). -/
def execEpdrop (f : Fields) (s : State) : Host.Outcome State Fault Refusal :=
  .next (s.operate .scalars f (fun s g l _ _ =>
    let t := epOperand l.value
    if !(s.ctx g.ctx).sup then s.fault g f .privilege 0
    else if ((s.ctx t.1).ep t.2).kind = 0 then s.fault g f .epUnbound 0
    else
      let p := s.accept f (Cmd.start 0 g (.epdrop f) .stream)
      p.1.epDropWork p.2 f))

end Sys2Proof.Machine
end

