-- ==== Sys2Proof/Machine/Sync.lean ====
section
/-! DEFINITION. Updates, locks, fences and strong stores (R351 to R358, R367 to R371, R378 to R382): targets and owner nodes, with UPDATE_APPLY and LOCK_GRANT for them. -/

namespace Sys2Proof.Machine

/-! ## What an operator names (R372, R379 to R382) -/

/-- The target of an update, a lock request, ACQ or REL, by operand number. -/
def syncTarget (i : Instr) (g : Firing) : Nat × Val :=
  match i with
  | .atom _ | .red _ | .cas _ => (2, theVal g.t)
  | .lockq _ => (1, theVal g.r)
  | _ => (0, g.l)

/-- The byte offset in the target. -/
def syncOffset (i : Instr) (f : Fields) (g : Firing) : Nat :=
  match i with
  | .atom _ | .red _ | .cas _ | .lockq _ => g.l.value.toNat
  | .acq _ =>
    match g.r with
    | some r => r.value.toNat
    | none => f.imm.toNat
  | _ =>
    match g.t with
    | some t => t.value.toNat
    | none => f.imm.toNat

/-- The bytes of the element; a lock request has no width of its own. -/
def syncWidth (i : Instr) (f : Fields) : Nat :=
  match i with
  | .lockq _ => 1
  | _ => tyWidth f.ty / 8

/-- What the operator does to its target (R372). -/
def syncAccess (i : Instr) : Access :=
  match i with
  | .acq _ => .read
  | .rel _ => .write
  | _ => .update

/-- The forms that the portal sends as PCI Express AtomicOps (R369). -/
def pcieForm (i : Instr) (f : Fields) : Bool :=
  let fn := f.fn.toNat
  let t := tyCode f.ty
  match i with
  | .atom _ => (fn == 0 && decide (t ≤ 3)) || (fn == 6 && (decide (t ≤ 3) || t == 8 || t == 9))
  | .red _ => fn == 0 && decide (t ≤ 3)
  | .cas _ => t == 2 || t == 3 || t == 9
  | _ => true

/-- The forms that the portal sends as UALink requests (R369). -/
def ualinkForm (i : Instr) (f : Fields) : Bool :=
  let t := tyCode f.ty
  match i with
  | .atom _ => decide (t ≤ 3) && decide (f.fn.toNat ≤ 6)
  | .red _ => decide (t ≤ 3) && decide (f.fn.toNat ≤ 5)
  | .cas _ => t == 2 || t == 3
  | _ => true

/-- The operator raises REL_ABORT where a covered access is discarded (R358, R379). -/
def relAborts (i : Instr) (f : Fields) : Bool :=
  match i with
  | .rel _ | .lockr _ => true
  | .atom _ | .red _ | .cas _ => bitAt f.qual 0
  | _ => false

/-! ## Targets -/

/-- What the checks of a target say: a fault with its details, a capability whose GEN has moved on, a page that stops the
access, a place that is looked at when the command arrives there, or nothing against it. -/
inductive Reach where
  | bad (c : FaultClass) (d0 d2 : Nat)
  | stale
  | stopped (c : FaultClass) (va dev : Nat)
  | later
  | fine
  deriving DecidableEq, Repr

/-- The place of an element: in a vault, in memory, in a host range or in storage. -/
inductive Spot where
  | vault (core off : Nat)
  | mem (c : Chunk)
  | host (addr : Nat)
  | disk (key : Nat)
  deriving DecidableEq, Repr

/-- A tile is written by the operator (R495). -/
def writesTile (i : Instr) : Bool :=
  match i with
  | .atom _ | .red _ | .cas _ | .rel _ => true
  | _ => false

/-- The checks of a tile target (R51, R372, R495). -/
def State.tileReach (s : State) (g : Firing) (i : Instr) (v : U64) (off n : Nat) : Reach :=
  match s.view g.ctx v false with
  | .error e => .bad e (viewDetail e v) 0
  | .ok x =>
    if x.tile.size * 64 + 64 < off + n then .bad .laneRange 0 0
    else if off % n ≠ 0 then .bad .memAlign 0 (syncAccess i).code
    else
      match (if writesTile i then s.destCheck x else none) with
      | some e => .bad e 0 0
      | none => .fine

/-- A device address lies in the HBM of another package (R247). -/
def State.isPeer (s : State) (dev : Nat) : Bool := bitsAt dev 60 4 == 2 && bitsAt dev 50 10 != bitsAt s.mod.podcfg.toNat 0 10

/-- The bytes at an offset of a kind 3 endpoint lie in the HBM of a pod peer (R369). -/
def State.epPeer (s : State) (ctx : Nat) (e : Endpoint) (off n : Nat) : Bool :=
  match s.xlate (s.ctx ctx).ctxroot.toNat [] 0 .read (e.pointer + off) n with
  | .ok cs | .err cs _ _ _ => cs.any (fun ch => s.isPeer (devAddr ch.leaf ch.log ch.va))

/-- The checks of a target (R255, R259, R369, R372), without translation. arrived says that the command stands at its
owner node: a tile of the firing core's own vault has been looked at before, one of another vault is looked at there. -/
def State.targetReach (s : State) (c : Cmd) (f : Fields) (arrived : Bool) : Reach :=
  let g := c.fire
  let i := c.instr
  let t := syncTarget i g
  let off := syncOffset i f g
  let n := syncWidth i f
  let k := syncAccess i
  match t.2.kind with
  | .tile =>
    match (s.ctx g.ctx).phys (hVcore t.2.value) with
    | none => .bad .regionRange (hVcore t.2.value) 0
    | some core =>
      if core = g.core ∧ arrived then .fine
      else if core ≠ g.core ∧ !arrived then .later
      else s.tileReach g i t.2.value off n
  | .cap =>
    match s.capOf c t.1 t.2.value with
    | .bad e => .bad e 0 0
    | .stale _ _ => .stale
    | .ok _ e =>
      if e.extent < off + n then .bad .capRange (e.vbase + off) k.code
      else if !e.permits k then .bad .capPerm (e.vbase + off) k.code
      else if off % n ≠ 0 then .bad .memAlign (e.vbase + off) k.code
      else .fine
  | _ =>
    if 256 ≤ t.2.value.toNat then .bad .operandRange 0 0
    else
      match s.epCheck g.ctx t.2.value.toNat off n (k != .read) with
      | .error e => .bad e 0 0
      | .ok e =>
        if off % n ≠ 0 then .bad .memAlign 0 k.code
        else if (e.kind = 1 && !pcieForm i f) || (e.kind = 2 && k = .update) || (e.kind = 3 && !ualinkForm i f && s.epPeer g.ctx e off n) then
          .bad .updUnsupported 0 0
        else .fine

/-- The page of an access: its chunk, or where the translation stops. -/
def oneChunk : Xlate → Except (FaultClass × Nat × Nat) Chunk
  | .ok (c :: _) => .ok c
  | .ok [] => .error (.pageAbsent, 0, 0)
  | .err _ va c dev => .error (c, va, dev)

/-- The place of a target that has passed its checks, or the page that stops the access, or UPD_UNSUPPORTED (R369). -/
def State.spotOf (s : State) (c : Cmd) (f : Fields) : Except Reach Spot :=
  let g := c.fire
  let i := c.instr
  let t := syncTarget i g
  let off := syncOffset i f g
  let n := syncWidth i f
  let k := syncAccess i
  let mem (x : Xlate) : Except Reach Spot :=
    match oneChunk x with
    | .error (e, va, dev) => .error (.stopped e va dev)
    | .ok ch =>
      let dev := devAddr ch.leaf ch.log ch.va
      if s.isPeer dev && !ualinkForm i f then
        .error (.bad .updUnsupported 0 0)
      else .ok (.mem ch)
  match t.2.kind with
  | .tile =>
    match s.viewFlight g.ctx t.2.value with
    | none => .error (.bad .regionRange (hVcore t.2.value) 0)
    | some v => .ok (.vault v.core (v.tile.base + off))
  | .cap =>
    let j := (field t.2.value 46 6).toNat
    let e := (s.core g.core).cap j
    mem (s.xlate e.root.toNat (s.core g.core).win j k (e.vbase + off) n)
  | _ =>
    let e := (s.ctx g.ctx).ep (t.2.value.toNat % 256)
    match e.kind with
    | 1 => .ok (.host (e.pointer + off))
    | 2 => .ok (.disk (storageKey e.rid.toNat e.nsid.toNat (e.pointer + off)))
    | _ => mem (s.xlate (s.ctx g.ctx).ctxroot.toNat [] 0 k (e.pointer + off) n)

/-- n bytes at a place; of a replicated page, those of the home replica (R258, R382). -/
def State.spotRead (s : State) (x : Spot) (n : Nat) : List Byte :=
  match x with
  | .vault core off => s.vaultBytes core off n
  | .mem c => s.hbm.readBytes (s.writeKey c) n
  | .host a => s.host.readBytes a n
  | .disk a => s.storage.readBytes a n

/-- A place is within reach of a core over the links between stacks (R25). -/
def State.spotUp (s : State) (core : Nat) (x : Spot) : Bool :=
  match x with
  | .vault c _ => s.wayUp (coreStack core) (coreStack c)
  | .mem c => s.keyUp (coreStack core) (s.writeKey c)
  | .host _ | .disk _ => true

/-- Bytes are written at a place for a command. -/
def State.spotWrite (s : State) (x : Spot) (bs : List Byte) (c : Cmd) : State :=
  match x with
  | .vault core off => s.setVaultBytes core off bs
  | .mem ch => s.writeChunk ch bs c.fire.core c.id (s.ownTape c.fire)
  | .host a => { s with host := s.host.writeBytes a bs }
  | .disk a => { s with storage := s.storage.writeBytes a bs }

/-! ## Acceptance (R357, R358, R372) -/

/-- The opcode makes accesses to tiles, to memory or to an endpoint (R357): copies, loads and stores, publication of a tile,
transaction barriers, updates, ACQ and REL. A COLL writes its view only when its generation is complete, so that what it waits
for at its channel is no access that it has made. -/
def makesAccess (opc : Nat) : Bool :=
  opc == 0x56 || opc == 0x57 || (decide (0x62 ≤ opc) && decide (opc ≤ 0x67)) ||
  (decide (0xB0 ≤ opc) && decide (opc ≤ 0xB4)) || (decide (0xB7 ≤ opc) && decide (opc ≤ 0xB9)) ||
  (opc == 0xBD || opc == 0xBE)

/-- The endpoint that an operator names (R287, R372). -/
def endpointOf (i : Instr) (g : Firing) : Option Nat :=
  let num (v : Val) : Option Nat := if v.kind = .scalar then some (v.value.toNat % 256) else none
  match i with
  | .fetchEp _ => num g.l
  | .putEp _ => g.r.bind num
  | .atom _ | .red _ | .cas _ => g.t.bind num
  | .rel _ => num g.l
  | _ => none


/-- The memory accesses of a command: side, offset and length (R287, R289, R372). -/
def State.accessRuns (s : State) (c : Cmd) (f : Fields) : List (Side × Nat × Nat) :=
  let g := c.fire
  let cap (v : Val) (o n : Nat) : List (Side × Nat × Nat) := [(.cap g.core (field v.value 46 6).toNat, o, n)]
  match c.instr with
  | .ldg _ => cap g.l (scalarOffset f g true) (scalarBytes f)
  | .stg _ => cap g.l (scalarOffset f g false) (scalarBytes f)
  | .atom _ | .red _ | .cas _ | .acq _ | .rel _ | .lockq _ =>
    let t := (syncTarget c.instr g).2
    let o := syncOffset c.instr f g
    match t.kind with
    | .tile => []
    | .cap => cap t o (syncWidth c.instr f)
    | _ => [(.ep g.ctx (t.value.toNat % 256) (coreStack g.core), o, syncWidth c.instr f)]
  | _ =>
    match s.memSide c with
    | none => []
    | some m =>
      let r := theVal g.r
      let into := match c.instr with
        | .fetchGlb _ | .fetchEp _ => if r.kind = .cap then cap r 0 ((s.core g.core).cap (field r.value 46 6).toNat).extent else []
        | _ => []
      (s.copyRuns c f m).map (fun x => (m.side, x.1, x.2)) ++ into

/-- An access to a range of a side has a place within the scope (R357): host memory and storage in sys only; a page that is not mapped
counts as within every scope. -/
def State.sideWithin (s : State) (sc : Scope) (core : Nat) (x : Side × Nat × Nat) : Bool :=
  let at_ (root va : Nat) : Bool :=
    match s.xlate root [] 0 .read va x.2.2 with
    | .ok cs => cs.any (fun ch => s.devWithin sc core (devAddr ch.leaf ch.log ch.va))
    | .err cs _ k dev =>
      cs.any (fun ch => s.devWithin sc core (devAddr ch.leaf ch.log ch.va)) || (if k = .pagePerm then s.devWithin sc core dev else true)
  match x.1 with
  | .cap k i => let e := (s.core k).cap i; at_ e.root.toNat (e.vbase + x.2.1)
  | .ep ctx ep _ =>
    let e := (s.ctx ctx).ep ep
    sc == .sys || (e.kind == 3 && at_ (s.ctx ctx).ctxroot.toNat (e.pointer + x.2.1))

/-- An unfinished command makes an access within the scope of its core (R357). -/
def State.cmdWithin (s : State) (sc : Scope) (core : Nat) (c : Cmd) : Bool :=
  let inTile (v : Val) : Bool :=
    v.kind == .tile &&
    (match (s.ctx c.fire.ctx).phys (hVcore v.value) with
     | some k => sameScope sc core k
     | none => false)
  match c.instr.form with
  | none => false
  | some (opc, _, f) =>
    makesAccess opc && (c.fire.vals.any inTile || (s.accessRuns c f).any (s.sideWithin sc core))

/-- The issued row of a generator has a place within the scope (R357). -/
def State.rowWithin (s : State) (sc : Scope) (core g : Nat) : Bool :=
  let a := (s.core core).gen g
  s.sideWithin sc core (.cap core (field a.cap.value 46 6).toNat, (a.rowOffset a.pendingRow).toNat, a.rowb)

/-- The covered set at dispatch (R357): the accesses within the scope that engines of the core have dispatched and not
performed. -/
def State.coveredSet (s : State) (g : Firing) (sc : Scope) : List Nat :=
  let k := s.core g.core
  (k.cmds.filter (fun c => c.fire.ctx == g.ctx && s.cmdWithin sc g.core c)).map Cmd.id ++
  (k.vecQueue ++ k.vecRun.toList).map Cmd.id ++
  ((k.acc0.queue ++ k.acc1.queue).filter (fun i => !i.tiles.isEmpty)).map MatItem.id ++
  (s.gangs.filter (fun c => c.fire.core == g.core)).map Cmd.id ++
  ((List.range 16).filter (fun i => s.genPending g.core i && s.rowWithin sc g.core i)).map (s.rowOf g.core)

/-- The tiles in the firing core's own vault that a synchronisation command names, for BUSY. -/
def State.localTiles (s : State) (g : Firing) : List (Nat × Nat) :=
  (g.vals.filterMap (fun v =>
    if v.kind = .tile ∧ (s.ctx g.ctx).phys (hVcore v.value) = some g.core then some (g.core, hIndex v.value) else none)).eraseDups

/-- A command enters the synchronisation unit. -/
def State.syncAccept (s : State) (f : Fields) (g : Firing) (i : Instr) (sc : Option Scope) : State × Cmd :=
  let covers := match sc with
    | some x => s.coveredSet g x
    | none => []
  let caps := (g.vals.filter (fun v => v.kind = .cap)).map (fun v => (field v.value 46 6).toNat)
  let p := s.accept f { Cmd.start 0 g i .sync with phase := .covered, covers := covers, caps := caps }
  (p.1.engage p.2 (s.localTiles g) none, p.2)

/-- Sync commands park at the synchronisation unit's port (R434). -/
def syncPort : Nat × Nat := (6, 0)

/-- The address of the access of a command to a capability target. -/
def State.targetAddr (s : State) (g : Firing) (f : Fields) (i : Instr) : Nat :=
  s.capBase g.core (syncTarget i g).2.value + syncOffset i f g

/-- An operator with a target: its checks at dispatch, then its acceptance. A capability whose GEN has moved on parks a RED or
a lock request, and is a precise fault of the others (R358, R382). -/
def State.targetCmd (s : State) (g : Firing) (f : Fields) (i : Instr) (sc : Option Scope) (parks : Bool) : State :=
  match s.targetReach (Cmd.start 0 g i .sync) f false with
  | .bad e d0 d2 => s.raise g f.d0 (g.fault e d0 0 d2) false
  | .stale =>
    if parks then
      let p := s.syncAccept f g i sc
      p.1.park p.2 .capStale (s.targetAddr g f i) 0 (syncAccess i) syncPort
    else s.accessFault g f .capStale (s.targetAddr g f i) (syncAccess i)
  | _ => (s.syncAccept f g i sc).1

/-- The kinds that a target may be. -/
def isTarget (k : Kind) : Bool := k == .tile || k == .cap || k == .scalar

/-- The scope of an update: that of `.REL` (R373). -/
def relScope (f : Fields) : Option Scope := if bitAt f.qual 0 then some f.scope else none

/-- ATOM (R379). -/
def execAtom (f : Fields) (s : State) : Host.Outcome State Fault Refusal :=
  .next (s.operate { Need.scalars with kt := isTarget } f (fun s g l r t =>
    s.targetCmd { g with l := l, r := r, t := t } f (.atom f) (relScope f) false))

/-- RED (R371, R379): the context counts it until it is performed or resolved. -/
def execRed (f : Fields) (s : State) : Host.Outcome State Fault Refusal :=
  .next (s.operate { Need.scalars with kt := isTarget } f (fun s g l r t =>
    let n := s.ids
    let s := s.targetCmd { g with l := l, r := r, t := t } f (.red f) (relScope f) true
    if ((s.core g.core).cmd? n).isSome then s.modCtx g.ctx (fun c => { c with redcnt := c.redcnt + 1 }) else s))

/-- CAS (R379). -/
def execCas (f : Fields) (s : State) : Host.Outcome State Fault Refusal :=
  .next (s.operate { Need.scalars with kt := isTarget } f (fun s g l r t =>
    s.targetCmd { g with l := l, r := r, t := t } f (.cas f) (relScope f) false))

/-- LOCKQ (R370, R380). -/
def execLockq (f : Fields) (s : State) : Host.Outcome State Fault Refusal :=
  .next (s.operate { Need.scalars with kr := isTarget } f (fun s g l r _ =>
    s.targetCmd { g with l := l, r := r } f (.lockq f) none true))

/-- LOCKR (R380): the token travels to its node. -/
def execLockr (f : Fields) (s : State) : Host.Outcome State Fault Refusal :=
  .next (s.operate .scalars f (fun s g l _ _ =>
    if field l.value 32 8 != 0 then s.fault g f .operandRange 0
    else (s.syncAccept f { g with l := l } (.lockr f) (some f.scope)).1))

/-- FENCE (R381). -/
def execFence (f : Fields) (s : State) : Host.Outcome State Fault Refusal :=
  .next (s.operate .any f (fun s g _ _ _ => (s.syncAccept f g (.fence f) (some f.scope)).1))

/-- ACQ (R382). -/
def execAcq (f : Fields) (s : State) : Host.Outcome State Fault Refusal :=
  .next (s.operate { Need.scalars with kl := fun k => k == .tile || k == .cap } f (fun s g l r _ =>
    s.targetCmd { g with l := l, r := r } f (.acq f) none false))

/-- REL (R358, R382). -/
def execRel (f : Fields) (s : State) : Host.Outcome State Fault Refusal :=
  .next (s.operate { Need.scalars with kl := isTarget } f (fun s g l r t =>
    s.targetCmd { g with l := l, r := r, t := t } f (.rel f) (some f.scope) false))

/-! ## Owned ranges (R368, R378) -/

/-- Every leaf of a range is valid, with SPACE 0 and REPL 0; fuel bounds the pages. -/
def State.ownPages (s : State) (root : Nat) : Nat → Nat → Nat → Bool
  | 0, _, n => n == 0
  | fuel + 1, va, n =>
    if n = 0 then true
    else
      match walk s.hbm root va with
      | .ok leaf log _ =>
        bitsAt leaf 60 4 == 0 && !bitOf leaf 6 &&
        s.ownPages root fuel (va + (2 ^ log - va % 2 ^ log)) (n - (2 ^ log - va % 2 ^ log))
      | .err _ => false

/-- The entry of an OWNSET operand, or its fault (R255, R372): SET takes a capability with U, CLR only its range (R378). -/
def State.ownCap (s : State) (g : Firing) (set : Bool) : Except (FaultClass × Nat × Nat) Cap :=
  match s.capOperand g g.l.value with
  | .bad e => .error (e, 0, 0)
  | .stale _ _ => .error (.capStale, 0, 0)
  | .ok _ e => if set && !e.u then .error (.capPerm, e.vbase, 3) else .ok e

/-- OWNSET.SET (R368, R378). -/
def execOwnsetSet (f : Fields) (s : State) : Host.Outcome State Fault Refusal :=
  .next (s.operate { Need.scalars with kl := isCap } f (fun s g l r _ =>
    let v := optVal r
    let own := (s.ctx g.ctx).owned
    match s.ownCap { g with l := l } true with
    | .error (e, d0, d2) => s.raise g f.d0 (g.fault e d0 0 d2) false
    | .ok e =>
      if 4096 ≤ v then s.fault g f .operandRange 0
      else if ((s.ctx g.ctx).phys v).isNone then s.fault g f .regionRange v
      else if !s.ownPages e.root.toNat (e.extent / 2 ^ 21 + 2) e.vbase e.extent then s.fault g f .ownRange 0
      else if own.any (fun o => decide (o.base < e.vbase + e.extent) && decide (e.vbase < o.base + o.extent)) then
        s.fault g f .ownOverlap 0
      else if 8 ≤ own.length then s.fault g f .ownFull 0
      else
        (s.modCtx g.ctx (fun c => { c with
          owned := c.owned ++ [{ base := e.vbase, extent := e.extent, owner := BitVec.ofNat 12 v }] })).emit g f false
          (Val.scalar 0 g.l.round provData)))

/-- OWNSET.CLR (R378). -/
def execOwnsetClr (f : Fields) (s : State) : Host.Outcome State Fault Refusal :=
  .next (s.operate { Need.any with kl := isCap } f (fun s g l _ _ =>
    match s.ownCap { g with l := l } false with
    | .error (e, d0, d2) => s.raise g f.d0 (g.fault e d0 0 d2) false
    | .ok e =>
      let mine (o : OwnRange) : Bool := o.base == e.vbase && o.extent == e.extent
      if !(s.ctx g.ctx).owned.any mine then s.fault g f .ownRange 0
      else
        (s.modCtx g.ctx (fun c => { c with owned := c.owned.filter (fun o => !mine o) })).emit g f false
          (Val.scalar 0 g.l.round provData)))

/-! ## Updates at their owner node (R367, R379) -/

/-- ATOM and RED by FN (R379): old and v are bit patterns of TY. -/
def atomNew (fn : Nat) (t : EType) (rm : Rounding) (sat : Bool) (old v : Nat) : Nat × Flags :=
  let i := decodeInt t old
  let j := decodeInt t v
  match fn with
  | 0 => fitInt t sat (i + j)
  | 1 => (if j < i then v else old, 0)
  | 2 => (if i < j then v else old, 0)
  | 3 => (old &&& v, 0)
  | 4 => (old ||| v, 0)
  | 5 => (old ^^^ v, 0)
  | 6 => (v, 0)
  | 7 => rounded t rm false 0 (numAdd rm (decodeFloat t old) (decodeFloat t v))
  | 8 => floatPick t false old v
  | _ => floatPick t true old v

/-- The low w bits of a value, for a type's width. -/
def lowBits (t : EType) (v : Nat) : Nat := v % 2 ^ tyWidth t

/-- What an update makes of the old element: the new one, the flags, and whether it is written (R379). -/
def updateOf (i : Instr) (f : Fields) (r : Nat) (old : Nat) : Nat × Flags × Bool :=
  match i with
  | .cas _ =>
    if old = lowBits f.ty (r / 2 ^ 32) then (lowBits f.ty r, 0, true) else (old, 0, false)
  | .rel _ => (lowBits f.ty r, 0, true)
  | _ => let x := atomNew f.fn.toNat f.ty f.rm f.sat old (lowBits f.ty r); (x.1, x.2, true)

/-- The tokens of an update (R379, R382): old is the element's old value. -/
def Cmd.updateOut (c : Cmd) (f : Fields) (old : Nat) : List (Bool × Val) :=
  let v := c.scalar (extend f.ty old)
  match c.instr with
  | .atom _ => both v
  | .cas _ =>
    [(false, v), (true, c.scalar (if old = lowBits f.ty ((theVal c.fire.r).value.toNat / 2 ^ 32) then 1 else 0))]
  | .rel _ => [(false, c.scalar 0)]
  | _ => []

/-- The update is performed: its token leaves; a RED is counted off (R371). -/
def State.updateDone (s : State) (c : Cmd) (f : Fields) (old : Nat) : State :=
  match c.instr with
  | .red _ => (s.finish c true).modCtx c.fire.ctx (fun x => { x with redcnt := x.redcnt - 1 })
  | _ => s.answer c f (c.updateOut f old)

/-- A target stops a command: a RED or a lock request parks on a page or a GEN, the others fault (R358, R382). -/
def State.reachFail (s : State) (c : Cmd) (f : Fields) (parks : Bool) (r : Reach) : State :=
  let k := syncAccess c.instr
  let s := match c.instr with
    | .red _ =>
      match r with
      | .bad _ _ _ => s.modCtx c.fire.ctx (fun x => { x with redcnt := x.redcnt - 1 })
      | _ => s
    | _ => s
  match r with
  | .bad e d0 d2 => s.failWith c f e d0 0 d2
  | .stale =>
    let va := s.targetAddr c.fire f c.instr
    if parks then s.park c .capStale va 0 k syncPort else s.failWith c f .capStale va 0 k.code
  | .stopped e va dev => if parks then s.park c e va dev k syncPort else s.failWith c f e va dev k.code
  | _ => s

/-- The access of a command translates through the window of its core, which takes the page (R257). -/
def State.targetUse (s : State) (c : Cmd) (f : Fields) : State :=
  let t := (syncTarget c.instr c.fire).2
  if t.kind = .cap then
    s.sideUse (.cap c.fire.core (field t.value 46 6).toNat) (syncOffset c.instr f c.fire) (syncWidth c.instr f) (syncAccess c.instr)
  else s

/-- The update of an element at its owner node, as one read-modify-write (R367); of a replicated page its command waits until
every replica holds it (R258). A RED first leaves the core, with its token (R379). -/
def State.updateWork (s : State) (c : Cmd) (f : Fields) : State :=
  let parks := match c.instr with
    | .red _ => true
    | _ => false
  match s.targetReach c f true with
  | .fine =>
    let s := s.targetUse c f
    match s.spotOf c f with
    | .error r => s.reachFail c f parks r
    | .ok x =>
      if parks && c.phase == .covered then
        let s := s.modCmd c.fire.core c.id (fun c => { c with phase := .owner })
        if s.quarantined c then s else s.emit c.fire f false (c.scalar 0)
      else if !s.spotUp c.fire.core x then s
      else
        let n := syncWidth c.instr f
        let old := leNat (s.spotRead x n)
        let u := updateOf c.instr f (theVal c.fire.r).value.toNat (lowBits f.ty old)
        let s := (if u.2.2 then s.spotWrite x (natLe n u.1) c else s).setFlags c.fire.ctx u.2.1
        if s.unperformed c.fire.core c.id then
          s.modCmd c.fire.core c.id (fun c => { c with phase := .propagating, data := natLe 8 (lowBits f.ty old) })
        else s.updateDone c f (lowBits f.ty old)
  | r => s.reachFail c f parks r

/-- ACQ reads its element (R382). -/
def State.acqWork (s : State) (c : Cmd) (f : Fields) : State :=
  match s.targetReach c f true with
  | .fine =>
    let s := s.targetUse c f
    match s.spotOf c f with
    | .error r => s.reachFail c f false r
    | .ok x =>
      let half := match x with
        | .mem ch => s.halfSeen none ch
        | _ => false
      if half || !s.spotUp c.fire.core x then s
      else s.answer c f (both (c.scalar (extend f.ty (lowBits f.ty (leNat (s.spotRead x (syncWidth c.instr f)))))))
  | r => s.reachFail c f false r

/-! ## Locks (R370, R380) -/

/-- The owner node of a place (R367, R370): type and number, by physical core for a core's update unit. -/
def State.nodeOf (s : State) (ctx : Nat) (x : Spot) : Nat :=
  match x with
  | .vault core _ => core
  | .mem c =>
    match (s.ctx ctx).owned.find? (fun o => decide (o.base ≤ c.va) && decide (c.va < o.base + o.extent)) with
    | some o => ((s.ctx ctx).phys o.owner.toNat).getD 0
    | none =>
      let a := devAddr c.leaf c.log c.va
      match bitsAt a 60 4 with
      | 0 => 4096 + bitsAt a 36 4
      | 1 => 2 * 4096 + bitsAt a 42 3
      | _ =>
        if bitsAt a 50 10 == bitsAt s.mod.podcfg.toNat 0 10 then 4096 + bitsAt a 36 4 else 3 * 4096
  | .host _ => 3 * 4096
  | .disk _ => 3 * 4096

/-- The entry of a lock bank for an address of a context (R370). -/
def lockEntry (a ctx : Nat) : Nat :=
  bitsAt a 5 8 ^^^ bitsAt a 13 8 ^^^ bitsAt a 21 8 ^^^ bitsAt a 29 8 ^^^ bitsAt a 37 8 ^^^ bitsAt a 45 3 ^^^ ctx % 256

/-- The address A of R370. -/
def State.lockAddr (s : State) (c : Cmd) (f : Fields) (x : Spot) : Nat :=
  match x with
  | .vault _ off => off
  | .mem ch => ch.va
  | .host a => a
  | .disk _ =>
    let t := (syncTarget c.instr c.fire).2
    ((s.ctx c.fire.ctx).ep (t.value.toNat % 256)).pointer + syncOffset c.instr f c.fire

/-- A lock of a node. -/
def State.lock (s : State) (node h : Nat) : Lock := Table.look Lock.reset s.locks (node * 256 + h)
def State.modLock (s : State) (node h : Nat) (k : Lock → Lock) : State :=
  { s with locks := Table.put s.locks (node * 256 + h) (k (s.lock node h)) }

/-- The node id in a lock token (R370): a core's update unit by its virtual id. -/
def State.nodeId (s : State) (node : Nat) : BitVec 16 :=
  if node < 4096 then (0 : BitVec 4) ++ s.vcoreOf node else BitVec.ofNat 16 node

/-- A lock request reaches its node and waits there (R370). -/
def State.lockqWork (s : State) (c : Cmd) (f : Fields) : State :=
  match s.targetReach c f true with
  | .fine =>
    let s := s.targetUse c f
    match s.spotOf c f with
    | .error r => s.reachFail c f true r
    | .ok x =>
      let s := s.modCmd c.fire.core c.id (fun c => { c with phase := .queued })
      s.modLock (s.nodeOf c.fire.ctx x) (lockEntry (s.lockAddr c f x) c.fire.ctx) (fun k =>
        { k with waiters := k.waiters ++ [(c.fire.core, c.id)] })
  | r => s.reachFail c f true r

/-- A command stands in the save area of a context (R436). -/
def State.savedCmd (s : State) (id : Nat) : Bool :=
  s.saved.any (fun e => e.2.cores.any (fun c => (c.2.cmd? id).isSome))

/-- LOCK_GRANT (R370, R380): a free entry goes to its next waiting request; one whose command is gone is passed over. -/
def execLockGrant (node entry : Nat) (s : State) : Host.Outcome State Fault Refusal :=
  .next (
    let k := s.lock node entry
    match k.held, k.waiters with
    | none, (core, id) :: rest =>
      match (s.core core).cmd? id with
      | some c =>
        match c.fields with
        | some f =>
          let v : U64 := s.nodeId node ++ BitVec.ofNat 8 entry ++ (0 : BitVec 8) ++ k.seq
          (s.modLock node entry (fun _ => { seq := k.seq + 1, held := some c.fire.ctx, waiters := rest })).answer c f (both (c.scalar v))
        | none => s
      | none =>
        if s.savedCmd id then s else s.modLock node entry (fun k => { k with waiters := rest })
    | _, _ => s)

/-- The node that a lock token names, where there is one. -/
def State.tokenNode (s : State) (ctx : Nat) (v : U64) : Option Nat :=
  let n := (field v 48 16).toNat
  if n < 4096 then (s.ctx ctx).phys n
  else if n / 4096 = 1 then (if n % 4096 < 16 then some n else none)
  else if n / 4096 = 2 then (if n % 4096 < 8 then some n else none)
  else if n = 3 * 4096 then some n
  else none

/-- LOCKR at its node (R380): LOCK_STATE where the entry is not held under the token's sequence; else it waits for its
covered set, and then releases the entry. -/
def State.lockrWork (s : State) (c : Cmd) (f : Fields) : State :=
  let v := c.fire.l.value
  let h := (field v 40 8).toNat
  match s.tokenNode c.fire.ctx v with
  | none => s.failWith c f .lockState 0 0 0
  | some node =>
    let k := s.lock node h
    if k.held.isNone || k.seq != field v 0 32 + 1 then s.failWith c f .lockState 0 0 0
    else if !s.covered c then s
    else if c.aborted then s.failWith c f .relAbort 0 0 0
    else (s.modLock node h (fun k => { k with held := none })).answer c f [(false, c.scalar 0)]

/-! ## The steps of these commands -/

/-- A command of the unit may act: it is not parked, and no access parked before it holds back its port (R434). -/
def State.syncMay (s : State) (c : Cmd) : Bool :=
  let mem := !c.caps.isEmpty || (endpointOf c.instr c.fire).isSome
  c.parked.isNone && !(mem && (s.core c.fire.core).heldBack syncPort c.id)

/-- A strong store, or an update or store that waits for its covered set first (R357, R358). -/
def State.updateStep (s : State) (c : Cmd) (f : Fields) : State :=
  match c.phase with
  | .propagating =>
    if s.unperformed c.fire.core c.id then s else s.updateDone c f (leNat c.data)
  | _ =>
    if c.phase = .covered ∧ !s.covered c then s
    else if c.aborted && relAborts c.instr f then s.reachFail c f false (.bad .relAbort 0 0)
    else s.updateWork c f

/-- What UPDATE_APPLY does for an update, a strong store or a lock request. -/
def State.nodeStep (s : State) (c : Cmd) (f : Fields) : State :=
  if !s.syncMay c then s
  else
    match c.instr with
    | .atom _ | .red _ | .cas _ | .rel _ => s.updateStep c f
    | .lockq _ => if c.phase = .queued then s else s.lockqWork c f
    | .lockr _ => s.lockrWork c f
    | _ => s

/-- FENCE and ACQ take effect (R381, R382). -/
def State.fenceStep (s : State) (c : Cmd) (f : Fields) : State :=
  if !s.syncMay c then s
  else
    match c.instr with
    | .fence _ => if s.covered c then s.answer c f (both (c.pass c.fire.l)) else s
    | .acq _ => s.acqWork c f
    | _ => s

end Sys2Proof.Machine
end

