-- ==== Sys2Proof/Machine/VecMath.lean ====
section
/-! DEFINITION. What the vector operators compute, element by element and row by row (R302 to R316). -/

namespace Sys2Proof.Machine

/-! ## Elements -/

/-- An exact integer brought to TY: wrapped or saturated for an integer type, rounded for a floating-point one. -/
def fitTo (t : EType) (rm : Rounding) (sat : Bool) (rnd : U32) (v : Int) : Nat × Flags :=
  if tyFloat t then rounded t rm sat rnd ((Num.ofInt v).exact, 0) else fitInt t sat v

/-- An element read as a number where its type is a floating-point one. -/
def elemNum (t : EType) (a : Nat) : Num := if tyFloat t then decodeFloat t a else .fin false 0 0

/-- The functions of one element by opcode (R304): VABS, VNEG and the functions of R96. -/
def vecUnary (opc : Nat) (t : EType) (rm : Rounding) (sat : Bool) (rnd : U32) (a : Nat) : Nat × Flags :=
  let x := elemNum t a
  let flt (r : Exact × Flags) : Nat × Flags := rounded t rm sat rnd r
  match opc with
  | 0x87 =>
    if tyFloat t then (if a / signBit t true % 2 = 1 then a - signBit t true else a, 0)
    else fitInt t sat ((decodeInt t a).natAbs : Int)
  | 0x88 => if tyFloat t then (a ^^^ signBit t true, 0) else fitInt t sat (-(decodeInt t a))
  | 0x89 => flt (numExp2 x)
  | 0x8A => flt (numLog2 x)
  | 0x8B => flt (numRcp x)
  | 0x8C => flt (numRsq x)
  | 0x8D => flt (numSqrt x)
  | 0x8E => flt (numTanh x)
  | _ => flt (numSigm x)

/-- The w bits all ones where a condition holds (R305). -/
def maskBits (t : EType) (b : Bool) : Nat := if b then 2 ^ tyWidth t - 1 else 0

/-- The functions of two elements by opcode (R304, R305): a of the tile, b of the value operand; fn is the instruction's FN. -/
def vecBinary (opc fn : Nat) (t : EType) (rm : Rounding) (sat : Bool) (rnd : U32) (a b : Nat) : Nat × Flags :=
  let x := elemNum t a
  let y := elemNum t b
  let i := decodeInt t a
  let j := decodeInt t b
  let w := tyWidth t
  match opc with
  | 0x80 => if tyFloat t then rounded t rm sat rnd (numAdd rm x y) else fitInt t sat (i + j)
  | 0x81 => if tyFloat t then rounded t rm sat rnd (numSub rm x y) else fitInt t sat (i - j)
  | 0x82 => if tyFloat t then rounded t rm sat rnd (numMul x y) else fitInt t sat (i * j)
  | 0x84 => rounded t rm sat rnd (numDiv x y)
  | 0x85 => if tyFloat t then floatPick t false a b else (if j < i then b else a, 0)
  | 0x86 => if tyFloat t then floatPick t true a b else (if i < j then b else a, 0)
  | 0x93 =>
    if tyFloat t then (let r := floatTest fn x y; (maskBits t r.1, r.2)) else (maskBits t (intTest fn t a b), 0)
  | 0x9D =>
    (match fn with
     | 0 => a &&& b
     | 1 => a ||| b
     | 2 => a ^^^ b
     | _ => a &&& (b ^^^ (2 ^ w - 1)), 0)
  | _ => (shiftBits fn w a (b % 2 ^ min 8 w), 0)

/-- The opcode whose function a VRBC applies, by FN (R310). -/
def rbcOp (fn : Nat) : Nat :=
  match fn with
  | 0 => 0x80 | 1 => 0x81 | 2 => 0x82 | 3 => 0x84 | 4 => 0x85 | _ => 0x86

/-- VFMA (R304): b × c + a. -/
def vecFma (t : EType) (rm : Rounding) (sat : Bool) (rnd : U32) (a b c : Nat) : Nat × Flags :=
  rounded t rm sat rnd (numFma rm (decodeFloat t b) (decodeFloat t c) (decodeFloat t a))

/-! ## Sums (R312, R316) -/

/-- A sum as it grows: NaNs and infinities met, the flags of signalling operands, the exact value of the finite ones in units of
2^-u, and which zeros it holds: 0 nothing yet, 1 only +0, 2 only −0, 3 anything else. -/
structure Total where
  nan   : Bool
  pos   : Bool
  neg   : Bool
  sig   : Flags
  v     : Int
  u     : Nat
  zeros : Nat
  deriving DecidableEq, Repr

def Total.start : Total := { nan := false, pos := false, neg := false, sig := 0, v := 0, u := 0, zeros := 0 }

/-- One more operand. -/
def Total.add (t : Total) (x : Num) : Total :=
  let t := { t with sig := t.sig ||| x.signals }
  match x with
  | .nan _ => { t with nan := true }
  | .inf a => if a then { t with neg := true } else { t with pos := true }
  | .fin a n u =>
    let w := max t.u u
    let z := if n ≠ 0 then 3 else if a then 2 else 1
    { t with
      v := t.v * 2 ^ (w - t.u) + signedAt a n u w, u := w,
      zeros := if t.zeros = 0 ∨ t.zeros = z then z else 3 }

/-- The sum as a value to be rounded (R86, R97, R312): infinities of both signs set NV, a NaN among the operands or not. -/
def Total.result (t : Total) (rm : Rounding) : Exact × Flags :=
  if t.pos && t.neg then (.nan, t.sig ||| flagNV)
  else if t.nan then (.nan, t.sig)
  else if t.pos || t.neg then (.inf t.neg, t.sig)
  else (exactSum t.v t.u (if t.zeros = 1 then false else if t.zeros = 2 then true else decide (rm = .rdn)), t.sig)

/-- A floating-point sum of encodings of a type, rounded. -/
def floatSum (src t : EType) (rm : Rounding) (sat : Bool) (rnd : U32) (xs : List Nat) : Nat × Flags :=
  rounded t rm sat rnd ((xs.foldl (fun (a : Total) x => a.add (decodeFloat src x)) Total.start).result rm)

/-- An integer sum, wrapped or saturated. -/
def intSum (t : EType) (sat : Bool) (xs : List Nat) : Nat × Flags := fitInt t sat (xs.map (decodeInt t)).sum

/-- The sum of a row (R312, R316). -/
def rowSum (src t : EType) (rm : Rounding) (sat : Bool) (rnd : U32) (xs : List Nat) : Nat × Flags :=
  if tyFloat t then floatSum src t rm sat rnd xs else intSum t sat xs

/-- The greatest element of a row (R316): floating-point elements are widened exactly and compared under R95, so that a lone NaN is
canonical too (R87). -/
def rowMax (src t : EType) (xs : List Nat) : Nat × Flags :=
  let more (a b : Nat × Flags) : Nat × Flags :=
    let r := vecBinary 0x86 0 t .rne false 0 a.1 b.1
    (r.1, a.2 ||| b.2 ||| r.2)
  match xs.map (fun x => if src = t then (x, (0 : Flags)) else convertTy src t .rne false 0 x) with
  | [] => (0, 0)
  | y :: rest => rest.foldl more (more y y)

/-- The cumulative sums of a row (R312), one draw for each element. -/
def cumSums (t : EType) (rm : Rounding) (sat : Bool) (rnds : List U32) (xs : List Nat) : List (Nat × Flags) :=
  if tyFloat t then
    let acc := xs.foldl (fun (a : Total × List Total) x =>
      let n := a.1.add (decodeFloat t x)
      (n, a.2 ++ [n])) (Total.start, [])
    acc.2.zipIdx.map (fun (p : Total × Nat) => rounded t rm sat (rnds[p.2]?.getD 0) (p.1.result rm))
  else
    let acc := xs.foldl (fun (a : Int × List Int) x =>
      let n := a.1 + decodeInt t x
      (n, a.2 ++ [n])) (0, [])
    acc.2.map (fitInt t sat)

/-! ## Microscaling (R308, R309) -/

/-- EMAX of an MX type (R308). -/
def mxEmax (t : EType) : Int :=
  match t with
  | .e4m3 => 8
  | .e5m2 => 15
  | _ => 2

/-- The elements of a view that share the block of element (i, j) (R88, R245). -/
def View.block (v : View) (i j : Nat) : List (Nat × Nat) :=
  if v.tile.colLines then
    ((List.range v.n).filter (fun r => (v.row0 + r) / 32 == (v.row0 + i) / 32)).map (fun r => (r, j))
  else ((List.range v.tile.cols).filter (fun c => c / 32 == j / 32)).map (fun c => (i, c))

/-- The floor of log2 of a magnitude n / 2^u. -/
def floorLog2 (n u : Nat) : Int := (Nat.log2 n : Int) - (u : Int)

/-- The scale of a block of numbers (R308): 0xFF where it holds a NaN or an infinity. -/
def blockScale (t : EType) (xs : List Num) : Nat :=
  if xs.any (fun x =>
      match x with
      | .fin _ _ _ => false
      | _ => true) then 0xFF
  else
    let logs := xs.filterMap (fun (x : Num) =>
      match x with
      | .fin _ n u => if n = 0 then none else some (floorLog2 n u)
      | _ => none)
    match logs with
    | [] => 0
    | e :: rest => (min 254 (max 0 (rest.foldl max e - mxEmax t + 127))).toNat

/-- A number multiplied by a power of two. -/
def Num.scale (x : Num) (k : Int) : Num :=
  match x with
  | .fin a n u => if 0 ≤ k then .fin a (n * 2 ^ k.toNat) u else .fin a n (u + (-k).toNat)
  | y => y

/-- An element quantised with its block's scale (R308). -/
def quantElem (src t : EType) (rm : Rounding) (rnd : U32) (scale a : Nat) : Nat × Flags :=
  if scale = 0xFF then (0, flagNV ||| (decodeFloat src a).signals)
  else rounded t rm true rnd (((decodeFloat src a).scale (127 - (scale : Int))).exact, 0)

/-- An element read with its block's scale (R88, R309). -/
def dequantElem (src t : EType) (rm : Rounding) (sat : Bool) (rnd : U32) (scale a : Nat) : Nat × Flags :=
  if scale = 0xFF then (fmtNan t, 0)
  else
    let x := decodeFloat src a
    rounded t rm sat rnd ((x.scale ((scale : Int) - 127)).exact, x.signals)

/-! ## Rows -/

/-- A row with its flags joined. -/
def joinRow (l : List (Nat × Flags)) : List Nat × Flags :=
  (l.map Prod.fst, l.foldl (fun (a : Flags) x => a ||| x.2) 0)

/-- The draw for an element of a row, 0 where none is taken. -/
def drawAt (rnds : List U32) (j : Nat) : U32 := rnds[j]?.getD 0

/-- VCOMP of a row (R315): the selected elements, then zeros; and their number. -/
def compactRow (xs ms : List Nat) : List Nat × Nat :=
  let sel := ((xs.zip ms).filter (fun p => p.2 != 0)).map Prod.fst
  (sel ++ List.replicate (xs.length - sel.length) 0, sel.length)

end Sys2Proof.Machine
end

