-- ==== Sys2Proof/Machine/Barrier.lean ====
section
/-! DEFINITION. Transaction barriers (R359 to R363, R374 to R376), scoped barriers and collectives (R364 to R366, R377, R383), and the events that end split-phase and synchronisation commands. -/

namespace Sys2Proof.Machine

/-! ## The barrier row (R359) -/

/-- A transaction barrier by its fields. -/
structure TxBar where
  phase  : Nat
  parr   : Nat
  psec   : Int
  arst   : Nat
  act    : Bool
  ovr    : Bool
  strict : Bool
  owner  : Nat
  wq     : Nat
  deriving DecidableEq, Repr

def TxBar.ofNat (x : Nat) : TxBar :=
  { phase := bitsAt x 124 4, parr := bitsAt x 104 20, psec := (BitVec.ofNat 32 (bitsAt x 72 32)).toInt,
    arst := bitsAt x 52 20, act := bitOf x 47, ovr := bitOf x 45, strict := bitOf x 44, owner := bitsAt x 32 12,
    wq := bitsAt x 16 16 }

def TxBar.toNat (b : TxBar) : Nat :=
  b.phase % 16 * 2 ^ 124 + b.parr % 2 ^ 20 * 2 ^ 104 + (BitVec.ofInt 32 b.psec).toNat * 2 ^ 72 + b.arst % 2 ^ 20 * 2 ^ 52 +
  (if b.act then 2 ^ 47 else 0) + (if b.ovr then 2 ^ 45 else 0) + (if b.strict then 2 ^ 44 else 0) +
  b.owner % 4096 * 2 ^ 32 + b.wq % 2 ^ 16 * 2 ^ 16

/-- The barrier at a vault offset. -/
def State.txBar (s : State) (core off : Nat) : TxBar := TxBar.ofNat (s.vault.readNat (vaultKey core off) 16)
def State.setTxBar (s : State) (core off : Nat) (b : TxBar) : State := s.setVaultBytes core off (natLe 16 b.toNat)

/-- A barrier operand: R51, then R359. The handle itself has NROWS 1 (DEDUCED: R318 uses the field's name in the same way,
R383 says `one row`). -/
def State.barrierOf (s : State) (g : Firing) : Except FaultClass View :=
  match s.view g.ctx g.l.value false with
  | .error e => .error e
  | .ok v =>
    if v.tile.etype ≠ .n64 ∨ v.tile.cols ≠ 2 ∨ v.tile.layout ≠ 0 ∨ v.tile.pitch ≠ 16 ∨ hNrows g.l.value ≠ 1
    then .error .tbShape
    else .ok v

/-- The vault offset of a barrier. -/
def View.barAt (v : View) : Nat := v.tile.base + 16 * v.row0

/-! ## Acceptance -/

/-- A barrier command (R372): a barrier in the firing core's own vault is looked at now, another one at its owner. aux keeps
its scalar. -/
def State.barrierCmd (s : State) (g : Firing) (f : Fields) (i : Instr) (sc : Option Scope) (x : Nat) : State :=
  match (s.ctx g.ctx).phys (hVcore g.l.value) with
  | none => s.fault g f .regionRange (hVcore g.l.value)
  | some core =>
    let bad := if core = g.core then
        match s.barrierOf g with
        | .error e => some e
        | .ok _ => none
      else none
    match bad with
    | some e => s.fault g f e 0
    | none =>
      let p := s.syncAccept f g i sc
      p.1.modCmd g.core p.2.id (fun c => { c with aux := x })

/-- TBINIT (R374). -/
def execTbinit (f : Fields) (s : State) : Host.Outcome State Fault Refusal :=
  .next (s.operate { Need.scalars with kl := isTile } f (fun s g l r _ =>
    let x := optVal r
    if 2 ^ 21 ≤ x ∨ x % 2 ^ 20 = 0 then s.fault g f .operandRange 0
    else s.barrierCmd { g with l := l, r := r } f (.tbinit f) none x))

/-- The scalar of TBEXP or TBWAIT: R, or IMM for AR 00. -/
def barScalar (f : Fields) (r : Option Val) : Nat :=
  match r with
  | some v => v.value.toNat
  | none => f.imm.toNat

/-- TBEXP (R374). -/
def execTbexp (f : Fields) (s : State) : Host.Outcome State Fault Refusal :=
  .next (s.operate { Need.scalars with kl := isTile } f (fun s g l r _ =>
    let x := barScalar f r
    if x = 0 ∨ 2 ^ 31 ≤ x then s.fault g f .operandRange 0
    else s.barrierCmd { g with l := l, r := r } f (.tbexp f) none x))

/-- The bytes of a view. -/
def View.bytes (v : View) : Nat := v.n * lineBytes v.tile.etype v.tile.cols

/-- The sectors that TBARR counts (R375): a scalar, or the sectors of a view. -/
def State.sectors (s : State) (g : Firing) (r : Val) : Except (FaultClass × Nat) Nat :=
  if r.kind = .tile then
    match s.view g.ctx r.value false with
    | .error e => .error (e, viewDetail e r.value)
    | .ok v => .ok ((v.bytes + 31) / 32)
  else if r.value.toNat = 0 ∨ 2 ^ 31 ≤ r.value.toNat then .error (.operandRange, 0)
  else .ok r.value.toNat

/-- A TBARR with sectors (R375). -/
def State.tbarrTx (s : State) (f : Fields) (i : Instr) : State :=
  s.operate { Need.any with kl := isTile, kr := fun k => k == .scalar || k == .tile } f (fun s g l r _ =>
    let g := { g with l := l, r := r }
    match s.sectors g (theVal r) with
    | .error (e, d) => s.fault g f e d
    | .ok n => s.barrierCmd g f i (some f.scope) n)

/-- TBARR.ARR (R375). -/
def execTbarrArr (f : Fields) (s : State) : Host.Outcome State Fault Refusal :=
  .next (s.operate .tile f (fun s g l _ _ => s.barrierCmd { g with l := l } f (.tbarrArr f) (some f.scope) 0))

/-- TBARR.TX (R375). -/
def execTbarrTx (f : Fields) (s : State) : Host.Outcome State Fault Refusal := .next (s.tbarrTx f (.tbarrTx f))

/-- TBARR.ARRTX (R375). -/
def execTbarrArrtx (f : Fields) (s : State) : Host.Outcome State Fault Refusal := .next (s.tbarrTx f (.tbarrArrtx f))

/-- TBWAIT (R376). -/
def execTbwait (f : Fields) (s : State) : Host.Outcome State Fault Refusal :=
  .next (s.operate { Need.scalars with kl := isTile } f (fun s g l r _ =>
    let x := barScalar f r
    if 16 ≤ x then s.fault g f .operandRange 0 else s.barrierCmd { g with l := l, r := r } f (.tbwait f) none x))

/-- TBINV (R376). -/
def execTbinv (f : Fields) (s : State) : Host.Outcome State Fault Refusal :=
  .next (s.operate .tile f (fun s g l _ _ => s.barrierCmd { g with l := l } f (.tbinv f) none 0))

/-! ## Updates of a barrier at its owner (R360 to R362, R374 to R376) -/

/-- A phase completes (R361, R363): its waiters are to be released. -/
def State.phaseDone (s : State) (core off : Nat) (b : TxBar) : State :=
  if b.parr = 0 ∧ b.psec ≤ 0 then
    let s := s.setTxBar core off { b with phase := (b.phase + 1) % 16, parr := b.arst, wq := 0xFFFF }
    s.modCore core (fun k => { k with
      waiters := k.waiters.map (fun w => if w.bar = off ∧ w.phase.toNat = b.phase then { w with released := true } else w) })
  else s.setTxBar core off b

/-- TX of n sectors (R362): the barrier, and the surplus that a strict one reports, or the PSEC that an overrun leaves. -/
def TxBar.tx (b : TxBar) (n : Nat) : TxBar × Option Int × Bool :=
  if b.strict then
    if b.psec < n then ({ b with psec := 0 }, some (n - max b.psec 0), false) else ({ b with psec := b.psec - n }, none, false)
  else
    let p := b.psec - n
    if p < 0 then ({ b with psec := p, ovr := true }, none, true) else ({ b with psec := p }, none, false)

/-- A signed number as a 64-bit detail of a record. -/
def signedDetail (x : Int) : Nat := (BitVec.ofInt 64 x).toNat

/-- TBARR at the owner (R375). -/
def State.tbarrWork (s : State) (c : Cmd) (f : Fields) (core off : Nat) (b : TxBar) (arrives : Bool) (sectors : Option Nat) :
    State :=
  if arrives && b.parr == 0 then s.failWith c f .tbArrival c.fire.l.value.toNat 0 0
  else
    let b := if arrives then { b with parr := b.parr - 1 } else b
    let x := match sectors with
      | some n => b.tx n
      | none => (b, none, false)
    let t := x.1
    let s := if x.2.2 then
        s.faultLogged (c.fire.fault .tbOverrun off (signedDetail t.psec) 0)
      else s
    let s := s.phaseDone core off t
    match x.2.1 with
    | some d => s.failWith c f .tbOverrun off (signedDetail d) 0
    | none =>
      s.answer c f [(false, c.scalar (BitVec.ofNat 64 b.phase)),
        (true, c.pass (if sectors.isSome then theVal c.fire.r else c.fire.l))]

/-- TBWAIT at the owner (R363, R376): released at once, a waiter of the pool, or sent back where the pool is full. WQ of the
first waiter is a value of the device's own (log 3). -/
def State.tbwaitWork (s : State) (c : Cmd) (f : Fields) (core off : Nat) (b : TxBar) : State :=
  if b.phase ≠ c.aux then s.answer c f (both (c.pass c.fire.l))
  else if 1024 ≤ (s.core core).waiters.length then s.modCmd c.fire.core c.id (fun c => { c with phase := .queued })
  else
    let first := (s.core core).waiters.all (fun w => w.bar != off || w.released)
    let s := if first then (s.setTxBar core off { b with wq := s.choice 1024 }).spend else s
    let w : Waiter := {
      bar := off, phase := BitVec.ofNat 4 b.phase, released := false, d0 := f.d0, d1 := f.d1, fire := c.fire }
    (s.finish c true).modCore core (fun k => { k with waiters := k.waiters ++ [w] })

/-- A barrier command is applied at the owner (R360). -/
def State.barrierWork (s : State) (c : Cmd) (f : Fields) (v : View) : State :=
  let core := v.core
  let off := v.barAt
  let b := s.txBar core off
  let active := v.tile.bars.contains off
  match c.instr with
  | .tbinit _ =>
    if active then s.failWith c f .tbActive 0 0 0
    else
      let arst := c.aux % 2 ^ 20
      let s := s.setTxBar core off {
        phase := 0, parr := arst, psec := 0, arst := arst, act := true, ovr := false, strict := bitOf c.aux 20,
        owner := (s.vcoreOf core).toNat, wq := 0xFFFF }
      (s.modTile core v.index (fun t => { t with bars := t.bars ++ [off] })).answer c f (both (c.pass c.fire.l))
  | .tbexp _ =>
    if !active then s.failWith c f .tbInactive 0 0 0
    else if 2 ^ 31 ≤ b.psec + (c.aux : Int) then s.failWith c f .tbRange 0 0 0
    else
      (s.setTxBar core off { b with psec := b.psec + (c.aux : Int) }).answer c f
        [(false, c.scalar (BitVec.ofNat 64 b.phase)), (true, c.pass c.fire.l)]
  | .tbwait _ => if !active then s.failWith c f .tbInactive 0 0 0 else s.tbwaitWork c f core off b
  | .tbinv _ =>
    if !active then s.failWith c f .tbInactive 0 0 0
    else (s.tbInvalidate core v.index off).answer c f (both (c.pass c.fire.l))
  | i =>
    if !active then s.failWith c f .tbInactive c.fire.l.value.toNat 0 0
    else
      match i with
      | .tbarrArr _ => s.tbarrWork c f core off b true none
      | .tbarrTx _ => s.tbarrWork c f core off b false (some c.aux)
      | .tbarrArrtx _ => s.tbarrWork c f core off b true (some c.aux)
      | _ => s

/-- A barrier command. -/
def isBarrier : Instr → Bool
  | .tbinit _ | .tbexp _ | .tbarrArr _ | .tbarrTx _ | .tbarrArrtx _ | .tbwait _ | .tbinv _ => true
  | _ => false

/-- A barrier command takes effect once its covered set is performed (R357). -/
def State.barrierStep (s : State) (c : Cmd) (f : Fields) : State :=
  if !s.covered c then s
  else
    match (s.ctx c.fire.ctx).phys (hVcore c.fire.l.value) with
    | none => s
    | some core =>
      if core = c.fire.core then
        match s.viewFlight c.fire.ctx c.fire.l.value with
        | some v => s.barrierWork c f v
        | none => s
      else
        match s.barrierOf c.fire with
        | .ok v => s.barrierWork c f v
        | .error e => s.failWith c f e 0 0 0

/-- UPDATE_APPLY (R360, R367): an owner applies one update, write or request. -/
def execUpdateApply (core cmd : Nat) (s : State) : Host.Outcome State Fault Refusal :=
  .next (
    match (s.core core).cmd? cmd with
    | none => s
    | some c =>
      match c.fields with
      | none => s
      | some f =>
        if isBarrier c.instr then (if c.phase = .queued then s else s.barrierStep c f) else s.nodeStep c f)

/-- TBWAIT_RETRY (R363): a TBWAIT that found the pool full is tried again. -/
def execTbwaitRetry (core cmd : Nat) (s : State) : Host.Outcome State Fault Refusal :=
  .next (
    match (s.core core).cmd? cmd with
    | none => s
    | some c =>
      match c.instr with
      | .tbwait f => if c.phase = .queued then s.barrierStep c f else s
      | _ => s)

/-- The first released waiter of a pool, and the others. -/
def takeReleased : List Waiter → Option (Waiter × List Waiter)
  | [] => none
  | w :: t => if w.released then some (w, t) else (takeReleased t).map (fun x => (x.1, w :: x.2))

/-- TB_WAITER_RELEASE (R363): the owner releases one waiter. -/
def execTbWaiterRelease (core : Nat) (s : State) : Host.Outcome State Fault Refusal :=
  .next (
    match takeReleased (s.core core).waiters with
    | none => s
    | some (w, rest) =>
      let s := s.modCore core (fun k => { k with waiters := rest })
      if (s.core w.fire.core).quar.contains w.fire.obj then s
      else
        s.emitBoth w.fire (Fields.ofDests w.d0 w.d1)
          { w.fire.l with prov := provData, lin := Lineage.none })

/-! ## BAR and COLL (R364 to R366, R377, R383) -/

/-- The channel of IMM. -/
def chanOf (f : Fields) : Nat := f.imm.toNat % 16
/-- N of IMM. -/
def arrivalsOf (f : Fields) : Nat := f.imm.toNat / 16 % 2 ^ 20

/-- The group of a pod or sys channel of a context (R478). -/
def State.groupOf (s : State) (ctx : Nat) (sys coll : Bool) (chan : Nat) : Option Nat :=
  (s.mod.groups.find? (fun e =>
    e.2.valid && e.2.ctx == ctx && e.2.sys == sys && e.2.coll == coll && e.2.chan == chan)).map (fun e => e.2.gid.toNat)

/-- The scope instance of an arrival (R364): the scope and a number in it, with the context where a group does not stand for
it; none for a pod or sys channel without a group. -/
def State.instanceOf (s : State) (c : Cmd) (f : Fields) (coll : Bool) : Option (Nat × Nat) :=
  let core := c.fire.core
  let here (k n : Nat) : Option (Nat × Nat) := some (k * 2 ^ 40 + n, c.fire.ctx)
  match f.scope with
  | .core => here 0 core
  | .quad => here 1 (quadOf core)
  | .stack => here 2 (coreStack core)
  | .pkg => here 3 0
  | .pod => (s.groupOf c.fire.ctx false coll (chanOf f)).map (fun g => (4 * 2 ^ 40 + g, 0))
  | .sys => (s.groupOf c.fire.ctx true coll (chanOf f)).map (fun g => (5 * 2 ^ 40 + g, 0))

/-- An arrival at a channel (R364), with its number N and its record: none for a mismatch; else the state, with the generation where it is
complete. -/
def State.joinChan (s : State) (inst ctx : Nat) (coll : Bool) (chan n sig : Nat) (me : Nat × Nat × Nat × List Byte) :
    Option (State × Option ScopeChan) :=
  let key (x : ScopeChan) : Bool := x.inst == inst && x.ctx == ctx && x.coll == coll && x.chan == chan
  let old := (s.chans.find? key).getD {
    inst := inst, ctx := ctx, coll := coll, chan := chan, n := n, sig := sig, arrivals := [] }
  if old.n ≠ n ∨ old.sig ≠ sig ∨ (coll && old.arrivals.any (fun a => a.2.2.1 == me.2.2.1)) then none
  else
    let x := { old with arrivals := old.arrivals ++ [me] }
    let rest := s.chans.filter (fun y => !key y)
    if x.arrivals.length = n then some ({ s with chans := rest }, some x)
    else some ({ s with chans := rest ++ [x] }, none)

/-- The arrival of a command at the channel of its scope instance (R364). -/
def State.arriveAt (s : State) (c : Cmd) (f : Fields) (coll : Bool) (sig rank : Nat) (bs : List Byte) :
    Option (State × Option ScopeChan) :=
  match s.instanceOf c f coll with
  | none => none
  | some (inst, ctx) => s.joinChan inst ctx coll (chanOf f) (arrivalsOf f) sig (c.fire.core, c.id, rank, bs)

/-- Other packages take part in the group of a pod or sys channel (R364, R478), over a link whose gate is open (R477, R491). -/
def State.farMembers (s : State) (c : Cmd) (f : Fields) (coll : Bool) : Bool :=
  let sys := f.scope == .sys
  (f.scope == .pod || sys) && bitAt s.mod.gates (if sys then 10 else 8) &&
  s.mod.groups.any (fun e =>
    e.2.valid && e.2.ctx == c.fire.ctx && e.2.sys == sys && e.2.coll == coll && e.2.chan == chanOf f && decide (1 < e.2.n.toNat))

/-- The arrival of another package in the generation in which a command waits (R364): its rank and its row are free (log 87). It stands as
an arrival of no core of this module. -/
def State.farArrival (s : State) (c : Cmd) (f : Fields) (coll : Bool) (sig bytes : Nat) : Option (State × Option ScopeChan) :=
  if !s.farMembers c f coll then none
  else
    let rank := if coll then s.choice (arrivalsOf f) else 0
    let t := s.spend.spend
    match s.instanceOf c f coll with
    | none => none
    | some (inst, ctx) =>
      t.joinChan inst ctx coll (chanOf f) (arrivalsOf f) sig (4096, 0, rank, natLe bytes (Config.freeNat (s.free + 1)))

/-- BAR (R377). -/
def execBar (f : Fields) (s : State) : Host.Outcome State Fault Refusal :=
  .next (s.operate .any f (fun s g _ _ _ => (s.syncAccept f g (.bar f) (some f.scope)).1))

/-- The command of an arrival ends. One whose context is saved has its end kept with it, and COLL's row and flags (R436). -/
def State.endArrival (s : State) (a : Nat × Nat × Nat × List Byte) (e : Option (List Nat × BitVec 6))
    (k : State → Cmd → Fields → State) : State :=
  match (s.core a.1).cmd? a.2.1 with
  | none => { s with saved := s.saved.map (fun (x : Nat × Saved) =>
      if x.2.cores.any (fun (y : Nat × Core) => (y.2.cmd? a.2.1).isSome) then (x.1, { x.2 with ends := x.2.ends ++ [(a.2.1, e)] })
      else x) }
  | some c =>
    match c.fields with
    | some f => k s c f
    | none => s

/-- A generation of BAR is complete (R377). -/
def State.barEnd (s : State) (x : ScopeChan) : State :=
  x.arrivals.foldl (fun s a => s.endArrival a none (fun s c f => s.answer c f (both (c.pass c.fire.l)))) s

/-- BAR_ARRIVAL (R364, R377): the arrival of a command, or one of another package where the command waits. -/
def execBarArrival (core cmd : Nat) (s : State) : Host.Outcome State Fault Refusal :=
  .next (
    match (s.core core).cmd? cmd with
    | none => s
    | some c =>
      match c.instr with
      | .bar f =>
        if c.phase = .channel then
          match s.farArrival c f false 0 0 with
          | none => s
          | some (s, none) => s
          | some (s, some x) => s.barEnd x
        else if c.phase ≠ .covered ∨ !s.covered c then s
        else
          match s.arriveAt c f false 0 0 [] with
          | none => s.failWith c f .barMismatch 0 0 0
          | some (s, none) => s.modCmd core cmd (fun c => { c with phase := .channel })
          | some (s, some x) => s.barEnd x
      | _ => s)

/-- What every arrival of a generation of COLL carries besides N (R364). -/
def collSig (f : Fields) (cols : Nat) : Nat :=
  let rm := match f.rm with
    | .rne => 0
    | .rtz => 1
    | .rdn => 2
    | .rup => 3
    | .sr => 4
  (((f.fn.toNat * 16 + tyCode f.ty) * 8 + rm) * 2 + (if f.sat then 1 else 0)) * 2 ^ 20 + cols

/-- The combine step of COLL on one element (R366). -/
def collElem (f : Fields) (a b : Nat) : Nat × Flags :=
  match f.fn.toNat with
  | 0 => vecBinary 0x80 0 f.ty f.rm f.sat 0 a b
  | 1 => vecBinary 0x85 0 f.ty .rne false 0 a b
  | 2 => vecBinary 0x86 0 f.ty .rne false 0 a b
  | 3 => (a ||| b, 0)
  | _ => (a &&& b, 0)

/-- Neighbours combined, one pass of the tree (R366). -/
def collPass (f : Fields) : List (List Nat) → List (List Nat) × Flags
  | a :: b :: t =>
    let x := joinRow ((a.zip b).map (fun p => collElem f p.1 p.2))
    let r := collPass f t
    (x.1 :: r.1, x.2 ||| r.2)
  | l => (l, 0)

/-- The fixed tree (R366); fuel bounds its passes. -/
def collTree (f : Fields) : Nat → List (List Nat) → List Nat × Flags
  | 0, l => (l.headD [], 0)
  | _, [] => ([], 0)
  | _, [v] => (v, 0)
  | fuel + 1, l =>
    let x := collPass f l
    let r := collTree f fuel x.1
    (r.1, x.2 ||| r.2)

/-- COLL (R383). -/
def execColl (f : Fields) (s : State) : Host.Outcome State Fault Refusal :=
  .next (s.operate { Need.any with kl := isTile, kr := isScalar } f (fun s g l r _ =>
    let g := { g with l := l, r := r }
    match s.view g.ctx l.value false with
    | .error e => s.fault g f e (viewDetail e l.value)
    | .ok v =>
      if v.core ≠ g.core ∨ v.n ≠ 1 ∨ v.tile.etype ≠ f.ty ∨ 65536 < v.bytes then s.fault g f .collShape 0
      else if arrivalsOf f ≤ optVal r then s.fault g f .operandRange 0
      else
        match s.destCheck v with
        | some e => s.fault g f e 0
        | none =>
          let p := s.accept f { Cmd.start 0 g (.coll f) .sync with phase := .covered, covers := s.coveredSet g f.scope }
          p.1.engage p.2 [(v.core, v.index)] (some (v.core, v.index))))

/-- The view of a COLL at work. -/
def State.collView (s : State) (c : Cmd) : Option View := s.viewFlight c.fire.ctx c.fire.l.value

/-- A generation of COLL is complete (R366): the result goes into every view, the flags to every context, L is emitted. -/
def State.collEnd (s : State) (f : Fields) (cols : Nat) (x : ScopeChan) : State :=
  let row (r : Nat) : List Nat :=
    match x.arrivals.find? (fun a => a.2.2.1 == r) with
    | some a => unpackRow f.ty cols a.2.2.2
    | none => []
  let out := if f.fn.toNat = 5 then (row 0, 0) else collTree f x.n ((List.range x.n).map row)
  x.arrivals.foldl (fun s a => s.endArrival a (some out) (fun s c f =>
    let s :=
      match s.collView c with
      | some v => (s.setViewRow v 0 out.1).setFlags c.fire.ctx out.2
      | none => s
    s.answer c f (both (c.pass c.fire.l)))) s

/-- COLL_ARRIVAL (R364, R366, R383): the arrival of a command, or one of another package where the command waits. -/
def execCollArrival (core cmd : Nat) (s : State) : Host.Outcome State Fault Refusal :=
  .next (
    match (s.core core).cmd? cmd with
    | none => s
    | some c =>
      match c.instr with
      | .coll f =>
        if c.phase = .channel then
          match s.collView c with
          | none => s
          | some v =>
            match s.farArrival c f true (collSig f v.tile.cols) (lineBytes f.ty v.tile.cols) with
            | none => s
            | some (s, none) => s
            | some (s, some x) => s.collEnd f v.tile.cols x
        else if c.phase ≠ .covered ∨ !s.covered c then s
        else
          match s.collView c with
          | none => s
          | some v =>
            match s.arriveAt c f true (collSig f v.tile.cols) (optVal c.fire.r) (packRow f.ty (s.viewRow v 0)) with
            | none => s.failWith c f .collMismatch 0 0 0
            | some (s, none) => s.modCmd core cmd (fun c => { c with phase := .channel })
            | some (s, some x) => s.collEnd f v.tile.cols x
      | _ => s)

/-! ## The end of split-phase commands -/

/-- SBAR's end (R275). -/
def State.sbarStep (s : State) (c : Cmd) (f : Fields) : State :=
  if s.covered c then s.answer c f (both (c.pass c.fire.l)) else s

/-- An STG whose writes propagate ends when every replica holds them (R258, R289). -/
def State.stgStep (s : State) (c : Cmd) (f : Fields) : State :=
  if c.phase = .propagating then
    if s.unperformed c.fire.core c.id then s else s.answer c f [(false, c.scalar 0)]
  else s.scalarWork c f false

/-- SPLIT_PHASE_COMPLETE (R260, R261): a command whose access or reply has come to its end answers. -/
def execSplitPhaseComplete (core cmd : Nat) (s : State) : Host.Outcome State Fault Refusal :=
  .next (
    match (s.core core).cmd? cmd with
    | none => s
    | some c =>
      match c.instr with
      | .sbar f => s.sbarStep c f
      | .epdrop f => s.epDropWork c f
      | .publishTile f => if c.phase = .owner then s.publishTileWork c f else s
      | .fence f => s.fenceStep c f
      | .acq f => s.fenceStep c f
      | i =>
        if !s.splitMay c then s
        else
          match i with
          | .ldg f => s.scalarWork c f true
          | .stg f => s.stgStep c f
          | .xlate f => s.xlateWork c f
          | .capcutCut f => s.capcutWork c f
          | .tnewHere _ | .tnewAt _ | .trel _ | .tdup _ | .tview _ | .tinfo _ | .tlayout _ =>
            if c.phase = .owner then s.vaultWork c else s
          | _ => s)

end Sys2Proof.Machine
end

