-- ==== Sys2Proof/Machine/Launch.lean ====
section
/-! DEFINITION. Launching work (R99 to R123): task records, queues and their push windows, selection, range tasks and their shares, the launch and queue instructions, and the delivery of completions (R464 to R467). -/

namespace Sys2Proof.Machine

/-! ## The task record (R105, R106) -/

/-- A task record by its fields. -/
structure Rec where
  obj    : U32
  entry  : BitVec 20
  cls    : Nat
  policy : BitVec 4
  tmode  : BitVec 2
  hostc  : Bool
  rng    : Bool
  cont   : BitVec 53
  narg   : Nat
  args   : List U64
  tmpl   : Nat
  grain  : Nat
  lo     : Nat
  hi     : Nat
  deriving DecidableEq, Repr

/-- Word 7 is the extension word (R105). -/
def recExt (w0 : U64) : Bool := bitAt w0 63 || field w0 60 2 != 0

/-- A record of its eight words (R105). -/
def Rec.of (ws : List U64) : Rec :=
  let w (i : Nat) : U64 := ws[i]?.getD 0
  let rng := bitAt (w 0) 63
  let ext := recExt (w 0)
  let narg := (field (w 1) 8 3).toNat
  { obj := field (w 0) 0 32, entry := field (w 0) 32 20, cls := (field (w 0) 52 4).toNat, policy := field (w 0) 56 4,
    tmode := field (w 0) 60 2, hostc := bitAt (w 0) 62, rng := rng, cont := field (w 1) 11 53, narg := narg,
    args := (List.range narg).map (fun a => w (2 + a)), tmpl := if ext then (field (w 7) 0 16).toNat else 0,
    grain := if ext then (field (w 7) 16 32).toNat else 0, lo := if rng then (field (w 6) 0 32).toNat else 0,
    hi := if rng then (field (w 6) 32 32).toNat else 0 }

/-- A structurally malformed record (R106); hcwlen is that of the context. -/
def recMalformed (ws : List U64) (hcwlen : Nat) : Bool :=
  let r := Rec.of ws
  let w1 := ws[1]?.getD 0
  let w7 := ws[7]?.getD 0
  let ext := recExt (ws[0]?.getD 0)
  field w1 0 8 != 0 || (ext && field w7 48 16 != 0) || decide (4 < r.cls) || decide (5 < r.policy.toNat) ||
  decide ((if r.rng then 4 else if ext then 5 else 6) < r.narg) ||
  (r.rng && (decide (r.hi < r.lo) || r.grain == 0)) ||
  (!r.rng && ext && r.grain != 0) || (r.rng && r.tmode.toNat == 0 && r.tmpl != 0) ||
  (r.hostc && decide (hcwlen < 8 * r.cont.toNat + 8))

/-- The words of 64 bytes. -/
def recWords (bs : List Byte) : List U64 :=
  (List.range 8).map (fun i => BitVec.ofNat 64 (leNat ((bs.drop (8 * i)).take 8)))

/-- The bytes of eight words. -/
def recBytes (ws : List U64) : List Byte := ws.flatMap (fun w => natLe 8 w.toNat)

/-! ## Queues (R101, R102) -/

/-- A queue's descriptor in memory (R101). -/
structure QDesc where
  ctx   : Nat
  prio  : Nat
  rlog  : Nat
  ring  : Nat
  head  : Nat
  tail  : Nat
  ovf   : Nat
  deriving DecidableEq, Repr

/-- The address of a queue descriptor, under context 0's CTXROOT (R101, R470). -/
def State.qaddr (s : State) (q : Nat) : Nat := s.mod.qtab.toNat + 64 * q

/-- The descriptor of a queue that is VALID; one with a reserved bit set counts as not VALID (R9, R101). -/
def State.qdesc (s : State) (q : Nat) : Option QDesc :=
  match s.ctxRead 0 (s.homeStack 0) (s.qaddr q) 64 with
  | .error _ => none
  | .ok bs =>
    let at_ (o n : Nat) : Nat := leNat ((bs.drop o).take n)
    let c := at_ 0 2
    if !bitOf c 15 || bitsAt c 12 3 != 0 || 8 ≤ at_ 2 1 || at_ 3 1 < 6 || 15 < at_ 3 1 || at_ 4 4 != 0 || at_ 8 8 % 64 != 0 ||
        (bs.drop 24).any (· != 0) then none
    else some {
      ctx := c % 4096, prio := at_ 2 1, rlog := at_ 3 1, ring := at_ 8 8, head := at_ 16 2, tail := at_ 18 2,
      ovf := at_ 20 4 }

/-- A field of a queue descriptor is written. -/
def State.qwrite (s : State) (q off n v : Nat) : State := s.ctxPut 0 (s.qaddr q + off) (natLe n v)

/-- The resident slot that holds a queue (R102): the stack, its slot, and what the distributor holds. -/
def State.resident? (s : State) (q : Nat) : Option (Nat × Nat × Resident) :=
  s.stackTab.findSome? (fun k => k.2.slots.findSome? (fun e => if e.2.queue = q then some (k.1, e.1, e.2) else none))

/-- A change to a resident slot. -/
def State.modSlot (s : State) (stack slot : Nat) (h : Resident → Resident) : State :=
  s.modStack stack (fun k =>
    match Table.find k.slots slot with
    | some r => { k with slots := Table.put k.slots slot (h r) }
    | none => k)

/-- A queue with its counts as its holder has them (R102, R121). -/
def State.queue (s : State) (q : Nat) : Option QDesc :=
  (s.qdesc q).map (fun d =>
    match s.resident? q with
    | some (_, _, r) => { d with head := r.head, tail := r.tail, ovf := r.ovf }
    | none => d)

/-- The records that a queue holds (R101). -/
def QDesc.depth (d : QDesc) : Nat := (d.tail + 65536 - d.head) % 65536

/-- The queue is full (R101). -/
def QDesc.full (d : QDesc) : Bool := d.depth == 2 ^ d.rlog

/-- A record is appended to a queue with room (R102, R103): the state, and the index at which it is written. -/
def State.append (s : State) (q : Nat) (d : QDesc) (bs : List Byte) (pusher : Option Nat) : State × Nat :=
  let s := s.ctxPut d.ctx (d.ring + 64 * (d.tail % 2 ^ d.rlog)) bs
  let t := (d.tail + 1) % 65536
  let s := match s.resident? q with
    | some (k, n, _) => s.modSlot k n (fun r => { r with tail := t })
    | none => s.qwrite q 18 2 t
  let key := q * 65536 + d.tail
  let s := { s with pushers := match pusher with
    | some c => Table.put s.pushers key c
    | none => Table.del s.pushers key }
  (s, d.tail)

/-- A push is discarded: OVF is counted (R104). -/
def State.overflow (s : State) (q : Nat) (d : QDesc) : State :=
  match s.resident? q with
  | some (k, n, _) => s.modSlot k n (fun r => { r with ovf := (r.ovf + 1) % 2 ^ 32 })
  | none => s.qwrite q 20 4 ((d.ovf + 1) % 2 ^ 32)

/-- A read of a queue's push window by a PCI Express function (R104, R473): the bytes of QSTAT at 0x040, and zero everywhere else and for a
function that does not own the queue's context. -/
def State.pushWindowRead (s : State) (func queue offset n : Nat) : List Byte :=
  let stat := match (if queue < 4096 then s.queue queue else none) with
    | some d => if func = s.functionOf d.ctx then natLe 8 (d.head + d.tail * 2 ^ 16 + d.ovf * 2 ^ 32) else []
    | none => []
  (List.range n).map (fun i => if offset + i < 0x40 then 0 else stat[offset + i - 0x40]?.getD 0)

/-- HOST_PUSH (R103, R104, R473): a write into a queue's push window. Only the function that owns the queue's context
reaches it; one aligned write of 64 bytes to RECORD pushes. The QUEUE_FULL event of a host push has SRC 0 (DESIGN CHOICE: log 131). -/
def execHostPush (func queue offset : Nat) (data : List Byte) (s : State) : Host.Outcome State Fault Refusal :=
  .next (
    match (if queue < 4096 then s.queue queue else none) with
    | none => s
    | some d =>
      if func ≠ s.functionOf d.ctx ∨ 0x40 ≤ offset then s
      else if offset ≠ 0 ∨ data.length ≠ 64 then s.overflow queue d
      else if d.full then
        (s.overflow queue d).event (s.homeStack d.ctx) 2 d.ctx 0 (BitVec.ofNat 32 queue)
      else (s.append queue d data none).1)

/-! ## Completions (R464 to R467) -/

/-- The status word of a completion to the host (R466). -/
def statusWord (v : Val) : U64 :=
  match v.kind with
  | .scalar | .tile => v.value
  | .fault => (0xFFFFFFF : BitVec 28) ++ (6 : BitVec 4) ++ field v.value 0 32
  | k => (0xFFFFFFF : BitVec 28) ++ BitVec.ofNat 4 k.code ++ (0 : BitVec 32)

/-- The host completion window's bytes may be written for a context (R474). -/
def State.hcwGranted (s : State) (ctx addr : Nat) : Bool :=
  s.mod.windows.any (fun w => w.2.grants (Config.functionRid (s.functionOf ctx)) addr 8 true)

/-- A status word is written, and MSI-X vector 0 of the function is sent (R466); a revoked window drops the write (R468). -/
def State.writeStatus (s : State) (ctx off : Nat) (v : Val) : State :=
  let a := (s.ctx ctx).hcw.toNat + 8 * off
  let f := s.functionOf ctx
  let s := if s.hcwGranted ctx a then { s with host := s.host.writeBytes a (natLe 8 (statusWord v).toNat) } else s
  s.modMod (fun m => { m with msix := Table.put m.msix f (Table.look 0 m.msix f + 1) })

/-- A completion value goes to a task's continuation (R465, R466). -/
def State.deliver (s : State) (t : Task) (src : Nat) (v : Val) : State :=
  if t.hostc then s.writeStatus t.ctx t.cont.toNat v
  else
    s.send src t.ctx
      { fp := field t.cont 21 32, ip := field t.cont 1 20, port := bitAt t.cont 0,
        val := { v with round := 0, prov := provData, lin := Lineage.none } } true

/-- A task is complete and leaves the tables of the device. -/
def State.dropTask (s : State) (id : Nat) : State :=
  { s with
    tasks := Table.del s.tasks id,
    stackTab := s.stackTab.map (fun k =>
      (k.1, { k.2 with
        asks := k.2.asks.filter (fun a => a.2 != id), shares := k.2.shares.filter (fun e => e.2.task != id) })) }

/-- A task ends with a fault of its binding (R109, R126, R467): the record, and the fault token or status. -/
def State.taskFault (s : State) (t : Task) (core : Nat) (cls : FaultClass) : State :=
  let p := s.logFault
    { cls := cls, ctx := t.ctx, core := core, obj := t.obj, ip := t.entry, fp := 0, precise := true, parked := false,
      supv := false, token := !t.hostc, port := 0, reason := 0, d0 := 0, d1 := 0, d2 := 0 }
  let v : Val := { kind := .fault, value := faultValue cls (s.vcoreOf core) p.2, round := 0, prov := provData, lin := Lineage.none }
  (p.1.deliver t core v).dropTask t.id

/-! ## Selection (R107, R108, R111, R112) -/

/-- A task of a selected record (R108). -/
def Rec.task (r : Rec) (id ctx prio stack : Nat) : Task :=
  { id := id, ctx := ctx, obj := r.obj, entry := r.entry, cls := r.cls, policy := r.policy,
    tmode := if r.rng then 0 else r.tmode, hostc := r.hostc, cont := r.cont, args := r.args, tmpl := r.tmpl, prio := prio,
    stack := stack, rootFp := 0, range := if r.rng then some (r.lo, r.hi, r.grain) else none, parts := [], workers := 0,
    bound := false, tape := .none, ended := none, freed := false }

/-- The core number by which a bind packet says that the policy chooses its core. -/
def byPolicy : Nat := 4096

/-- The grains of each part of a range task (R112): stack, first grain and count. -/
def rangeParts (cores : List (Nat × Nat)) (grains : Nat) : List (Nat × Nat × Nat) :=
  let total := (cores.map Prod.snd).sum
  let floors := cores.map (fun c => (c.1, grains * c.2 / total))
  let rest := grains - (floors.map Prod.snd).sum
  let counts := floors.zipIdx.map (fun p => (p.1.1, p.1.2 + (if p.2 < rest then 1 else 0)))
  ((counts.foldl (fun (a : List (Nat × Nat × Nat) × Nat) c => (a.1 ++ [(c.1, a.2, c.2)], a.2 + c.2)) ([], 0)).1).filter
    (fun p => p.2.2 != 0)

/-- The shares that a distributor holds at most (R113). -/
def maxShares : Nat := 256

/-- One part of a range task: its share at the stack's distributor, which has room for it (`State.partsFit`), and the bind packet of its
first worker. -/
def State.addPart (s : State) (id stack lo hi grain : Nat) (issuer : Option Nat) : State :=
  s.modStack stack (fun k =>
    match Table.lowestFree k.shares maxShares with
    | none => k
    | some n =>
      let sh : Share := { task := id, grain := grain, lo := lo, hi := hi, owner := some (byPolicy, 0), ready := false }
      { k with
        shares := Table.put k.shares n sh,
        binds := k.binds ++ [{ task := id, share := some (shareNo stack n, byPolicy), issuer := issuer, quad := none }] })

/-- The grains of a range task (R111). -/
def grainCount (lo hi grain : Nat) : Nat := (hi - lo + grain - 1) / grain

/-- The parts of a range of grains over the stacks that a context's region covers (R112). -/
def Ctx.partsOf (c : Ctx) (grains : Nat) : List (Nat × Nat × Nat) :=
  rangeParts (((List.range 16).map (fun k => (k, (c.cores k).length))).filter (fun x => x.2 != 0)) grains

/-- Every distributor that gets a part of a record's range has room for its share (R112, R113). -/
def State.partsFit (s : State) (ctx : Nat) (r : Rec) : Bool :=
  !r.rng || ((s.ctx ctx).partsOf (grainCount r.lo r.hi r.grain)).all (fun p => decide ((s.stack p.1).shares.length < maxShares))

/-- A range task is divided (R111, R112). With no grain it completes at once with the scalar 0 (R467). -/
def State.startRange (s : State) (t : Task) (lo hi grain : Nat) (issuer : Option Nat) : State :=
  let g := grainCount lo hi grain
  if g = 0 then (s.deliver t (4096 + t.stack) Val.zero).dropTask t.id
  else
    let parts := (s.ctx t.ctx).partsOf g
    let s := s.modTask t.id (fun t => { t with bound := true, parts := parts.map (fun p => (p.1, false)) })
    parts.foldl (fun s p =>
      s.addPart t.id p.1 (lo + p.2.1 * grain) (min (lo + (p.2.1 + p.2.2) * grain) hi) grain issuer) s

/-- A record is selected: its task is made and its bind packets sent (R108, R109). -/
def State.startTask (s : State) (r : Rec) (ctx prio stack : Nat) (issuer : Option Nat) : State :=
  let t := r.task s.ids ctx prio stack
  let s := s.newId.setTask t.id t
  match t.range with
  | some (lo, hi, grain) => s.startRange t lo hi grain issuer
  | none => s.modStack stack (fun k => { k with binds := k.binds ++ [{ task := t.id, share := none, issuer := issuer, quad := none }] })

/-- The context's queues are selected from (R436, R471). -/
def Ctx.selectable (c : Ctx) : Bool := decide (c.phase = .active)

/-- The candidates of a distributor (R107): resident queues whose ring holds a record. -/
def State.candidates (s : State) (stack : Nat) : List (Nat × Resident) :=
  (s.stack stack).slots.filter (fun e =>
    e.2.head != e.2.tail &&
    (match s.qdesc e.2.queue with
     | some d => (s.ctx d.ctx).selectable
     | none => false))

/-- The queue that R107 selects: the first of highest EFF after RRP, cyclically. -/
def pickQueue (k : Stack) (cand : List (Nat × Resident)) : Option (Nat × Resident) :=
  let p := cand.foldl (fun m e => max m e.2.eff) 0
  let top := cand.filter (fun e => e.2.eff == p)
  match top.find? (fun e => decide (Table.look 0 k.rrp p < e.1)) with
  | some e => some e
  | none => top.head?

/-- The record at the head of a resident queue (R106, R107): none where it is structurally malformed or cannot be read (log 51). A record
that a device pushed was checked at its push. -/
def State.headRec (s : State) (d : QDesc) (stack head : Nat) (device : Bool) : Option Rec :=
  match s.ctxRead d.ctx stack (d.ring + 64 * (head % 2 ^ d.rlog)) 64 with
  | .error _ => none
  | .ok b => if !device && recMalformed (recWords b) (s.ctx d.ctx).hcwlen.toNat then none else some (Rec.of (recWords b))

/-- DISTRIBUTOR_SELECT (R103, R106, R107, R108): a distributor selects one record; the others that wait are passed over once
more, and age at 1024. A malformed one, or one that cannot be read, leaves the queue with a TASK_MALFORMED record, which names the first
core of the stack and no object, frame or instruction (DESIGN CHOICE: log 51). A range whose shares find no room is
not selected yet (R113; log 52). -/
def execDistributorSelect (stack : Nat) (s : State) : Host.Outcome State Fault Refusal :=
  .next (
    let cand := s.candidates stack
    match pickQueue (s.stack stack) cand with
    | none => s
    | some (slot, r) =>
      match s.qdesc r.queue with
      | none => s
      | some d =>
        let key := r.queue * 65536 + r.head
        let issuer := Table.find s.pushers key
        let task := s.headRec d stack r.head issuer.isSome
        if task.any (fun x => !s.partsFit d.ctx x) then s
        else
          let s := { s with pushers := Table.del s.pushers key }
          let s := s.modStack stack (fun k => { k with rrp := Table.put k.rrp r.eff slot })
          let s := cand.foldl (fun s e =>
            if e.1 = slot then s
            else
              let s := s.modSlot stack e.1 (fun x => { x with passed := x.passed + 1 })
              if e.2.passed + 1 = 1024 then s.soon (.priorityAging stack e.1) else s) s
          let s := s.modSlot stack slot (fun x =>
            { x with head := (x.head + 1) % 65536, eff := x.prio, passed := 0 })
          match task with
          | some x => s.startTask x d.ctx r.eff stack issuer
          | none =>
            s.faultLogged
              { cls := .taskMalformed, ctx := d.ctx, core := s.lowCore d.ctx stack, obj := 0, ip := 0, fp := 0, precise := false,
                parked := false, supv := false, token := false, port := 0, reason := 0, d0 := 0, d1 := 0, d2 := 0 })

/-- PRIORITY_AGING (R107): a queue passed over 1024 times gains one step of effective priority. -/
def execPriorityAging (stack slot : Nat) (s : State) : Host.Outcome State Fault Refusal :=
  .next (s.modSlot stack slot (fun r =>
    if 1024 ≤ r.passed then { r with eff := min 7 (r.eff + 1), passed := 0 } else r))

/-! ## LAUNCH and QPUSH (R117) -/

/-- The provenance of launch results (R116). -/
def provGuarded : BitVec 4 := 14

/-- A scalar result of a launch instruction. -/
def launchScalar (g : Firing) (x : U64) : Val := Val.scalar x g.l.round provGuarded

/-- The queue of a number belongs to the context, or the fault (R117, R120, R121). -/
def State.ownQueue (s : State) (ctx : Nat) (v : U64) : Except FaultClass QDesc :=
  if 4096 ≤ v.toNat then .error .queueRange
  else
    match s.queue v.toNat with
    | none => .error .queueAccess
    | some d => if d.ctx = ctx then .ok d else .error .queueAccess

/-- The eight words of a record in slots from N on (R117): the first slot that is not sticky or not a scalar is at fault. Slots past the end
of the frame are SLOT_RANGE before that loop (R38; log 121). -/
def State.recSlots (s : State) (g : Firing) (n : Nat) : Except (FaultClass × Nat) (List U64) :=
  if s.slotBeyond g (n + 7) then .error (.slotRange, n + 7)
  else
    let xs := (List.range 8).map (fun i => (s.stickyAt g (n + i)).bind (fun v => if v.kind = .scalar then some v.value else none))
    match xs.findIdx? Option.isNone with
    | some i => .error (.stickyAbsent, n + i)
    | none => .ok (xs.filterMap id)

/-- The words of LAUNCH (R117): HOSTC is 0 and CONT names dest1; none where dest1 has no frame. -/
def State.launchWords (s : State) (g : Firing) (f : Fields) (ws : List U64) : Option (List U64) :=
  (s.destFp g f.d1).map (fun fp =>
    let w0 := ws[0]?.getD 0
    let w1 := ws[1]?.getD 0
    let cont : BitVec 53 := fp ++ f.d1.ip ++ bit1 f.d1.port
    [field w0 63 1 ++ (0 : BitVec 1) ++ field w0 0 62, cont ++ field w1 0 11] ++ ws.drop 2)

/-- A push waits at the push port of its queue while another push of its core does, or the queue is full (R117). -/
def State.pushTurn (s : State) (core id q : Nat) : Bool :=
  (s.core core).cmds.all (fun c =>
    !(c.engine == .launch && decide (c.phase = .queued) && decide (c.id < id) && c.fire.l.value.toNat == q))

/-- A push: appended at once, or parked at the push port. It waits for no covered set: R357 names none for it (DEDUCED: log 130). -/
def State.push (s : State) (g : Firing) (f : Fields) (i : Instr) (d : QDesc) (ws : List U64) : State :=
  let q := g.l.value.toNat
  if d.full || !s.pushTurn g.core s.ids q then
    (s.accept f { Cmd.start 0 g i .launch with phase := .queued, data := recBytes ws }).1
  else
    let p := s.append q d (recBytes ws) (some g.core)
    p.1.emit g f false (launchScalar g (BitVec.ofNat 64 p.2))

/-- LAUNCH (R117). -/
def execLaunch (f : Fields) (s : State) : Host.Outcome State Fault Refusal :=
  .next (s.operate .scalars f (fun s g l _ _ =>
    match s.ownQueue g.ctx l.value with
    | .error e => s.fault g f e l.value.toNat
    | .ok d =>
      match s.recSlots g f.slot.toNat with
      | .error (e, n) => s.fault g f e n
      | .ok ws =>
        match s.launchWords g f ws with
        | none => s.fault g f .noParent 0
        | some ws =>
          if recMalformed ws (s.ctx g.ctx).hcwlen.toNat then s.fault g f .taskMalformed 0
          else (s.liveInc g.ctx ((s.destFp g f.d1).getD 0)).push g f (.launch f) d ws))

/-- QPUSH (R117). -/
def execQpush (f : Fields) (s : State) : Host.Outcome State Fault Refusal :=
  .next (s.operate .scalars f (fun s g l _ _ =>
    match s.ownQueue g.ctx l.value with
    | .error e => s.fault g f e l.value.toNat
    | .ok d =>
      match s.recSlots g f.slot.toNat with
      | .error (e, n) => s.fault g f e n
      | .ok ws =>
        if recMalformed ws (s.ctx g.ctx).hcwlen.toNat then s.fault g f .taskMalformed 0 else s.push g f (.qpush f) d ws))

/-- PUSH_PORT_RELEASE (R117): a push that waits is appended once its queue has room. -/
def execPushPortRelease (core cmd : Nat) (s : State) : Host.Outcome State Fault Refusal :=
  .next (
    match (s.core core).cmd? cmd with
    | none => s
    | some c =>
      let q := c.fire.l.value.toNat
      match c.fields, s.queue q with
      | some f, some d =>
        if c.engine != .launch || c.phase != .queued || d.full || !s.pushTurn core c.id q then s
        else
          let p := s.append q d c.data (some core)
          p.1.answer c f [(false, launchScalar c.fire (BitVec.ofNat 64 p.2))]
      | _, _ => s)

/-! ## RANGE and RGIVE (R118, R119) -/

/-- The share that a worker frame owns, with its number. -/
def State.ownedShare (s : State) (core : Nat) (fp : U32) : Option (Nat × Share) :=
  match ((s.core core).anyFrame? fp).bind Frame.worker with
  | none => none
  | some w =>
    match Table.find (s.stack (w.1 / 2 ^ 20)).shares (w.1 % 2 ^ 20) with
    | some x => if x.owner = some (core, fp) then some (w.1, x) else none
    | none => none

/-- A share is written. -/
def State.setShare (s : State) (stack n : Nat) (x : Share) : State :=
  s.modStack stack (fun k => { k with shares := Table.put k.shares n x })

/-- The firing frame is a worker (R118). -/
def State.isWorker (s : State) (g : Firing) : Bool :=
  match s.frameOf g with
  | some fr => fr.worker.isSome
  | none => false

/-- RANGE (R118). -/
def execRange (f : Fields) (s : State) : Host.Outcome State Fault Refusal :=
  .next (s.operate Need.any f (fun s g _ _ _ =>
    if !s.isWorker g then s.fault g f .notRange 0
    else
      match s.ownedShare g.core g.fp with
      | some (n, x) =>
        if x.lo < x.hi then
          let hi := min (x.lo + x.grain) x.hi
          let s := s.modShare n (fun x => some { x with lo := hi })
          let s := s.modFrameOf g (fun fr => { fr with worker := some (n, x.lo, hi) })
          (s.emit g f false (launchScalar g (BitVec.ofNat 64 x.lo))).emit g f true (launchScalar g (BitVec.ofNat 64 hi))
        else s.emitBoth g f (Val.null g.l.round provGuarded)
      | none => s.emitBoth g f (Val.null g.l.round provGuarded)))

/-- RGIVE (R119). The grain whose rest is returned is spent: nothing more of it can be returned (log 122). -/
def execRgive (f : Fields) (s : State) : Host.Outcome State Fault Refusal :=
  .next (s.operate .scalars f (fun s g l r _ =>
    let lo := l.value.toNat
    let hi := optVal r
    match (s.frameOf g).bind Frame.worker, s.ownedShare g.core g.fp with
    | some (n, from_, last), some (m, own) =>
      if hi ≤ lo || lo < from_ || hi ≠ last then s.fault g f .rangeReturn 0
      else
        let st := n / 2 ^ 20
        let s := s.modFrameOf g (fun fr => { fr with worker := some (n, lo, lo) })
        let s := match Table.lowestFree (s.stack st).shares maxShares with
          | some i => s.setShare st i { task := g.task, grain := own.grain, lo := lo, hi := hi, owner := none, ready := true }
          | none => s.modShare m (fun x => some { x with lo := lo })
        s.emit g f false (launchScalar g (BitVec.ofNat 64 (hi - lo)))
    | _, _ => s.fault g f .rangeReturn 0))

/-! ## Asks (R114) and the end of a range task (R115) -/

/-- A frame of a core, resident or spilled, that is a live worker of a task. -/
def Core.hasWorker (k : Core) (task : Nat) : Bool :=
  (k.frames ++ k.spillDir.map Spilled.frame).any (fun f => f.task == task && f.worker.isSome && !f.freepend) ||
  k.allocs.any (fun a =>
    match a with
    | .bind t (some _) _ => t == task
    | _ => false)

/-- The ready classes of a core hold no token of a context. -/
def Core.idleFor (k : Core) (ctx : Nat) : Bool := (k.light ++ k.engine).all (fun e => e.2.ctx != ctx)

/-- ASK_FOR_WORK (R114): a core of the region that holds no live worker of a range task, and whose ready classes have been
empty of the context, asks its distributor. -/
def execAskForWork (core task : Nat) (s : State) : Host.Outcome State Fault Refusal :=
  .next (
    match s.task? task with
    | none => s
    | some t =>
      let k := s.core core
      let st := coreStack core
      let d := s.stack st
      if t.range.isNone || k.ctx != some t.ctx || k.hasWorker task || !k.idleFor t.ctx || d.asks.contains (core, task) ||
          t.parts.all (fun p => p.2) then s
      else s.setStack st { d with asks := d.asks ++ [(core, task)] })

/-- The share with the most iterations of a list; ties to the lowest index. -/
def largestShare (l : List (Nat × Share)) : Option (Nat × Share) :=
  l.foldl (fun b x =>
    match b with
    | none => some x
    | some y => if y.2.hi - y.2.lo < x.2.hi - x.2.lo then some x else some y) none

/-- The share that a distributor may split for an ask (R114): among the owned shares of two grains' worth or more, of the
context's tasks of highest bound priority, the one with the most iterations. -/
def State.splittable (s : State) (stack ctx : Nat) : Option (Nat × Share) :=
  let big := (s.stack stack).shares.filter (fun e =>
    e.2.owner.isSome && decide (2 * e.2.grain ≤ e.2.hi - e.2.lo) &&
    (match s.task? e.2.task with
     | some t => t.ctx == ctx
     | none => false))
  let prio (e : Nat × Share) : Nat := ((s.task? e.2.task).map Task.prio).getD 0
  let top := big.foldl (fun m e => max m (prio e)) 0
  largestShare (big.filter (fun e => prio e == top))

/-- An ask is served (R114): an unowned share is handed over whole, or an owned one is split; none where it waits. -/
def State.serveAsk (s : State) (stack core task : Nat) : Option State :=
  let k := s.stack stack
  let unowned := k.shares.filter (fun e => e.2.task == task && e.2.owner.isNone)
  let packet (t n : Nat) (k : Stack) : Stack :=
    { k with
      binds := k.binds ++ [{ task := t, share := some (shareNo stack n, core), issuer := none, quad := none }],
      asks := k.asks.filter (fun a => a != (core, task)) }
  match largestShare unowned with
  | some (n, x) =>
    some ((s.setShare stack n { x with owner := some (core, 0), ready := false }).modStack stack (packet task n))
  | none =>
    match Table.lowestFree k.shares maxShares,
        s.splittable stack ((s.core core).ctx.getD 0) with
    | some m, some (n, x) =>
      let c := (x.hi - x.lo + x.grain - 1) / x.grain
      let cut := x.lo + (c + 1) / 2 * x.grain
      let s := s.setShare stack n { x with hi := cut }
      let s := s.setShare stack m { x with lo := cut, owner := some (core, 0), ready := false }
      some (s.modStack stack (packet x.task m))
    | _, _ => none

/-- Asks in increasing core id. -/
def sortAsks (l : List (Nat × Nat)) : List (Nat × Nat) := sortBy (fun a b => decide (a.1 ≤ b.1)) l

/-- ASK_SERVE (R114): the ask of the lowest core that can be served. -/
def execAskServe (stack : Nat) (s : State) : Host.Outcome State Fault Refusal :=
  .next (
    match (sortAsks (s.stack stack).asks).findSome? (fun a => s.serveAsk stack a.1 a.2) with
    | some t => t
    | none => s)

/-- PART_REPORT (R115): every share of a part is empty, none is unowned, and every worker of it has executed END. -/
def execPartReport (stack task : Nat) (s : State) : Host.Outcome State Fault Refusal :=
  .next (
    let k := s.stack stack
    let busy := k.shares.any (fun e => e.2.task == task && (decide (e.2.lo < e.2.hi) || e.2.owner.isNone)) ||
      k.binds.any (fun b => b.task == task) ||
      s.cores.any (fun c => c.2.hasWorker task)
    match s.task? task with
    | none => s
    | some t =>
      if busy || !(s.ctx t.ctx).live || !t.parts.contains (stack, false) then s
      else
        let s := s.modStack stack (fun k => { k with shares := k.shares.filter (fun e => e.2.task != task) })
        s.modTask task (fun t => { t with parts := t.parts.map (fun p => if p.1 = stack then (p.1, true) else p) }))

/-- RANGE_TASK_COMPLETE (R115, R467): every part has reported; the value is HI - LO, or the first fault of a worker's END. -/
def execRangeTaskComplete (task : Nat) (s : State) : Host.Outcome State Fault Refusal :=
  .next (
    match s.task? task with
    | none => s
    | some t =>
      match t.range with
      | none => s
      | some (lo, hi, _) =>
        if !(s.ctx t.ctx).live || t.parts.isEmpty || t.parts.any (fun p => !p.2) || t.freed then s
        else
          let v := Val.scalar (BitVec.ofNat 64 (hi - lo)) 0 provData
          s.setTask task { t with ended := some (t.ended.getD v), freed := true })

/-! ## Queue instructions (R120 to R123) -/

/-- QPRIO (R120). -/
def execQprio (f : Fields) (s : State) : Host.Outcome State Fault Refusal :=
  .next (s.operate .scalars f (fun s g l r _ =>
    let p := match r with
      | some r => r.value.toNat
      | none => f.imm.toNat
    match s.ownQueue g.ctx l.value with
    | .error e => s.fault g f e l.value.toNat
    | .ok d =>
      if 7 < p then s.fault g f .operandRange 0
      else
        let q := l.value.toNat
        let s := s.qwrite q 2 1 p
        let s := match s.resident? q with
          | some (k, n, _) => s.modSlot k n (fun x => { x with prio := p, eff := p, passed := 0 })
          | none => s
        s.emit g f false (launchScalar g (BitVec.ofNat 64 d.prio))))

/-- QINFO's value (R121). -/
def State.qinfo (s : State) (fn q : Nat) (d : QDesc) : U64 :=
  match fn with
  | 0 => BitVec.ofNat 64 d.depth
  | 1 =>
    BitVec.ofNat 64 (d.prio + 256 * (match s.resident? q with
      | some (_, _, r) => r.eff
      | none => d.prio))
  | 2 =>
    match s.resident? q with
    | some (k, n, _) => BitVec.ofNat 64 (16 * k + n)
    | none => 0xFFFFFFFFFFFFFFFF
  | _ => BitVec.ofNat 64 d.ovf

/-- QINFO (R121). -/
def execQinfo (f : Fields) (s : State) : Host.Outcome State Fault Refusal :=
  .next (s.operate .scalars f (fun s g l _ _ =>
    match s.ownQueue g.ctx l.value with
    | .error e => s.fault g f e l.value.toNat
    | .ok d => s.emit g f false (launchScalar g (s.qinfo f.fn.toNat l.value.toNat d))))

/-- A queue becomes resident in a slot (R102, R107). -/
def State.makeResident (s : State) (q slot : Nat) (d : QDesc) : State :=
  s.modStack (slot / 16) (fun k =>
    { k with
      slots := Table.put k.slots (slot % 16) {
        queue := q, prio := d.prio, eff := d.prio, passed := 0, head := d.head, tail := d.tail, ovf := d.ovf },
      rrp := (List.range 8).map (fun p => (p, slot % 16)) })

/-- A queue stops being resident: its counts go back to the descriptor (R102, R122). -/
def State.dropResident (s : State) (q stack slot : Nat) (r : Resident) : State :=
  let s := ((s.qwrite q 16 2 r.head).qwrite q 18 2 r.tail).qwrite q 20 4 r.ovf
  s.modStack stack (fun k => { k with slots := Table.del k.slots slot })

/-- QBIND.BIND (R122). -/
def execQbindBind (f : Fields) (s : State) : Host.Outcome State Fault Refusal :=
  .next (s.operate .scalars f (fun s g l r _ =>
    let n := match r with
      | some r => r.value.toNat
      | none => f.imm.toNat
    let q := l.value.toNat
    let out (s : State) (x : U64) : State := s.emit g f false (launchScalar g x)
    if !(s.ctx g.ctx).sup then s.fault g f .privilege 0
    else if 4096 ≤ q then s.fault g f .queueRange q
    else if 256 ≤ n then s.fault g f .operandRange 0
    else
      match s.qdesc q with
      | none => s.fault g f .queueAccess q
      | some d =>
        if (s.resident? q).isSome then out s 2
        else if (Table.find (s.stack (n / 16)).slots (n % 16)).isSome then out s 1
        else out (s.makeResident q n d) 0))

/-- QBIND.UNBIND (R122). -/
def execQbindUnbind (f : Fields) (s : State) : Host.Outcome State Fault Refusal :=
  .next (s.operate .scalars f (fun s g l _ _ =>
    let q := l.value.toNat
    if !(s.ctx g.ctx).sup then s.fault g f .privilege 0
    else if 4096 ≤ q then s.fault g f .queueRange q
    else
      match s.resident? q with
      | none => s.emit g f false (launchScalar g 2)
      | some (k, n, r) => (s.dropResident q k n r).emit g f false (launchScalar g 0)))

/-- The region word of a context descriptor (R99). -/
def Ctx.regionWord (c : Ctx) : Nat := c.x0 + c.y0 * 2 ^ 6 + c.wm1 * 2 ^ 12 + c.hm1 * 2 ^ 18

/-- CTXINFO's value (R123). -/
def State.ctxinfo (s : State) (fn : Nat) (g : Firing) : Nat :=
  let c := s.ctx g.ctx
  match fn with
  | 0 => g.ctx
  | 1 => c.regionWord
  | 2 => c.cls + (if c.sup then 4 else 0)
  | 3 => (s.tasks.filter (fun t => t.2.ctx == g.ctx && t.2.bound)).length
  | _ => fpVcore g.fp + 2 ^ 16 * (((s.task? g.task).map Task.prio).getD 0)

/-- CTXINFO (R123): it fires on any L token. -/
def execCtxinfo (f : Fields) (s : State) : Host.Outcome State Fault Refusal :=
  .next (s.operate .any f (fun s g _ _ _ =>
    s.emit g f false (launchScalar g (BitVec.ofNat 64 (s.ctxinfo f.fn.toNat g)))))

end Sys2Proof.Machine
end

