-- ==== Sys2Proof/Machine/Tape.lean ====
section
/-! DEFINITION. The command tape (R124 to R163): what is recorded and how values are described, snapshots, tape images, replay with its probes and hand-over, and the tape instructions. -/

namespace Sys2Proof.Machine

/-! ## Descriptors (R131, R150) -/

/-- The key by which values name an entry of a task's recording. -/
def lineKey (task entry : Nat) : Nat := task * 65536 + entry

/-- The recorded arguments of a task, padded to six (R137). -/
def Task.rargs (t : Task) : List U64 := (t.args ++ List.replicate 6 0).take 6

/-- The descriptor of a value and the GUARDMASK bits it sets (R131), or none where the value is rejected. -/
def describeVal (task : Nat) (rargs : List U64) (patch : BitVec 6) (opix : Nat) (v : Val) : Option (OpDesc × BitVec 6) :=
  let lit (m : BitVec 6) : Option (OpDesc × BitVec 6) :=
    if v.kind = .cap then none
    else some ({ opix := opix, src := 0, kind := v.kind, arg := 0, cmd := 0, lit := v.value }, m)
  match v.lin.out with
  | some (k, second) =>
    if k / 65536 = task then
      some ({ opix := opix, src := if second then 3 else 2, kind := v.kind, arg := 0, cmd := k % 65536, lit := 0 }, 0)
    else none
  | none =>
    if v.prov = provData then none
    else if v.prov = 14 then lit 0x3F
    else
      match provArg v.prov with
      | none => lit 0
      | some k =>
        if provLin v.prov && bitOf patch.toNat k && v.kind != .cap then
          some ({ opix := opix, src := 1, kind := v.kind, arg := k, cmd := 0, lit := v.value - rargs[k]?.getD 0 }, 0)
        else lit (BitVec.ofNat 6 (2 ^ k))

/-- The entries of a task's recording that values descend from (R128). -/
def ancestorsIn (task : Nat) (vs : List Val) : List Nat :=
  ((ancestors vs).filter (fun k => k / 65536 == task)).map (· % 65536)

/-- The indices that an entry depends on itself. -/
def TapeEntry.direct (e : TapeEntry) (i : Nat) : List Nat :=
  match e with
  | .cmd c => if c.fullbar then List.range i else c.deps
  | .guard _ => List.range i

/-- The indices that an entry implies through others; fuel bounds the depth. -/
def implied (es : List TapeEntry) : Nat → Nat → List Nat
  | 0, _ => []
  | fuel + 1, i =>
    match es[i]? with
    | none => []
    | some e => (e.direct i).flatMap (fun j => j :: implied es fuel j)

/-- The dependence list of R128 and FULLBAR: indices implied by another one go, and beyond eight the highest stay. -/
def depList (es : List TapeEntry) (anc : List Nat) : List Nat × Bool :=
  let l := anc.filter (fun i => !anc.any (fun j => decide (i < j) && (implied es es.length j).contains i))
  let l := sortBy (fun a b => decide (b ≤ a)) l
  ((l.take 8).reverse, decide (8 < l.length))

/-- An entry whose output a later descriptor names is marked (R140). -/
def markKeep (es : List TapeEntry) (ds : List OpDesc) : List TapeEntry :=
  es.mapIdx (fun i e =>
    match e with
    | .cmd c =>
      .cmd { c with
        keep0 := c.keep0 || ds.any (fun d => d.src == 2 && d.cmd == i), keep1 := c.keep1 || ds.any (fun d => d.src == 3 && d.cmd == i) }
    | g => g)

/-- The guard that an entry is. -/
def TapeEntry.guard? : TapeEntry → Option TapeGuard
  | .guard g => some g
  | .cmd _ => none

/-- The command that an entry is. -/
def TapeEntry.cmd? : TapeEntry → Option TapeCmd
  | .cmd c => some c
  | .guard _ => none

/-! ## Images (R147 to R151) -/

/-- The bytes of an operand descriptor (R150). -/
def OpDesc.bytes (d : OpDesc) : List Byte :=
  natLe 1 (d.opix + 4 * d.src + 16 * d.kind.code + 128) ++ natLe 1 d.arg ++ natLe 2 d.cmd ++ natLe 4 0 ++
    natLe 8 d.lit.toNat

/-- An unused descriptor. -/
def noDesc : List Byte := List.replicate 16 0

/-- The bytes of a snapshot (R151). -/
def Snapshot.bytes (x : Snapshot) : List Byte :=
  let head := natLe 1 8 ++ natLe 1 0 ++ natLe 2 x.frames.length ++ natLe 2 x.toks.length ++ natLe 2 0 ++
    natLe 4 (x.entry.getD 0xFFFFFFFF) ++ List.replicate 20 0
  let fr (p : SnapFrame × Nat) : List Byte :=
    natLe 1 9 ++ natLe 1 p.1.cls ++ natLe 2 p.2 ++ natLe 2 p.1.vcore.toNat ++ natLe 2 (p.1.pord.getD 0xFFFF) ++
      natLe 4 (p.1.rip.toNat + (if p.1.rport then 2 ^ 20 else 0)) ++ natLe 1 p.1.fround.toNat ++
      natLe 1 (if p.1.root then 1 else 0) ++ natLe 2 p.1.anchor.toNat ++ natLe 1 p.1.policy.toNat ++ List.replicate 15 0
  let tk (t : SnapTok) : List Byte :=
    natLe 1 10 ++
      natLe 1 (t.state + (if t.port then 4 else 0) + (if t.gout then 8 else 0) + (if t.fpref.isSome then 16 else 0)) ++
      natLe 2 t.frame ++ natLe 4 (if t.state = 0 then t.ip.toNat else 0) ++ natLe 1 (if t.state = 0 then 0 else t.slot) ++
      natLe 1 t.round.toNat ++ natLe 1 t.prov.toNat ++ natLe 1 0 ++ natLe 2 (t.fpref.getD 0) ++ natLe 2 0 ++ t.desc.bytes
  head ++ (x.frames.zipIdx).flatMap fr ++ x.toks.flatMap tk

/-- Units of 32 bytes that a snapshot takes. -/
def Snapshot.units (x : Snapshot) : Nat := 1 + x.frames.length + x.toks.length

/-- Records of 32 bytes that an entry takes (R149). -/
def TapeEntry.records : TapeEntry → Nat
  | .cmd c => 1 + (c.ops.length + 1) / 2
  | .guard _ => 1

/-- The bytes of an entry (R149); at_ is the unit offset of a guard's snapshot. -/
def TapeEntry.bytes (e : TapeEntry) (at_ : Nat) : List Byte :=
  match e with
  | .cmd c =>
    let ds := (List.range 8).flatMap (fun i => natLe 2 (c.deps[i]?.getD 0))
    natLe 1 1 ++ natLe 1 ((c.ops.length + 1) / 2) ++
      natLe 1 (c.deps.length + (if c.fullbar then 16 else 0) + (if c.keep0 then 32 else 0) + (if c.keep1 then 64 else 0)) ++
      natLe 1 c.pos ++ natLe 1 (field c.word 120 8).toNat ++ natLe 1 (field c.word 112 8).toNat ++
      natLe 2 (field c.word 32 16).toNat ++ natLe 4 (field c.word 0 32).toNat ++ natLe 1 (field c.word 110 2).toNat ++
      natLe 3 0 ++ ds ++ c.ops.flatMap OpDesc.bytes ++ (if c.ops.length % 2 = 1 then noDesc else [])
  | .guard g =>
    natLe 1 4 ++ natLe 1 g.gnum ++ natLe 2 0 ++ natLe 4 (g.ip.toNat + g.cls * 2 ^ 20 + g.pos * 2 ^ 24) ++ natLe 8 g.pred.toNat ++
      natLe 4 at_ ++ List.replicate 12 0

/-- The snapshots of a tape in the order of their guards, the exit snapshot last. -/
def Tape.snaps (t : Tape) : List Snapshot := (t.entries.filterMap TapeEntry.guard?).map TapeGuard.snap ++ t.exit.toList

/-- The records of the command section. -/
def Tape.nrec (t : Tape) : Nat := (t.entries.map TapeEntry.records).sum

/-- The guard entries. -/
def Tape.nguard (t : Tape) : Nat := (t.entries.filterMap TapeEntry.guard?).length

/-- The bytes of the command section, with the unit offsets of the snapshots counted on. -/
def entryBytes : List TapeEntry → Nat → List Byte
  | [], _ => []
  | e :: t, at_ => e.bytes at_ ++ entryBytes t (at_ + ((e.guard?.map (fun g => g.snap.units)).getD 0))

/-- A tape's image (R148). -/
def Tape.image (t : Tape) : List Byte :=
  let snapOff := 8 + t.nrec
  let len := (t.snaps.map Snapshot.units).sum
  let exitAt := match t.exit with
    | some x => snapOff + len - x.units
    | none => 0
  let watches := (List.range 4).flatMap (fun i => natLe 8 (t.vwatch[i]?.getD (0, 0)).1 ++ natLe 8 (t.vwatch[i]?.getD (0, 0)).2)
  natLe 8 0x0A1A0A0D5041544C ++ natLe 2 1 ++ natLe 2 0 ++ natLe 4 t.obj.toNat ++ natLe 2 t.tmpl ++ natLe 2 t.ctx ++
    natLe 2 t.qkey.toNat ++ natLe 1 ((if t.valid then 1 else 0) + (if t.exit.isSome then 2 else 0)) ++ natLe 1 t.nguard ++ natLe 4 t.entries.length ++
    natLe 4 t.nrec ++ natLe 4 (t.entry.toNat + t.cls * 2 ^ 20 + t.policy.toNat * 2 ^ 24) ++ natLe 1 t.patch.toNat ++
    natLe 1 t.guards.toNat ++ natLe 2 0 ++ natLe 8 t.rectime.toNat ++ t.rargs.flatMap (fun a => natLe 8 a.toNat) ++
    natLe 4 snapOff ++ natLe 4 len ++ natLe 4 exitAt ++ natLe 4 0 ++
    (match t.compv with
     | some d => d.bytes
     | none => noDesc) ++ watches ++ List.replicate 64 0 ++ entryBytes t.entries snapOff ++ t.snaps.flatMap Snapshot.bytes

/-- The image area of a quad (R147). -/
def Ctx.imageArea (c : Ctx) (qkey : BitVec 12) : Nat :=
  let v := (field qkey 8 4).toNat * 64 + (field qkey 5 3).toNat * 8 + (field qkey 1 3).toNat
  c.tapebase.toNat * 2 ^ 21 + v * c.tapeqsz.toNat * 2 ^ 21

/-- The bytes that a quad's tapes may take (R147): its image area, or the 512 KiB of the tape store where there is none. -/
def Ctx.imageRoom (c : Ctx) : Nat := if c.tapeqsz.toNat = 0 then 2 ^ 19 else c.tapeqsz.toNat * 2 ^ 21

/-- The lowest offset in the area at which an image of n bytes fits beside others of the context. -/
def imagePlace (ts : List Tape) (ctx room n : Nat) : Option Nat :=
  let mine := (ts.filter (fun t => t.ctx == ctx)).map (fun t => (t.off, t.size))
  ((0 :: mine.map (fun x => (x.1 + x.2 + 31) / 32 * 32)).filter (fun b =>
    decide (b + n ≤ room) && mine.all (fun x => decide (b + n ≤ x.1) || decide (x.1 + x.2 ≤ b)))).head?

/-! ## Images as they are read (R147 to R152) -/

/-- An operand descriptor of its bytes; none where it is malformed, and none within where it is unused (R150). -/
def OpDesc.ofBytes (bs : List Byte) : Option (Option OpDesc) :=
  let b := numAt bs 0 1
  let d : OpDesc := {
    opix := bitsAt b 0 2, src := bitsAt b 2 2, kind := Kind.ofCode (bitsAt b 4 3), arg := numAt bs 1 1, cmd := numAt bs 2 2,
    lit := BitVec.ofNat 64 (numAt bs 8 8) }
  if zeroAt bs 0 16 then some none
  else if !bitOf b 7 || d.opix == 3 || d.kind == .reserved || !zeroAt bs 4 4 || decide (5 < d.arg) ||
      (d.src != 1 && d.arg != 0) || (decide (d.src < 2) && (d.cmd != 0 || d.kind == .cap)) || (decide (2 ≤ d.src) && d.lit != 0) then
    none
  else some (some d)

/-- A frame record of a snapshot (R151): record i of n. -/
def SnapFrame.ofBytes (bs : List Byte) (i n : Nat) : Option SnapFrame :=
  let pord := numAt bs 6 2
  let rip := numAt bs 8 4
  if numAt bs 0 1 != 9 || decide (4 < numAt bs 1 1) || numAt bs 2 2 != i || decide (4096 ≤ numAt bs 4 2) ||
      (pord != 0xFFFF && decide (n ≤ pord)) || decide (2 ^ 21 ≤ rip) || decide (1 < numAt bs 13 1) || decide (4096 ≤ numAt bs 14 2) ||
      decide (15 < numAt bs 16 1) || !zeroAt bs 17 15 then none
  else
    some {
      cls := numAt bs 1 1, vcore := BitVec.ofNat 12 (numAt bs 4 2), pord := if pord = 0xFFFF then none else some pord,
      rip := BitVec.ofNat 20 rip, rport := bitOf rip 20, fround := BitVec.ofNat 8 (numAt bs 12 1), root := bitOf (numAt bs 13 1) 0,
      anchor := BitVec.ofNat 12 (numAt bs 14 2), policy := BitVec.ofNat 4 (numAt bs 16 1) }

/-- A token record of a snapshot with n frames (R151). -/
def SnapTok.ofBytes (bs : List Byte) (n : Nat) : Option SnapTok :=
  let b := numAt bs 1 1
  let state := bitsAt b 0 2
  let ref := bitOf b 4
  match OpDesc.ofBytes (cut bs 16 16) with
  | some (some d) =>
    if numAt bs 0 1 != 10 || state == 3 || decide (32 ≤ b) || decide (n ≤ numAt bs 2 2) || decide (2 ^ 20 ≤ numAt bs 4 4) ||
        (state != 0 && numAt bs 4 4 != 0) || (state == 0 && numAt bs 8 1 != 0) || decide (14 < numAt bs 10 1) || !zeroAt bs 11 1 ||
        (!ref && numAt bs 12 2 != 0) || (ref && decide (n ≤ numAt bs 12 2)) || !zeroAt bs 14 2 || d.opix != 0 then none
    else
      some {
        state := state, port := bitOf b 2, gout := bitOf b 3, fpref := if ref then some (numAt bs 12 2) else none,
        frame := numAt bs 2 2, ip := BitVec.ofNat 20 (numAt bs 4 4), slot := numAt bs 8 1, round := BitVec.ofNat 8 (numAt bs 9 1),
        prov := BitVec.ofNat 4 (numAt bs 10 1), desc := d }
  | _ => none

/-- A snapshot at a unit offset of an image, of a guard entry or of the exit (R151). -/
def Snapshot.ofBytes (img : List Byte) (unit : Nat) (entry : Option Nat) : Option Snapshot :=
  let at_ := 32 * unit
  let nf := numAt img (at_ + 2) 2
  let nt := numAt img (at_ + 4) 2
  if img.length < at_ + 32 * (1 + nf + nt) || numAt img at_ 1 != 8 || !zeroAt img (at_ + 1) 1 || !zeroAt img (at_ + 6) 2 ||
      numAt img (at_ + 8) 4 != entry.getD 0xFFFFFFFF || !zeroAt img (at_ + 12) 20 || decide (256 < nf) || decide (256 < nt) then none
  else
    match allSome ((List.range nf).map (fun i => SnapFrame.ofBytes (cut img (at_ + 32 * (1 + i)) 32) i nf)),
        allSome ((List.range nt).map (fun i => SnapTok.ofBytes (cut img (at_ + 32 * (1 + nf + i)) 32) nf)) with
    | some fs, some ts => some { entry := entry, frames := fs, toks := ts }
    | _, _ => none

/-- A command of its records (R149); old is what the engine keeps beside it (log 31). -/
def TapeCmd.ofBytes (bs : List Byte) (i : Nat) (old : TapeCmd) : Option TapeCmd :=
  let n := numAt bs 1 1
  let b := numAt bs 2 1
  let nd := bitsAt b 0 4
  let deps := (List.range 8).map (fun k => numAt bs (16 + 2 * k) 2)
  let w : U128 :=
    BitVec.ofNat 8 (numAt bs 4 1) ++ BitVec.ofNat 8 (numAt bs 5 1) ++ BitVec.ofNat 2 (numAt bs 12 1) ++ field old.word 48 62 ++
      BitVec.ofNat 16 (numAt bs 6 2) ++ BitVec.ofNat 32 (numAt bs 8 4)
  match allSome ((List.range (2 * n)).map (fun k => OpDesc.ofBytes (cut bs (32 + 16 * k) 16))) with
  | none => none
  | some ds =>
    if decide (2 < n) || decide (8 < nd) || bitOf b 7 || decide (3 < numAt bs 3 1) || decide (numAt bs 4 1 < 0x50) ||
        decide (0xBF < numAt bs 4 1) || decide (3 < numAt bs 12 1) || !zeroAt bs 13 3 || (deps.take nd).any (fun d => decide (i ≤ d)) ||
        (deps.drop nd).any (· != 0) then none
    else
      some { old with
        word := w, pos := numAt bs 3 1, ops := ds.filterMap id, deps := deps.take nd, fullbar := bitOf b 4, keep0 := bitOf b 5,
        keep1 := bitOf b 6 }

/-- A guard of its record (R149). -/
def TapeGuard.ofBytes (img bs : List Byte) (i : Nat) (old : TapeGuard) : Option TapeGuard :=
  let p := numAt bs 4 4
  match Snapshot.ofBytes img (numAt bs 16 4) (some i) with
  | none => none
  | some x =>
    if !zeroAt bs 2 2 || decide (4 < bitsAt p 20 3) || bitOf p 23 || decide (2 ^ 26 ≤ p) || !zeroAt bs 20 12 then none
    else
      some { old with
        gnum := numAt bs 1 1, ip := BitVec.ofNat 20 p, cls := bitsAt p 20 3, pos := bitsAt p 24 2,
        pred := BitVec.ofNat 64 (numAt bs 8 8), snap := x }

/-- The entries of a command section of n records from a byte offset on (R149); old has what the engine keeps beside each. -/
def readEntries (img : List Byte) (old : Nat → TapeEntry) : Nat → Nat → Nat → Nat → Option (List TapeEntry)
  | 0, _, n, _ => if n = 0 then some [] else none
  | fuel + 1, i, n, at_ =>
    if n = 0 then some []
    else
      let e : Option (TapeEntry × Nat) :=
        match numAt img at_ 1 with
        | 1 =>
          let k := 1 + numAt img (at_ + 1) 1
          (TapeCmd.ofBytes (cut img at_ (32 * k)) i (((old i).cmd?).getD
            { word := 0, fp := 0, ip := 0, round := 0, port := false, pos := 0, ops := [], named := [], deps := [], fullbar := false,
              keep0 := false, keep1 := false })).map (fun c => (.cmd c, k))
        | 4 =>
          (TapeGuard.ofBytes img (cut img at_ 32) i (((old i).guard?).getD
            { gnum := 0, gip := 0, ip := 0, cls := 0, pos := 0, pred := 0, snap := { entry := none, frames := [], toks := [] } })).map
            (fun g => (.guard g, 1))
        | _ => none
      match e with
      | none => none
      | some (x, k) => if n < k then none else (readEntries img old fuel (i + 1) (n - k) (at_ + 32 * k)).map (x :: ·)

/-- The header of an image agrees with the tape that it stands for, and no reserved field is set (R148, R152). -/
def Tape.headOk (t : Tape) (img : List Byte) : Bool :=
  let bind := numAt img 32 4
  numAt img 0 8 == 0x0A1A0A0D5041544C && numAt img 8 2 == 1 && numAt img 10 2 == 0 && numAt img 16 2 == t.tmpl &&
  numAt img 18 2 == t.ctx && numAt img 20 2 == t.qkey.toNat && bitOf (numAt img 22 1) 0 && decide (numAt img 22 1 < 4) &&
  decide (bind < 2 ^ 28) && decide (bitsAt bind 20 4 ≤ 4) && decide (numAt img 36 1 < 64) && decide (numAt img 37 1 < 64) &&
  zeroAt img 38 2 && numAt img 96 4 == 8 + numAt img 28 4 && zeroAt img 108 4 && zeroAt img 192 64 &&
  decide (256 + 32 * numAt img 28 4 + 32 * numAt img 100 4 ≤ img.length) &&
  bitOf (numAt img 22 1) 1 == (numAt img 104 4 != 0)

/-- A tape as its image has it: none where the image breaks R148 to R151 (R152). -/
def Tape.ofImage (t : Tape) (img : List Byte) : Option Tape :=
  let bind := numAt img 32 4
  let n := numAt img 28 4
  let old (i : Nat) : TapeEntry :=
    t.entries[i]?.getD (.guard
      { gnum := 0, gip := 0, ip := 0, cls := 0, pos := 0, pred := 0, snap := { entry := none, frames := [], toks := [] } })
  let exit : Option (Option Snapshot) :=
    if bitOf (numAt img 22 1) 1 then (Snapshot.ofBytes img (numAt img 104 4) none).map some else some none
  match readEntries img old (n + 1) 0 n 256, exit, OpDesc.ofBytes (cut img 112 16) with
  | some es, some x, some d =>
    let y : Tape := { t with
      obj := BitVec.ofNat 32 (numAt img 12 4), entry := BitVec.ofNat 20 bind, cls := bitsAt bind 20 4,
      policy := BitVec.ofNat 4 (bitsAt bind 24 4), patch := BitVec.ofNat 6 (numAt img 36 1), guards := BitVec.ofNat 6 (numAt img 37 1),
      rectime := BitVec.ofNat 64 (numAt img 40 8), rargs := (List.range 6).map (fun k => BitVec.ofNat 64 (numAt img (48 + 8 * k) 8)),
      entries := es, exit := x, compv := d }
    if t.headOk img && es.length == numAt img 24 4 && y.nguard == numAt img 23 1 && (x.isSome || d.isSome) &&
        (y.snaps.map Snapshot.units).sum == numAt img 100 4 then some y
    else none
  | _, _, _ => none

/-- A tape with the content of its image, which a replay streams (R147); one that lives in the tape store alone has none. None where
the image is not valid (R152). -/
def State.readTape (s : State) (t : Tape) : Option Tape :=
  let c := s.ctx t.ctx
  if c.tapeqsz.toNat = 0 then some t
  else
    match s.ctxRead t.ctx (s.homeStack t.ctx) (c.imageArea t.qkey + t.off) t.size with
    | .ok bs => t.ofImage bs
    | .error _ => none

/-! ## The recorder (R127, R133 to R138) -/

/-- The quad key (R125): the virtual core id of position 0 of the quad. -/
def State.quadKey (s : State) (ctx quad : Nat) : BitVec 12 := BitVec.ofNat 12 (((s.ctx ctx).virt (quadCore quad 0)).getD 0)

/-- The tape of a key: the valid one, or an invalid one that a replay still holds (R155). -/
def TapeEngine.tape? (e : TapeEngine) (ctx tmpl : Nat) : Option Tape :=
  let mine := e.tapes.filter (fun t => t.ctx == ctx && t.tmpl == tmpl)
  match mine.find? Tape.valid with
  | some t => some t
  | none => mine.head?

/-- A replay runs, or waits for a cursor, on a tape of the key. -/
def TapeEngine.holds (e : TapeEngine) (ctx tmpl : Nat) : Bool :=
  (e.replays ++ e.waiting).any (fun r => r.tape.ctx == ctx && r.tape.tmpl == tmpl)

/-- The space of tapes that are invalid and that no replay holds is reclaimed (R155). -/
def TapeEngine.reclaim (e : TapeEngine) : TapeEngine :=
  { e with tapes := e.tapes.filter (fun t => t.valid || e.holds t.ctx t.tmpl) }

/-- The tape of a key is dropped (R126); a replay in progress goes on with it (R155). -/
def TapeEngine.drop (e : TapeEngine) (ctx tmpl : Nat) : TapeEngine :=
  ({ e with tapes := e.tapes.map (fun t => if t.ctx == ctx && t.tmpl == tmpl then { t with valid := false } else t) } : TapeEngine).reclaim

/-- A recording's size so far is beyond its limits (R138): entries, guards, or room in the image area. -/
def State.recordFull (s : State) (r : Recording) : Bool :=
  let gs := r.entries.filterMap TapeEntry.guard?
  decide (65535 < r.entries.length) || decide (255 < gs.length) ||
  decide ((s.ctx r.ctx).imageRoom <
    256 + 32 * ((r.entries.map TapeEntry.records).sum + (gs.map (fun g => g.snap.units)).sum))

/-- The watched ranges of a task's template (R124, R154): base and extent. -/
def State.watches (s : State) (t : Task) : List (Nat × Nat) :=
  match (s.ctx t.ctx).obj? t.obj with
  | some o =>
    match o.tmpls.find? (fun x => x.id == t.tmpl) with
    | some x => x.watch.map (fun w => ((t.rargs[w.1 - 4]?.getD 0).toNat, w.2))
    | none => []
  | none => []

/-- The tape that a recording makes of its task (R148), before it has a place. -/
def State.tapeOf (s : State) (quad : Nat) (r : Recording) (t : Task) (comp : Option OpDesc) (valid : Bool) : Tape :=
  { ctx := t.ctx, tmpl := t.tmpl, qkey := s.quadKey t.ctx quad, obj := t.obj, entry := t.entry, cls := t.cls,
    policy := t.policy, valid := valid, patch := s.patchMask t.ctx t.obj t.tmpl, guards := r.mask,
    rectime := if valid then (s.stack (coreStack (quadCore quad 0))).timeReg else 0, rargs := t.rargs,
    entries := markKeep r.entries comp.toList, exit := r.exit, compv := comp, watch := [], vwatch := s.watches t, off := 0, size := 0 }

/-- The place of a tape among those of its quad (R147). -/
def State.tapePlace (s : State) (quad : Nat) (x : Tape) : Option Nat :=
  imagePlace (s.engine quad).reclaim.tapes x.ctx (s.ctx x.ctx).imageRoom x.image.length

/-- A tape's image is written to the area of its quad, where the context has one (R147). -/
def State.putImage (s : State) (x : Tape) (off : Nat) : State :=
  if (s.ctx x.ctx).tapeqsz.toNat = 0 then s else s.ctxPut x.ctx ((s.ctx x.ctx).imageArea x.qkey + off) x.image

/-- The engine writes what it has recorded, not valid yet, as it records (R147). -/
def State.streamOut (s : State) (quad : Nat) (r : Recording) : State :=
  match s.task? r.task with
  | none => s
  | some t =>
    let x := s.tapeOf quad r t none false
    match s.tapePlace quad x with
    | none => s
    | some off => s.putImage x off

/-- A recording is written. -/
def State.setRecording (s : State) (quad : Nat) (r : Recording) : State := s.modEngine quad (fun e => { e with record := some r })

/-- Descriptors of values in order, with their GUARDMASK bits, or none where one is rejected. -/
def describeAll (task : Nat) (rargs : List U64) (patch : BitVec 6) : List (Nat × Val) → Option (List OpDesc × BitVec 6)
  | [] => some ([], 0)
  | (i, v) :: t =>
    match describeVal task rargs patch i v, describeAll task rargs patch t with
    | some (d, m), some (ds, n) => some (d :: ds, m ||| n)
    | _, _ => none

/-- The sticky slots that an engine operator names beside its operands: AGSET's eight, MCAST's, EPBIND's four (R291 to R293; log 31). -/
def namedCount (opc : Nat) (f : Fields) : Nat :=
  if opc = 0x68 then 8 else if opc = 0x6D then (f.imm.toNat / 16 % 16 + 3) / 4 else if opc = 0x70 then 4 else 0

/-- The values in the slots that a command names. -/
def State.namedVals (s : State) (g : Firing) (opc : Nat) (f : Fields) : List (Nat × Val) :=
  (List.range (namedCount opc f)).filterMap (fun i =>
    match s.readSlot g (f.slot.toNat + i) with
    | .sticky _ v => some (f.slot.toNat + i, v)
    | _ => none)

/-- RECORD_CAPTURE (R127, R128): an engine command that a recording task dispatches is captured with the next index; the
firing then names its entry. A command outside 0x50 to 0xBF, and an operand that R131 rejects, end the recording. -/
def State.capture (s : State) (core : Nat) (g : Firing) (w : U128) : State × Firing :=
  let q := quadOf core
  let opc := (field w 120 8).toNat
  match s.recording? core g.task, s.task? g.task with
  | some r, some t =>
    if 0xC0 ≤ opc then (s.endRecording q 3, g)
    else
      let ops := [(0, g.l)] ++ g.r.toList.map (fun v => (1, v)) ++ g.t.toList.map (fun v => (2, v))
      let named := ((wordForm w).map (fun x => s.namedVals g x.1 x.2)).getD []
      let patch := s.patchMask t.ctx t.obj t.tmpl
      match describeAll t.id t.rargs patch ops, describeAll t.id t.rargs patch (named.map (fun p => (0, p.2))) with
      | some (ds, m), some (ns, m2) =>
        let d := depList r.entries (ancestorsIn t.id (g.vals ++ named.map Prod.snd))
        let e : TapeCmd :=
          { word := w, fp := g.fp, ip := g.ip, round := g.l.round, port := g.port, pos := quadPos core, ops := ds,
            named := (named.map Prod.fst).zip ns, deps := d.1, fullbar := d.2, keep0 := false, keep1 := false }
        let n := r.entries.length
        let r := { r with entries := markKeep r.entries (ds ++ ns) ++ [.cmd e], mask := r.mask ||| m ||| m2 }
        let s := s.setRecording q r
        if s.recordFull r then (s.endRecording q 5, g)
        else (s.streamOut q r, { g with replay := some (q, t.id, n), recorded := true })
      | _, _ => (s.endRecording q 2, g)
  | _, _ => (s, g)

/-- A firing is a recorded command of a task. -/
def Firing.recordedOf (g : Firing) (task : Nat) : Bool :=
  g.recorded && (match g.replay with
    | some (_, t, _) => t == task
    | none => false)

/-- The messages that wait at a core in any queue. -/
def Core.mails (k : Core) : List Mail :=
  k.inbox ++ k.dispatchQ ++ k.blocked ++ k.fillQueue.map Prod.snd ++ k.installs.flatMap Install.mail ++
  k.allocs.filterMap (fun a =>
    match a with
    | .arms m _ _ _ => some m
    | _ => none)

/-- Every recorded command of a task has completed and its output tokens have been delivered, and no operator of the task is in
dispatch or execution on the quad (R133, R186). -/
def State.recordQuiet (s : State) (quad task : Nat) : Bool :=
  let mine (v : Val) : Bool := match v.lin.out with
    | some (k, _) => k / 65536 == task
    | none => false
  s.work.all (fun g => !g.recordedOf task) &&
  (match s.cur with
   | some g => g.task != task
   | none => true) &&
  (List.range 4).all (fun p =>
    let k := s.core (quadCore quad p)
    k.engine.all (fun e => !e.2.recordedOf task) &&
    k.divider.all (fun d => d.fire.task != task) &&
    k.inbox.all (fun m =>
      match m.msg with
      | .token t _ => !mine t.val
      | _ => true))

/-- The frames of a task on its quad in order of allocation, the root frame first, each with its core (R134). -/
def State.taskFrames (s : State) (quad task : Nat) : List (Nat × Frame) :=
  let all := (List.range 4).flatMap (fun p =>
    let c := quadCore quad p
    let k := s.core c
    ((k.frames ++ k.spillDir.map Spilled.frame).filter (fun f => f.task == task)).map (fun f => (c, f)))
  sortBy (fun a b => (a.2.root && !b.2.root) || (a.2.root == b.2.root && decide (a.2.born ≤ b.2.born))) all

/-- A token of a snapshot before its value is described: frame, state, port, IP, slot, value. -/
structure RawTok where
  frame : Nat
  state : Nat
  port  : Bool
  ip    : BitVec 20
  slot  : Nat
  gout  : Bool
  val   : Val
  deriving DecidableEq, Repr

/-- The tokens in flight that a ready entry stands for: its operands as they were matched (R43). -/
def State.firingToks (s : State) (n : Nat) (g : Firing) : List RawTok :=
  let tok (p : Bool) (v : Val) : RawTok := { frame := n, state := 0, port := p, ip := g.ip, slot := 0, gout := false, val := v }
  match s.formOf g, g.r with
  | some (_, f), some r =>
    match f.ar with
    | .monadic => [tok g.port g.l]
    | .sticky => [tok g.port (if g.port then r else g.l)]
    | _ =>
      match s.readSlot g f.slot.toNat with
      | .sticky _ _ => [tok g.port (if g.port then r else g.l)]
      | _ => [{ tok true r with state := 1, slot := f.slot.toNat, ip := 0 }, tok false g.l]
  | _, _ => [tok g.port g.l]

/-- The tokens in flight that stand in an ORDMERGE's arms: on their way to it once more (log 59). -/
def Arms.toks (a : Arms) (n : Nat) : List RawTok :=
  let tok (p : Bool) (v : Val) : RawTok := { frame := n, state := 0, port := p, ip := a.ip, slot := 0, gout := false, val := v }
  a.left.map (tok false) ++ a.right.map (tok true)

/-- The firings of a core that hold tokens which are neither in a slot nor in a message: the ready classes, waiting FALLOCs and CALLs,
TIMEWAITs that wait. -/
def Core.heldFirings (k : Core) : List Firing :=
  (k.light ++ k.engine).map Prod.snd ++ (k.waits ++ k.waitRetry).map Wait.fire ++
  k.allocs.filterMap (fun a =>
    match a with
    | .firing g _ _ => some g
    | _ => none)

/-- The tokens of a task's frames: parked and sticky slots, and those in flight within the quad (R133); guards are the TAPEGRDs and
TAPEENDs that wait behind the one whose snapshot is taken. -/
def State.taskToks (s : State) (quad : Nat) (fs : List (Nat × Frame)) (guards : List Firing) : List RawTok :=
  let fps := fs.map (fun x => x.2.fp (s.vcoreOf x.1))
  let slots := (fs.zipIdx).flatMap (fun x => x.1.2.slots.filterMap (fun e =>
    match e.2 with
    | .empty => none
    | .parked p v => some ({ frame := x.2, state := 1, port := p, ip := 0, slot := e.1, gout := false, val := v } : RawTok)
    | .sticky p v => some { frame := x.2, state := 2, port := p, ip := 0, slot := e.1, gout := false, val := v }))
  let arms := (fs.zipIdx).flatMap (fun x => x.1.2.arms.flatMap (fun a => a.2.toks x.2))
  let cores := (List.range 4).map (fun p => s.core (quadCore quad p))
  let flight := cores.flatMap (fun k => k.mails.filterMap (fun m =>
    match m.msg with
    | .token t _ =>
      (fps.findIdx? (· == t.fp)).map (fun i =>
        ({ frame := i, state := 0, port := t.port, ip := t.ip, slot := 0, gout := false, val := t.val } : RawTok))
    | _ => none))
  let held := (guards ++ cores.flatMap Core.heldFirings).flatMap (fun g =>
    match fps.findIdx? (· == g.fp) with
    | some i => s.firingToks i g
    | none => [])
  slots ++ arms ++ held ++ flight

/-- A snapshot token: a DATA value that names a frame of the snapshot is stored by ordinal (R134). -/
def snapTok (task : Nat) (rargs : List U64) (patch : BitVec 6) (fps : List U32) (x : RawTok) : Option (SnapTok × BitVec 6) :=
  let make (d : OpDesc) (fr : Option Nat) : SnapTok :=
    { state := x.state, port := x.port, gout := x.gout, fpref := fr, frame := x.frame, ip := x.ip, slot := x.slot,
      round := x.val.round, prov := x.val.prov, desc := d }
  let lit (v : U64) : OpDesc := { opix := 0, src := 0, kind := x.val.kind, arg := 0, cmd := 0, lit := v }
  if x.gout then some (make (lit x.val.value) none, 0)
  else
    match describeVal task rargs patch 0 x.val with
    | some (d, m) => some (make d none, m)
    | none =>
      match (if x.val.kind = .scalar then fps.findIdx? (· == field x.val.value 32 32) else none) with
      | some i => some (make (lit (BitVec.ofNat 32 i ++ field x.val.value 0 32)) (some i), 0)
      | none => none

/-- The tokens of a snapshot with the mask bits they set. -/
def snapToks (task : Nat) (rargs : List U64) (patch : BitVec 6) (fps : List U32) : List RawTok → Option (List SnapTok × BitVec 6)
  | [] => some ([], 0)
  | x :: t =>
    match snapTok task rargs patch fps x, snapToks task rargs patch fps t with
    | some (a, m), some (as, n) => some (a :: as, m ||| n)
    | _, _ => none

/-- A snapshot of a task, with the mask bits and the descriptors in it; or the reason that ends the recording (R133,
R134, R138). out adds the token that TAPEGRD or TAPEEND emits. -/
def State.snapshot (s : State) (quad : Nat) (t : Task) (entry : Option Nat) (guards : List Firing) (out : Option (U32 × RawTok)) :
    Except Nat (Snapshot × BitVec 6) :=
  let fs := s.taskFrames quad t.id
  let fps := fs.map (fun x => x.2.fp (s.vcoreOf x.1))
  let extra := match out with
    | some (fp, x) => ((fps.findIdx? (· == fp)).map (fun i => { x with frame := i })).toList
    | none => []
  let raw := s.taskToks quad fs guards ++ extra
  if 256 < fs.length ∨ 256 < raw.length then .error 4
  else
    match snapToks t.id t.rargs (s.patchMask t.ctx t.obj t.tmpl) fps raw with
    | none => .error 2
    | some (toks, m) =>
      let frames := fs.map (fun x => ({
        cls := x.2.cls, vcore := s.vcoreOf x.1, pord := if x.2.root then none else fps.findIdx? (· == x.2.pfp),
        rip := x.2.rip, rport := x.2.rport, fround := x.2.fround, root := x.2.root, anchor := x.2.anchor,
        policy := x.2.policy } : SnapFrame))
      .ok ({ entry := entry, frames := frames, toks := toks }, m)

/-- The pages of a range by device key (R154), each that is mapped; fuel bounds the pages, of 2 MiB or more (R249). -/
def State.watchPages (s : State) (root : Nat) : Nat → Nat → Nat → List (Nat × Nat)
  | 0, _, _ => []
  | fuel + 1, va, n =>
    if n = 0 then []
    else
      let p : Nat × List (Nat × Nat) :=
        match walk s.hbm root va with
        | .ok leaf log _ =>
          let len := min n (2 ^ log - va % 2 ^ log)
          (len, [(s.writeKey { va := va, len := len, leaf := leaf, log := log }, len)])
        | .err _ => (min n (2 ^ 21 - va % 2 ^ 21), [])
      p.2 ++ s.watchPages root fuel (va + p.1) (n - p.1)

/-- Watched ranges by device key (R154): a range is registered at every page that it touches and that is mapped. -/
def State.watchKeys (s : State) (ctx : Nat) (ws : List (Nat × Nat)) : List (Nat × Nat) :=
  ws.flatMap (fun w => s.watchPages (s.ctx ctx).ctxroot.toNat (w.2 / 2 ^ 21 + 2) w.1 w.2)

/-- The close of a recording (R135 to R137), at its exit snapshot or when its task completes: the tape becomes valid, or the recording
ends with reason 8 or 5. The completion value belongs to a tape without exit snapshot. -/
def State.closeRecording (s : State) (quad : Nat) (r : Recording) (t : Task) : State :=
  let d := if r.exit.isSome then none
    else t.ended.bind (fun v => describeVal t.id t.rargs (s.patchMask t.ctx t.obj t.tmpl) 0 v)
  if r.exit.isNone && d.isNone then s.endRecording quad 8
  else
    let x := s.tapeOf quad { r with mask := r.mask ||| (d.map Prod.snd).getD 0 } t (d.map Prod.fst) true
    match s.tapePlace quad x with
    | none => s.endRecording quad 5
    | some off =>
      let x := { x with watch := s.watchKeys t.ctx x.vwatch, off := off, size := x.image.length }
      let s := s.modEngine quad (fun e =>
        { e with record := none, tapes := e.reclaim.tapes ++ [x], freed := e.freed ++ r.atGuard }.setLast t.ctx t.tmpl 8)
      (s.modTask t.id (fun t => { t with tape := .none })).putImage x off

/-- A TAPEGRD or TAPEEND outside a recording emits (R159, R160). -/
def State.guardPlain (s : State) (x : Firing × Fields × Bool) : State :=
  s.emit x.1 x.2.1 false (if x.2.2 then x.1.l else Val.scalar x.1.l.value x.1.l.round 0)

/-- The number of a guard of a task's template by its IP (R124). -/
def State.guardNo (s : State) (t : Task) (ip : BitVec 20) : Option Nat :=
  match (s.ctx t.ctx).obj? t.obj with
  | some o => (o.tmpls.find? (fun x => x.id == t.tmpl)).bind (fun x => x.guards.findIdx? (· == ip))
  | none => none

/-- The first TAPEGRD or TAPEEND that waits in a recording takes its snapshot (R133 to R135): the guard entry is recorded, or the
recording closes; then it emits. -/
def State.takeSnapshot (s : State) (quad : Nat) (r : Recording) (t : Task) (g : Firing) (f : Fields) (isEnd : Bool)
    (rest : List (Firing × Fields × Bool)) : State :=
  let n := r.entries.length
  let v : Val :=
    if isEnd then g.l else { Val.scalar g.l.value g.l.round 0 with lin := { out := none, anc := [lineKey t.id n] } }
  let out := (s.destFp g f.d0).map (fun fp =>
    (fp, ({ frame := 0, state := 0, port := f.d0.port, ip := f.d0.ip, slot := 0, gout := !isEnd, val := v } : RawTok)))
  let fails (s : State) (e : Nat) : State := ((s.setRecording quad { r with atGuard := rest }).endRecording quad e).emit g f false v
  match s.snapshot quad t (if isEnd then none else some n) (rest.map Prod.fst) out with
  | .error e => fails s e
  | .ok (x, m) =>
    let r := { r with mask := r.mask ||| m, atGuard := rest, entries := markKeep r.entries (x.toks.map SnapTok.desc) }
    if isEnd then
      let r := { r with exit := some x }
      ((s.setRecording quad r).closeRecording quad r t).emit g f false v
    else
      let imm := f.imm.toNat
      let e : TapeGuard :=
        { gnum := (s.guardNo t g.ip).getD 0, gip := g.ip, ip := BitVec.ofNat 20 imm, cls := imm / 2 ^ 20 % 8, pos := quadPos g.core,
          pred := g.l.value, snap := x }
      let r := { r with entries := r.entries ++ [.guard e] }
      if s.recordFull r then fails s 5 else ((s.setRecording quad r).streamOut quad r).emit g f false v

/-- GUARD_SNAPSHOT (R133 to R135, R138): those that wait in a recording which has ended emit; else, once every recorded command has
completed, the first one's snapshot is taken. -/
def execGuardSnapshot (quad : Nat) (s : State) : Host.Outcome State Fault Refusal :=
  .next (
    match (s.engine quad).freed with
    | _ :: _ => (s.engine quad).freed.foldl State.guardPlain (s.modEngine quad (fun e => { e with freed := [] }))
    | [] =>
      match (s.engine quad).record with
      | none => s
      | some r =>
        match r.atGuard, s.task? r.task with
        | (g, f, isEnd) :: rest, some t =>
          if s.recordQuiet quad r.task then s.takeSnapshot quad r t g f isEnd rest else s
        | _, _ => s)

/-! ## Invalidation (R153, R155) -/

/-- Tapes of a quad that satisfy a test become invalid, and a recording of such a key ends with reason 10. -/
def State.invalidateOn (s : State) (quad : Nat) (bad : Nat → Nat → U32 → Bool) : State × Nat :=
  let e := s.engine quad
  let hit := e.tapes.filter (fun t => t.valid && bad t.ctx t.tmpl t.obj)
  let s := s.modEngine quad (fun e =>
    ({ e with tapes := e.tapes.map (fun t => if bad t.ctx t.tmpl t.obj then { t with valid := false } else t) } : TapeEngine).reclaim)
  let s := match e.record with
    | some r =>
      if bad r.ctx r.tmpl (((s.task? r.task).map Task.obj).getD 0) then s.endRecording quad 10 else s
    | none => s
  (s, hit.length)

/-- The same on every quad that has a tape engine with something in it. -/
def State.invalidate (s : State) (bad : Nat → Nat → U32 → Bool) : State × Nat :=
  s.tapes.foldl (fun a e => let r := a.1.invalidateOn e.1 bad; (r.1, a.2 + r.2)) (s, 0)

/-! ## Replay (R139 to R143) -/

/-- The replay of a task on a quad. -/
def TapeEngine.replay? (e : TapeEngine) (task : Nat) : Option Replay := e.replays.find? (fun r => r.task == task)

/-- A change to a replay. -/
def State.modReplay (s : State) (quad task : Nat) (h : Replay → Replay) : State :=
  s.modEngine quad (fun e => { e with replays := e.replays.map (fun r => if r.task == task then h r else r) })

/-- A replay leaves its engine with an outcome (R163), and the space of an invalid tape that it held is reclaimed (R155). -/
def State.endReplay (s : State) (quad : Nat) (r : Replay) (outcome : Nat) : State :=
  let s := s.modEngine quad (fun e =>
    ({ e with replays := e.replays.filter (fun x => x.task != r.task) } : TapeEngine).reclaim.setLast r.tape.ctx r.tape.tmpl
      (BitVec.ofNat 64 outcome))
  s.modTask r.task (fun t => { t with tape := .none })

/-- A firing is a replayed command of a task, of a given entry or of any. -/
def Firing.replayOf (g : Firing) (task : Nat) (entry : Option Nat) : Bool :=
  !g.recorded && (match g.replay with
    | some (_, t, e) => t == task && (entry.isNone || entry == some e)
    | none => false)

/-- A replayed command still stands in a ready class or an engine. -/
def State.replayAtWork (s : State) (task : Nat) (entry : Option Nat) : Bool :=
  s.work.any (fun g => g.replayOf task entry) ||
  s.cores.any (fun k => k.2.engine.any (fun e => e.2.replayOf task entry)) ||
  (match s.cur with
   | some g => g.replayOf task entry
   | none => false)

/-- An entry of a replay has completed: a command issued and at work no more, a guard passed. -/
def State.entryDone (s : State) (r : Replay) (i : Nat) : Bool :=
  match r.tape.entries[i]? with
  | some (.guard _) => r.passed.contains i
  | some (.cmd _) => r.issued.contains i && !s.replayAtWork r.task (some i)
  | none => true

/-- The engine to which an opcode's commands go, for the order of R140: the split-phase unit and stream controller, the
vector, matrix, synchronisation and generator engines. -/
def engineOf (w : U128) : Nat :=
  let opc := (field w 120 8).toNat
  if opc = 0x69 ∨ opc = 0x6A then 16 + (field w 0 4).toNat
  else if opc < 0x68 then 0
  else if opc < 0x80 then 1
  else if opc < 0xA0 then 2
  else if opc < 0xB0 then 3
  else 4

/-- A command entry may be issued (R140): its dependences and every guard before it are done, no command before it for the same
engine of the same core is still to be issued, and the core has a ready entry free (R183). -/
def State.entryReady (s : State) (quad : Nat) (r : Replay) (i : Nat) : Bool :=
  match r.tape.entries[i]? with
  | some (.cmd c) =>
    !r.issued.contains i && !(s.core (quadCore quad c.pos)).readyFull &&
    (if c.fullbar then List.range i else c.deps).all (s.entryDone r) &&
    (List.range i).all (fun j =>
      match r.tape.entries[j]? with
      | some (.guard _) => r.passed.contains j
      | some (.cmd b) => !(b.pos == c.pos && engineOf b.word == engineOf c.word) || r.issued.contains j
      | none => true)
  | _ => false

/-- The value of a descriptor in a replay (R140). -/
def OpDesc.rebuild (d : OpDesc) (args : List U64) (kept : Table Val) (round : BitVec 8) : Val :=
  let v (x : U64) : Val := { Val.scalar x round provData with kind := d.kind }
  match d.src with
  | 0 => v d.lit
  | 1 => v (args[d.arg]?.getD 0 + d.lit)
  | 2 => v ((Table.find kept (2 * d.cmd)).map Val.value |>.getD 0)
  | _ => v ((Table.find kept (2 * d.cmd + 1)).map Val.value |>.getD 0)

/-- The operand of a command with an index, rebuilt. -/
def operandOf (ops : List OpDesc) (k : Nat) (args : List U64) (kept : Table Val) (round : BitVec 8) : Option Val :=
  (ops.find? (fun d => d.opix == k)).map (fun d => d.rebuild args kept round)

/-- A command entry is issued: it enters the engine ready classes of its core with its rebuilt operands (R140, R145). Its
class is that of the context, as with PRI 0: a record of the image holds no PRI, and the commands for one engine of one core
keep index order (R140, R149, R182; DEDUCED, log 20). -/
def State.issueEntry (s : State) (quad : Nat) (r : Replay) (t : Task) (i : Nat) : State :=
  match r.tape.entries[i]? with
  | some (.cmd c) =>
    let core := quadCore quad c.pos
    let op (k : Nat) : Option Val := operandOf c.ops k t.rargs r.kept c.round
    let g : Firing :=
      { core := core, fp := c.fp, ip := c.ip, ctx := t.ctx, obj := t.obj, task := t.id, port := c.port,
        l := (op 0).getD (Val.scalar 0 c.round provData), r := op 1, t := op 2,
        replay := some (quad, t.id, i), word := some c.word, recorded := false,
        named := c.named.map (fun p => (p.1, p.2.rebuild t.rargs r.kept c.round)) }
    let s := s.modReplay quad t.id (fun r => { r with issued := r.issued ++ [i] })
    s.modCore core (fun k => { k with engine := k.engine ++ [((s.ctx t.ctx).cls, g)] })
  | _ => s

/-- The frame that a record of a snapshot makes again (R142): n is its number among all of them, fps the frames made so far. A frame
whose parent is the task's continuation gets the continuation whole in slot 1 (log 120), every other one its parent with the
record's RIP and RPORT. -/
def SnapFrame.remake (x : SnapFrame) (t : Task) (children : Nat) (fps : List U32) : Frame :=
  let root := t.rootFrame none x.anchor
  let fr : Frame :=
    { root with
      cls := x.cls, policy := x.policy, fround := x.fround, root := x.root, slots := [], live := BitVec.ofNat 32 children }
  match x.pord with
  | none => fr
  | some p =>
    { fr with
      hostc := false, owes := true, pobj := some t.obj, pfp := fps[p]?.getD 0, rip := x.rip, rport := x.rport }

/-- The frames of a snapshot are made again in order (R142); the state and their pointers, or none where there is no
room. A frame without a parent ordinal takes the task's continuation (log 120). -/
def State.recreate (s : State) (t : Task) (frames : List SnapFrame) : List SnapFrame → List U32 → Option (State × List U32)
  | [], fps => some (s, fps)
  | x :: rest, fps =>
    match (s.ctx t.ctx).phys x.vcore.toNat with
    | none => none
    | some core =>
      let fr := x.remake t (frames.filter (fun y => y.pord == some fps.length)).length fps
      match s.makeRoom core (fun k => !(k.framePlaces (classUnits x.cls)).isEmpty) 4096 with
      | (_, false) => none
      | (s, true) =>
        match s.allocFrame core fr with
        | none => none
        | some (s, fp) => s.recreate t frames rest (fps ++ [fp])

/-- A token of a snapshot is written again (R142); gout is the value that TAPEGRD passes on. -/
def State.restoreTok (s : State) (t : Task) (kept : Table Val) (fps : List U32) (gout : U64) (x : SnapTok) : State :=
  let fp := fps[x.frame]?.getD 0
  let v0 := x.desc.rebuild t.rargs kept x.round
  let v1 : Val := match x.fpref with
    | some i => { v0 with value := fps[i]?.getD 0 ++ field v0.value 0 32 }
    | none => v0
  let v : Val := { (if x.gout then { v1 with value := gout, kind := .scalar } else v1) with prov := x.prov, lin := Lineage.none }
  match s.fpCore t.ctx fp with
  | none => s
  | some core =>
    match x.state with
    | 0 => s.send core t.ctx { fp := fp, ip := x.ip, port := x.port, val := v } false
    | 1 => s.modCore core (fun k => k.modFrame fp (fun fr => fr.setSlot x.slot (.parked x.port v)))
    | _ => s.modCore core (fun k => k.modFrame fp (fun fr => fr.setSlot x.slot (.sticky x.port v)))

/-- The probe frame of a replay goes (R141 to R143). -/
def State.freeProbe (s : State) (ctx : Nat) (r : Replay) : State :=
  match r.probe with
  | some (_, fp) =>
    match s.fpCore ctx fp with
    | some core => s.freeOrWait core fp
    | none => s
  | none => s

/-- HAND_OVER (R142): the task is made again from a snapshot and the replay ends; none where no room can be made for a
frame. -/
def State.handOver (s : State) (quad : Nat) (r : Replay) (t : Task) (x : Snapshot) (gout : U64) (outcome : Nat) :
    Option State :=
  match s.recreate t x.frames x.frames [] with
  | none => none
  | some (s, fps) =>
    let s := x.toks.foldl (fun s k => s.restoreTok t r.kept fps gout k) s
    let s := (s.freeProbe t.ctx r).endReplay quad r outcome
    some (s.modTask t.id (fun t => { t with rootFp := fps.headD 0, bound := true }))

/-- REPLAY_ISSUE (R140, R142): the lowest entry that may be issued is; with all of a tape done, its exit snapshot is handed
over. -/
def execReplayIssue (quad task : Nat) (s : State) : Host.Outcome State Fault Refusal :=
  .next (
    match (s.engine quad).replay? task, s.task? task with
    | some r, some t =>
      if r.fault.isSome || (s.ctx t.ctx).phase ≠ .active then s
      else
        let n := r.tape.entries.length
        match (List.range n).find? (s.entryReady quad r) with
        | some i => s.issueEntry quad r t i
        | none =>
          match r.tape.exit with
          | some x => if (List.range n).all (s.entryDone r) then (s.handOver quad r t x 0 2).getD s else s
          | none => s
    | _, _ => s)

/-- PROBE_START (R141): every entry before a guard is done, and its probe frame is allocated. -/
def execProbeStart (quad task : Nat) (s : State) : Host.Outcome State Fault Refusal :=
  .next (
    match (s.engine quad).replay? task with
    | none => s
    | some r =>
      let next : Option Nat := (List.range r.tape.entries.length).find? (fun (i : Nat) =>
        (r.tape.entries[i]?.bind TapeEntry.guard?).isSome && !r.passed.contains i)
      match next with
      | none => s
      | some i =>
        if r.probe.isSome || r.fault.isSome || (s.ctx r.tape.ctx).phase ≠ .active || !((List.range i).all (s.entryDone r)) then s
        else
          match r.tape.entries[i]?.bind TapeEntry.guard? with
          | some x =>
            (s.modReplay quad task (fun r => { r with probe := some (i, 0) })).allocate (quadCore quad x.pos) (.probe quad task)
          | none => s)

/-- REPLAY_COMPLETE (R143): every entry is done without a miss, and the tape has no exit snapshot: the task ends with COMPV. -/
def execReplayComplete (quad task : Nat) (s : State) : Host.Outcome State Fault Refusal :=
  .next (
    match (s.engine quad).replay? task, s.task? task with
    | some r, some t =>
      if r.fault.isSome || r.tape.exit.isSome || !((List.range r.tape.entries.length).all (s.entryDone r)) then s
      else
        let v := match r.tape.compv with
          | some d => d.rebuild t.rargs r.kept 0
          | none => Val.scalar 0 0 provData
        (s.endReplay quad r 1).modTask task (fun t => { t with ended := some v, freed := true })
    | _, _ => s)

/-- The unfinished commands of a replay are all parked (R143). -/
def State.replayParked (s : State) (task : Nat) : Bool :=
  let quiet (g : Firing) : Bool := !g.replayOf task none
  s.cores.all (fun e =>
    let k := e.2
    k.cmds.all (fun c => quiet c.fire || c.parked.isSome) && k.engine.all (fun x => quiet x.2) &&
    k.gens.all (fun a => a.2.run.all quiet || a.2.parked.isSome) &&
    ({ k with cmds := [], gens := k.gens.map (fun a => (a.1, { a.2 with run := none })) } : Core).work.all quiet) &&
  ({ s with cores := [] } : State).work.all quiet &&
  (match s.cur with
   | some g => quiet g
   | none => true)

/-- REPLAY_FAULT (R143): a fault has stopped the replay, and its commands have completed or parked: the fault token goes to
the continuation. -/
def execReplayFault (quad task : Nat) (s : State) : Host.Outcome State Fault Refusal :=
  .next (
    match (s.engine quad).replay? task, s.task? task with
    | some r, some t =>
      match r.fault with
      | none => s
      | some v =>
        if !s.replayParked task then s
        else
          let s := (s.freeProbe t.ctx r).endReplay quad r 5
          (s.deliver t (quadCore quad 0) v).dropTask task
    | _, _ => s)

/-- REPLAY_CURSOR_GRANT (R126): the first replay that waits for a cursor gets one. -/
def execReplayCursorGrant (quad : Nat) (s : State) : Host.Outcome State Fault Refusal :=
  .next (s.modEngine quad (fun e =>
    match e.waiting with
    | r :: rest => if e.replays.length < 4 then { e with waiting := rest, replays := e.replays ++ [r] } else e
    | [] => e))

/-- What binding does with a task of TMODE other than NORMAL (R126, R139): it goes on to its root frame, replays, or ends
with TAPE_STALE. -/
inductive TapeStart where
  | bind (s : State)
  | replay (s : State)
  | stale (s : State)

/-- R126 and R139 for a task at its quad. -/
def State.tapeStart (s : State) (t : Task) (quad : Nat) : TapeStart :=
  let e := s.engine quad
  let tape := e.tape? t.ctx t.tmpl
  let ofKey := match e.record with
    | some r => r.ctx == t.ctx && r.tmpl == t.tmpl
    | none => false
  let out (s : State) (n : Nat) : State := s.modEngine quad (fun e => e.setLast t.ctx t.tmpl (BitVec.ofNat 64 n))
  let busy : TapeStart := .bind ((out s 10).modTask t.id (fun t => { t with tape := .busy }))
  let stale : TapeStart := .stale (out s 6)
  let record : TapeStart :=
    if e.record.isSome then busy
    else
      let r : Recording :=
        { task := t.id, ctx := t.ctx, tmpl := t.tmpl, entries := [], mask := 0, open_ := true, exit := none, atGuard := [] }
      let s := s.modEngine quad (fun e => { e.drop t.ctx t.tmpl with record := some r })
      .bind (s.modTask t.id (fun t => { t with tape := .record }))
  let replay (x : Tape) : TapeStart :=
    if x.obj ≠ t.obj ∨ x.entry ≠ t.entry ∨ x.cls ≠ t.cls then stale
    else if (List.range 6).any (fun a => bitOf x.guards.toNat a && t.rargs[a]?.getD 0 != x.rargs[a]?.getD 0) then
      .bind (out s 4)
    else
      let r : Replay := { task := t.id, tape := x, issued := [], passed := [], kept := [], probe := none, fault := none }
      let room := decide (e.replays.length < 4) && e.waiting.isEmpty
      let s := s.modEngine quad (fun e =>
        if room then { e with replays := e.replays ++ [r] } else { e with waiting := e.waiting ++ [r] })
      .replay (s.modTask t.id (fun t => { t with tape := if room then .replay else .waiting, bound := true }))
  let usable := (tape.filter Tape.valid).bind s.readTape
  match t.tmode.toNat with
  | 1 => if ofKey then busy else record
  | 2 =>
    match usable with
    | some x => if ofKey then stale else replay x
    | none => stale
  | 3 =>
    if ofKey then busy
    else
      match usable with
      | some x => replay x
      | none => record
  | _ => .bind s

/-! ## The instructions (R157 to R163) -/

/-- TAPEEND (R135, R159): L goes to dest0 unchanged, after the exit snapshot where the task records; the recording has ended then. -/
def execTapeend (f : Fields) (s : State) : Host.Outcome State Fault Refusal :=
  .next (s.operate .scalars f (fun s g l _ _ =>
    match s.recording? g.core g.task with
    | some r => s.setRecording (quadOf g.core) { r with open_ := false, atGuard := r.atGuard ++ [(g, f, true)] }
    | none => s.emit g f false l))

/-- A guard's probe has reached the TAPEGRD of the guard (R141): the guard passes, or hand-over follows. Where no room can be made
for the frames the firing goes back to its ready class. -/
def State.probeGuard (s : State) (g : Firing) (quad : Nat) (r : Replay) (t : Task) (n : Nat) (x : TapeGuard) : State :=
  if g.l.value = x.pred then
    (s.freeProbe t.ctx r).modReplay quad t.id (fun r => { r with probe := none, passed := r.passed ++ [n] })
  else
    match s.handOver quad r t x.snap g.l.value (3 + 256 * x.gnum + 65536 * n) with
    | none => s.modCore g.core (fun k => { k with light := (0, g) :: k.light })
    | some s => s.event (coreStack (quadCore quad 0)) 1 t.ctx (s.quadKey t.ctx quad).toNat
        (BitVec.ofNat 32 (t.tmpl + 65536 * x.gnum))

/-- The replay and guard entry whose probe the firing ends: it stands in the probe frame, at the guard's IP (R141). -/
def State.probing (s : State) (g : Firing) : Option (Replay × Nat × TapeGuard) :=
  match (s.engine (quadOf g.core)).replay? g.task with
  | none => none
  | some r =>
    match r.probe with
    | none => none
    | some (n, fp) =>
      match r.tape.entries[n]?.bind TapeEntry.guard? with
      | some x => if g.fp == fp && g.ip == x.gip then some (r, n, x) else none
      | none => none

/-- TAPEGRD (R133, R141, R160): it guards a choice in a recording task, ends a probe, and else only clears the tag. -/
def execTapegrd (f : Fields) (s : State) : Host.Outcome State Fault Refusal :=
  .next (s.operate .scalars f (fun s g _ _ _ =>
    let q := quadOf g.core
    match s.probing g, s.task? g.task with
    | some (r, n, x), some t => s.probeGuard g q r t n x
    | _, t =>
      match s.recording? g.core g.task, t with
      | some r, some t =>
        if (s.guardNo t g.ip).isNone then (s.endRecording q 9).guardPlain (g, f, false)
        else s.setRecording q { r with atGuard := r.atGuard ++ [(g, f, false)] }
      | _, _ => s.guardPlain (g, f, false)))

/-- TAPEPAT (R161): L's value with the tag that the instruction claims. -/
def retag (p : BitVec 4) (l : Val) : Val := { l with prov := p, lin := { out := none, anc := l.lin.anc } }

/-- TAPEPAT.ARG (R161). -/
def execTapepatArg (f : Fields) (s : State) : Host.Outcome State Fault Refusal :=
  .next (s.operate .scalars f (fun s g l _ _ => s.emit g f false (retag (BitVec.ofNat 4 (1 + f.imm.toNat)) l)))

/-- TAPEPAT.CONST (R161). -/
def execTapepatConst (f : Fields) (s : State) : Host.Outcome State Fault Refusal :=
  .next (s.operate .scalars f (fun s g l _ _ => s.emit g f false (retag 0 l)))

/-- The tapes that TAPEDROP names (R162). -/
def dropTest (f : Fields) (ctx : Nat) (c t : Nat) : Bool := c == ctx && (bitAt f.imm 16 || t == f.imm.toNat % 65536)

/-- TAPEDROP.QUAD (R162). -/
def execTapedropQuad (f : Fields) (s : State) : Host.Outcome State Fault Refusal :=
  .next (s.operate .scalars f (fun s g _ _ _ =>
    let r := s.invalidateOn (quadOf g.core) (fun c t _ => dropTest f g.ctx c t)
    r.1.emit g f false (Val.scalar (BitVec.ofNat 64 r.2) g.l.round provData)))

/-- TAPEDROP.ALL (R162). -/
def execTapedropAll (f : Fields) (s : State) : Host.Outcome State Fault Refusal :=
  .next (s.operate .scalars f (fun s g _ _ _ =>
    let r := s.invalidate (fun c t _ => dropTest f g.ctx c t)
    r.1.emit g f false (Val.scalar (BitVec.ofNat 64 r.2) g.l.round provData)))

/-- TAPEINFO's value (R163). Whether the tape store holds the header of a tape that has an image is not stated (log 3). -/
def State.tapeinfo (s : State) (fn quad ctx tmpl : Nat) : Nat :=
  let e := s.engine quad
  let tape := (e.tape? ctx tmpl).filter (fun t => t.valid && (s.readTape t).isSome)
  match fn with
  | 0 =>
    let recording := match e.record with
      | some r => r.ctx == ctx && r.tmpl == tmpl
      | none => false
    let resident := if (s.ctx ctx).tapeqsz.toNat = 0 then 1 else s.choice 2
    if recording then 1
    else if tape.isSome then 2 + 4 * resident
    else if e.holds ctx tmpl then 3 + 4 * resident
    else 0
  | 1 => (tape.map (fun t => t.entries.length)).getD 0
  | _ => ((e.last.find? (fun x => x.1 == ctx && x.2.1 == tmpl)).map (fun x => x.2.2.toNat)).getD 0

/-- TAPEINFO (R163). -/
def execTapeinfo (f : Fields) (s : State) : Host.Outcome State Fault Refusal :=
  .next (s.operate .scalars f (fun s g _ _ _ =>
    let v := s.tapeinfo f.fn.toNat (quadOf g.core) g.ctx (f.imm.toNat % 65536)
    s.spend.emit g f false (Val.scalar (BitVec.ofNat 64 v) g.l.round provData)))

end Sys2Proof.Machine
end

