-- ==== Sys2Proof/Machine/Bind.lean ====
section
/-! DEFINITION. Binding: a distributor's bind packets (R109, R125, R126, R167, R168, R170), TAPEREC and TAPEPLAY (R158), and the completion of tasks (R464, R465, R467). -/

namespace Sys2Proof.Machine

/-! ## Binding (R109) -/

/-- The record agrees with its object (R109): the entry and its class, and the template of a task with TMODE. -/
def ObjRec.binds (o : ObjRec) (t : Task) : Bool :=
  o.entries.contains (t.entry, t.cls) && (t.tmode == 0 || (o.taped && o.tmpls.any (fun x => x.id == t.tmpl)))

/-- The object of a packet's task waits for its LOAD (R177). -/
def State.packetWaits (s : State) (p : BindPacket) : Bool :=
  match s.task? p.task with
  | some t => decide (s.objStatus t.ctx t.obj = .loading)
  | none => false

/-- The target core checks a record and binds it (R109, R126, R169, R170). -/
def State.bindOn (s : State) (t : Task) (p : BindPacket) (core : Nat) (anchor : BitVec 12) : State :=
  match (s.part (coreStack core) t.ctx).state t.obj with
  | .pending => s.hold (coreStack core) t.ctx (.bind p)
  | .draining | .disabled => s.taskFault t core .taskMalformed
  | .enabled =>
    match s.objOn core t.ctx t.obj with
    | .usable o =>
      if !o.binds t then s.taskFault t core .taskMalformed
      else
        let share := p.share.map Prod.fst
        if t.tmode = 0 then s.allocate core (.bind t.id share anchor)
        else
          match s.tapeStart t (quadOf core) with
          | .bind s => s.allocate core (.bind t.id share anchor)
          | .replay s => s
          | .stale s => s.taskFault t core .tapeStale
    | _ => s.taskFault t core .taskMalformed

/-- The target of a bind packet among the candidates of a stack (R168): the share of a range part stays in its own stack,
and TAPEREC and TAPEPLAY stay in their quad (log 18). -/
def State.bindTarget (s : State) (t : Task) (p : BindPacket) (stack anchor : Nat) : Option (Nat × Nat) :=
  let c := s.ctx t.ctx
  let k := s.stack stack
  let key := t.args.head?.getD 0
  let aim (cs : List (Nat × Nat)) (policy : Nat) : Option (Nat × Nat) :=
    s.target t.ctx cs anchor policy key (Table.look 0 k.cursors t.ctx) k.reports
  match aim (c.cores stack) t.policy.toNat with
  | none => none
  | some x =>
    match p.share, p.quad with
    | some _, _ => if coreStack x.2 = stack then some x else aim (c.cores stack) 0
    | none, none => some x
    | none, some q =>
      if quadOf x.2 = q then some x
      else
        let cs := c.region.filter (fun y => quadOf y.2 == q)
        match aim cs t.policy.toNat with
        | some y => if quadOf y.2 = q then some y else aim cs 0
        | none => aim cs 0

/-- A packet goes to the distributor of another stack (R167, R168). -/
def State.forwardBind (s : State) (stack : Nat) (p : BindPacket) : State :=
  s.modStack stack (fun k => { k with binds := k.binds ++ [p] })

/-- A distributor resolves a bind packet and sends it to its target (R109, R167, R168). -/
def State.bindPacket (s : State) (stack : Nat) (p : BindPacket) : State :=
  match s.task? p.task with
  | none => s
  | some t =>
    let cs := (s.ctx t.ctx).cores stack
    match cs.head? with
    | none => if s.homeStack t.ctx = stack then s else s.forwardBind (s.homeStack t.ctx) p
    | some low =>
      let anchor := match p.issuer with
        | some i => if cs.any (fun x => x.2 == i) then i else low.2
        | none => low.2
      let place (s : State) (core : Nat) : State := s.bindOn t p core (s.vcoreOf anchor)
      let byPlace : State :=
        match s.bindTarget t p stack anchor with
        | none => s.taskFault t low.2 .taskMalformed
        | some (v, core) =>
          if coreStack core ≠ stack then s.forwardBind (coreStack core) p
          else if t.policy = 2 then
            place (s.modStack stack (fun k => { k with cursors := Table.put k.cursors t.ctx v })) core
          else place s core
      match p.share with
      | some (_, core) => if core = byPolicy then byPlace else place s core
      | none => byPlace

/-- The first packet of a list that does not wait for a LOAD, and the others. -/
def State.nextPacket (s : State) : List BindPacket → Option (BindPacket × List BindPacket)
  | [] => none
  | p :: t => if s.packetWaits p then (s.nextPacket t).map (fun x => (x.1, p :: x.2)) else some (p, t)

/-- BIND (R109): a bind packet of a distributor reaches its target core. -/
def execBind (stack : Nat) (s : State) : Host.Outcome State Fault Refusal :=
  .next (
    match s.nextPacket (s.stack stack).binds with
    | none => s
    | some (p, rest) => (s.modStack stack (fun k => { k with binds := rest })).bindPacket stack p)

/-! ## TAPEREC and TAPEPLAY (R158) -/

/-- A task record in slots is built as for LAUNCH and bound on the quad of the firing core (R158); mode says what becomes
of its TMODE. -/
def State.tapeLaunch (s : State) (g : Firing) (f : Fields) (mode : BitVec 2 → BitVec 2) : State :=
  match s.recSlots g f.slot.toNat with
  | .error (e, n) => s.fault g f e n
  | .ok ws =>
    match s.launchWords g f ws with
    | none => s.fault g f .noParent 0
    | some ws =>
      let w0 := ws[0]?.getD 0
      let w0 := field w0 62 2 ++ mode (field w0 60 2) ++ field w0 0 60
      let ws := w0 :: ws.drop 1
      if bitAt w0 63 then s.fault g f .operandRange 0
      else if recMalformed ws (s.ctx g.ctx).hcwlen.toNat then s.fault g f .taskMalformed 0
      else
        let prio := ((s.task? g.task).map Task.prio).getD 0
        let stack := coreStack g.core
        let t := (Rec.of ws).task s.ids g.ctx prio stack
        let s := ((s.liveInc g.ctx ((s.destFp g f.d1).getD 0)).newId).setTask t.id t
        let p : BindPacket := { task := t.id, share := none, issuer := some g.core, quad := some (quadOf g.core) }
        (s.forwardBind stack p).emit g f false (Val.scalar 0 g.l.round 0)

/-- TAPEREC (R158). -/
def execTaperec (f : Fields) (s : State) : Host.Outcome State Fault Refusal :=
  .next (s.operate .scalars f (fun s g _ _ _ => s.tapeLaunch g f (fun _ => 1)))

/-- TAPEPLAY (R158). -/
def execTapeplay (f : Fields) (s : State) : Host.Outcome State Fault Refusal :=
  .next (s.operate .scalars f (fun s g _ _ _ => s.tapeLaunch g f (fun m => if m = 3 then 3 else 2)))

/-! ## Completion (R464) -/

/-- The quad that holds a task's recording, if it records. -/
def State.recordQuad (s : State) (task : Nat) : Option Nat :=
  (s.tapes.find? (fun e =>
    match e.2.record with
    | some r => r.task == task
    | none => false)).map Prod.fst

/-- TASK_COMPLETION (R464, R465): an ended task whose root frame is freed and whose accesses are all performed completes
once. A task that recorded closes its recording first (R136, R137). -/
def execTaskCompletion (task : Nat) (s : State) : Host.Outcome State Fault Refusal :=
  .next (
    match s.task? task with
    | none => s
    | some t =>
      match t.ended with
      | none => s
      | some v =>
        if !(s.ctx t.ctx).live || !t.freed || s.work.any (fun g => g.task == task) then s
        else
          let s := match s.recordQuad task with
            | some q =>
              match (s.engine q).record with
              | some r => s.closeRecording q r t
              | none => s
            | none => s
          let src :=
            if t.range.isSome then 4096 + ((t.parts.head?.map Prod.fst).getD t.stack)
            else (s.fpCore t.ctx t.rootFp).getD (4096 + t.stack)
          (s.deliver t src v).dropTask task)

end Sys2Proof.Machine
end

