-- ==== Sys2Proof/Machine/Matrix.lean ====
section
/-! DEFINITION. The matrix array (R318 to R345): the binding of B, the accumulators and their queues, gangs, and the events MATRIX_ITEM_START, ROW_FIRING, MATRIX_ITEM_FINISH, MARKER_ITEM, BINDING_RELEASE and GANG_GRANT. -/

namespace Sys2Proof.Machine

/-! ## Shape words (R325) -/

/-- A shape word that is well formed. -/
structure ShapeWord where
  oport : Nat
  arow  : Nat
  m     : Nat
  n     : Nat
  k     : Nat
  deriving DecidableEq, Repr

/-- The shape word of an operand, where its fields keep their limits; rows says that M counts rows, depth that K may be
other than 0, and out that OPORT is read (R325). -/
def shapeWord (v : U64) (rows depth out : Bool) : Option ShapeWord :=
  let x := v.toNat
  let w : ShapeWord := {
    oport := bitsAt x 35 3, arow := bitsAt x 28 7, m := bitsAt x 20 8, n := bitsAt x 12 8, k := bitsAt x 0 12 }
  if 2 ^ 38 ≤ x ∨ (!out && w.oport != 0) ∨ 128 < w.m ∨ (!rows && w.m != 0) ∨ 128 < w.n ∨ 2048 < w.k ∨
      (!depth && w.k != 0) ∨ 128 < w.arow + w.m then none
  else some w

/-! ## Arithmetic (R97, R98, R327, R329) -/

/-- The chunk size of a type of A (R97, R98). -/
def macChunk (t : EType) : Nat :=
  match t with
  | .f32 => 4
  | .bf16 | .f16 => 16
  | _ => 32

/-- A chunk's exact sum multiplied by a power of two (R97). -/
def Total.scaled (t : Total) (k : Int) : Total :=
  if 0 ≤ k then { t with v := t.v * 2 ^ k.toNat } else { t with u := t.u + (-k).toNat }

/-- An element of a block with a scale byte: NaN, with no flag, where the scale is NaN (R88). -/
def blockElem (t : EType) (scale : Nat) (bits : Nat) : Num :=
  if scale = 0xFF then .nan false else decodeFloat t bits

/-- One chunk added to an F32 accumulator (R97); sa and sb are the scale bytes of the chunk's blocks, 127 where there are none. -/
def macFloat (ta tb : EType) (acc : Nat) (ps : List (Nat × Nat)) (sa sb : Nat) : Nat × Flags :=
  let s := ps.foldl (fun (t : Total) (p : Nat × Nat) =>
    let q := numProduct (blockElem ta sa p.1) (blockElem tb sb p.2)
    let t := t.add q.1
    { t with sig := t.sig ||| q.2 }) { Total.start with zeros := 1 }
  let x := rounded .f32 .rne false 0 ((s.scaled ((sa : Int) + (sb : Int) - 254)).result .rne)
  let y := rounded .f32 .rne false 0 (numAdd .rne (decodeFloat .f32 acc) (decodeFloat .f32 x.1))
  (y.1, x.2 ||| y.2)

/-- One chunk added to an I32 accumulator (R98). -/
def macInt (acc : Nat) (ps : List (Nat × Nat)) : Nat × Flags :=
  let s : Int := (ps.map (fun (p : Nat × Nat) => decodeInt .i8 p.1 * decodeInt .i8 p.2)).sum
  fitInt .i32 true (decodeInt .i32 acc + s)

/-- An element of the accumulator after the chunks of a row of A and a column of B (R97, R98); sa and sb give the scales of
a block, and mx says that there are any. -/
def macElem (ta tb : EType) (mx : Bool) (k : Nat) (as bs : List Nat) (sa sb : Nat → Nat) (acc : Nat) : Nat × Flags :=
  let c := macChunk ta
  let ps := (as.zip bs).take k
  (List.range ((k + c - 1) / c)).foldl (fun (x : Nat × Flags) i =>
    let chunk := (ps.drop (i * c)).take c
    let y := if ta = .i8 then macInt x.1 chunk
      else macFloat ta tb x.1 chunk (if mx then sa i else 127) (if mx then sb i else 127)
    (y.1, x.2 ||| y.2)) (acc, 0)

/-- A value leaves the accumulator in an output type (R329). -/
def matOut (isInt : Bool) (x : Nat) (factor : Nat) (u : EType) (rm : Rounding) (sat : Bool) (rnd : U32) : Nat × Flags :=
  if u = (if isInt then .i32 else .f32) ∧ factor = fmtOne .f32 then (x, 0)
  else
    let v : Num := if isInt then Num.ofInt (decodeInt .i32 x) else decodeFloat .f32 x
    rounded u rm sat rnd (numMul v (decodeFloat .f32 factor))

/-! ## Accumulators (R321, R322) -/

/-- An accumulator of a core: A1 where the bit is set. -/
def Core.acc (k : Core) (a : Bool) : Accum := if a then k.acc1 else k.acc0
def Core.setAcc (k : Core) (a : Bool) (x : Accum) : Core := if a then { k with acc1 := x } else { k with acc0 := x }

/-- A change to an accumulator. -/
def State.modAcc (s : State) (core : Nat) (a : Bool) (h : Accum → Accum) : State :=
  s.modCore core (fun k => k.setAcc a (h (k.acc a)))

/-- Element (i, j). -/
def Accum.at (x : Accum) (i j : Nat) : Nat := (Table.look 0 x.elems (i * 128 + j)).toNat
/-- The output factor of column j (R321): 1.0 unless MSCL has set it. -/
def Accum.factor (x : Accum) (j : Nat) : Nat := (Table.look (BitVec.ofNat 32 (fmtOne .f32)) x.factors j).toNat
/-- Columns 0 to n − 1 of row i are written. -/
def Accum.setRow (x : Accum) (i : Nat) (vs : List Nat) : Accum :=
  { x with
    elems := (vs.zipIdx).foldl (fun t (p : Nat × Nat) => Table.put t (i * 128 + p.2) (BitVec.ofNat 32 p.1)) x.elems }

/-- An item ends: it leaves its queue. -/
def State.itemGone (s : State) (core : Nat) (a : Bool) (id : Nat) : State :=
  s.modAcc core a (fun x => { x with queue := x.queue.filter (fun i => i.id != id) })

/-- A change to an item. -/
def State.modItem (s : State) (core : Nat) (a : Bool) (id : Nat) (h : MatItem → MatItem) : State :=
  s.modAcc core a (fun x => { x with queue := x.queue.map (fun i => if i.id == id then h i else i) })

/-- Tokens of a matrix operator, unless its object is quarantined (R181). -/
def State.matEmit (s : State) (g : Firing) (f : Fields) (v : Val) : State :=
  if (s.core g.core).quar.contains g.obj then s else s.emitBoth g f v

/-- An operand that is passed on, with PROV DATA and the round of the firing (R335). -/
def passVal (g : Firing) (v : Val) : Val := { v with prov := provData, round := g.l.round, lin := Lineage.none }

/-- The items of a core and its gang commands that have not finished, by number. -/
def State.matIds (s : State) (core : Nat) : List Nat :=
  ((s.core core).acc0.queue ++ (s.core core).acc1.queue).map MatItem.id ++
  (s.gangs.filter (fun c => c.fire.core == core)).map Cmd.id

/-- MDRAIN's waits that have come to an end (R345). -/
def State.matSettle (s : State) (core : Nat) : State :=
  (s.core core).cmds.foldl (fun s c =>
    match c.instr with
    | .mdrainCur f | .mdrainAll f =>
      if c.aux = 0 ∧ c.covers.all (fun i => !(s.matIds core).contains i) then s.answer c f (both (c.pass c.fire.l)) else s
    | _ => s) s

/-- An item has finished: its tiles are free, its flags set, its token leaves. -/
def State.itemEnd (s : State) (core : Nat) (a : Bool) (it : MatItem) (f : Fields) (fl : Flags) (v : Val) : State :=
  let s := ((s.itemGone core a it.id).tilesDrop it.tiles).setFlags it.fire.ctx (it.flags ||| fl)
  (s.matEmit it.fire f v).matSettle core

/-- An item ends on a fault with no further effect (R332, R339). -/
def State.itemFail (s : State) (core : Nat) (a : Bool) (it : MatItem) (f : Fields) (e : FaultClass) (d : Nat) : State :=
  let s := ((s.itemGone core a it.id).tilesDrop it.tiles).setFlags it.fire.ctx it.flags
  (s.raise it.fire f.d0 (it.fire.fault e d 0 0) false).matSettle core

/-! ## Acceptance (R322, R323, R332) -/

/-- The operator becomes an item of a queue: MBIND, MUNBIND, MACC and MDRAIN act at the port (R322). -/
def matQueued (opc : Nat) : Bool := (decide (0xA3 ≤ opc) && decide (opc ≤ 0xAA))

/-- What a matrix operator says of its operands (R335 to R345). -/
def matNeed (opc : Nat) (f : Fields) : Need :=
  let tiles := opc == 0xA0 || opc == 0xA4 || opc == 0xA5 || opc == 0xA7 || opc == 0xAA || (opc == 0xA6 && f.fn.toNat == 0)
  let ports := opc == 0xA3 || opc == 0xA8
  { Need.any with kl := if tiles then isTile else if ports then isScalar else anyKind, kr := isScalar }

/-- Types of A and B that may stand together (R326). -/
def matPair (a b : EType) : Bool :=
  a == b || (a == .e4m3 && b == .e5m2) || (a == .e5m2 && b == .e4m3)

/-- The open binding of a core (R320). -/
def Core.openB (k : Core) : Option MatBinding :=
  match k.mat with
  | some b => if b.closing.isNone then some b else none
  | none => none

/-- The members of a gang by member number (R331): none where one lies outside the region, or on another stack or mesh row. -/
def State.gangMembers (s : State) (core g : Nat) (ctx : Nat) : Option (List Nat) :=
  let v := (s.vcoreOf core).toNat
  let ms := (List.range g).map (fun m => if v % 16 + m < 16 then (s.ctx ctx).phys (v + m) else none)
  if ms.all (fun m =>
      match m with
      | some c => c / 16 == core / 16
      | none => false) then some (ms.filterMap id) else none

/-- The cores of a gang by member number (R331): the core of the issuer, and where its virtual neighbours are now. -/
def State.gangCores (s : State) (core g : Nat) (ctx : Nat) : List Nat :=
  (List.range g).map (fun m => if m = 0 then core else ((s.ctx ctx).phys ((s.vcoreOf core).toNat + m)).getD core)

/-- A fault of the checks at acceptance with its detail, or the view of L and the shape word. -/
structure MatCheck where
  view  : Option View
  shape : ShapeWord
  deriving DecidableEq, Repr

/-- A shape word with nothing in it. -/
def ShapeWord.zero : ShapeWord := { oport := 0, arow := 0, m := 0, n := 0, k := 0 }

/-- A port of a direction that is bound (R332, R339, R342). -/
def State.matPort (s : State) (core : Nat) (p : Option Nat) (out : Bool) : Bool :=
  match p with
  | some p => portIsOut p == out && ((s.core core).port p).bound.isSome
  | none => false

/-- The tile's type and scales, its layout and its shape are what the operator takes (checks 4 to 6 of R332). -/
def State.matTile (s : State) (opc : Nat) (f : Fields) (g : Firing) (v : View) : Option FaultClass :=
  let t := v.tile
  let k := s.core g.core
  let w : Option ShapeWord :=
    if opc = 0xA0 ∨ opc = 0xA6 then some ShapeWord.zero
    else shapeWord (theVal g.r).value true (opc == 0xA4 || opc == 0xA5) false
  let bShape (x : ShapeWord) : Bool :=
    match (if opc = 0xA4 then k.openB else none) with
    | some b => decide (x.n ≤ b.nb) && decide (x.k ≤ b.kb)
    | none => true
  let typeOk : Bool :=
    match opc with
    | 0xA6 | 0xAA => t.etype == .f32
    | 0xA4 => t.etype == f.ty && ((k.openB.map (fun b => matPair f.ty b.etype)).getD true)
    | _ => t.etype == f.ty
  let mxOk : Bool :=
    (!f.mx || t.scale != 0) && (if opc = 0xA4 then (k.openB.map (fun b => b.mx == f.mx)).getD true else true)
  let shapeOk : Bool :=
    match w with
    | none => false
    | some x =>
      match opc with
      | 0xA0 => t.layout == 2 && hRow0 g.l.value == 0 && hNrows g.l.value == 0 && decide (t.rows ≤ 2048) && decide (t.cols ≤ 128)
      | 0xA6 => v.n == 1
      | 0xA7 => decide (1 ≤ x.m) && v.n == x.m && t.cols == x.n
      | 0xAA => x.m == 0 || v.n == x.m
      | _ => (t.layout == 0 || t.layout == 3) && decide (x.m ≤ v.n) && decide (x.k ≤ t.cols) && bShape x
  if !typeOk then some .matType else if !mxOk then some .matMx else if !shapeOk then some .matShape else none

/-- The checks of R332 at acceptance, in their order. -/
def State.matCheck (s : State) (opc : Nat) (f : Fields) (g : Firing) : Except (FaultClass × Nat) (Option View) :=
  let k := s.core g.core
  let tile := opc == 0xA0 || opc == 0xA4 || opc == 0xA5 || opc == 0xA7 || opc == 0xAA || (opc == 0xA6 && f.fn.toNat == 0)
  let out := opc == 0xA3 && f.fn.toNat == 1
  let bound : Option FaultClass :=
    if opc = 0xA0 then (if k.mat.isSome then some .matBound else none)
    else if opc = 0xA1 ∨ opc = 0xA3 ∨ opc = 0xA4 then (if k.openB.isNone then some .matUnbound else none)
    else none
  if tile then
    match s.view g.ctx g.l.value false with
    | .error e => .error (e, viewDetail e g.l.value)
    | .ok v =>
      if v.core ≠ g.core then .error (.matRemote, 0)
      else
        match bound with
        | some e => .error (e, 0)
        | none =>
          match s.matTile opc f g v with
          | some e => .error (e, 0)
          | none =>
            if opc = 0xA5 ∧ (s.gangMembers g.core (f.imm.toNat % 8 + 1) g.ctx).isNone then .error (.matGang, 0)
            else
              match (if opc = 0xA7 then s.destCheck v else none) with
              | some e => .error (e, 0)
              | none => .ok (some v)
  else
    match bound with
    | some e => .error (e, 0)
    | none =>
      if opc = 0xA3 then
        match k.openB with
        | none => .error (.matUnbound, 0)
        | some b =>
          if !matPair f.ty b.etype then .error (.matType, 0)
          else if b.mx != f.mx then .error (.matMx, 0)
          else
            match shapeWord (theVal g.r).value false true out with
            | none => .error (.matShape, 0)
            | some w =>
              if b.nb < w.n ∨ b.kb < w.k then .error (.matShape, 0)
              else if !s.matPort g.core (portRef g.l.value) false || (out && !s.matPort g.core (some (8 + w.oport)) true)
              then .error (.portDir, 0)
              else .ok none
      else if opc = 0xA8 then
        match shapeWord (theVal g.r).value true false false with
        | none => .error (.matShape, 0)
        | some _ => if s.matPort g.core (portRef g.l.value) true then .ok none else .error (.portDir, 0)
      else .ok none

/-- The draws that an item takes, where its shape tells (R329). -/
def matDraws (opc : Nat) (f : Fields) (g : Firing) : Nat :=
  if f.rm = .sr ∧ (opc = 0xA7 ∨ opc = 0xA8) then
    match shapeWord (theVal g.r).value true false false with
    | some w => w.m * w.n
    | none => 0
  else 0

/-- The item of a firing. -/
def MatItem.start (id : Nat) (g : Firing) (i : Instr) (marker : Bool) : MatItem :=
  { id := id, fire := g, instr := i, marker := marker, started := false, row := 0, binding := none, gang := none,
    tiles := [], seed := 0, data := [], flags := 0 }

/-- An item enters the queue of the selected accumulator. -/
def State.enqueue (s : State) (core : Nat) (it : MatItem) : State :=
  s.modAcc core (s.core core).sel (fun x => { x with queue := x.queue ++ [it] })

/-- An MROW.OUT that draws for each row as it comes (R92, R339). -/
def srMrow : Instr → Bool
  | .mrowOut f => f.rm == .sr
  | _ => false

/-- A command becomes an item: its tile is in use, the destination of MRD in shadow, the open binding captured, its draws
taken (R320, R322, R324, R329). Behind an MROW.OUT that still draws it draws at its start, after it (R92; log 49); the generator's
state is never 0, so that a seed of 0 says so. -/
def State.matItem (s : State) (opc : Nat) (f : Fields) (g : Firing) (i : Instr) (v : Option View) : State :=
  let k := s.core g.core
  let tiles := v.toList.map (fun x => (x.core, x.index))
  let late := decide (matDraws opc f g ≠ 0) && (k.acc k.sel).queue.any (fun x => srMrow x.instr)
  let it := { MatItem.start s.ids g i false with
    tiles := tiles, seed := if late then 0 else k.lfsr, binding := if opc = 0xA3 ∨ opc = 0xA4 then k.openB else none }
  let s := ((s.newId.draws g.core (if late then 0 else matDraws opc f g)).1.tilesUse tiles)
  let s :=
    match (if opc = 0xA7 then v else none) with
    | some x => s.modTile x.core x.index (fun t => { t with shadow := true })
    | none => s
  s.enqueue g.core it

/-- MMAG goes to the arbiter of its mesh row; aux keeps the accumulator selected (R331). -/
def State.gangCmd (s : State) (g : Firing) (i : Instr) (v : Option View) : State :=
  let tiles := v.toList.map (fun x => (x.core, x.index))
  let c := { Cmd.start s.ids g i .matrix with
    phase := .queued, tiles := tiles, aux := if (s.core g.core).sel then 1 else 0 }
  let s := s.newId.tilesUse tiles
  { s with gangs := s.gangs ++ [c] }

/-- MDRAIN waits for the items before it (R345); aux is 1 while it waits for the release of a closing binding. -/
def State.drainCmd (s : State) (g : Firing) (i : Instr) (all : Bool) : State :=
  let k := s.core g.core
  let mine := s.gangs.filter (fun c => c.fire.core == g.core && (all || c.aux == (if k.sel then 1 else 0)))
  let ids := (if all then k.acc0.queue ++ k.acc1.queue else (k.acc k.sel).queue).map MatItem.id ++ mine.map Cmd.id
  let closing := all && k.mat.isSome && k.openB.isNone
  let c := { Cmd.start s.ids g i .matrix with phase := .queued, covers := ids, aux := if closing then 1 else 0 }
  (s.newId.modCore g.core (fun k => { k with cmds := k.cmds ++ [c] })).matSettle g.core

/-- A matrix operator: R53 with the markers of R323, the checks of R332, then its acceptance. -/
def matOperator (f : Fields) (i : Instr) (s : State) : State :=
  let opc := (i.form.map Prod.fst).getD 0
  s.execute (fun s g =>
    if g.vals.all (fun v => v.kind ≠ .fault) && (g.l :: g.r.toList).any (fun v => v.kind == .marker) then
      let g := if g.l.kind = .marker then g else { g with l := theVal g.r }
      s.newId.enqueue g.core (MatItem.start s.ids g i true)
    else
      s.checked (matNeed opc f) f g (fun s l r t =>
        let g := { g with l := l, r := r, t := t }
        match s.matCheck opc f g with
        | .error (e, d) => s.fault g f e d
        | .ok v =>
          if opc = 0xA5 then s.gangCmd g i v
          else if matQueued opc then s.matItem opc f g i v
          else if opc = 0xAB then s.drainCmd g i (f.fn.toNat == 1)
          else if opc = 0xA2 then
            (s.modCore g.core (fun k => { k with sel := f.fn.toNat == 1 })).emitBoth g f (passVal g g.l)
          else if opc = 0xA1 then
            s.modCore g.core (fun k => { k with mat := k.mat.map (fun b => { b with closing := some g }) })
          else
            match v with
            | none => s
            | some x =>
              let b : MatBinding := {
                handle := g.l, core := x.core, index := x.index, etype := x.tile.etype, kb := x.tile.rows,
                nb := x.tile.cols, mx := f.mx, closing := none }
              ((s.tilesUse [(x.core, x.index)]).modCore g.core (fun k => { k with mat := some b })).emitBoth g f
                (passVal g g.l)))

/-- MBIND (R318, R336). -/
def execMbind (f : Fields) (s : State) : Host.Outcome State Fault Refusal := .next (matOperator f (.mbind f) s)
/-- MUNBIND (R320, R336). -/
def execMunbind (f : Fields) (s : State) : Host.Outcome State Fault Refusal := .next (matOperator f (.munbind f) s)
/-- MACC (R337). -/
def execMacc (f : Fields) (s : State) : Host.Outcome State Fault Refusal := .next (matOperator f (.macc f) s)
/-- MROW.ACC (R339). -/
def execMrowAcc (f : Fields) (s : State) : Host.Outcome State Fault Refusal := .next (matOperator f (.mrowAcc f) s)
/-- MROW.OUT (R339). -/
def execMrowOut (f : Fields) (s : State) : Host.Outcome State Fault Refusal := .next (matOperator f (.mrowOut f) s)
/-- MMA (R338). -/
def execMma (f : Fields) (s : State) : Host.Outcome State Fault Refusal := .next (matOperator f (.mma f) s)
/-- MMAG (R331, R338). -/
def execMmag (f : Fields) (s : State) : Host.Outcome State Fault Refusal := .next (matOperator f (.mmag f) s)
/-- MSCL.SET (R340). -/
def execMsclSet (f : Fields) (s : State) : Host.Outcome State Fault Refusal := .next (matOperator f (.msclSet f) s)
/-- MSCL.CLR (R340). -/
def execMsclClr (f : Fields) (s : State) : Host.Outcome State Fault Refusal := .next (matOperator f (.msclClr f) s)
/-- MRD (R341). -/
def execMrd (f : Fields) (s : State) : Host.Outcome State Fault Refusal := .next (matOperator f (.mrd f) s)
/-- MOUT.KEEP (R342). -/
def execMoutKeep (f : Fields) (s : State) : Host.Outcome State Fault Refusal := .next (matOperator f (.moutKeep f) s)
/-- MOUT.CLR (R342). -/
def execMoutClr (f : Fields) (s : State) : Host.Outcome State Fault Refusal := .next (matOperator f (.moutClr f) s)
/-- MCLR (R343). -/
def execMclr (f : Fields) (s : State) : Host.Outcome State Fault Refusal := .next (matOperator f (.mclr f) s)
/-- MRESC (R344). -/
def execMresc (f : Fields) (s : State) : Host.Outcome State Fault Refusal := .next (matOperator f (.mresc f) s)
/-- MDRAIN.CUR (R345). -/
def execMdrainCur (f : Fields) (s : State) : Host.Outcome State Fault Refusal := .next (matOperator f (.mdrainCur f) s)
/-- MDRAIN.ALL (R345). -/
def execMdrainAll (f : Fields) (s : State) : Host.Outcome State Fault Refusal := .next (matOperator f (.mdrainAll f) s)

/-! ## Items at work -/

/-- The head of an accumulator's queue. -/
def State.matHead (s : State) (core : Nat) (a : Bool) : Option MatItem := ((s.core core).acc a).queue.head?

/-- The members of a gang item with the accumulator at whose head it stands there; none where it is not at every head
(R331). -/
def State.gangHeads (s : State) (it : MatItem) : Option (List (Nat × Bool)) :=
  match it.gang with
  | none => none
  | some (issuer, _, _, g) =>
    let at_ (c : Nat) : Option (Nat × Bool) :=
      if ((s.matHead c false).map MatItem.id) == some it.id then some (c, false)
      else if ((s.matHead c true).map MatItem.id) == some it.id then some (c, true)
      else none
    let hs := (s.gangCores issuer g it.fire.ctx).map at_
    if hs.all Option.isSome then some (hs.filterMap id) else none

/-- The shape word of an item. -/
def MatItem.shape (it : MatItem) (rows depth out : Bool) : ShapeWord :=
  (shapeWord (theVal it.fire.r).value rows depth out).getD ShapeWord.zero

/-- A member of a gang passes check 10 of R332 (R331). -/
def State.gangOk (s : State) (f : Fields) (w : ShapeWord) (c : Nat) (a : Bool) : Bool :=
  match (s.core c).openB with
  | none => false
  | some b =>
    matPair f.ty b.etype && b.mx == f.mx && decide (w.k ≤ b.kb) && decide (w.n ≤ b.nb) &&
    ((s.core c).acc a).isInt == (f.ty == .i8)

/-- A gang item ends at every member. -/
def State.gangGone (s : State) (hs : List (Nat × Bool)) (it : MatItem) : State :=
  hs.foldl (fun (s : State) (h : Nat × Bool) => (s.itemGone h.1 h.2 it.id).matSettle h.1) s

/-- The head of a queue starts: checks 9 and 10 of R332, with those of R331 on where its members are (R333); each member of a gang captures
its binding. An item that has not drawn yet draws now (log 49). -/
def State.itemStart (s : State) (core : Nat) (a : Bool) (it : MatItem) (opc : Nat) (f : Fields) : State :=
  if opc = 0xA5 then
    match s.gangHeads it with
    | none => s
    | some hs =>
      let w := it.shape true true false
      let placed := match it.gang with
        | some (issuer, _, _, g) => (s.gangMembers issuer g it.fire.ctx).isSome
        | none => false
      if placed && hs.all (fun h => s.gangOk f w h.1 h.2) then
        hs.foldl (fun (s : State) (h : Nat × Bool) =>
          s.modItem h.1 h.2 it.id (fun i => { i with started := true, binding := (s.core h.1).openB })) s
      else
        let tiles := hs.flatMap (fun h => ((s.matHead h.1 h.2).map MatItem.tiles).getD [])
        ((s.gangGone hs it).tilesDrop tiles).raise it.fire f.d0 (it.fire.fault .matGang 0 0 0) false
  else
    let isInt := ((s.core core).acc a).isInt
    let wrong :=
      ((opc == 0xA4 || (opc == 0xA3 && f.fn.toNat == 0)) && isInt != (f.ty == .i8)) || (opc == 0xAA && isInt)
    if wrong then s.itemFail core a it f .matAtype 0
    else if it.seed = 0 then
      (s.draws core (matDraws opc f it.fire)).1.modItem core a it.id (fun i => { i with started := true, seed := (s.core core).lfsr })
    else s.modItem core a it.id (fun i => { i with started := true })

/-- A row of A with the scales of its blocks: elements and the scale byte of block b. -/
structure ARow where
  xs : List Nat
  sc : Nat → Nat

/-- Row i of A of an MMA (R326). -/
def State.rowA (s : State) (it : MatItem) (i : Nat) : ARow :=
  match s.viewFlight it.fire.ctx it.fire.l.value with
  | none => { xs := [], sc := fun _ => 0 }
  | some v =>
    { xs := s.viewRow v i
      sc := fun b => s.vaultByte v.core (v.tile.scaleOf (v.row0 + i) (32 * b)) }

/-- Products of a row of A with columns 0 to n − 1 of B, from starting values (R327). -/
def State.rowTimesB (s : State) (f : Fields) (b : MatBinding) (k n : Nat) (a : ARow) (from_ : Nat → Nat) :
    List Nat × Flags :=
  let t := (s.core b.core).tile b.index
  joinRow ((List.range n).map (fun j =>
    macElem f.ty b.etype f.mx k a.xs ((List.range k).map (fun i => s.elem b.core t i j)) a.sc
      (fun c => s.vaultByte b.core (t.scaleOf (32 * c) j)) (from_ j)))

/-- A row of products goes into an accumulator's row: ACC starts from its elements, SET from 0 (R327, R328). -/
def State.macRow (s : State) (core : Nat) (a : Bool) (id : Nat) (f : Fields) (b : MatBinding) (w : ShapeWord) (row : Nat)
    (x : ARow) : State :=
  let acc := (s.core core).acc a
  let from_ (j : Nat) : Nat := if bitAt f.qual 0 then acc.at row j else 0
  let r := s.rowTimesB f b w.k w.n x from_
  ((s.modAcc core a (fun y => y.setRow row r.1)).modItem core a id (fun i => { i with flags := i.flags ||| r.2 })).modCore
    core (fun k => k.count 6)

/-- A row firing of an MMA or MMAG at a member (R327, R331). -/
def State.mmaRow (s : State) (core : Nat) (a : Bool) (it : MatItem) (f : Fields) (x : ARow) : State :=
  let w := it.shape true true false
  match ((s.core core).acc a).queue.find? (fun i => i.id == it.id) with
  | some me =>
    match me.binding with
    | some b =>
      (s.macRow core a it.id f b w (w.arow + it.row) x).modItem core a it.id (fun i => { i with row := i.row + 1 })
    | none => s
  | none => s

/-- The bytes of a row of A at a port (R326): its elements, then its block scales. -/
def mrowBytes (f : Fields) (k : Nat) : Nat × Nat :=
  let e := lineBytes f.ty k
  (e, e + (if f.mx then (k + 31) / 32 else 0))

/-- A row that has come through a port is well formed (R326): the entries it needs, zeros after its bytes. -/
def mrowOk (f : Fields) (k : Nat) (data : List Byte) : Bool :=
  let n := (mrowBytes f k).2
  data.length == max 1 ((n + 63) / 64) * 64 && (data.drop n).all (fun b => b == 0)

/-- A whole row at the port of an MROW fires (R339). pushed is the row that OUT pushes. -/
def State.mrowFire (s : State) (core : Nat) (a : Bool) (it : MatItem) (f : Fields) (out : Bool) (data : List Byte) : State :=
  let w := it.shape false true out
  match it.binding with
  | none => s
  | some b =>
    let e := (mrowBytes f w.k).1
    let x : ARow := { xs := unpackRow f.ty w.k (data.take e), sc := fun i => ((data[e + i]?).getD 0).toNat }
    let s := s.modItem core a it.id (fun i => { i with row := i.row + 1, data := [] })
    if !out then s.macRow core a it.id f b w ((w.arow + it.row) % 128) x
    else
      let acc := (s.core core).acc a
      let r := s.rowTimesB f b w.k w.n x (fun _ => 0)
      let u := tyOf (bitsAt f.qual.toNat 2 4)
      let d := s.draws core (if f.rm = .sr then w.n else 0)
      let o := joinRow ((r.1.zipIdx).map (fun (p : Nat × Nat) =>
        matOut (f.ty == .i8) p.1 (acc.factor p.2) u f.rm f.sat (drawAt d.2 p.2)))
      let s := (d.1.modItem core a it.id (fun i => { i with flags := i.flags ||| r.2 ||| o.2 })).modCore core (fun k => k.count 6)
      (rowEntries (packRow u o.1) it.fire.l.round ((lineBytes u w.n + 63) / 64)).foldl
        (fun s x => s.portPush core (8 + w.oport) x) s

/-- An MROW takes one entry from its port; the MARK entry of its round ends it (R339). -/
def State.mrowStep (s : State) (core : Nat) (a : Bool) (it : MatItem) (f : Fields) (out : Bool) : State :=
  let w := it.shape false true out
  match portRef it.fire.l.value with
  | none => s
  | some p =>
    if !(s.core core).portTurn pullsFrom p it.id then s
    else
      match ((s.core core).port p).fifo with
      | [] => s
      | e :: _ =>
        let r := it.fire.l.round
        let u := tyOf (bitsAt f.qual.toNat 2 4)
        let room := if !out then 0 else if e.mark then 1 else if e.eor then (lineBytes u w.n + 63) / 64 else 0
        let data := it.data ++ e.data
        let bad := !e.mark && e.eor && !mrowOk f w.k data
        if e.mark && !it.data.isEmpty then s.itemFail core a it f .streamShape 0
        else if it.data.isEmpty && e.round != r then s.itemFail core a it f .roundSkew p
        else if !bad && decide (s.portRoom core (8 + w.oport) < room) then s
        else
          match s.portPop core p with
          | none => s
          | some (_, s) =>
            if e.mark then
              let s := if out then s.portPush core (8 + w.oport) (markEntry r) else s
              let s := s.itemEnd core a it f 0 (Val.scalar (BitVec.ofNat 64 it.row) r provData)
              if out then s.settle core (8 + w.oport) else s
            else
              if !e.eor then s.modItem core a it.id (fun i => { i with data := data })
              else if bad then s.itemFail core a it f .streamShape 0
              else s.mrowFire core a it f out data

/-- Row i of a window as it leaves the accumulator, with the draws of its item (R329). -/
def Accum.outRow (x : Accum) (f : Fields) (w : ShapeWord) (seed : U64) (i : Nat) : List Nat × Flags :=
  let ds := if f.rm = .sr then ((lfsrDraws ((i + 1) * w.n) seed).2).drop (i * w.n) else []
  joinRow ((List.range w.n).map (fun j =>
    matOut x.isInt (x.at (w.arow + i) j) (x.factor j) f.ty f.rm f.sat (drawAt ds j)))

/-- MOUT pushes one entry; a row is read when its first entry leaves, and CLR clears it then (R342). -/
def State.moutStep (s : State) (core : Nat) (a : Bool) (it : MatItem) (f : Fields) (clr : Bool) : State :=
  let w := it.shape true false false
  let r := it.fire.l.round
  let done (s : State) (it : MatItem) (p : Nat) : State :=
    (s.itemEnd core a it f 0 (Val.scalar (BitVec.ofNat 64 w.m) r provData)).settle core p
  match portRef it.fire.l.value with
  | none => s
  | some p =>
    if w.m = 0 ∨ w.n = 0 then done s it p
    else if !(s.core core).portTurn pushesTo p it.id || s.portRoom core p = 0 then s
    else
      let ne := (lineBytes f.ty w.n + 63) / 64
      let o := ((s.core core).acc a).outRow f w it.seed it.row
      let fresh := it.data.isEmpty
      let data := if fresh then
          let bs := packRow f.ty o.1
          bs ++ List.replicate (ne * 64 - bs.length) 0
        else it.data
      let fl := if fresh then it.flags ||| o.2 else it.flags
      let s := if fresh && clr then s.modAcc core a (fun x => x.setRow (w.arow + it.row) (List.replicate w.n 0)) else s
      let last := decide (data.length ≤ 64)
      let s := s.portPush core p { data := data.take 64, eot := false, eor := last, mark := false, round := r }
      if last && it.row + 1 == w.m then done s { it with flags := fl } p
      else
        s.modItem core a it.id (fun i => { i with
          flags := fl, data := data.drop 64, row := if last then i.row + 1 else i.row })

/-- MRD writes its view; its handle waits for a marker item (R341). -/
def State.mrdWork (s : State) (core : Nat) (a : Bool) (it : MatItem) (f : Fields) : State :=
  let w := it.shape true false false
  match s.viewFlight it.fire.ctx it.fire.l.value with
  | none => s
  | some v =>
    let acc := (s.core core).acc a
    let rows := (List.range w.m).map (acc.outRow f w it.seed)
    let s := s.setViewRows v (rows.map Prod.fst)
    let s := (s.itemGone core a it.id).setFlags it.fire.ctx (rows.foldl (fun (x : Flags) r => x ||| r.2) 0)
    (s.modAcc core a (fun x => { x with held := x.held ++ [it] })).matSettle core

/-- MRESC (R344). -/
def State.mrescWork (s : State) (core : Nat) (a : Bool) (it : MatItem) (f : Fields) : State :=
  let w := it.shape true false false
  match s.viewFlight it.fire.ctx it.fire.l.value with
  | none => s
  | some v =>
    let acc := (s.core core).acc a
    let rows := (List.range w.m).map (fun i =>
      let x := decodeFloat .f32 (s.elem v.core v.tile (v.row0 + i) 0)
      joinRow ((List.range w.n).map (fun j =>
        rounded .f32 .rne false 0 (numMul (decodeFloat .f32 (acc.at (w.arow + i) j)) x))))
    let s := s.modAcc core a (fun y => (rows.zipIdx).foldl
      (fun (y : Accum) (p : (List Nat × Flags) × Nat) => y.setRow (w.arow + p.2) p.1.1) y)
    s.itemEnd core a it f (rows.foldl (fun (x : Flags) r => x ||| r.2) 0) (passVal it.fire it.fire.l)

/-- MSCL (R340). -/
def State.msclWork (s : State) (core : Nat) (a : Bool) (it : MatItem) (f : Fields) (set : Bool) : State :=
  let row := if !set then [] else
    match s.viewFlight it.fire.ctx it.fire.l.value with
    | none => []
    | some v => (s.viewRow v 0).take 128
  let s := s.modAcc core a (fun x => { x with
    factors := (row.zipIdx).foldl (fun t (p : Nat × Nat) => Table.put t p.2 (BitVec.ofNat 32 p.1)) [] })
  s.itemEnd core a it f 0 (passVal it.fire it.fire.l)

/-- MCLR (R343). -/
def State.mclrWork (s : State) (core : Nat) (a : Bool) (it : MatItem) (f : Fields) : State :=
  (s.modAcc core a (fun x => { x with isInt := f.ty == .i32, elems := [] })).itemEnd core a it f 0
    (passVal it.fire it.fire.l)

/-- An MMA or MMAG whose rows are done; with M, N or K 0 nothing is read, and SET with K 0 clears the window (R328). -/
def State.mmaEnd (s : State) (core : Nat) (a : Bool) (it : MatItem) (f : Fields) (gang : Bool) : State :=
  let w := it.shape true true false
  let hs := if gang then (s.gangHeads it).getD [] else [(core, a)]
  let clear := w.k = 0 && bitAt f.qual 1
  let fl := hs.foldl (fun (x : Flags) (h : Nat × Bool) =>
    x ||| (((s.matHead h.1 h.2).map MatItem.flags).getD 0)) 0
  let s := if !clear then s else
    hs.foldl (fun (s : State) (h : Nat × Bool) =>
      s.modAcc h.1 h.2 (fun x => (List.range w.m).foldl (fun (x : Accum) i =>
        x.setRow (w.arow + i) (List.replicate w.n 0)) x)) s
  let s := if gang then s.gangGone (hs.filter (fun h => h.1 != core)) it else s
  s.itemEnd core a it f fl (passVal it.fire it.fire.l)

/-- The rows of an MMA that fire: none in the zero-dimension cases (R328). -/
def ShapeWord.rows (w : ShapeWord) : Nat := if w.n = 0 ∨ w.k = 0 then 0 else w.m

/-! ## The events -/

/-- The accumulator of an event's number. -/
def accBit (n : Nat) : Bool := n % 2 == 1

/-- MATRIX_ITEM_START (R322, R331): none starts while its context is being saved (R333). -/
def execMatrixItemStart (core acc : Nat) (s : State) : Host.Outcome State Fault Refusal :=
  .next (
    let a := accBit acc
    match s.matHead core a with
    | none => s
    | some it =>
      match it.instr.form with
      | none => s
      | some (opc, _, f) =>
        if it.marker || it.started || (s.ctx it.fire.ctx).phase ≠ .active then s else s.itemStart core a it opc f)

/-- An item stays at its row boundary while its context is being saved (R333): a gang item runs on. -/
def State.rowHeld (s : State) (it : MatItem) : Bool :=
  decide ((s.ctx it.fire.ctx).phase ≠ .active) && it.data.isEmpty && it.gang.isNone

/-- The head of a queue has an A row ready to fire (R322): the next row of an MMA, of an MMAG at its issuer, or the last entry of a row at the
port of an MROW with room for what it pushes. -/
def State.rowReady (s : State) (core : Nat) (a : Bool) : Bool :=
  match s.matHead core a with
  | none => false
  | some it =>
    match it.instr.form with
    | none => false
    | some (opc, _, f) =>
      let more := decide (it.row < (it.shape true true false).rows)
      it.started && !s.rowHeld it &&
      (match opc with
       | 0xA4 => more
       | 0xA5 => more && it.gang.map Prod.fst == some core
       | 0xA3 =>
         let out := f.fn.toNat == 1
         let w := it.shape false true out
         match (portRef it.fire.l.value).bind (fun p => ((s.core core).port p).fifo.head?) with
         | some e =>
           e.eor && !e.mark &&
           (!out || decide ((lineBytes (tyOf (bitsAt f.qual.toNat 2 4)) w.n + 63) / 64 ≤ s.portRoom core (8 + w.oport)))
         | none => false
       | _ => false)

/-- A row of accumulator a fires now (R322): where both heads have a row ready they fire in turn, A0 first. -/
def State.rowMay (s : State) (core : Nat) (a : Bool) : Bool :=
  !s.rowReady core a || !s.rowReady core (!a) || (s.core core).rowTurn == a

/-- After a row of accumulator a the other one is next, where it has a row ready; else A0 is first again. -/
def State.rowDone (s t : State) (core : Nat) (a : Bool) : State :=
  if s.rowReady core a then t.modCore core (fun k => { k with rowTurn := s.rowReady core (!a) && !a }) else t

/-- ROW_FIRING (R330, R331, R339): the item at the head works one row of A, or takes an entry of one from its port. -/
def execRowFiring (core acc : Nat) (s : State) : Host.Outcome State Fault Refusal :=
  .next (
    let a := accBit acc
    match s.matHead core a with
    | none => s
    | some it =>
      match it.instr.form with
      | none => s
      | some (opc, _, f) =>
        if !it.started || s.rowHeld it || !s.rowMay core a then s
        else s.rowDone (
          if opc = 0xA3 then s.mrowStep core a it f (f.fn.toNat == 1)
          else if opc = 0xA4 then
            if it.row < (it.shape true true false).rows then s.mmaRow core a it f (s.rowA it it.row) else s
          else if opc = 0xA5 ∧ it.gang.map Prod.fst = some core then
            if it.row < (it.shape true true false).rows then
              let x := s.rowA it it.row
              ((s.gangHeads it).getD []).foldl (fun (s : State) (h : Nat × Bool) => s.mmaRow h.1 h.2 it f x) s
            else s
          else s) core a)

/-- MATRIX_ITEM_FINISH (R322): the item at the head has done everything; MOUT moves one entry for each occurrence. -/
def execMatrixItemFinish (core acc : Nat) (s : State) : Host.Outcome State Fault Refusal :=
  .next (
    let a := accBit acc
    match s.matHead core a with
    | none => s
    | some it =>
      match it.instr.form with
      | none => s
      | some (opc, _, f) =>
        if !it.started then s
        else
          match opc with
          | 0xA4 => if it.row < (it.shape true true false).rows then s else s.mmaEnd core a it f false
          | 0xA5 =>
            if it.gang.map Prod.fst ≠ some core ∨ it.row < (it.shape true true false).rows then s
            else s.mmaEnd core a it f true
          | 0xA6 => s.msclWork core a it f (f.fn.toNat == 0)
          | 0xA7 => s.mrdWork core a it f
          | 0xA8 => s.moutStep core a it f (f.fn.toNat == 1)
          | 0xA9 => s.mclrWork core a it f
          | 0xAA => s.mrescWork core a it f
          | _ => s)

/-- A held result of an MRD leaves (R341). -/
def State.mrdRelease (s : State) (core : Nat) (it : MatItem) : State :=
  match it.instr.form with
  | none => s
  | some (_, _, f) =>
    let q := (s.core core).quar.contains it.fire.obj
    let s := if q then s else
      it.tiles.foldl (fun (s : State) (t : Nat × Nat) => s.modTile t.1 t.2 (fun x => { x with shadow := false })) s
    (s.tilesDrop it.tiles).matEmit it.fire f (passVal it.fire it.fire.l)

/-- MARKER_ITEM (R323, R341): the held results of its round leave, then the marker. -/
def execMarkerItem (core acc : Nat) (s : State) : Host.Outcome State Fault Refusal :=
  .next (
    let a := accBit acc
    match s.matHead core a with
    | none => s
    | some it =>
      match it.instr.form with
      | none => s
      | some (_, _, f) =>
        if !it.marker then s
        else
          let r := it.fire.l.round
          let held := ((s.core core).acc a).held
          let s := (s.itemGone core a it.id).modAcc core a (fun x => { x with
            held := x.held.filter (fun h => h.fire.l.round != r) })
          let s := (held.filter (fun h => h.fire.l.round == r)).foldl (fun s h => s.mrdRelease core h) s
          (s.matEmit it.fire f (Val.marker r provData)).matSettle core)

/-- BINDING_RELEASE (R320, R336): a closing binding that no unfinished item has captured is released. -/
def execBindingRelease (core : Nat) (s : State) : Host.Outcome State Fault Refusal :=
  .next (
    let k := s.core core
    match k.mat with
    | none => s
    | some b =>
      match b.closing with
      | none => s
      | some g =>
        if (k.acc0.queue ++ k.acc1.queue).any (fun i => i.binding.isSome) then s
        else
          let s := (s.modCore core (fun k => { k with
            mat := none,
            cmds := k.cmds.map (fun c =>
              match c.instr with
              | .mdrainAll _ => { c with aux := 0 }
              | _ => c) })).tilesDrop [(b.core, b.index)]
          let s :=
            match s.formOf g with
            | some (_, f) => s.matEmit g f (passVal g b.handle)
            | none => s
          s.matSettle core)

/-- GANG_GRANT (R331): the first gang of a mesh row goes into the queue of every member, once each has room. -/
def execGangGrant (stack row : Nat) (s : State) : Host.Outcome State Fault Refusal :=
  .next (
    match s.gangs.find? (fun c => c.fire.core / 16 == stack * 16 + row) with
    | none => s
    | some c =>
      let g := match c.instr with
        | .mmag f => f.imm.toNat % 8 + 1
        | _ => 1
      let core := c.fire.core
      let ms := (s.gangCores core g c.fire.ctx).zipIdx
      let sel (m : Nat × Nat) : Bool := if m.2 = 0 then c.aux == 1 else (s.core m.1).sel
      let room := ms.all (fun m => decide (((s.core m.1).acc (sel m)).queue.length < 8))
      if !room then s
      else
        let s := { s with gangs := s.gangs.filter (fun x => x.id != c.id) }
        ms.foldl (fun s m =>
          let it := { MatItem.start c.id c.fire c.instr false with
            gang := some (core, c.id, m.2, g), tiles := if m.2 = 0 then c.tiles else [] }
          s.modAcc m.1 (sel m) (fun x => { x with queue := x.queue ++ [it] })) s)

end Sys2Proof.Machine
end

