-- ==== Sys2Proof/Machine/Switch.lean ====
section
/-! DEFINITION. The switch agents of partitions: acceptance and drain of a SWITCH (R170 to R172, R214), and frames that end without an END (R171, R181, R467). -/

namespace Sys2Proof.Machine

/-! ## Messages in flight -/

/-- The messages in flits of a link end that the far end, which expects SEQ next, has not accepted (R401): those that wait
to be sent, and those of the replay buffer from that SEQ on. -/
def LinkEnd.mails (e : LinkEnd) (next : Nat) : List (Nat × Mail) :=
  (e.out ++ e.buffer.filter (fun x => decide ((x.seq + 4096 - next) % 4096 < 1024))).flatMap (fun x =>
    match x.body with
    | .tokens ms => ms
    | _ => [])

/-- The messages that links carry. -/
def State.linkMails (s : State) : List (Nat × Mail) :=
  s.links.flatMap (fun e => e.2.mails (s.link (e.1 / 2) (1 - e.1 % 2)).rxSeq)

/-- Every message that has been sent and not served, with the core it goes to. -/
def State.mails (s : State) : List (Nat × Mail) :=
  s.cores.flatMap (fun e => e.2.mails.map (fun m => (e.1, m))) ++ s.linkMails

/-! ## Frames that end without an END (R467) -/

/-- The frames of a core, resident and spilled, with their pointers. -/
def Core.allFrames (k : Core) : List (U32 × Frame) :=
  k.frames.map (fun f => (f.fp k.vcore, f)) ++ k.spillDir.map (fun e => (e.fp, e.frame))

/-- A frame that is freed or aborted reports to its continuation with a fault token (R171, R181): a root frame as the
completion of its task, which keeps an END that has fired and else waits for the task's accesses alone (R467, R468); a child to its parent, if that is of another
object. -/
def State.orphan (s : State) (core : Nat) (fp : U32) (fr : Frame) (cls : FaultClass) : State :=
  let ctx := fr.ctx.toNat
  if fr.pobj == some fr.obj || fr.probe then s
  else
    let p := s.logFault
      { cls := cls, ctx := ctx, core := core, obj := fr.obj, ip := 0, fp := fp, precise := true, parked := false,
        supv := false, token := true, port := 0, reason := 0, d0 := 0, d1 := 0, d2 := 0 }
    let v : Val :=
      { kind := .fault, value := faultValue cls (s.vcoreOf core) p.2, round := 0, prov := provData, lin := Lineage.none }
    let s := p.1
    if fr.root then
      match fr.worker with
      | some _ => (s.modTask fr.task (fun t => t.workerEnds v)).disown core fp
      | none => s.modTask fr.task (fun t => if t.ended.isSome then t else { t with ended := some v, freed := true })
    else s.send core ctx { fp := fr.pfp, ip := fr.rip, port := fr.rport, val := v } false

/-- A frame is freed whatever its LIVE (R171); a spilled one as R493 has it. -/
def State.freeNow (s : State) (core : Nat) (fp : U32) : State :=
  match (s.core core).frame? fp, (s.core core).spilled? fp with
  | none, some e => s.freeSpilled core e
  | _, _ => s.freeFrame core fp

/-! ## SWITCH -/

/-- The core holds frames on the partition of a context. -/
def State.partCores (s : State) (stack ctx : Nat) : List Nat := ((s.ctx ctx).cores stack).map Prod.snd

/-- A message is for a frame of the object on a core. -/
def Core.mailOf (k : Core) (obj : U32) (m : Mail) : Bool := k.allFrames.any (fun x => x.1 == m.msg.fp && x.2.obj == obj)

/-- A binding of an object is under way on a partition (R171). -/
def State.bindingOf (s : State) (stack ctx : Nat) (obj : U32) : Bool :=
  let of (n : Nat) : Bool := match s.task? n with
    | some t => t.ctx == ctx && t.obj == obj
    | none => false
  (s.stack stack).binds.any (fun p => of p.task) ||
  (s.partCores stack ctx).any (fun c => (s.core c).allocs.any (fun a =>
    match a with
    | .bind task _ _ => of task
    | _ => false))

/-- INFLIGHT of an object on a partition is not 0 (R171). A SWITCH that waits is not counted (R214). -/
def State.inflight (s : State) (stack ctx : Nat) (obj : U32) : Bool :=
  let cs := s.partCores stack ctx
  s.bindingOf stack ctx obj ||
  s.mails.any (fun x => cs.contains x.1 && (s.core x.1).mailOf obj x.2) ||
  cs.any (fun c =>
    let k := s.core c
    k.light.any (fun e => e.2.obj == obj) || k.engine.any (fun e => e.2.obj == obj)) ||
  (match s.cur with
   | some g => cs.contains g.core && g.obj == obj
   | none => false) ||
  s.work.any (fun g => cs.contains g.core && g.obj == obj)

/-- SWITCH ends with a scalar (R214). -/
def State.switchDone (s : State) (g : Firing) (x : U64) : State :=
  match s.formOf g with
  | some (_, f) => s.emit g f false (Val.scalar x g.l.round provData)
  | none => s

/-- The objects that a SWITCH names. -/
def Firing.switches (g : Firing) : U32 × U32 := (field g.l.value 0 32, field (theVal g.r).value 0 32)

/-- The agent can decide about a request now: it does not wait for the LOAD of the new object (R177). -/
def State.switchReady (s : State) (p : Partition) (g : Firing) : Bool :=
  let (o, n) := g.switches
  o == n || p.switch.isSome || !decide (s.objStatus p.ctx n = .loading)

/-- An object is enabled on a partition (R169): it has been verified, and no switch has replaced it there. -/
def State.enabledOn (s : State) (p : Partition) (obj : U32) : Bool :=
  ((s.ctx p.ctx).obj? obj).isSome && p.state obj == .enabled

/-- The new object is verified and not quarantined (R170). -/
def State.switchable (s : State) (ctx : Nat) (n : U32) : Bool :=
  match s.objStatus ctx n with
  | .usable o => !o.quar
  | _ => false

/-- The first request that the agent can decide about, and the others. -/
def State.nextSwitch (s : State) (p : Partition) : List Firing → Option (Firing × List Firing)
  | [] => none
  | g :: t => if s.switchReady p g then some (g, t) else (s.nextSwitch p t).map (fun x => (x.1, g :: x.2))

/-- SWITCH_ACCEPT (R170): the switch agent of a partition takes a request. -/
def execSwitchAccept (stack ctx : Nat) (s : State) : Host.Outcome State Fault Refusal :=
  .next (
    let p := s.part stack ctx
    match s.nextSwitch p p.reqs with
    | none => s
    | some (g, rest) =>
      let p := { p with reqs := rest }
      let s := s.setPart stack p
      let (o, n) := g.switches
      let fails (c : FaultClass) : State :=
        match s.formOf g with
        | some (_, f) => s.fault g f c 0
        | none => s
      if o = n then s.switchDone g 1
      else if p.switch.isSome then fails .switchBusy
      else if !s.switchable ctx n then fails .objRejected
      else if !s.enabledOn p o then (s.setPart stack (p.setState n .enabled)).switchDone g 1
      else
        let p := p.setState o .draining
        let p := if p.state n = .enabled then p else p.setState n .pending
        s.setPart stack { p with switch := some (o, n, g) })

/-- A held item is released (R172). -/
def State.unhold (s : State) (stack : Nat) : Held → State
  | .bind p => s.bindPacket stack p
  | .alloc core a => s.allocate core a

/-- SWITCH_DRAIN (R171): nothing of the old object can fire on the partition any more; what is left of it goes, its
ports are unbound (R175), the new object is enabled, the hold queue is served. -/
def execSwitchDrain (stack ctx : Nat) (s : State) : Host.Outcome State Fault Refusal :=
  .next (
    let p := s.part stack ctx
    match p.switch with
    | none => s
    | some (o, n, g) =>
      if s.inflight stack ctx o then s
      else
        let cs := s.partCores stack ctx
        let s := cs.foldl (fun s c =>
          let fs := (s.core c).allFrames.filter (fun x => x.2.obj == o)
          fs.foldl (fun s x => (s.orphan c x.1 x.2 .switchOrphan).freeNow c x.1) s) s
        let s := cs.foldl (fun s c =>
          ((s.core c).ports.filter (fun e => e.2.bound.isSome && e.2.obj == o)).foldl (fun s e => s.unbindPort c e.1) s) s
        let s := cs.foldl (fun s c => s.modCore c (fun k => { k with pages := k.pages.filter (fun x => x.obj != o) })) s
        let p := s.part stack ctx
        let s := s.setPart stack { (p.setState o .disabled).setState n .enabled with switch := none, hold := [], edge := [] }
        let s := (p.hold ++ p.edge).foldl (fun s h => s.unhold stack h) s
        s.switchDone g 0)

end Sys2Proof.Machine
end

