-- ==== Sys2Proof/Machine/Objects.lean ====
section
/-! DEFINITION. Code objects: the LCO file (R75 to R80, R124), LOAD and UNLOAD (R176, R177), the install of code pages (R67, R68, R178 to R180) and quarantine (R181). -/

namespace Sys2Proof.Machine

/-! ## The LCO file -/

/-- The header (R76). -/
structure LcoHead where
  objid   : Nat
  flags   : Nat
  npages  : Nat
  ninstr  : Nat
  nentry  : Nat
  nsect   : Nat
  diroff  : Nat
  phtoff  : Nat
  codeoff : Nat
  totlen  : Nat
  signer  : List Byte
  sig     : List Byte
  deriving DecidableEq, Repr

def lcoMagic : List Byte := [0x4C, 0x43, 0x4F, 0x31, 0x0D, 0x0A, 0x1A, 0x0A]

def LcoHead.of (h : List Byte) : LcoHead :=
  { objid := numAt h 12 4, flags := numAt h 24 4, npages := numAt h 28 4, ninstr := numAt h 32 4, nentry := numAt h 36 2,
    nsect := numAt h 38 2, diroff := numAt h 40 8, phtoff := numAt h 48 8, codeoff := numAt h 56 8,
    totlen := numAt h 64 8, signer := cut h 128 32, sig := cut h 192 64 }

/-- The header of 256 bytes is as R76 has it, with its parts in the order of R75. DESIGN CHOICE (log 129): a FLAGS.TAPE that does not agree
with the presence of a section of type 3 makes no object malformed; the flag is used as it stands. -/
def lcoHeadOk (bs : List Byte) : Bool :=
  let h := LcoHead.of bs
  bs.take 8 == lcoMagic && numAt bs 8 2 == 1 && numAt bs 20 4 == 256 && decide (h.flags < 2) &&
  decide (1 ≤ h.npages) && decide (h.npages ≤ 4096) && decide ((h.npages - 1) * 256 < h.ninstr) &&
  decide (h.ninstr ≤ h.npages * 256) && decide (1 ≤ h.nentry) && decide (256 ≤ h.diroff) &&
  decide (h.diroff + 96 * h.nsect ≤ h.phtoff) && decide (h.phtoff + 64 * h.npages ≤ h.codeoff) &&
  h.codeoff % 4096 == 0 && h.totlen == h.codeoff + h.npages * 4096 && zeroAt bs 72 56 && zeroAt bs 160 32

/-- A directory record (R78). -/
structure LcoSect where
  type   : Nat
  count  : Nat
  offset : Nat
  length : Nat
  hash   : List Byte
  deriving DecidableEq, Repr

def LcoSect.of (d : List Byte) : LcoSect :=
  { type := numAt d 0 4, count := numAt d 4 4, offset := numAt d 8 8, length := numAt d 16 8, hash := cut d 32 64 }

/-- The size of a record of a section type (R79, R124); symbols have none. -/
def sectRecord (type : Nat) : Nat :=
  match type with
  | 1 | 2 | 3 | 6 => 16
  | 4 => 8
  | 5 => 4
  | _ => 0

/-- The sections lie between the page hash table and the code, one after another, no two of one type, with their counts
(R75, R76, R78). -/
def lcoSectsOk (h : LcoHead) (dir : List Byte) (ss : List LcoSect) : Bool :=
  (List.range h.nsect).all (fun i => zeroAt dir (96 * i + 24) 8) &&
  ss.all (fun x => decide (1 ≤ x.type) && decide (x.type ≤ 7) && decide (h.phtoff + 64 * h.npages ≤ x.offset) &&
    decide (x.offset + x.length ≤ h.codeoff) && (x.type == 7 || x.length == x.count * sectRecord x.type)) &&
  decide ((ss.map LcoSect.type).Nodup) &&
  (ss.zipIdx.all (fun a => ss.zipIdx.all (fun b =>
    a.2 == b.2 || !bytesMeet a.1.offset a.1.length b.1.offset b.1.length))) &&
  ss.any (fun x => x.type == 1 && x.count == h.nentry)

/-- The records of n bytes of a section. -/
def recordsOf (n : Nat) (bs : List Byte) : List (List Byte) := (List.range (bs.length / n)).map (fun i => cut bs (n * i) n)

/-- An entry record (R79), or none where it is malformed. -/
def lcoEntry (r : List Byte) : Option (BitVec 20 × Nat) :=
  if numAt r 0 4 < 2 ^ 20 ∧ numAt r 4 1 ≤ 4 ∧ zeroAt r 5 11 then some (BitVec.ofNat 20 (numAt r 0 4), numAt r 4 1) else none

/-- A tile-shape record (R79). -/
def lcoShape (r : List Byte) : Option Shape :=
  let rows := numAt r 0 2
  let cols := numAt r 2 2
  if 1 ≤ rows ∧ rows ≤ 4096 ∧ 1 ≤ cols ∧ cols ≤ 4096 ∧ numAt r 4 1 < 16 ∧ numAt r 5 1 < 4 ∧ numAt r 6 2 % 4 = 0 ∧
      zeroAt r 8 8 then
    some { rows := rows, cols := cols, etype := tyOf (numAt r 4 1), layout := BitVec.ofNat 2 (numAt r 5 1), pitch := numAt r 6 2 }
  else none

/-- The records of a type that belong to a template. -/
def ofTemplate (t : Nat) (rs : List (List Byte)) : List (List Byte) := rs.filter (fun r => numAt r 0 2 == t)

/-- A template with its guards, patch slots and watches (R124), or none where a record is malformed. -/
def lcoTemplate (r : List Byte) (gs ps ws : List (List Byte)) : Option Template :=
  let t := numAt r 0 2
  let gs := ofTemplate t gs
  let ps := ofTemplate t ps
  let ws := ofTemplate t ws
  let slot (x : List Byte) : Nat := numAt x 2 1
  if numAt r 2 2 ≤ 64 ∧ numAt r 4 2 ≤ 6 ∧ numAt r 6 2 ≤ 4 ∧ zeroAt r 8 8 ∧
      gs.length = numAt r 2 2 ∧ ps.length = numAt r 4 2 ∧ ws.length = numAt r 6 2 ∧
      gs.zipIdx.all (fun g => numAt g.1 2 2 == g.2 && decide (numAt g.1 4 4 < 2 ^ 20)) ∧
      ps.all (fun p => decide (4 ≤ slot p) && decide (slot p ≤ 9) && zeroAt p 3 1) ∧ (ps.map slot).Nodup ∧
      ws.all (fun w => decide (4 ≤ slot w) && decide (slot w ≤ 9) && zeroAt w 3 5 && decide (1 ≤ numAt w 8 8) &&
        decide (numAt w 8 8 ≤ 2 ^ 40)) then
    some {
      id := t, guards := gs.map (fun g => BitVec.ofNat 20 (numAt g 4 4)),
      patch := ps.foldl (fun m p => m ||| (1#6 <<< (slot p - 4))) 0, watch := ws.map (fun w => (slot w, numAt w 8 8)) }
  else none

/-- A list of numbers rises. -/
def rises (strict : Bool) : List Nat → Bool
  | [] => true
  | [_] => true
  | a :: b :: t => (if strict then decide (a < b) else decide (a ≤ b)) && rises strict (b :: t)

/-- The templates of an object (R124), or none where its sections are malformed. -/
def lcoTemplates (sect : Nat → List (List Byte)) : Option (List Template) :=
  let ids := (sect 3).map (fun r => numAt r 0 2)
  let known (n : Nat) : Bool := (sect n).all (fun r => ids.contains (numAt r 0 2)) && rises false ((sect n).map (fun r => numAt r 0 2))
  if rises true ids && known 4 && known 5 && known 6 then
    allSome ((sect 3).map (fun r => lcoTemplate r (sect 4) (sect 5) (sect 6)))
  else none

/-! ## LOAD and UNLOAD (R176, R177) -/

/-- n bytes of an object at an offset from where it begins, through the context's translation or an endpoint (R176). -/
def State.objBytes (s : State) (ctx : Nat) (fromEp : Bool) (ep base off n : Nat) : Except FaultClass (List Byte) :=
  let st := s.homeStack ctx
  if fromEp then
    match s.epCheck ctx ep (base + off) n false with
    | .error e => .error e
    | .ok _ =>
      match s.sideRead (.ep ctx ep st) (base + off) n with
      | .ok bs => .ok bs
      | .park c _ _ => .error c
  else (s.ctxRead ctx st (base + off) n).mapError Prod.fst

/-- An entry of the measurement log (R489): the running digest takes in every entry; the log holds 4096. -/
def State.measure (s : State) (type : Nat) (digest : List Byte) : State :=
  let e := natLe 4 type ++ natLe 4 0 ++ digest ++ natLe 8 (s.stack 0).timeReg.toNat
  s.modMod (fun m => { m with
    digest := sha512 (m.digest ++ e), mlog := if m.mlog.length < 4096 then m.mlog ++ [e] else m.mlog,
    mlogFull := m.mlogFull || decide (4096 ≤ m.mlog.length) })

/-- What LOAD makes of an object: what it copies with the digest of its signed region, or RESULT (R176, R177, R489). -/
def State.loadObject (s : State) (ctx index : Nat) (e : List Byte) : Except Nat (ObjRec × List Byte) :=
  let fromEp := bitOf (numAt e 5 1) 0
  let ep := numAt e 6 2
  let base := numAt e 8 8
  if 2 ≤ numAt e 5 1 ∨ 256 ≤ ep ∨ (!fromEp && ep != 0) ∨ !zeroAt e 29 35 then .error 2
  else
    let rd (off n : Nat) : Except FaultClass (List Byte) := s.objBytes ctx fromEp ep base off n
    match rd 0 256 with
    | .error _ => .error 5
    | .ok hb =>
      let h := LcoHead.of hb
      if !lcoHeadOk hb || h.objid != numAt e 0 4 || h.totlen != numAt e 16 8 then .error 2
      else
        match rd h.diroff (96 * h.nsect), rd h.phtoff (64 * h.npages) with
        | .ok dir, .ok pht =>
          let ss := (recordsOf 96 dir).map LcoSect.of
          if !lcoSectsOk h dir ss then .error 2
          else
            match allSome (ss.map (fun x =>
              match rd x.offset x.length with
              | .ok bs => some (x, bs)
              | .error _ => none)) with
            | none => .error 5
            | some bodies =>
              let sect (n : Nat) : List (List Byte) :=
                match bodies.find? (fun b => b.1.type == n) with
                | some b => recordsOf (sectRecord n) b.2
                | none => []
              if bodies.any (fun b => sha512 b.2 != b.1.hash) then .error 2
              else
                match allSome ((sect 1).map lcoEntry), allSome ((sect 2).map lcoShape), lcoTemplates sect with
                | some entries, some shapes, some tmpls =>
                  if !s.mod.signers.any (fun k => k.2 == h.signer) then .error 4
                  else if !edVerify h.signer (sha512 (hb.take 192 ++ dir ++ pht)) h.sig then .error 3
                  else
                    .ok ({
                      obj := BitVec.ofNat 32 h.objid, index := index, fromEp := fromEp, ep := ep, base := base,
                      codeOff := h.codeoff, npages := h.npages, ninstr := h.ninstr, entries := entries, shapes := shapes,
                      taped := bitOf h.flags 0, tmpls := tmpls, hashes := recordsOf 64 pht, quar := false },
                      sha512 (hb.take 192 ++ dir ++ pht))
                | _, _, _ => .error 2
        | _, _ => .error 5

/-- The class that RESULT names (R176). -/
def objResultClass (n : Nat) : FaultClass :=
  match n with
  | 2 => .objMalformed
  | 3 => .objSignature
  | 4 => .objUntrusted
  | _ => .objSource

/-- The operation of OBJCTL ends with a RESULT. -/
def State.objEnd (s : State) (ctx n : Nat) : State :=
  s.modCtx ctx (fun c => { c with objbusy := false, objres := BitVec.ofNat 3 n })

/-- The table entry of a context, 64 bytes. -/
def State.objTableEntry (s : State) (ctx i : Nat) : List Byte :=
  match s.ctxRead ctx (s.homeStack ctx) ((s.ctx ctx).objAddr i) 64 with
  | .ok bs => bs
  | .error _ => List.replicate 64 0

/-- OBJ_LOAD (R176, R177): LOAD of the entry that OBJCTL names. -/
def execObjLoad (ctx : Nat) (s : State) : Host.Outcome State Fault Refusal :=
  .next (
    let c := s.ctx ctx
    if !c.objbusy || c.objop != 1 then s
    else
      let i := c.objidx.toNat
      let e := s.objTableEntry ctx i
      let dup := (List.range (c.objnm1.toNat + 1)).any (fun j =>
        j != i && (let x := s.objTableEntry ctx j; numAt x 4 1 != 0 && numAt x 0 4 == numAt e 0 4))
      if c.objnm1.toNat < i ∨ numAt e 4 1 ≠ 1 ∨ dup then s.objEnd ctx 1
      else
        match s.loadObject ctx i e with
        | .ok (o, digest) =>
          let s := (s.measure 5 digest).invalidate (fun x _ b => x == ctx && b == o.obj) |>.1
          let s := s.modCtx ctx (fun c => { c with objs := c.objs.filter (fun x => x.obj != o.obj) ++ [o] })
          let s := { s with stackTab := s.stackTab.map (fun (k : Nat × Stack) =>
            let p := k.2.part ctx
            (k.1, if p.states.any (fun e => e.1 == o.obj) then
                k.2.setPart { p with states := p.states.filter (fun e => e.1 != o.obj) } else k.2)) }
          (s.ctxPut ctx (c.objAddr i + 4) [2]).objEnd ctx 0
        | .error n =>
          let s := s.ctxPut ctx (c.objAddr i + 4) [4]
          let s := s.faultLogged {
            cls := objResultClass n, ctx := ctx, core := (c.phys 0).getD 0, obj := BitVec.ofNat 32 (numAt e 0 4), ip := 0,
            fp := 0, precise := false, parked := false, supv := false, token := false, port := 0, reason := 0,
            d0 := 0, d1 := 0, d2 := 0 }
          s.objEnd ctx n)

/-- The cores of a context's region. -/
def State.regionCores (s : State) (ctx : Nat) : List Nat := ((s.ctx ctx).region).map Prod.snd

/-- An object has a live frame, a binding in progress or a switch in progress (R177). -/
def State.objInUse (s : State) (ctx : Nat) (obj : U32) : Bool :=
  (s.regionCores ctx).any (fun c => (s.core c).allFrames.any (fun x => x.2.obj == obj)) ||
  (List.range 16).any (fun st =>
    s.bindingOf st ctx obj ||
    (match (s.part st ctx).switch with
     | some (o, n, _) => o == obj || n == obj
     | none => false))

/-- OBJ_UNLOAD (R176, R177): UNLOAD of the entry that OBJCTL names. -/
def execObjUnload (ctx : Nat) (s : State) : Host.Outcome State Fault Refusal :=
  .next (
    let c := s.ctx ctx
    if !c.objbusy || c.objop != 2 then s
    else
      let i := c.objidx.toNat
      let obj := BitVec.ofNat 32 (numAt (s.objTableEntry ctx i) 0 4)
      if c.objnm1.toNat < i || s.objInUse ctx obj then s.objEnd ctx 1
      else
        let s := (s.regionCores ctx).foldl (fun s p => s.modCore p (fun k =>
          { k with pages := k.pages.filter (fun x => x.obj != obj), quar := k.quar.filter (· != obj) })) s
        let s := (s.invalidate (fun x _ o => x == ctx && o == obj)).1
        let s := s.modCtx ctx (fun c => { c with objs := c.objs.filter (fun x => x.obj != obj) })
        (s.ctxPut ctx (c.objAddr i + 4) [0]).objEnd ctx 0)

/-! ## Quarantine (R181) -/

/-- An object is quarantined: of several events only the first sets QPAGE and QREASON. -/
def State.quarantine (s : State) (ctx : Nat) (obj : U32) (page reason : Nat) : State :=
  match (s.ctx ctx).obj? obj with
  | none => s
  | some o =>
    if o.quar then s
    else
      let s := s.modCtx ctx (fun c => { c with objs := c.objs.map (fun x => if x.obj == obj then { x with quar := true } else x) })
      let a := (s.ctx ctx).objAddr o.index
      (s.ctxPut ctx (a + 4) [3]).ctxPut ctx (a + 24) (natLe 4 page ++ natLe 1 reason)

/-- An allocation that waits for a frame of the object is refused (R181). -/
def State.dropAlloc (s : State) (core : Nat) (a : AllocFor) : State :=
  match a with
  | .bind task _ _ =>
    match s.task? task with
    | some t => s.taskFault t core .taskMalformed
    | none => s
  | .firing g i fr =>
    match i.form with
    | some (_, _, f) => (s.liveDec g.ctx fr.pfp).fault g f .objDisabled 0
    | none => s
  | _ => s

/-- The allocation is for a frame of the object. -/
def State.allocOf (s : State) (obj : U32) (a : AllocFor) : Bool :=
  match a with
  | .bind task _ _ => ((s.task? task).map Task.obj) == some obj
  | .firing _ _ fr => fr.obj == obj
  | _ => false

/-- A core receives a quarantine notice: it dispatches nothing of the object any more, and marks its frames ABORT. -/
def State.notice (s : State) (core : Nat) (obj : U32) : State :=
  let k := s.core core
  let ctx := k.ctx.getD 0
  if k.quar.contains obj then s
  else
    let mark (f : Frame) : Frame := if f.obj = obj then { f with abort := true } else f
    let k : Core := { k with
      quar := obj :: k.quar,
      frames := k.frames.map mark,
      spillDir := k.spillDir.map (fun (e : Spilled) => { e with frame := mark e.frame }),
      light := k.light.filter (fun e => e.2.obj != obj),
      engine := k.engine.filter (fun e => e.2.obj != obj),
      dispatchQ := k.dispatchQ ++ (k.installs.filter (fun (i : Install) => i.obj == obj)).flatMap Install.mail,
      installs := k.installs.filter (fun i => i.obj != obj) }
    let gone := k.allocs.filter (s.allocOf obj)
    let s := s.setCore core ({ k with allocs := k.allocs.filter (fun a => !s.allocOf obj a) } : Core).settle
    let s := gone.foldl (fun (s : State) a => s.dropAlloc core a) s
    (s.invalidateOn (quadOf core) (fun x _ o => x == ctx && o == obj)).1

/-- QUARANTINE_NOTICE (R181): a core receives the notice of a quarantined object. -/
def execQuarantineNotice (core : Nat) (s : State) : Host.Outcome State Fault Refusal :=
  .next (
    let k := s.core core
    match k.ctx with
    | none => s
    | some cx =>
      match (s.ctx cx).objs.find? (fun o => o.quar && !k.quar.contains o.obj) with
      | some o => s.notice core o.obj
      | none => s)

/-- A frame is at a token boundary (R186): none of its operators is in dispatch or execution. -/
def State.atBoundary (s : State) (core : Nat) (fp : U32) : Bool :=
  match s.cur with
  | some g => !(g.core == core && g.fp == fp)
  | none => true

/-- ABORT_FREE (R181, R472): an aborted frame is freed at a token boundary, and reports to its continuation unless its
context is being destroyed. -/
def execAbortFree (core : Nat) (fp : U32) (s : State) : Host.Outcome State Fault Refusal :=
  .next (
    match (s.core core).anyFrame? fp with
    | none => s
    | some fr =>
      let dying := decide ((s.ctx fr.ctx.toNat).phase = .destroying)
      if !fr.abort || !s.atBoundary core fp then s
      else if dying then s.freeFrame core fp
      else if fr.freepend then s
      else
        let s := s.orphan core fp fr .quarantined
        if ((s.core core).frame? fp).isSome then s.freeOrWait core fp else s.freeNow core fp)

/-! ## Install of code pages (R178 to R180) -/

/-- The pages that a core's store holds or is reading. -/
def Core.pagesUsed (k : Core) : Nat := k.pages.length + (k.installs.filter Install.active).length

/-- A page that may be evicted: no operator of it is in dispatch. -/
def State.evictable (s : State) (core : Nat) (p : PageFrame) : Bool :=
  match s.cur with
  | some g => !(g.core == core && g.obj == p.obj && g.ip.toNat / 256 == p.page)
  | none => true

/-- The least recently dispatched page of a list. -/
def oldestPage (l : List PageFrame) : Option PageFrame :=
  l.foldl (fun (b : Option PageFrame) p =>
    match b with
    | none => some p
    | some x => if p.stamp < x.stamp then some p else some x) none

/-- INSTALL_START (R178): the install of a page begins, in a free page frame or that of an evicted page. -/
def execInstallStart (core : Nat) (obj : U32) (page : Nat) (s : State) : Host.Outcome State Fault Refusal :=
  .next (
    let k := s.core core
    let start (k : Core) : State :=
      s.setCore core { k with installs := k.installs.map (fun i =>
        if i.obj == obj && i.page == page then { i with active := true } else i) }
    if !k.installs.any (fun i => i.obj == obj && i.page == page && !i.active) then s
    else if k.pagesUsed < 16 then start k
    else
      match oldestPage (k.pages.filter (s.evictable core)) with
      | none => s
      | some p => start { k with pages := k.pages.filter (fun x => !(x.obj == p.obj && x.page == p.page)) })

/-- What R67 checks of an object. -/
def ObjRec.info (o : ObjRec) : ObjInfo :=
  { ninstr := o.ninstr, shapes := o.shapes.length, tmpls := some (o.tmpls.map Template.id) }

/-- The words of a page. -/
def pageWords (bs : List Byte) : List U128 := (List.range 256).map (fun i => wordOfBytes (cut bs (16 * i) 16))

/-- The first word of a page that R67 refuses, with its reason. -/
def pageReject (o : ObjRec) (page : Nat) (ws : List U128) : Option (Nat × Nat) :=
  ws.zipIdx.findSome? (fun (x : U128 × Nat) =>
    match installReason o.info (Raw.ofWord x.1) with
    | some r => some (page * 256 + x.2, r.code)
    | none => if o.ninstr ≤ page * 256 + x.2 ∧ x.1 ≠ 0 then some (page * 256 + x.2, 10) else none)

/-- An install fails: the record, the quarantine, the notice to the core itself (R180, R181). -/
def State.installFails (s : State) (core ctx : Nat) (obj : U32) (page : Nat) (cls : FaultClass) (ip reason qreason : Nat) :
    State :=
  let s := s.faultLogged {
    cls := cls, ctx := ctx, core := core, obj := obj, ip := BitVec.ofNat 20 ip, fp := 0, precise := false, parked := false,
    supv := false, token := false, port := 0, reason := reason, d0 := page, d1 := core, d2 := 0 }
  (s.quarantine ctx obj page qreason).notice core obj

/-- INSTALL_COMPLETE (R179, R180): the page is read, its hash compared, its words validated, and its tokens released. -/
def execInstallComplete (core : Nat) (obj : U32) (page : Nat) (s : State) : Host.Outcome State Fault Refusal :=
  .next (
    let k := s.core core
    let ctx := k.ctx.getD 0
    match k.installs.find? (fun i => i.obj == obj && i.page == page), (s.ctx ctx).obj? obj with
    | some x, some o =>
      if !x.active || x.parked then s
      else
        match s.objBytes ctx o.fromEp o.ep o.base (o.codeOff + 4096 * page) 4096 with
        | .error _ =>
          let s := s.faultSupervisor {
            cls := .codeFetch, ctx := ctx, core := core, obj := obj, ip := 0, fp := 0, precise := false, parked := false,
            supv := true, token := false, port := 4 * 16, reason := 0, d0 := page, d1 := core, d2 := 0 } 6
          s.modCore core (fun k => { k with installs := k.installs.map (fun i =>
            if i.obj == obj && i.page == page then { i with parked := true } else i) })
        | .ok bs =>
          if sha512 (natLe 4 obj.toNat ++ natLe 4 page ++ bs) != o.hashes[page]?.getD [] then
            s.installFails core ctx obj page .codeHash 0 0 1
          else
            let ws := pageWords bs
            match pageReject o page ws with
            | some (ip, r) => s.installFails core ctx obj page .codeIllegal ip r 3
            | none =>
              let f : PageFrame :=
                { ctx := ctx, obj := obj, page := page, words := ws.zipIdx.map (fun w => (w.2, w.1)), stamp := s.clock }
              let k := { k with
                pages := k.pages ++ [f],
                installs := k.installs.filter (fun i => !(i.obj == obj && i.page == page)),
                dispatchQ := k.dispatchQ ++ x.mail }
              s.setCore core (k.count 7)
    | _, _ => s)

end Sys2Proof.Machine
end

