-- ==== Sys2Proof/Machine/Issue.lean ====
section
/-! DEFINITION. Issue: the serving of messages at the frame store, spill and fill, the two dispatch slots of a core with their ready classes (R182 to R184), the divider's emission (R217), and the quiescence detector with its report (R195, R196). -/

namespace Sys2Proof.Machine

/-! ## The frame store -/

/-- TOKEN_SERVE (R37, R38, R42, R43): the first message of a source is served; src names the sender, or a queue of the
core. -/
def execTokenServe (core src : Nat) (s : State) : Host.Outcome State Fault Refusal :=
  .next (if (s.core core).ctx.isNone then s else s.takeMail core src false)

/-- RELEASE_MESSAGE (R192): a release message is served at the parent's core. -/
def execReleaseMessage (core src : Nat) (s : State) : Host.Outcome State Fault Refusal :=
  .next (if (s.core core).ctx.isNone then s else s.takeMail core src true)

/-- FRAME_SPILL (R46): the first allocation that waits makes room. -/
def execFrameSpill (core : Nat) (s : State) : Host.Outcome State Fault Refusal := .next (s.serveAlloc core)

/-- FRAME_FILL (R48). -/
def execFrameFill (core : Nat) (fp : U32) (s : State) : Host.Outcome State Fault Refusal := .next (s.fill core fp)

/-- DEFERRED_FREE (R39, R40): a free that waited takes effect once LIVE is 0. -/
def execDeferredFree (core : Nat) (fp : U32) (s : State) : Host.Outcome State Fault Refusal :=
  .next (
    match (s.core core).anyFrame? fp with
    | none => s
    | some f => if f.freepend && f.live.toNat == 0 then s.freeFrame core fp else s)

/-! ## Dispatch (R182 to R184) -/

/-- The core dispatches (R436, R453): it is not stopped, its context is active, and no operator is in its cycle of
execution. -/
def State.dispatches (s : State) (core : Nat) : Bool :=
  let k := s.core core
  s.cur.isNone && !k.stopped &&
  (match k.ctx with
   | some cx => decide ((s.ctx cx).phase = .active)
   | none => false)

/-- A turn of a lower class falls due (R184): 64 consecutive dispatches from a class while a lower one waits. -/
def turnDue (l : List (Nat × Firing)) (turn last : Nat) : Bool := decide (64 ≤ turn) && lowerWaits l last

/-- The classes in the order in which a slot looks at them (R183, R184): 3 down to 0, or those below the counted one where
its turn is over. -/
def classOrder (due : Bool) (last : Nat) : List Nat :=
  let all := [3, 2, 1, 0]
  if due then all.filter (fun c => decide (c < last)) ++ all.filter (fun c => decide (last ≤ c)) else all

/-- The count of consecutive dispatches after a dispatch from a class (R184): turn and class; rest is what still waits
for the slot. -/
def nextTurn (rest : List (Nat × Firing)) (due : Bool) (turn last cls : Nat) : Nat :=
  if due || !lowerWaits rest cls then 0
  else if last = cls then turn + 1
  else 1

/-- The first entry of a class, and the others. -/
def takeClass (cls : Nat) : List (Nat × Firing) → Option (Firing × List (Nat × Firing))
  | [] => none
  | e :: t => if e.1 = cls then some (e.2, t) else (takeClass cls t).map (fun p => (p.1, e :: p.2))

/-- The first class of an order with an entry: the class, its first entry, and the others. -/
def takeHead (l : List (Nat × Firing)) : List Nat → Option (Nat × Firing × List (Nat × Firing))
  | [] => none
  | c :: cs =>
    match takeClass c l with
    | some (g, rest) => some (c, g, rest)
    | none => takeHead l cs

/-- A core whose page is stamped for a dispatch from it (R178). -/
def Core.stampPage (k : Core) (g : Firing) (now : Nat) : Core :=
  { k with pages := k.pages.map (fun p =>
      if p.ctx == g.ctx && p.obj == g.obj && p.page == g.ip.toNat / 256 then { p with stamp := now } else p) }

/-- LIGHT_DISPATCH (R183): the light slot dispatches the head of its highest class that holds an entry. PERF 0 counts it. -/
def execLightDispatch (core : Nat) (s : State) : Host.Outcome State Fault Refusal :=
  .next (
    let k := s.core core
    if !s.dispatches core || (turnDue k.light k.lightTurn k.lightLast && !k.lightDue) then s
    else
      match takeHead k.light (classOrder k.lightDue k.lightLast) with
      | none => s
      | some (c, g, rest) =>
        let k : Core := { k with
          light := rest, lightTurn := nextTurn rest k.lightDue k.lightTurn k.lightLast c, lightLast := c, lightDue := false }
        { s.setCore core ((k.stampPage g s.clock).count 0) with cur := some g })

/-- The unit of a core for an engine opcode (R260, R294, R322, R372, R442): an address generator is named by IMM. -/
def unitOf (opc : Nat) (f : Fields) : Engine :=
  if 0x68 ≤ opc ∧ opc ≤ 0x6A then .gen (f.imm.toNat % 16)
  else if 0x6B ≤ opc ∧ opc ≤ 0x71 then .stream
  else if opc < 0x80 then .split
  else if opc < 0xA0 then .vector
  else if opc < 0xB0 then .matrix
  else if opc < 0xC0 then .sync
  else if opc < 0xE0 then .launch
  else .system

/-- The commands that a unit has in flight (R260, R372). -/
def Core.inFlight (k : Core) (e : Engine) : Nat := (k.cmds.filter (fun c => c.engine == e)).length

/-- The unit can accept the command (R260, R294, R320, R322, R372). -/
def Core.accepts (k : Core) (g : Firing) (opc : Nat) (f : Fields) : Bool :=
  let marker := g.vals.any (fun v => v.kind == .marker)
  match unitOf opc f with
  | .split => decide (k.inFlight .split < 64)
  | .sync => decide (k.inFlight .sync < 64)
  | .gen n => opc != 0x69 || !(k.gen n).running
  | .vector => marker || decide (k.vecQueue.length < 4)
  | .matrix =>
    if marker || matQueued opc then decide ((k.acc k.sel).queue.length < 8)
    else if opc = 0xA0 then
      match k.mat with
      | some b => b.closing.isNone
      | none => true
    else true
  | _ => true

/-- The first entry of a class whose unit can accept it, behind no entry of the class for the same unit (R183), and the
others; full lists the units that have refused one. -/
def State.takeUnit (s : State) (core cls : Nat) (full : List Engine) :
    List (Nat × Firing) → Option (Firing × List (Nat × Firing))
  | [] => none
  | e :: t =>
    let pass (full : List Engine) := (s.takeUnit core cls full t).map (fun p => (p.1, e :: p.2))
    if e.1 ≠ cls then pass full
    else
      match s.formOf e.2 with
      | none => pass full
      | some (opc, f) =>
        let u := unitOf opc f
        if full.contains u then pass full
        else if (s.core core).accepts e.2 opc f then some (e.2, t)
        else pass (u :: full)

/-- The first class of an order with an entry that may be dispatched. -/
def State.takeEngine (s : State) (core : Nat) (l : List (Nat × Firing)) :
    List Nat → Option (Nat × Firing × List (Nat × Firing))
  | [] => none
  | c :: cs =>
    match s.takeUnit core c [] l with
    | some (g, rest) => some (c, g, rest)
    | none => s.takeEngine core l cs

/-- The engine commands that a probe may issue (R141): XLATE, CAPCUT, LDG, LDV and TINFO. -/
def probeMay (opc : Nat) : Bool := opc == 0x60 || opc == 0x61 || opc == 0x64 || opc == 0x66 || opc == 0x54

/-- The replay whose probe a firing belongs to, where its opcode is not one that a probe may issue (R141). -/
def State.probeBreach (s : State) (g : Firing) (opc : Nat) : Option (Nat × Nat) :=
  match s.frameOf g with
  | some fr => if fr.probe && !probeMay opc then some (quadOf g.core, g.task) else none
  | none => none

/-- TAPE_PROBE (R141, R143): the record; its fault token stops the replay. -/
def State.probeFault (s : State) (g : Firing) (quad task : Nat) : State :=
  let p := s.logFault { g.fault .tapeProbe 0 0 0 with token := true }
  let v : Val := {
    kind := .fault, value := faultValue .tapeProbe (s.vcoreOf g.core) p.2, round := g.l.round, prov := provData,
    lin := Lineage.none }
  p.1.modReplay quad task (fun r => { r with fault := if r.fault = none then some v else r.fault })

/-- ENGINE_DISPATCH (R127, R141, R183): the engine slot dispatches the first command, from the highest class down, whose
engine can accept it. PERF 1 counts it. -/
def execEngineDispatch (core : Nat) (s : State) : Host.Outcome State Fault Refusal :=
  .next (
    let k := s.core core
    if !s.dispatches core || (turnDue k.engine k.engTurn k.engLast && !k.engDue) then s
    else
      match s.takeEngine core k.engine (classOrder k.engDue k.engLast) with
      | none => s
      | some (c, g, rest) =>
        -- a dispatch past a higher class counts as the turn of a lower one
        let lower := k.engine.any (fun e => decide (c < e.1))
        let k : Core := { k with
          engine := rest, engTurn := nextTurn rest (k.engDue || lower) k.engTurn k.engLast c, engLast := c, engDue := false }
        let s := s.setCore core ((k.stampPage g s.clock).count 1)
        match s.formOf g, g.word with
        | some (opc, _), some w =>
          match s.probeBreach g opc with
          | some (q, t) => s.probeFault g q t
          | none =>
            let p := s.capture core g w
            { p.1 with cur := some p.2 }
        | _, _ => { s with cur := some g })

/-- DISPATCH_TURN (R184): the count of a slot has reached 64 while a lower class waits; its next dispatch takes a lower
class. -/
def execDispatchTurn (core : Nat) (engine : Bool) (s : State) : Host.Outcome State Fault Refusal :=
  .next (s.modCore core (fun k =>
    if engine then { k with engDue := k.engDue || turnDue k.engine k.engTurn k.engLast }
    else { k with lightDue := k.lightDue || turnDue k.light k.lightTurn k.lightLast }))

/-- DIVIDER_EMIT (R217): the divider emits the oldest of its results. Its flags are set then (R94, R216). -/
def execDividerEmit (core : Nat) (s : State) : Host.Outcome State Fault Refusal :=
  .next (
    match (s.core core).divider with
    | [] => s
    | d :: t =>
      ((s.modCore core (fun k => { k with divider := t })).setFlags d.fire.ctx d.flags).emitBoth d.fire
        (Fields.ofDests d.d0 d.d1) d.val)

/-! ## Quiescence (R195, R196) -/

/-- A command is a LOCKQ that waits for its grant (R370). -/
def Cmd.waitsLock (c : Cmd) : Bool :=
  c.phase == .queued &&
  (match c.instr with
   | .lockq _ => true
   | _ => false)

/-- A command is stopped on a stream port parked by a fault (R195): the port that it takes entries from is empty, or that it puts
them into has not the room it needs, and the generator there is parked. -/
def Core.stoppedOn (k : Core) (i : Instr) (g : Firing) (need : Nat) : Bool :=
  let parked (p : Nat) : Bool := k.gens.any (fun e => e.2.parked.isSome && e.2.parkPort == (if portIsOut p then 1 else 0, p % 8))
  (match pullsFrom i g with
   | some p => parked p && (k.port p).fifo.isEmpty
   | none => false) ||
  (match pushesTo i g with
   | some p => parked p && decide (16 - (k.port p).fifo.length < need)
   | none => false)

/-- The entries that an item at the head of an accumulator queue puts into its port at once: a row of MROW.OUT, or one. -/
def MatItem.need (it : MatItem) : Nat :=
  match it.instr.form with
  | some (0xA3, _, f) => (lineBytes (tyOf (bitsAt f.qual.toNat 2 4)) (it.shape false true true).n + 63) / 64
  | _ => 1

/-- An accumulator queue without the items behind a head that is stopped on a parked stream port. -/
def Core.accStill (k : Core) (x : Accum) : Bool :=
  x.held.isEmpty &&
  (match x.queue with
   | [] => true
   | it :: _ => !it.marker && k.stoppedOn it.instr it.fire it.need)

/-- A core holds nothing of its context that is in flight, queued or incomplete (R195), apart from the waits that the
report lists: engines stopped on a parked stream port with what is queued behind, blocked tokens, LOCKQs that wait. -/
def Core.still (k : Core) : Bool :=
  k.inbox.isEmpty && k.dispatchQ.isEmpty && k.fillQueue.isEmpty && k.allocs.isEmpty && k.light.isEmpty && k.engine.isEmpty &&
  k.installs.isEmpty && k.cmds.all (fun c => c.waitsLock || k.stoppedOn c.instr c.fire 1) &&
  k.gens.all (fun e => e.2.run.isNone || (e.2.parked.isSome && e.2.stopReq.isEmpty)) &&
  (match k.vecRun with
   | some c => k.stoppedOn c.instr c.fire 1
   | none => k.vecQueue.isEmpty) &&
  k.accStill k.acc0 && k.accStill k.acc1 &&
  ({ k with cmds := [], gens := [], vecQueue := [], vecRun := none, acc0 := Accum.reset, acc1 := Accum.reset } : Core).work.isEmpty

/-- A root frame that has not executed END (R195): END frees its frame, or marks it (R40). -/
def Core.liveRoot (k : Core) : Bool := k.allFrames.any (fun e => e.2.root && !e.2.freepend)

/-- Messages for cores of a context that links carry. -/
def State.onLinks (s : State) (ctx : Nat) : Bool :=
  s.linkMails.any (fun m => (s.core m.1).ctx == some ctx)

/-- The condition of R195 at this instant. -/
def State.quiet (s : State) (ctx : Nat) : Bool :=
  let ks := (s.regionCores ctx).map s.core
  let aside : State := { s with cores := [] }
  (match s.cur with
   | some g => g.ctx != ctx
   | none => true) &&
  ks.all Core.still && (s.regionCores ctx).all s.allBlocked && ks.any Core.liveRoot && !s.onLinks ctx &&
  aside.work.all (fun g => g.ctx != ctx)

/-- An entry of the report (R196). -/
def reportEntry (fp : U32) (slot type : Nat) (aux : U32) : List Byte :=
  natLe 4 fp.toNat ++ natLe 1 slot ++ natLe 1 type ++ natLe 2 0 ++ natLe 4 aux.toNat ++ natLe 4 0

/-- The SLOT of the instruction that a token addresses, 0 where its frame or page is not there. -/
def State.slotOf (s : State) (core : Nat) (t : Token) : Nat :=
  let k := s.core core
  match k.anyFrame? t.fp with
  | none => 0
  | some f =>
    match k.wordAt (k.ctx.getD 0) f.obj t.ip with
    | none => 0
    | some w =>
      match wordForm w with
      | some (_, f) => f.slot.toNat
      | none => 0

/-- The locks at which a command waits: node and entry. -/
def State.lockWaits (s : State) (core cmd : Nat) : List (Nat × Nat) :=
  (s.locks.filter (fun e => e.2.waiters.contains (core, cmd))).map (fun e => (e.1 / 256, e.1 % 256))

/-- The frame that a held item is for: the one whose operator asked for it, or none yet (R172). -/
def Held.entry (h : Held) : List Byte :=
  match h with
  | .alloc _ (.firing g _ _) => reportEntry g.fp 0 1 0
  | _ => reportEntry 0 0 1 0

/-- The last word of an entry of type 3: IP and PORT (R196). -/
def blockedAux (ip : BitVec 20) (port : Bool) : U32 := (0 : BitVec 11) ++ bit1 port ++ ip

/-- An item that waits at the edge of a partition, listed as blocked (R195, R196; log 15): an allocation under the firing that asks
for it. -/
def State.edgeEntry (s : State) (h : Held) : List Byte :=
  match h with
  | .alloc _ (.firing g _ _) =>
    reportEntry g.fp (((s.formOf g).map (fun x => x.2.slot.toNat)).getD 0) 3 (blockedAux g.ip g.port)
  | _ => reportEntry 0 0 3 0

/-- A blocked message in the report (R196); a release or free message addresses no instruction (log 15). -/
def State.blockedEntry (s : State) (core : Nat) (m : Mail) : List Byte :=
  match m.msg with
  | .token t _ => reportEntry t.fp (s.slotOf core t) 3 (blockedAux t.ip t.port)
  | .release fp | .free fp _ => reportEntry fp 0 3 0

/-- The core under which a held item is listed: that of its allocation, or the first of the context in its stack. -/
def State.heldAt (s : State) (ctx stack : Nat) (h : Held) : Nat :=
  match h with
  | .alloc core _ => core
  | .bind _ => (((s.ctx ctx).cores stack).head?.map Prod.snd).getD 0

/-- The entries of a core in the report (R196). -/
def State.reportOf (s : State) (ctx core : Nat) : List (List Byte) :=
  let k := s.core core
  let parked := k.allFrames.flatMap (fun e =>
    e.2.slots.filterMap (fun x =>
      match x.2 with
      | .parked _ _ => some (reportEntry e.1 x.1 0 x.2.tag)
      | _ => none))
  let st := coreStack core
  let held := ((s.part st ctx).hold.filter (fun h => s.heldAt ctx st h == core)).map Held.entry
  let ports := (k.gens.filter (fun e => e.2.parked.isSome)).map (fun e =>
    reportEntry (BitVec.ofNat 32 k.vcore.toNat) e.2.parkPort.2 2 0)
  let edge := ((s.part st ctx).edge.filter (fun h => s.heldAt ctx st h == core)).map s.edgeEntry
  let blocked := k.blocked.map (s.blockedEntry core)
  let locks := (k.cmds.filter Cmd.waitsLock).flatMap (fun c =>
    (s.lockWaits core c.id).map (fun l => reportEntry c.fire.fp l.2 4 ((0 : BitVec 16) ++ s.nodeId l.1)))
  parked ++ held ++ ports ++ edge ++ blocked ++ locks

/-- QUIESCED (R195, R196): the event, and the report where QRBASE has an area. -/
def execQuiesced (ctx : Nat) (s : State) : Host.Outcome State Fault Refusal :=
  .next (
    let c := s.ctx ctx
    if c.phase ≠ .active ∨ c.quiet ∨ !s.quiet ctx then s
    else
      let seq := c.qrseq + 1
      let home := s.homeStack ctx
      let es := (s.regionCores ctx).flatMap (s.reportOf ctx)
      let room := (4096 * 2 ^ c.qrlog.toNat - 32) / 16
      let n := min room es.length
      let head := natLe 4 seq.toNat ++ natLe 4 es.length ++ natLe 4 n ++ natLe 1 (if n < es.length then 1 else 0) ++ natLe 3 0 ++
        natLe 8 (s.stack home).timeReg.toNat ++ natLe 8 0
      let s := s.modCtx ctx (fun c => { c with quiet := true, qrseq := seq })
      let s := if c.qrbase.toNat = 0 then s else s.ctxPut ctx (c.qrbase.toNat * 4096) (head ++ (es.take n).flatten)
      s.event home 0 ctx 0 seq)

end Sys2Proof.Machine
end

