-- ==== Sys2Proof/Machine/Time.lean ====
section
/-! DEFINITION. TIME, its bound and its state (R384 to R395), the time instructions (R411 to R415), and the stack clocks (R22 to R24, R409). -/

namespace Sys2Proof.Machine

/-! ## TIME and its bound (R384 to R390) -/

/-- TIME of a stack, or of I/O die 0 or 1 (nodes 16 and 17). -/
def State.timeOf (s : State) (node : Nat) : Nat :=
  if node < 16 then (s.stack node).time else if node = 16 then s.mod.io0Time else s.mod.io1Time

/-- ERR of a node (R385, R388). -/
def State.errOf (s : State) (node : Nat) : U32 :=
  if node < 16 then (s.stack node).errReg
  else if node = 16 then errAdd s.mod.ioErr s.mod.ioResid.natAbs
  else errAdd s.mod.io1Err s.mod.io1Resid.natAbs

/-- TIMECFG's fields (R390): DOMREQ, with 0 taken as 1, GMREQ and ERRLIM. -/
def Module.domReq (m : Module) : BitVec 3 :=
  let d := field m.timecfg 33 2
  if d = 0 then 1 else (0 : BitVec 1) ++ d
def Module.gmReq (m : Module) : Bool := bitAt m.timecfg 32
def Module.errLim (m : Module) : Nat := (field m.timecfg 0 32).toNat

/-- TIME_LIMIT (R390): raised once when ERR of a stack becomes greater than ERRLIM, and again only after it has fallen. -/
def State.limitCheck (s : State) (stack : Nat) : State :=
  let k := s.stack stack
  let lim := s.mod.errLim
  if lim ≠ 0 ∧ lim < k.errReg.toNat then
    if k.limitHit then s
    else (s.modStack stack (fun k => { k with limitHit := true })).event stack 10 0xFFF (stack * 256) k.errReg
  else s.modStack stack (fun k => { k with limitHit := false })

/-- One millisecond in units of TIME. -/
def milli : Int := 16000000

/-- A correction that an exchange asks for (R388): one step of 1 ms or more forwards, else a slew, whose residual replaces
the one that the exchange has measured with it. -/
def Stack.correct (k : Stack) (c : Int) : Stack :=
  if milli ≤ c then { k with time := k.time + c.toNat, epoch := k.epoch + 1, residual := 0, slewing := false }
  else { k with residual := c, slewing := c != 0 }

/-- What a slew adds to TIME while the reference moves on by a units (R388): at most 500 ppm of them, and no more than the
residual that remains; x chooses the rate. -/
def slewPart (r : Int) (a x : Nat) : Int :=
  let m : Nat := min r.natAbs (x % (a / 2000 + 1))
  if r < 0 then -m else m

/-- TIME of a node of ERR err after its reference has come to ref (R387, R388): t, as its own clock has it, held within
the bound, and never below what it was. -/
def heldTime (err : U32) (ref slack old t : Nat) : Nat :=
  let b := err.toNat - slack
  if err = 0xFFFFFFFF then max old t else max old (max (ref - b) (min (ref + b) t))

/-- TIME of a stack moves on (R387, R388): the reference has moved by a units to ref and stands within slack of the reference
of a wider domain, tick is what the stack's own clock adds, and x the rate of a slew. -/
def Stack.pass (k : Stack) (a ref slack tick x : Nat) : Stack :=
  let e := slewPart k.residual a x
  let k' := { k with residual := k.residual - e }
  { k' with time := heldTime k'.errReg ref (if k.dom = 1 then 0 else slack) k.time (k.time + tick + e).toNat }

/-- TIME moves on at every stack and at both I/O dies (R387, R388): amount gives what the clock of each node adds, 16 and 17 for
the I/O dies, and amount (18 + n) the rate of the slew of node n (log 4). -/
def State.pass (s : State) (amount : Nat → Nat) : State :=
  let e := slewPart s.mod.ioResid (amount 16) (amount 34)
  let ref := (s.mod.io0Time + amount 16 + e).toNat
  let a := ref - s.mod.io0Time
  let s := s.modMod (fun m => { m with io0Time := ref, ioResid := m.ioResid - e })
  let slack := (s.errOf 16).toNat
  let lim := s.mod.errLim
  let s := (List.range 16).foldl (fun (s : State) n => s.modStack n (fun k =>
    let k := k.pass a ref slack (amount n) (amount (18 + n))
    { k with limitHit := k.limitHit && decide (lim < k.errReg.toNat) })) s
  let e := slewPart s.mod.io1Resid a (amount 35)
  let t := (s.mod.io1Time + amount 17 + e).toNat
  let s := s.modMod (fun m => { m with io1Resid := m.io1Resid - e })
  { s.modMod (fun m => { m with io1Time := heldTime (s.errOf 17) ref (if m.ioDom = 1 then 0 else slack) m.io1Time t }) with
    clock := s.clock + 1 }

/-- ERR of every stack, and of I/O die 1, covers a step of the reference by c units until the exchange brings it (R387, R388, R415). -/
def State.spread (s : State) (c : Nat) : State :=
  (List.range 16).foldl (fun (s : State) n => (s.modStack n (fun k => { k with err := errAdd k.err c })).limitCheck n)
    (s.modMod (fun m => { m with io1Err := errAdd m.io1Err c }))

/-- SLEW_COMPLETE (R388): the residual is fully removed, and the stack's rate of TIME is nominal again. -/
def execSlewComplete (stack : Nat) (s : State) : Host.Outcome State Fault Refusal :=
  .next (
    if (s.stack stack).slewing && (s.stack stack).residual == 0 then
      (s.modStack stack (fun k => { k with slewing := false })).limitCheck stack
    else s)

/-- Four microseconds and 3.125 microseconds in units of TIME (R389). -/
def holdAfter : Nat := 64000
def holdStep : Nat := 50000

/-- HOLDOVER_ENTER (R389): no upstream exchange of the stack has completed for 4 µs; LOCK falls with HOLD. -/
def execHoldoverEnter (stack : Nat) (s : State) : Host.Outcome State Fault Refusal :=
  .next (
    let k := s.stack stack
    if k.hold ∨ k.time < k.lastExch + holdAfter then s
    else s.modStack stack (fun k => { k with hold := true, lastTick := k.time }))

/-- HOLDOVER_TICK (R389): in holdover ERR grows by one unit for every 3.125 µs. -/
def execHoldoverTick (stack : Nat) (s : State) : Host.Outcome State Fault Refusal :=
  .next (
    let k := s.stack stack
    if !k.hold ∨ k.time < k.lastTick + holdStep then s
    else (s.modStack stack (fun k => { k with err := errAdd k.err 1, lastTick := k.lastTick + holdStep })).limitCheck stack)

/-! ## The module reference (R391, R394, R415) -/

/-- The module reference takes up DOMREQ and GMREQ at an exchange (R390): in domain 1, or where it serves as the
reference, it is its own reference, with no error; as a follower it waits for an exchange of R394. -/
def Module.follow (m : Module) : Module :=
  if m.domReq = 1 ∨ m.gmReq then { m with ioDom := m.domReq, ioErr := 0, ioGm := true }
  else { m with ioGm := m.ioDom == 1 }

/-- The reference is disciplined from outside (R394): off is how far it is ahead, err the bound that comes with it. -/
def Module.discipline (m : Module) (dom : BitVec 3) (off : Int) (err : Nat) : Module :=
  let c := -off
  let m :=
    if milli ≤ c then { m with io0Time := m.io0Time + c.toNat, ioEpoch := m.ioEpoch + 1, ioResid := 0 }
    else { m with ioResid := c }
  let m := { m with ioErr := BitVec.ofNat 32 (min 0xFFFFFFFF err) }
  -- DOM keeps its old value until lock is acquired
  if inLock dom (errAdd m.ioErr m.ioResid.natAbs) then { m with ioDom := dom, ioGm := false } else m

/-- The reference after an exchange outside the module (R387, R394): the stacks' bounds cover a step of it. -/
def State.discipline (s : State) (dom : BitVec 3) (off : Int) (err : Nat) : State :=
  let t := s.modMod (fun m => m.discipline dom off err)
  if milli ≤ -off then t.spread (-off).toNat else t

/-- POD_SYNC_EXCHANGE (R394): under DOMREQ 2 I/O die 0 exchanges time with the pod reference over UALink; each switch tier
counts as one link of R392. The gate of R491 must be open. -/
def execPodSyncExchange (off : Int) (err tiers : Nat) (s : State) : Host.Outcome State Fault Refusal :=
  .next (
    if s.mod.domReq ≠ 2 ∨ s.mod.gmReq ∨ !bitAt s.mod.gates 8 ∨ 2 < tiers then s
    else s.discipline 2 off (err + 3 * tiers))

/-- PTP_MESSAGE (R394): under DOMREQ 3 a delay request-response measurement of IEEE 1588 is complete. -/
def execPtpMessage (off : Int) (err : Nat) (s : State) : Host.Outcome State Fault Refusal :=
  .next (
    if s.mod.domReq ≠ 3 ∨ s.mod.gmReq ∨ !bitAt s.mod.gates 10 then s
    else s.discipline 3 off err)

/-- A scalar result of a time or system instruction (R130, R412, R442): DATA. -/
def dataScalar (g : Firing) (x : U64) : Val := Val.scalar x g.l.round provData

/-- The conditions under which TIMEADJ acts (R415): a supervisor context; a reference that follows none outside. -/
def State.timeadj (s : State) (f : Fields) (k : State → Firing → U64 → State) : Host.Outcome State Fault Refusal :=
  .next (s.operate .scalars f (fun s g l _ _ =>
    if !(s.ctx g.ctx).sup then s.fault g f .privilege 0
    else if 1 < s.mod.ioDom.toNat ∧ !s.mod.ioGm then s.fault g f .timeFollower 0
    else k s g l.value))

/-- TIMEADJ.SLEW (R388, R415): an offset is slewed at the module reference. -/
def execTimeadjSlew (f : Fields) (s : State) : Host.Outcome State Fault Refusal :=
  s.timeadj f (fun s g x =>
    if 2 ^ 40 < x.toInt.natAbs then s.fault g f .operandRange 0
    else (s.modMod (fun m => { m with ioResid := m.ioResid + x.toInt })).emit g f false (dataScalar g 0))

/-- TIMEADJ.STEP (R388, R415): the module reference steps forward, and EPOCH is incremented. ERR of every stack covers the
change until an exchange brings it (R387, R415). -/
def execTimeadjStep (f : Fields) (s : State) : Host.Outcome State Fault Refusal :=
  s.timeadj f (fun s g x =>
    if x.toNat = 0 ∨ 2 ^ 56 < x.toNat then s.fault g f .operandRange 0
    else
      ((s.modMod (fun m => { m with io0Time := m.io0Time + x.toNat, ioEpoch := m.ioEpoch + 1 })).spread x.toNat).emit g f false
        (dataScalar g 0))

/-! ## TIMERD, TIMECMP, TIMEWAIT (R411 to R414) -/

/-- The stack of a firing. -/
def State.stackOf (s : State) (g : Firing) : Stack := s.stack (coreStack g.core)

/-- TIMERD.NOW (R412): TIME to dest0, ERR to dest1. -/
def execTimerdNow (f : Fields) (s : State) : Host.Outcome State Fault Refusal :=
  .next (s.operate .any f (fun s g _ _ _ =>
    let k := s.stackOf g
    (s.emit g f false (dataScalar g k.timeReg)).emit g f true (dataScalar g ((0 : BitVec 32) ++ k.errReg))))

/-- TIMERD.STAT (R412): TIME_STAT to both destinations. -/
def execTimerdStat (f : Fields) (s : State) : Host.Outcome State Fault Refusal :=
  .next (s.operate .any f (fun s g _ _ _ =>
    s.emitBoth g f (dataScalar g ((s.stackOf g).timeStat (coreStack g.core)))))

/-- The relation of two stamps with a bound (R413): 0 BEFORE, 1 AFTER, 2 UNCERTAIN. -/
def timeOrder (a b e : Nat) : Nat := if a + e < b then 0 else if b + e < a then 1 else 2

/-- TIMECMP (R413): the bound is IMM, or the third operand. -/
def execTimecmp (f : Fields) (s : State) : Host.Outcome State Fault Refusal :=
  .next (s.operate .scalars f (fun s g l r t =>
    let e := match t with
      | some t => t.value.toNat
      | none => f.imm.toNat
    let vs := l :: (r.toList ++ t.toList)
    s.emitBoth g f (Val.computed (BitVec.ofNat 64 (timeOrder l.value.toNat (theVal r).value.toNat e)) g.l.round
      (provJoin (vs.map Val.prov)) vs)))

/-- The condition of a wait (R414). -/
def Stack.reached (k : Stack) (w : Wait) : Bool :=
  if w.sure then k.errReg != 0xFFFFFFFF && decide (w.deadline + k.errReg.toNat ≤ k.timeReg.toNat)
  else decide (w.deadline ≤ k.timeReg.toNat)

/-- TIMEWAIT with its deadline (R414): it takes one of the 256 waits of its core, or waits for one. -/
def State.timewait (s : State) (g : Firing) (f : Fields) (l : Val) (deadline : Nat) : State :=
  let w : Wait := {
    deadline := min (2 ^ 64 - 1) deadline, sure := bitAt f.qual 0, d0 := f.d0, d1 := f.d1, fire := { g with l := l } }
  s.modCore g.core (fun k =>
    if k.waits.length < 256 then { k with waits := k.waits ++ [w] } else { k with waitRetry := k.waitRetry ++ [w] })

/-- The operands of TIMEWAIT: L of any KIND, R a scalar. -/
def waitNeed : Need := { Need.any with kr := isScalar }

/-- TIMEWAIT.ABS (R414). -/
def execTimewaitAbs (f : Fields) (s : State) : Host.Outcome State Fault Refusal :=
  .next (s.operate waitNeed f (fun s g l r _ => s.timewait g f l (theVal r).value.toNat))

/-- TIMEWAIT.REL (R414): the delay counts from TIME at execution. -/
def execTimewaitRel (f : Fields) (s : State) : Host.Outcome State Fault Refusal :=
  .next (s.operate waitNeed f (fun s g l r _ =>
    s.timewait g f l ((s.stackOf g).timeReg.toNat + (theVal r).value.toNat)))

/-- The wait of least deadline of those whose condition holds, the first of equals, with its place. -/
def nextWait (k : Stack) (ws : List Wait) : Option (Nat × Wait) :=
  ((ws.zipIdx.map (fun p => (p.2, p.1))).filter (fun p => k.reached p.2)).foldl
    (fun (b : Option (Nat × Wait)) p =>
      match b with
      | none => some p
      | some x => if p.2.deadline < x.2.deadline then some p else b) none

/-- TIMEWAIT_RELEASE (R414): a wait whose condition holds is released, in increasing deadline; L is emitted unchanged. -/
def execTimewaitRelease (core : Nat) (s : State) : Host.Outcome State Fault Refusal :=
  .next (
    let k := s.core core
    match k.ctx, nextWait (s.stack (coreStack core)) k.waits with
    | some cx, some (i, w) =>
      if (s.ctx cx).phase ≠ .active then s
      else (s.setCore core { k with waits := k.waits.eraseIdx i }).emitBoth w.fire (Fields.ofDests w.d0 w.d1) w.fire.l
    | _, _ => s)

/-- TIMEWAIT_RETRY (R414): a TIMEWAIT that found every wait in use takes one that is free. -/
def execTimewaitRetry (core : Nat) (s : State) : Host.Outcome State Fault Refusal :=
  .next (s.modCore core (fun k =>
    match k.waitRetry with
    | w :: t => if k.waits.length < 256 then { k with waits := k.waits ++ [w], waitRetry := t } else k
    | [] => k))

/-! ## Stack clocks (R22 to R24, R409) -/

/-- SCLK_STAT (R24). -/
def Stack.sclkStat (k : Stack) (id : Nat) : U64 :=
  (0 : BitVec 11) ++ BitVec.ofNat 4 id ++ bit1 (k.moving || k.clamp.isSome) ++ BitVec.ofNat 12 k.targetMhz ++
    BitVec.ofNat 12 k.curMhz ++ BitVec.ofNat 12 k.maxMhz ++ BitVec.ofNat 12 k.minMhz

/-- The modules of a link that are in use in a mode (R402). -/
def modulesOf (mode mask : Nat) : Nat := if mode < 2 then 0xF else mask % 16

/-- The raw rate of a mode, in quarters of 1 TB/s (R402). -/
def modeRate (mode : Nat) : Nat :=
  match mode with
  | 0 => 4 | 1 => 2 | 2 => 2 | _ => 1

/-- The lanes of a mode are 32 for each module (R402). -/
def halved (mode : Nat) : Bool := mode == 1 || mode == 3

/-- The four lane numbers of a map. -/
def mapLanes (v : BitVec 28) : List Nat :=
  [(field v 0 7).toNat, (field v 7 7).toNat, (field v 14 7).toNat, (field v 21 7).toNat]

/-- The physical lanes of a module that carry logical lanes in a mode (R403): those of the active range that the map does not
list, as many as the mode has. -/
def lanesUsed (map : BitVec 28) (mode : Nat) (half : Bool) : List Nat :=
  let range := if halved mode then (List.range 34).map (fun i => (if half then 34 else 0) + i) else List.range 68
  (range.filter (fun a => !(mapLanes map).contains a)).take (if halved mode then 32 else 64)

/-- The pending change of an end is a width reduction (R409): to a mode of lower rate, or one that removes lanes from
use: a module, or a lane that a half or a map takes out (DEDUCED, log 132: also where another lane takes its place). -/
def LinkEnd.reduces (e : LinkEnd) : Bool :=
  let old := modulesOf e.mode e.mask
  let new := modulesOf e.pmode e.pmask
  decide (modeRate e.pmode < modeRate e.mode) ||
  (List.range 4).any (fun m => bitOf old m && (!bitOf new m ||
    (lanesUsed (Table.look 0xFFFFFFF e.live m) e.mode (bitOf e.half m)).any (fun a =>
      !(lanesUsed (Table.look 0xFFFFFFF e.maps m) e.pmode (bitOf e.phalf m)).contains a)))

/-- The ends of links that touch a stack: link and side. -/
def linksOf (stack : Nat) : List (Nat × Nat) :=
  (List.range 32).flatMap (fun l => ([0, 1].filter (fun d => linkNode l d == stack)).map (fun d => (l, d)))

/-- A width reduction on a link of a stack holds back its clock changes (R409): one is agreed at either end. -/
def State.clockHeld (s : State) (stack : Nat) : Bool :=
  (linksOf stack).any (fun e => [0, 1].any (fun d => (s.link e.1 d).pend && (s.link e.1 d).reduces))

/-- A request that is not held begins to take effect (R22). -/
def Stack.startClock (k : Stack) (mhz : Nat) : Stack :=
  { k with targetMhz := mhz, moving := true, pendMhz := none }

/-- A held request is applied where nothing holds it any more (R23, R409). -/
def State.clockRelease (s : State) (stack : Nat) : State :=
  let k := s.stack stack
  match k.pendMhz with
  | none => s
  | some m =>
    if s.clockHeld stack || (k.clamp.isSome && decide (k.curMhz < m)) then s
    else s.modStack stack (fun k => k.startClock m)

/-- CLOCK_CHANGE_REQUEST (R22, R23, R409): outside the configured range it is ignored and logged; else it replaces what
was pending, and takes effect unless a clamp or a width reduction holds it. -/
def execClockChangeRequest (stack mhz : Nat) (s : State) : Host.Outcome State Fault Refusal :=
  .next (
    let k := s.stack stack
    if mhz < k.minMhz ∨ k.maxMhz < mhz then s.modMod (fun m => { m with clockLog := m.clockLog ++ [(stack, mhz)] })
    else (s.modStack stack (fun k => { k with pendMhz := some mhz })).clockRelease stack)

/-- CLOCK_SETTLED (R22): the clock has reached the frequency that was asked for. The path to it is the device's own: DESIGN
CHOICE (log 128): one step, here, so that CUR_MHZ shows no value between. -/
def execClockSettled (stack : Nat) (s : State) : Host.Outcome State Fault Refusal :=
  .next (s.modStack stack (fun k => if k.moving then { k with curMhz := k.targetMhz, moving := false } else k))

/-- CLAMP_ACT (R23): a clamp lowers the clock, to no less than 1.2 GHz, below which it inserts idle cycles; a raise under
way is held. -/
def execClampAct (stack mhz : Nat) (idle : Bool) (s : State) : Host.Outcome State Fault Refusal :=
  .next (s.modStack stack (fun k =>
    let low := min k.curMhz (max 1200 mhz)
    let raise := k.moving && decide (low < k.targetMhz)
    { k with
      clamp := some (low, idle && low == 1200), curMhz := low, moving := k.moving && !raise,
      pendMhz := if raise && k.pendMhz.isNone then some k.targetMhz else k.pendMhz }))

/-- CLAMP_RELEASE (R23): the clamp stops acting; a held request takes effect, or the clock goes back to its target. -/
def execClampRelease (stack : Nat) (s : State) : Host.Outcome State Fault Refusal :=
  .next (
    if (s.stack stack).clamp.isNone then s
    else
      let s := s.modStack stack (fun k => { k with clamp := none, moving := k.moving || k.curMhz != k.targetMhz })
      s.clockRelease stack)

end Sys2Proof.Machine
end

