-- ==== Sys2Proof/Machine/Links.lean ====
section
/-! DEFINITION. Ocler links (R396 to R410): flits and their replay, contexts, the time exchange (R391, R392), coordinated width changes, training, and the requests of LINKCTL and LINKST (R405, R452). -/

namespace Sys2Proof.Machine

/-! ## Flits (R397 to R401) -/

/-- A flit type is sequenced (R398). -/
def FlitBody.sequenced : FlitBody → Bool
  | .ack _ _ => false
  | .time _ => false
  | .idle => false
  | _ => true

/-- DATA. -/
def FlitBody.isData : FlitBody → Bool
  | .tokens _ => true
  | .request _ _ => true
  | .store _ => true
  | .rows _ _ => true
  | _ => false

/-- What an end still owes its peer before it retrains: acknowledgements and messages of a change. -/
def FlitBody.closesDown : FlitBody → Bool
  | .ack _ _ => true
  | .change _ => true
  | _ => false

/-- DATA, OPEN and CLOSE: what an end stops before a change (R408). -/
def FlitBody.isTraffic : FlitBody → Bool
  | .tokens _ => true
  | .request _ _ => true
  | .store _ => true
  | .rows _ _ => true
  | .opens _ _ => true
  | .close => true
  | _ => false

/-! ### Their bytes (R397 to R399) -/

/-- FT (R398). -/
def FlitBody.ft : FlitBody → Nat
  | .tokens _ | .request _ _ | .store _ | .rows _ _ => 0
  | .opens _ _ => 1
  | .close => 2
  | .ack _ _ => 3
  | .time _ => 4
  | .change _ => 5
  | .idle => 6

/-- The 64 bytes of a stream context under its tag (R399). -/
def StreamCtx.bytes (c : StreamCtx) (tag : Nat) : List Byte :=
  natLe 1 c.kind.toNat ++ natLe 1 tag ++ natLe 2 c.src ++ natLe 2 c.dst ++ natLe 1 (c.port % 8) ++ natLe 1 0 ++ natLe 8 c.base.toNat ++
    natLe 4 c.rowb ++ natLe 4 c.nrows ++ natLe 8 (BitVec.ofInt 64 c.stride).toNat ++ natLe 8 c.first ++ natLe 24 0

/-- A position of the token context (R399): the 16 bytes of a token (R32). Another message has a form internal to the module. -/
def mailPosition (m : Nat × Mail) : Option (List Byte) :=
  match m.2.msg with
  | .token t _ => some (natLe 16 (tokenWord t.fp t.ip t.port t.val).toNat)
  | _ => none

/-- PAYLOAD and the sidebands of a flit (R397 to R399), where the spec gives them: an unused token position is all ones, the
sideband of an unused entry 0xFFFF, that of an entry of tokens or a context 0 (log 98). -/
def Flit.payload (x : Flit) : Option (List Byte × List Nat) :=
  let fill (bs : List Byte) (b : Byte) : List Byte := (bs ++ List.replicate 256 b).take 256
  let bands (l : List Nat) : List Nat := (l ++ List.replicate 4 0xFFFF).take 4
  match x.body with
  | .tokens ms => (allSome (ms.map mailPosition)).map (fun ps => (fill ps.flatten 0xFF, bands (List.replicate ((ms.length + 3) / 4) 0)))
  | .rows _ es => some (fill (es.flatMap Entry.data) 0, bands (es.map Entry.sideband))
  | .opens _ c => some (fill (c.bytes x.tag) 0, bands [0])
  | .ack n nak => some (fill (natLe 2 n ++ natLe 1 (if nak then 1 else 0)) 0, bands [])
  | .close | .idle => some (fill [] 0, bands [])
  | .request _ _ | .store _ | .time _ | .change _ => none

/-- The 272 bytes of a flit with its payload and sidebands (R397). -/
def Flit.bytes (x : Flit) (payload : List Byte) (sb : List Nat) : List Byte :=
  let head := payload ++ sb.flatMap (natLe 2) ++ natLe 1 x.tag ++ natLe 1 x.body.ft ++ natLe 2 (x.seq % 4096)
  head ++ natLe 4 (crc32c head)

/-- A flit waits to be sent at a link end. -/
def State.toSend (s : State) (l side tag : Nat) (b : FlitBody) : State :=
  s.modLink l side (fun e => { e with out := e.out ++ [{ tag := tag, seq := 0, body := b }] })

/-- A flit goes first: acknowledgements. -/
def State.sendFirst (s : State) (l side : Nat) (b : FlitBody) : State :=
  s.modLink l side (fun e => { e with out := { tag := 0, seq := 0, body := b } :: e.out })

/-- The end is up, or quieting: it sends flits (R408). -/
def LinkEnd.talks (e : LinkEnd) : Bool := e.state == 2 || e.state == 3

/-- The TAG of a flit that waits to be sent (R399, R400): its stream's, or for OPEN the lowest free one, none while all 254 are in use. -/
def LinkEnd.tagOf (e : LinkEnd) (x : Flit) : Option Nat :=
  if x.tag < 256 then some x.tag
  else
    match x.body with
    | .opens _ _ => ((List.range 254).map (fun n => n + 2)).find? (fun n => (Table.find e.tags n).isNone)
    | _ => (e.tags.find? (fun p => p.2 + 256 == x.tag)).map Prod.fst

/-- The end may send a flit now (R400, R401, R405, R408): it has a tag, there is room in the replay buffer, no DATA, OPEN or CLOSE once it
quiets, and no DATA of a paused stream context. -/
def LinkEnd.maySend (e : LinkEnd) (x : Flit) : Bool :=
  e.talks &&
  (!x.body.sequenced ||
    (decide (e.buffer.length < 1024) && (e.state == 2 || !x.body.isTraffic) &&
      (match e.tagOf x with
       | none => false
       | some t => !(x.body.isData && decide (2 ≤ t) && (e.pauseAll || e.paused.contains t)))))

/-- A flit of tokens takes in those of the flits next behind it, up to 16 (R399). -/
def Flit.gather (x : Flit) : List Flit → Flit × List Flit
  | [] => (x, [])
  | y :: t =>
    match x.body, y.body with
    | .tokens a, .tokens b =>
      if a.length + b.length ≤ 16 then Flit.gather { x with body := .tokens (a ++ b) } t else (x, y :: t)
    | _, _ => (x, y :: t)

/-- The first flit that may be sent, behind no flit of its context that may not, and the others. -/
def LinkEnd.takeSend (e : LinkEnd) (held : List Nat) : List Flit → Option (Flit × List Flit)
  | [] => none
  | x :: t =>
    if e.maySend x && !(x.body.isTraffic && held.contains x.tag) then some (x.gather t)
    else (e.takeSend (if x.body.isTraffic then x.tag :: held else held) t).map (fun p => (p.1, x :: p.2))

/-- A flit is on its way to the other end. -/
def State.onWire (s : State) (l side : Nat) (x : Flit) : State :=
  s.modLink l (1 - side) (fun e => { e with wire := e.wire ++ [x] })

/-- The flit is stamped at egress (R392): t1 of SYNC; t3 of DELAY_REQ is kept by the end. -/
def State.stampFlit (s : State) (l side : Nat) (x : Flit) : State × Flit :=
  let now := s.timeOf (linkNode l side)
  match x.body with
  | .time (.sync _) => (s, { x with body := .time (.sync now) })
  | .time .delayReq => (s.modLink l side (fun e => { e with t3 := now }), x)
  | _ => (s, x)

/-- RETRY's growth within the last millisecond (R404). -/
def LinkEnd.grown (e : LinkEnd) (now : Nat) : Nat := (e.retryLog.filter (fun t => decide (now < t + 16000000))).length

/-- An end as it sends: from TC − 100 ns on it is as one that quiets, and starts no DATA, OPEN or CLOSE (R408). -/
def LinkEnd.guarded (e : LinkEnd) (now : Nat) : LinkEnd :=
  if e.pend && decide (e.tc ≤ now + 1600) then { e with state := 3 } else e

/-- FLIT_SEND (R401): flits to be resent go first, each counted in RETRY; then the first that may be sent, kept in the
replay buffer if it is sequenced; an idle end sends IDLE. -/
def execFlitSend (link side : Nat) (s : State) : Host.Outcome State Fault Refusal :=
  .next (
    let e := s.link link side
    if !e.talks then s
    else
      match e.resend with
      | x :: rest =>
        let now := s.timeOf (linkNode link side)
        let e : LinkEnd := { e with
          resend := rest, retry := satInc e.retry,
          retryLog := now :: e.retryLog.filter (fun t => decide (now < t + 16000000)) }
        let e := if e.rthresh.toNat ≠ 0 ∧ e.rthresh.toNat ≤ e.grown now then { e with retryHit := true } else e
        (s.setLink link side e).onWire link side x
      | [] =>
        match (e.guarded (s.timeOf (linkNode link side))).takeSend [] e.out with
        | none =>
          if (s.link link (1 - side)).wire.isEmpty then s.onWire link side { tag := 0, seq := 0, body := .idle } else s
        | some (x, rest) =>
          let e : LinkEnd := { e with out := rest }
          if x.body.sequenced then
            let x := { x with tag := (e.tagOf x).getD x.tag, seq := e.txSeq }
            let e : LinkEnd := { e with
              buffer := e.buffer ++ [x], txSeq := (e.txSeq + 1) % 4096,
              tags := match x.body with
                | .opens id _ => Table.put e.tags x.tag id
                | .close => Table.del e.tags x.tag
                | _ => e.tags }
            (s.setLink link side e).onWire link side x
          else
            let p := (s.setLink link side e).stampFlit link side x
            p.1.onWire link side p.2)

/-- The first flit on its way to an end is taken in, if h takes a flit of its type: an unsequenced one at once, a sequenced
one with the expected SEQ, once the acknowledgement that is due has been sent (R401). -/
def State.receive (s : State) (l side : Nat) (h : Flit → Option (State → State)) : State :=
  let e := s.link l side
  match e.wire with
  | [] => s
  | x :: rest =>
    match h x with
    | none => s
    | some k =>
      if !x.body.sequenced then k (s.modLink l side (fun e => { e with wire := rest }))
      else if x.seq ≠ e.rxSeq ∨ 64 ≤ e.rxCount then s
      else
        k (s.modLink l side (fun e =>
          { e with wire := rest, rxSeq := (e.rxSeq + 1) % 4096, rxCount := e.rxCount + 1, nakked := false }))

/-- The end acknowledges up to the SEQ that it expects; nak asks for that SEQ again (R398, R401). -/
def State.acknowledge (s : State) (l side : Nat) (nak : Bool) : State :=
  (s.sendFirst l side (.ack (s.link l side).rxSeq nak)).modLink l side (fun e =>
    { e with rxCount := 0, nakked := e.nakked || nak })

/-- ACK_DUE (R401): within 64 flits, or 200 ns. -/
def execAckDue (link side : Nat) (s : State) : Host.Outcome State Fault Refusal :=
  .next (if (s.link link side).rxCount = 0 then s else s.acknowledge link side false)

/-- FLIT_DISCARD (R401): a flit with a bad CRC, counted in CRCERR, or one whose SEQ is not the expected one, is discarded;
one NAK goes out for each expected SEQ. -/
def execFlitDiscard (link side : Nat) (badCrc : Bool) (s : State) : Host.Outcome State Fault Refusal :=
  .next (
    let e := s.link link side
    match e.wire with
    | [] => s
    | x :: rest =>
      if !badCrc && (!x.body.sequenced || x.seq == e.rxSeq) then s
      else
        let e : LinkEnd := { e with wire := rest, crcerr := if badCrc then satInc e.crcerr else e.crcerr }
        let s := s.setLink link side e
        if e.nakked then s else s.acknowledge link side true)

/-- FLIT_ACK (R401): flits before the SEQ are acknowledged; a NAK has the rest sent again from that SEQ on. -/
def execFlitAck (link side : Nat) (s : State) : Host.Outcome State Fault Refusal :=
  .next (s.receive link side (fun x =>
    match x.body with
    | .ack next nak => some (fun (s : State) =>
      s.modLink link side (fun e =>
        -- an acknowledgement of nothing that is kept changes nothing
        let done := (next + 4096 - (e.txSeq + 4096 - e.buffer.length)) % 4096
        if e.buffer.length < done then e
        else
          let left := e.buffer.drop done
          { e with
            buffer := left,
            resend := if nak then left else e.resend.filter (fun y => left.contains y) }))
    | _ => none))

/-- FLIT_IDLE (R398). -/
def execFlitIdle (link side : Nat) (s : State) : Host.Outcome State Fault Refusal :=
  .next (s.receive link side (fun x => if x.body = .idle then some id else none))

/-- RETRY_WINDOW (R404): RETRY has grown by RTHRESH or more within a millisecond, and LINK_RETRY is raised once; a
millisecond of less growth arms it again. -/
def execRetryWindow (link side : Nat) (s : State) : Host.Outcome State Fault Refusal :=
  .next (
    let e := s.link link side
    let node := linkNode link side
    if e.rthresh.toNat = 0 then s
    else if e.retryHit then
      let s := s.modLink link side (fun e => { e with retryHit := false, armed := false })
      if e.armed then s.event (if node < 16 then node else if node = 16 then 0 else 12) 11 0xFFF link e.retry else s
    else if e.grown (s.timeOf node) < e.rthresh.toNat then s.modLink link side (fun e => { e with armed := true })
    else s)

/-! ## Stream contexts (R399, R400) -/

/-- The node that receives a stream. -/
def StreamCtx.node (c : StreamCtx) : Nat := if c.dst < 4096 then coreStack c.dst else c.dst % 16

/-- The place of entry n of a stream: row and offset in the row. -/
def StreamCtx.at (c : StreamCtx) (n : Nat) : Nat × Nat :=
  let per := (c.rowb + 63) / 64
  (n / per, n % per * 64)

/-- Entry n of a stream lands at BASE + (FIRST + row) × STRIDE + offset: in a vault, at a device address, or for a row
return in the input port that PORT names. own is the tape whose own write it is (R154). -/
def State.landEntry (s : State) (c : StreamCtx) (own : Option (Nat × Nat)) (n : Nat) (x : Entry) : State :=
  let p := c.at n
  let a := ((c.base.toNat : Int) + ((c.first + p.1 : Nat) : Int) * c.stride + (p.2 : Int)).toNat
  let bs := x.data.take (c.rowb - p.2)
  if c.kind = 2 then s.portPush c.dst (c.port % 8) x
  else if c.dst < 4096 then s.setVaultBytes c.dst a bs
  else s.hbmWrite (s.devKey a) bs own

/-- The entries of a DATA flit land in order. -/
def State.landEntries (s : State) (c : StreamCtx) (own : Option (Nat × Nat)) : Nat → List Entry → State
  | _, [] => s
  | n, x :: t => (s.landEntry c own n x).landEntries c own (n + 1) t

/-- A write that has travelled over links, by its number. -/
def State.transit? (s : State) (id : Nat) : Option Transit := s.streams.find? (fun t => t.id == id)

/-- A write has come to its home whole: it goes on to the further replicas of its page (R258). -/
def State.landed (s : State) (id : Nat) : State :=
  let s' := { s with streams := s.streams.filter (fun t => t.id != id) }
  match s.transit? id with
  | some t =>
    if t.reps.isEmpty then s'
    else { s' with props := s'.props ++ [{ off := bitsAt t.key 0 36, bytes := t.bytes, lacking := t.reps, core := t.core, cmd := t.cmd }] }
  | none => s'

/-- A flit of stream id goes on from a node towards the node goal, or what there does. -/
def State.onward (s : State) (node goal tag : Nat) (b : FlitBody) (there : State → State) : State :=
  match nextHop node goal with
  | some (l, side, _) => s.toSend l side tag b
  | none => there s

/-- A write request is at a node (R399): it goes on, or writes its bytes. -/
def State.storeAt (s : State) (node id : Nat) : State :=
  match s.transit? id with
  | some t => s.onward node (t.key / 2 ^ 36) 1 (.store id) (fun s => (s.hbmWrite t.key t.bytes t.own).landed id)
  | none => s

/-- FLIT_OPEN (R400): the stream context of a tag; the stream is opened on the next link of its way. -/
def execFlitOpen (link side : Nat) (s : State) : Host.Outcome State Fault Refusal :=
  .next (s.receive link side (fun x =>
    match x.body with
    | .opens id c => some (fun (s : State) =>
      (s.modLink link side (fun e => { e with rx := Table.put e.rx x.tag (id, c) })).onward (linkNode link side) c.node (256 + id)
        (.opens id c) (fun s => s))
    | _ => none))

/-- FLIT_CLOSE (R400): the context of a tag is discarded; at its end the stream is complete. -/
def execFlitClose (link side : Nat) (s : State) : Host.Outcome State Fault Refusal :=
  .next (s.receive link side (fun x =>
    if x.body = .close then
      some (fun (s : State) =>
        let t := s.modLink link side (fun e => { e with rx := Table.del e.rx x.tag })
        match Table.find (s.link link side).rx x.tag with
        | some (id, c) => t.onward (linkNode link side) c.node (256 + id) .close (fun s => s.landed id)
        | none => t)
    else none))

/-! ## Registers of a link end (R403, R404) -/

/-- LNKSTAT. -/
def LinkEnd.stat (e : LinkEnd) : U64 :=
  (0 : BitVec 40) ++ bit1 e.pend ++ BitVec.ofNat 3 (if e.pend then e.pmode else 0) ++ (0 : BitVec 4) ++ BitVec.ofNat 4 e.half ++
    BitVec.ofNat 4 e.mask ++ (0 : BitVec 2) ++ BitVec.ofNat 2 e.mode ++ (0 : BitVec 1) ++ BitVec.ofNat 3 e.state

/-- LNKMAP of a module: no lane failed after reset. -/
def LinkEnd.map (e : LinkEnd) (m : Nat) : BitVec 28 := Table.look 0xFFFFFFF e.maps m

/-- The register that FN of LINKST names. -/
def LinkEnd.reg (e : LinkEnd) (fn : Nat) : U64 :=
  match fn with
  | 0 => e.stat
  | 1 => if e.pend then BitVec.ofNat 64 e.tc else 0
  | 2 => e.retry ++ e.crcerr
  | 3 => (0 : BitVec 48) ++ e.rthresh
  | n => (0 : BitVec 36) ++ e.map (n - 4)

/-- A list of lanes is distinct, rising and below 68, with the unused entries last (R403). -/
def lanesOk : List Nat → Bool
  | [] => true
  | [a] => decide (a < 68) || a == 0x7F
  | a :: b :: t =>
    if a = 0x7F then b == 0x7F && lanesOk (b :: t)
    else decide (a < 68) && (b == 0x7F || decide (a < b)) && lanesOk (b :: t)

/-- The failed lanes of a map lie within what a mode repairs (R403): in ×32 operation at most 2 in the active half. -/
def mapFits (v : BitVec 28) (mode : Nat) (half : Bool) : Bool :=
  let h := if half then 34 else 0
  lanesOk (mapLanes v) &&
  (!halved mode || decide (((mapLanes v).filter (fun a => decide (h ≤ a) && decide (a < h + 34))).length ≤ 2))

/-- The modules of a mask. -/
def popcount4 (m : Nat) : Nat := ((List.range 4).filter (bitOf m)).length

/-- The maps of an end are valid for a mode (R402, R403, R407); modes 2 and 3 use two modules. -/
def LinkEnd.mapsFit (e : LinkEnd) (mode mask half : Nat) : Bool :=
  (mode < 2 || popcount4 mask == 2) &&
  (List.range 4).all (fun m => !bitOf (modulesOf mode mask) m || mapFits (e.map m) mode (bitOf half m))

/-! ## Requests to a link end (R405, R452) -/

/-- The link and side by which a request at a node goes on: to the end that it names, or back to the stack of its firing. -/
def LinkReq.hop (r : LinkReq) (node : Nat) (back : Bool) : Option (Nat × Nat) :=
  if back then
    if 16 ≤ node then some (r.link, 1)
    else (nextHop node (coreStack r.fire.core)).map (fun h => (h.1, h.2.1))
  else
    let goal := linkNode r.link r.side
    if node = goal then none
    else if goal < 16 then (nextHop node goal).map (fun h => (h.1, h.2.1))
    else
      match nextHop node (linkNode r.link 0) with
      | some h => some (h.1, h.2.1)
      | none => some (r.link, 0)

/-- The request has its result: LINKCTL emits to dest0, LINKST to both destinations. -/
def State.linkAnswer (s : State) (r : LinkReq) (v : U64) : State :=
  let s := { s with linkReqs := s.linkReqs.filter (fun x => x.id != r.id) }
  let x := dataScalar r.fire v
  if (s.core r.fire.core).quar.contains r.fire.obj then s
  else
    match r.instr with
    | .linkst f => s.emitBoth r.fire f x
    | i => s.emit r.fire ((i.form.map (fun y => y.2.2)).getD (Fields.ofDests ⟨.discard, false, 0⟩ ⟨.discard, false, 0⟩)) false x

/-- A result goes from a node back to the firing. -/
def State.linkReply (s : State) (node : Nat) (r : LinkReq) (v : U64) : State :=
  match r.hop node true with
  | none => s.linkAnswer r v
  | some (l, side) => s.toSend l side 1 (.request r.id (some v))

/-- Clock changes of the stacks at the ends of a link that a width reduction has held (R409). -/
def State.linkClocks (s : State) (l : Nat) : State :=
  [0, 1].foldl (fun (s : State) d => if linkNode l d < 16 then s.clockRelease (linkNode l d) else s) s

/-- CANCEL (R405): a change that is pending at both ends is withdrawn if its guard has begun at neither. -/
def State.linkCancel (s : State) (l : Nat) : State × U64 :=
  if [0, 1].all (fun d => (s.link l d).pend && (s.link l d).state == 2) then
    let s := [0, 1].foldl (fun (s : State) d =>
      s.modLink l d (fun e => { e with pend := false, pmode := 0, tc := 0 })) s
    (s.linkClocks l, 0)
  else (s, 1)

/-- What a request does at its end (R405, R407, R452), with its result; a proposal has none yet. -/
def State.linkAct (s : State) (q : LinkReq) : State × Option U64 :=
  let r := (theVal q.fire.r).value
  let e := s.link q.link q.side
  let put (e : LinkEnd) : State × Option U64 := (s.setLink q.link q.side e, some 0)
  match q.instr with
  | .linkctlPause _ =>
    if bitAt r 8 then put { e with pauseAll := true }
    else put { e with paused := (field r 0 8).toNat :: e.paused.filter (fun t => t != (field r 0 8).toNat) }
  | .linkctlResume _ =>
    if bitAt r 8 then put { e with pauseAll := false, paused := [] }
    else put { e with paused := e.paused.filter (fun t => t != (field r 0 8).toNat) }
  | .linkctlMap _ =>
    let m := (field r 28 2).toNat
    if e.pend ∨ !mapFits (field r 0 28) e.mode (bitOf e.half m) then (s, some 1)
    else put { e with maps := Table.put e.maps m (field r 0 28) }
  | .linkctlSched _ =>
    if e.pend ∨ e.proposer.isSome then (s, some 2)
    else
      let mode := (field r 0 2).toNat
      let mask := (field r 4 4).toNat
      let half := (field r 8 4).toNat
      let tc := optVal q.fire.t
      let s := s.setLink q.link q.side { e with
        proposer := some q.id, pmode := mode, pmask := mask, phalf := half, tc := tc }
      (s.toSend q.link q.side 0 (.change (.propose mode mask half tc)), none)
  | .linkctlCancel _ =>
    let p := s.linkCancel q.link
    (p.1, some p.2)
  | .linkctlClrcnt _ => put { e with retry := 0, crcerr := 0, retryLog := [], retryHit := false, armed := true }
  | .linkctlCfg _ => put { e with rthresh := field r 0 16, retryLog := [], retryHit := false, armed := true }
  | .linkst f => (s, some (e.reg f.fn.toNat))
  | _ => (s, none)

/-- A request is at a node: it acts there, or goes on. -/
def State.requestAt (s : State) (node id : Nat) (result : Option U64) : State :=
  match s.linkReqs.find? (fun r => r.id == id) with
  | none => s
  | some r =>
    match result with
    | some v => s.linkReply node r v
    | none =>
      match r.hop node false with
      | some (l, side) => s.toSend l side 1 (.request id none)
      | none =>
        match s.linkAct r with
        | (t, some v) => t.linkReply node r v
        | (t, none) => t

/-- FLIT_DATA (R399): tokens go on their way, requests act or go on, entries of a stream context go on or land. -/
def execFlitData (link side : Nat) (s : State) : Host.Outcome State Fault Refusal :=
  .next (
    let node := linkNode link side
    s.receive link side (fun x =>
      match x.body with
      | .tokens ms => some (fun s => ms.foldl (fun (s : State) m => s.route node m.1 m.2) s)
      | .request id v => some (fun s => s.requestAt node id v)
      | .store id => some (fun s => s.storeAt node id)
      | .rows n es =>
        match Table.find (s.link link side).rx x.tag with
        | some (id, c) => some (fun s => s.onward node c.node (256 + id) (.rows n es) (fun s =>
          s.landEntries c ((s.transit? id).bind Transit.own) n es))
        | none => some (fun s => s)
      | _ => none))

/-- The bits of R that a request may set (R452). -/
def linkMask : Instr → Nat
  | .linkctlPause _ => 0x1FF
  | .linkctlResume _ => 0x1FF
  | .linkctlMap _ => 0x3FFFFFFF
  | .linkctlSched _ => 0xFF3
  | .linkctlCfg _ => 0xFFFF
  | _ => 0xFFFFFFFFFFFFFFFF

/-- PAUSE and RESUME. -/
def pauses : Instr → Bool
  | .linkctlPause _ => true
  | .linkctlResume _ => true
  | _ => false

/-- A request of LINKCTL or LINKST (R442, R452): its checks, then it sets out for the end that it names. -/
def linkRequest (f : Fields) (i : Instr) (s : State) : Host.Outcome State Fault Refusal :=
  .next (s.operate .scalars f (fun s g l r t =>
    let x := (theVal r).value
    if !(s.ctx g.ctx).sup then s.fault g f .privilege 0
    else if 64 ≤ l.value.toNat ∨ (x.toNat ||| linkMask i) ≠ linkMask i ∨
        (pauses i ∧ !bitAt x 8 ∧ (field x 0 8).toNat < 2) then s.fault g f .operandRange 0
    else
      let q : LinkReq := {
        id := s.ids, fire := { g with l := l, r := r, t := t }, instr := i, link := (field l.value 0 5).toNat,
        side := (field l.value 5 1).toNat }
      ({ s.newId with linkReqs := s.linkReqs ++ [q] }).requestAt (coreStack g.core) q.id none))

/-- LINKCTL.PAUSE (R405, R452). -/
def execLinkctlPause (f : Fields) (s : State) : Host.Outcome State Fault Refusal := linkRequest f (.linkctlPause f) s
/-- LINKCTL.RESUME (R405, R452). -/
def execLinkctlResume (f : Fields) (s : State) : Host.Outcome State Fault Refusal := linkRequest f (.linkctlResume f) s
/-- LINKCTL.MAP (R403, R405, R452). -/
def execLinkctlMap (f : Fields) (s : State) : Host.Outcome State Fault Refusal := linkRequest f (.linkctlMap f) s
/-- LINKCTL.SCHED (R407, R452). -/
def execLinkctlSched (f : Fields) (s : State) : Host.Outcome State Fault Refusal := linkRequest f (.linkctlSched f) s
/-- LINKCTL.CANCEL (R405, R452). -/
def execLinkctlCancel (f : Fields) (s : State) : Host.Outcome State Fault Refusal := linkRequest f (.linkctlCancel f) s
/-- LINKCTL.CLRCNT (R404, R405, R452). -/
def execLinkctlClrcnt (f : Fields) (s : State) : Host.Outcome State Fault Refusal := linkRequest f (.linkctlClrcnt f) s
/-- LINKCTL.CFG (R404, R405, R452). -/
def execLinkctlCfg (f : Fields) (s : State) : Host.Outcome State Fault Refusal := linkRequest f (.linkctlCfg f) s
/-- LINKST (R404, R452). -/
def execLinkst (f : Fields) (s : State) : Host.Outcome State Fault Refusal := linkRequest f (.linkst f) s

/-! ## Coordinated changes (R406 to R408) -/

/-- The side whose proposal stands where two cross (R407): the one nearer I/O die 0, on a horizontal link the lower stack. -/
def winner (l : Nat) : Nat := if 24 ≤ l ∧ l < 28 then 1 else 0

/-- CHANGE_PROPOSAL (R407): the peer accepts, or refuses with LATE (1), BUSY (2) or MAP (3). -/
def execChangeProposal (link side : Nat) (s : State) : Host.Outcome State Fault Refusal :=
  .next (s.receive link side (fun x =>
    match x.body with
    | .change (.propose mode mask half tc) => some (fun (s : State) =>
      let e := s.link link side
      let refuse (n : Nat) : State := s.toSend link side 0 (.change (.refuse n))
      if tc < s.timeOf (linkNode link side) + 32000 then refuse 1
      else if e.pend ∨ (e.proposer.isSome ∧ winner link = side) then refuse 2
      else if !e.mapsFit mode mask half then refuse 3
      else
        (s.setLink link side { e with pend := true, pmode := mode, pmask := mask, phalf := half, tc := tc }).toSend link side 0
          (.change .accept))
    | _ => none))

/-- CHANGE_REPLY (R407): the reply reaches the proposing end, and SCHED has its result. -/
def execChangeReply (link side : Nat) (s : State) : Host.Outcome State Fault Refusal :=
  .next (s.receive link side (fun x =>
    let finish (s : State) (v : U64) : State :=
      let e := s.link link side
      let t := s.setLink link side { e with proposer := none }
      match e.proposer.bind (fun n => s.linkReqs.find? (fun r => r.id == n)) with
      | some r => t.linkReply (linkNode link side) r v
      | none => t
    match x.body with
    | .change .accept => some (fun (s : State) => finish (s.modLink link side (fun e => { e with pend := true })) 0)
    | .change (.refuse n) => some (fun (s : State) => finish s (BitVec.ofNat 64 n))
    | _ => none))

/-- CHANGE_QUIESCE (R408): at TC − 100 ns the end stops its traffic and sends QUIET. -/
def execChangeQuiesce (link side : Nat) (s : State) : Host.Outcome State Fault Refusal :=
  .next (
    let e := s.link link side
    if !e.pend ∨ e.state ≠ 2 ∨ s.timeOf (linkNode link side) + 1600 < e.tc then s
    else (s.setLink link side { e with state := 3 }).toSend link side 0 (.change .quiet))

/-- CHANGE_QUIET (R408): the peer's QUIET has arrived. -/
def execChangeQuiet (link side : Nat) (s : State) : Host.Outcome State Fault Refusal :=
  .next (s.receive link side (fun x =>
    if x.body = .change .quiet then
      some (fun (s : State) => s.modLink link side (fun e => { e with gotQuiet := true }))
    else none))

/-- RETRAIN_START (R408): at TC or later, with its replay buffer empty, the peer's QUIET in hand and what it owes the peer
acknowledged, the end retrains in the new mode. -/
def execRetrainStart (link side : Nat) (s : State) : Host.Outcome State Fault Refusal :=
  .next (
    let e := s.link link side
    if e.state ≠ 3 ∨ !e.gotQuiet ∨ !e.buffer.isEmpty ∨ e.rxCount ≠ 0 ∨ e.out.any (fun x => x.body.closesDown) ∨
        s.timeOf (linkNode link side) < e.tc then s
    else s.setLink link side { e with state := 4, trying := e.pmode })

/-- LINK_LOSS (R408): an end loses its link without a pending change, with the flits on their way to it, and retrains. -/
def execLinkLoss (link side : Nat) (s : State) : Host.Outcome State Fault Refusal :=
  .next (
    let e := s.link link side
    if e.state ≠ 2 ∨ e.pend then s
    else s.setLink link side { e with state := 4, wire := [], trying := e.mode })

/-- The stack at which an event of an end is raised (R432). -/
def eventStack (node : Nat) : Nat := if node < 16 then node else if node = 16 then 0 else 12

/-- Two-module masks. -/
def pairMasks : List Nat := [0x3, 0x5, 0x6, 0x9, 0xA, 0xC]

/-- An end after training in a mode: its pending change is made, or it has fallen back to a lower mode with the modules
given. Unacknowledged flits are sent again. -/
def LinkEnd.trained (e : LinkEnd) (pair : Nat) : LinkEnd :=
  let agreed := e.pend && e.trying == e.pmode
  let mask := if agreed then modulesOf e.pmode e.pmask else if e.trying < 2 then 0xF else if popcount4 e.mask = 2 then e.mask else pair
  { e with
    state := 2, mode := e.trying, mask := mask, half := if agreed then e.phalf else e.half, pend := false, pmode := 0, tc := 0,
    live := e.maps, gotQuiet := false, trying := 0, resend := e.buffer }

/-- TRAINING_COMPLETE (R408, R409): UCIe training of both ends ends. On success the link is up, and a change raises
LINK_CHANGE at both ends; on failure the next lower mode is tried, and after mode 3 the link is down. Which two modules a
fallback uses is not stated (log 1). -/
def execTrainingComplete (link : Nat) (ok : Bool) (s : State) : Host.Outcome State Fault Refusal :=
  .next (
    let ready (e : LinkEnd) : Bool := e.state == 1 || e.state == 4
    if !([0, 1].all (fun d => ready (s.link link d))) then s
    else
      let each (s : State) (k : State → Nat → State) : State := [0, 1].foldl k s
      if ok then
        let pair := (pairMasks[s.choice 6]?).getD 0x3
        let s := each s.spend (fun (s : State) d =>
          let e := s.link link d
          let t := s.setLink link d (e.trained pair)
          if e.state = 4 then t.event (eventStack (linkNode link d)) 12 0xFFF link (field (e.trained pair).stat 0 32) else t)
        s.linkClocks link
      else if [0, 1].any (fun d => (s.link link d).trying == 3) then
        let s := each s (fun (s : State) d =>
          (s.modLink link d (fun e => { e with state := 0, pend := false, pmode := 0, tc := 0, gotQuiet := false, trying := 0 })).event
            (eventStack (linkNode link d)) 13 0xFFF link 0)
        s.linkClocks link
      else each s (fun (s : State) d => s.modLink link d (fun e => { e with trying := e.trying + 1 })))

/-! ## The time exchange (R391, R392) -/

/-- The side of the upstream end of a tree link (R391), none for another link. -/
def treeUp (l : Nat) : Option Nat :=
  if 12 ≤ l ∧ l < 24 then some 0 else if 24 ≤ l ∧ l < 28 then some 1 else if l = 28 then some 0 else none

/-- SYNC_EXCHANGE (R390, R392): the upstream end of a tree link starts an exchange. -/
def execSyncExchange (link : Nat) (s : State) : Host.Outcome State Fault Refusal :=
  .next (
    match treeUp link with
    | none => s
    | some up =>
      let s := if linkNode link up = 16 then s.modMod Module.follow else s
      s.toSend link up 0 (.time (.sync 0)))

/-- DOM, GM and DEPTH of a node. -/
def State.domOf (s : State) (node : Nat) : BitVec 3 × Bool × Nat :=
  if node < 16 then ((s.stack node).dom, (s.stack node).gm, (s.stack node).depth.toNat) else (s.mod.ioDom, s.mod.ioGm, 0)

/-- A stack after an exchange (R388, R389, R392, R393): off is how far it is ahead, err the upstream bound. -/
def Stack.exchanged (k : Stack) (link : Nat) (up : BitVec 3 × Bool × Nat) (off : Int) (err : U32) : Stack :=
  let k := { k.correct (-off) with
    err := errAdd err 3, hold := false, uplink := BitVec.ofNat 6 link, depth := BitVec.ofNat 4 (up.2.2 + 1) }
  let k := { k with lastExch := k.time }
  let k := if inLock up.1 k.errReg then { k with dom := up.1, gm := up.2.1 } else k
  if k.dom = 0 then { k with err := 0xFFFFFFFF } else k

/-- I/O die 1 after an exchange (R388, R392). -/
def Module.exchanged (m : Module) (off : Int) (err : U32) : Module :=
  let m := { m with io1Err := errAdd err 3 }
  if milli ≤ -off then { m with io1Time := m.io1Time + (-off).toNat, io1Resid := 0 } else { m with io1Resid := -off }

/-- The offset of an exchange: what the stamps give, within the 3 units of a calibrated link of the real one (R392, log 4). -/
def calibrated (real off : Int) : Int := max (real - 3) (min (real + 3) off)

/-- TIME_MESSAGE (R392): a message of the exchange arrives and is stamped; with the reply the downstream end corrects its
node. -/
def execTimeMessage (link side : Nat) (s : State) : Host.Outcome State Fault Refusal :=
  .next (
    let node := linkNode link side
    s.receive link side (fun x =>
      match x.body with
      | .time (.sync t1) => some (fun (s : State) =>
        (s.modLink link side (fun e => { e with t1 := t1, t2 := s.timeOf node })).toSend link side 0 (.time .delayReq))
      | .time .delayReq => some (fun (s : State) =>
        s.toSend link side 0 (.time (.reply (s.timeOf node) (s.errOf node).toNat)))
      | .time (.reply t4 err) => some (fun (s : State) =>
        let e := s.link link side
        let up := linkNode link (1 - side)
        let off := calibrated ((s.timeOf node : Int) - s.timeOf up) ((((e.t2 : Int) - e.t1) - ((t4 : Int) - e.t3)) / 2)
        -- the upstream bound, which may have grown since the reply was sent
        let err := BitVec.ofNat 32 (max err (s.errOf up).toNat)
        if node < 16 then (s.modStack node (fun k => k.exchanged link (s.domOf up) off err)).limitCheck node
        else s.modMod (fun m => m.exchanged off err))
      | _ => none))

end Sys2Proof.Machine
end

