-- ==== Sys2Proof/Machine/Vector.lean ====
section
/-! DEFINITION. The vector unit (R294 to R317): the acceptance of its commands, their checks, their work row by row, the reductions, and the events VECTOR_COMMAND_START, VECTOR_COMPLETE and REDUCTION_RELEASE. -/

namespace Sys2Proof.Machine

/-! ## What an operator names (R299, R300, R303) -/

/-- VRSUM and VRMAX. -/
def vecReduces (opc : Nat) : Bool := opc == 0x95 || opc == 0x96

/-- L is an input port (R300). -/
def pinForm (f : Fields) : Bool := bitAt f.qual 7
/-- R is an output port (R300). -/
def poutForm (f : Fields) : Bool := bitAt f.qual 6

/-- The unary operators of R304 and VCSUM, whose AR 01 form writes R. -/
def vecOneSource (opc : Nat) : Bool := (decide (0x87 ≤ opc) && decide (opc ≤ 0x8F)) || opc == 0x97

/-- The destination is R. -/
def vecIntoR (opc : Nat) (f : Fields) : Bool :=
  vecReduces opc || opc == 0x90 || opc == 0x91 || opc == 0x92 || opc == 0x9A ||
  (vecOneSource opc && decide (f.ar = .dyadic))

/-- R is a value operand (R299, R304, R305). -/
def vecValueR (opc : Nat) : Bool :=
  (decide (0x80 ≤ opc) && decide (opc ≤ 0x86)) || opc == 0x93 || opc == 0x9D || opc == 0x9E

/-- The identity for a null R or third operand under NP 10 (R303). -/
def vecIdentity (opc : Nat) (f : Fields) : U64 :=
  let t := f.ty
  BitVec.ofNat 64 <|
    match opc with
    | 0x80 => if tyFloat t then signBit t true else 0
    | 0x82 | 0x84 => fmtOne t
    | 0x85 => if tyFloat t then fmtInfEnc t false else (tyMax t).toNat
    | 0x86 => if tyFloat t then fmtInfEnc t true else wrapInt t (tyMin t)
    | 0x9D => if f.fn.toNat = 0 then 2 ^ tyWidth t - 1 else 0
    | _ => 0

/-- What a vector operator says of its operands (R299, R301, R316). -/
def vecNeed (opc : Nat) (f : Fields) : Need :=
  let red := vecReduces opc
  let tile (k : Kind) : Bool := k == .tile || (red && k == .marker)
  let value (k : Kind) : Bool := k == .scalar || k == .tile
  { Need.any with
    markers := red, strictL := true, ident := fun _ => vecIdentity opc f,
    kl := fun k => if pinForm f then k == .scalar || (red && k == .marker) else tile k,
    kr := fun k =>
      if poutForm f || opc == 0x9B then k == .scalar else if vecValueR opc then value k else tile k,
    kt := value }

/-- The tile operands in operand order, by operand number (R296). -/
def vecTiles (opc : Nat) (f : Fields) (g : Firing) : List (Nat × Val) :=
  (if pinForm f then [] else [(0, g.l)]) ++
  (match g.r with
   | some v => if v.kind = .tile && !poutForm f then [(1, v)] else []
   | none => []) ++
  (match g.t with
   | some v => if v.kind = .tile then [(2, v)] else []
   | none => []) |>.filter (fun (p : Nat × Val) => p.2.kind == .tile && !(opc == 0x9B && p.1 == 1))

/-- The number of the operand that is the destination, none under POUT (R300, R304). -/
def vecDestNo (opc : Nat) (f : Fields) : Option Nat :=
  if poutForm f then none else if vecIntoR opc f then some 1 else some 0

/-- The source type of a conversion (R307 to R309), else TY. -/
def vecSource (opc : Nat) (f : Fields) : EType := if 0x90 ≤ opc ∧ opc ≤ 0x92 then tyOf f.fn.toNat else f.ty

/-- An operand's ETYPE is one that the operator takes (R295, R306, R315, R316). -/
def vecTypeOk (opc : Nat) (f : Fields) (k : Nat) (t : EType) : Bool :=
  if k = 0 then
    if vecReduces opc then t == f.ty || (f.ty == .f32 && (t == .bf16 || t == .f16))
    else t == vecSource opc f
  else if k = 1 && (opc == 0x94 || opc == 0x9C) then true
  else t == f.ty

/-! ## The checks at acceptance (R296) -/

/-- The reductions of a core of one instruction in one frame. -/
def Core.redsOf (k : Core) (fp : U32) (ip : BitVec 20) : List Reduction :=
  k.reds.filter (fun r => r.fp == fp && r.ip == ip)

/-- The tile of a handle stands in shadow for a round of this instruction's reduction, and the firing is of that round or of the next
(R317). -/
def State.redHolds (s : State) (g : Firing) (v : U64) : Bool :=
  let mine (r : Reduction) : Bool :=
    match r.dest with
    | some d => some d.2.1 == (s.ctx g.ctx).phys (hVcore v) && d.2.2 == hIndex v
    | none => false
  match ((s.core g.core).redsOf g.fp g.ip).find? mine with
  | some r => g.l.round == r.round || g.l.round == r.round + 1
  | none => false

/-- The tile operands with their views, or the first fault of R51 with its detail. -/
def State.vecViews (s : State) (g : Firing) (opc : Nat) :
    List (Nat × Val) → Except (FaultClass × Nat) (List (Nat × View))
  | [] => .ok []
  | (k, v) :: t =>
    match s.view g.ctx v.value (vecReduces opc && k == 1 && s.redHolds g v.value) with
    | .error e => .error (e, viewDetail e v.value)
    | .ok x =>
      match s.vecViews g opc t with
      | .error e => .error e
      | .ok xs => .ok ((k, x) :: xs)

/-- The view of operand k. -/
def viewNo (xs : List (Nat × View)) (k : Nat) : Option View := (xs.find? (fun p => p.1 == k)).map Prod.snd

/-- A value operand's view has the form of a tile or of a row (R299). -/
def View.valueOf (x d : View) : Bool := (x.n == d.n || x.n == 1) && x.tile.cols == d.tile.cols

/-- The shapes that the description of an operator requires (R299, R304, R307 to R316). -/
def vecShapeOk (opc : Nat) (f : Fields) (xs : List (Nat × View)) : Bool :=
  let l := viewNo xs 0
  let r := viewNo xs 1
  let t := viewNo xs 2
  let both (p : View → View → Bool) : Bool :=
    match l, r with
    | some a, some b => p a b
    | _, _ => true
  let third : Bool :=
    match l, t with
    | some a, some c => c.valueOf a
    | _, _ => true
  let same (a b : View) : Bool := a.n == b.n && a.tile.cols == b.tile.cols
  if vecReduces opc then both (fun a b => a.n == b.n)
  else if opc = 0x91 then both (fun a b => same a b && b.blocksWhole)
  else if opc = 0x9A then both (fun a b => a.n == b.tile.cols && a.tile.cols == b.n)
  else if vecIntoR opc f then both same
  else if opc = 0x98 then both (fun a b => if f.fn.toNat = 0 then a.tile.cols == b.tile.cols else a.n == b.n)
  else if opc = 0x99 then both (fun a b => a.n == b.n)
  else both (fun a b => b.valueOf a) && third

/-- A destination that is the same tile as a source has its view; VTRANS never names one tile twice (R296, R313). -/
def vecAliasOk (opc : Nat) (f : Fields) (xs : List (Nat × View)) : Bool :=
  match vecDestNo opc f with
  | none => true
  | some d =>
    match viewNo xs d with
    | none => true
    | some v =>
      xs.all (fun p =>
        p.1 == d || p.2.core != v.core || p.2.index != v.index ||
        (opc != 0x9A && p.2.row0 == v.row0 && p.2.n == v.n))

/-- A tile read or written as MX has no scales (R296, R308, R309). -/
def vecNoScale (opc : Nat) (xs : List (Nat × View)) : Bool :=
  match (if opc = 0x91 then viewNo xs 1 else if opc = 0x92 then viewNo xs 0 else none) with
  | some v => v.tile.scale == 0
  | none => false

/-- The ports of the firing are an input port with a producer and an output port (R274, R300). -/
def State.vecPortsOk (s : State) (f : Fields) (g : Firing) : Bool :=
  (if pinForm f then
    match portRef g.l.value with
    | some p => !portIsOut p && ((s.core g.core).port p).bound.isSome
    | none => false
   else true) &&
  (if poutForm f then
    match portRef (theVal g.r).value with
    | some p => portIsOut p
    | none => false
   else true)

/-- The checks of a vector command in their order, with the views of its tiles (R296, R495). -/
def State.vecCheck (s : State) (opc : Nat) (f : Fields) (g : Firing) : Except (FaultClass × Nat) (List (Nat × View)) :=
  match s.vecViews g opc (vecTiles opc f g) with
  | .error e => .error e
  | .ok xs =>
    if xs.any (fun p => p.2.core != g.core) then .error (.vecRemote, 0)
    else if xs.any (fun p => !vecTypeOk opc f p.1 p.2.tile.etype) then .error (.vecType, 0)
    else if !vecShapeOk opc f xs then .error (.vecShape, 0)
    else if !vecAliasOk opc f xs then .error (.vecAlias, 0)
    else if vecNoScale opc xs then .error (.tileMalformed, 0)
    else if !s.vecPortsOk f g then .error (.portDir, 0)
    else
      match ((vecDestNo opc f).bind (viewNo xs)).bind s.destCheck with
      | some e => .error (e, 0)
      | none => .ok xs

/-! ## Acceptance (R294, R302, R316, R317) -/

/-- The distinct tiles of a command. -/
def vecUses (xs : List (Nat × View)) : List (Nat × Nat) := (xs.map (fun p => (p.2.core, p.2.index))).eraseDups

/-- The rows and columns over which a command works: those of its destination, or of its source under POUT (R300, R304). -/
def vecExtent (opc : Nat) (f : Fields) (xs : List (Nat × View)) : Nat × Nat :=
  match viewNo xs (if poutForm f then 0 else (vecDestNo opc f).getD 0) with
  | none => (0, 0)
  | some d =>
    if vecReduces opc then (d.n, ((viewNo xs 0).getD d).tile.cols) else (d.n, d.tile.cols)

/-- The draws that a row takes (R302, R316). -/
def rowDraws (opc : Nat) (f : Fields) (cols : Nat) (first : Bool) : Nat :=
  if f.rm ≠ .sr then 0
  else if vecReduces opc then (if first && bitAt f.qual 0 then 1 else 2)
  else cols

/-- The fault of a token whose round a reduction has closed before (R34, R317): its marker is there, or the frame has
released it or a later one. -/
def State.redClosed (s : State) (g : Firing) : Option FaultClass :=
  if ((s.core g.core).redsOf g.fp g.ip).any (fun r => r.round == g.l.round && r.marker.isSome) then some .roundSkew
  else
    match (s.frameOf g).bind (fun fr => fr.released.find? (fun p => p.1 == g.ip)) with
    | none => none
    | some p =>
      match roundOrder g.l.round p.2 with
      | .later => none
      | .undefined => some .roundRange
      | _ => some .roundSkew

/-- A firing of a reduction is accepted: it joins its round, whose first firing sets SHADOW of D and BUSY with it until the
release (R317). -/
def State.redJoin (s : State) (g : Firing) (d : View) : State :=
  let key (r : Reduction) : Bool := r.fp == g.fp && r.ip == g.ip && r.round == g.l.round
  let dest := some (theVal g.r, d.core, d.index)
  match (s.core g.core).reds.find? key with
  | some _ =>
    s.modCore g.core (fun k => { k with reds := k.reds.map (fun r => if key r then { r with pend := r.pend + 1 } else r) })
  | none =>
    let s := s.modCore g.core (fun k => { k with
      reds := k.reds ++ [{
        fp := g.fp, ip := g.ip, round := g.l.round, taken := false, first := true, dest := dest, pend := 1,
        marker := none }] })
    (s.tilesUse [(d.core, d.index)]).modTile d.core d.index (fun x => { x with shadow := true })

/-- A vector command enters the queue: its tiles are in use, its destination is in shadow, its draws are taken. -/
def State.vecAccept (s : State) (opc : Nat) (f : Fields) (i : Instr) (g : Firing) (xs : List (Nat × View)) : State :=
  let e := vecExtent opc f xs
  let seed := (s.core g.core).lfsr
  let first := ((s.core g.core).redsOf g.fp g.ip).all (fun r => r.round != g.l.round)
  let s := (s.draws g.core (e.1 * rowDraws opc f e.2 first)).1
  let dest := (vecDestNo opc f).bind (viewNo xs)
  let tiles := vecUses xs
  let c := { Cmd.start s.ids g i .vector with
    tiles := tiles, aux := seed.toNat,
    shadow := if vecReduces opc then none else dest.map (fun d => (d.core, d.index)) }
  let s := s.newId.tilesUse tiles
  let s :=
    match dest with
    | none => s
    | some d =>
      if vecReduces opc then s.redJoin g d else s.modTile d.core d.index (fun x => { x with shadow := true })
  s.modCore g.core (fun k => { k with vecQueue := k.vecQueue ++ [c] })

/-- The marker of a round reaches its reduction (R317). -/
def State.redMarker (s : State) (g : Firing) : State :=
  let key (r : Reduction) : Bool := r.fp == g.fp && r.ip == g.ip && r.round == g.l.round
  s.modCore g.core (fun k =>
    if k.reds.any key then { k with reds := k.reds.map (fun r => if key r then { r with marker := some g } else r) }
    else { k with
      reds := k.reds ++ [{
        fp := g.fp, ip := g.ip, round := g.l.round, taken := false, first := true, dest := none, pend := 0,
        marker := some g }] })

/-- A vector operator: the checks of R53 and R296, then its acceptance. -/
def vecOperator (f : Fields) (i : Instr) (s : State) : State :=
  let opc := (i.form.map Prod.fst).getD 0
  s.operate (vecNeed opc f) f (fun s g l r t =>
    let g := { g with l := l, r := r, t := t }
    match (if vecReduces opc then s.redClosed g else none) with
    | some e => s.fault g f e 0
    | none =>
      if vecReduces opc && l.kind == .marker then s.redMarker g
      else
        match s.vecCheck opc f g with
        | .error (e, d) => s.fault g f e d
        | .ok xs => s.vecAccept opc f i g xs)

/-! ## The work -/

/-- The views of a command at work (R52). -/
def State.vecNow (s : State) (opc : Nat) (f : Fields) (g : Firing) : List (Nat × View) :=
  (vecTiles opc f g).filterMap (fun p => (s.viewFlight g.ctx p.2.value).map (fun v => (p.1, v)))

/-- Element (i, j) that an operand supplies (R299): from its rows, its one row, or its scalar. -/
def suppliedBy (v : Option Val) (rows : List (List Nat)) (n i j : Nat) : Nat :=
  match v with
  | none => 0
  | some x =>
    if x.kind = .tile then (rows[if rows.length = n then i else 0]?.getD [])[j]?.getD 0 else x.value.toNat

/-- The rows of an operand that is a tile. -/
def State.rowsOf (s : State) (xs : List (Nat × View)) (k : Nat) : List (List Nat) :=
  match viewNo xs k with
  | some v => s.viewRows v
  | none => []

/-- VIOTA's value at (i, j) (R314). -/
def iotaAt (f : Fields) (g : Firing) (cols i j : Nat) : Int :=
  let x : Int := match g.r with
    | some v => v.value.toInt
    | none => f.imm.toInt
  match f.fn.toNat with
  | 0 => x + j
  | 1 => x + i
  | _ => x + i * cols + j

/-- One result row of an operator whose elements depend on their row only (R304 to R315): a is row i of the source, rs
and ts the rows of R and of the third operand. The Nat is VCOMP's number of elements. -/
def vecRow (opc : Nat) (f : Fields) (g : Firing) (n cols i : Nat) (rs ts : List (List Nat)) (rnds : List U32)
    (a : List Nat) : List Nat × Flags × Nat :=
  let b (j : Nat) : Nat := suppliedBy g.r rs n i j
  let c (j : Nat) : Nat := suppliedBy g.t ts n i j
  let fn := f.fn.toNat
  let each (h : Nat → Nat → Nat × Flags) : List Nat × Flags × Nat :=
    let r := joinRow ((List.range cols).map (fun j => h j (a[j]?.getD 0)))
    (r.1, r.2, 0)
  let rnd (j : Nat) : U32 := drawAt rnds j
  match opc with
  | 0x83 => each (fun j x => vecFma f.ty f.rm f.sat (rnd j) x (b j) (c j))
  | 0x90 => each (fun j x => convertTy (tyOf fn) f.ty f.rm f.sat (rnd j) x)
  | 0x94 => each (fun j x => (if b j = 0 then x else c j, 0))
  | 0x97 => let r := joinRow (cumSums f.ty f.rm f.sat rnds a); (r.1, r.2, 0)
  | 0x98 => each (fun j _ => (if fn = 0 then (rs[0]?.getD [])[j]?.getD 0 else (rs[i]?.getD [])[0]?.getD 0, 0))
  | 0x99 => each (fun j x => vecBinary (rbcOp fn) 0 f.ty f.rm f.sat (rnd j) x ((rs[i]?.getD [])[0]?.getD 0))
  | 0x9B => each (fun j _ => fitTo f.ty f.rm f.sat (rnd j) (iotaAt f g cols i j))
  | 0x9C => let r := compactRow a ((List.range cols).map b); (r.1, 0, r.2)
  | _ =>
    if vecOneSource opc then each (fun j x => vecUnary opc f.ty f.rm f.sat (rnd j) x)
    else each (fun j x => vecBinary opc fn f.ty f.rm f.sat (rnd j) x (b j))

/-- VQMX of a whole view (R308): elements, scales and flags. -/
def State.quantise (s : State) (f : Fields) (src dst : View) (rnds : List U32) : State × Flags :=
  let t := tyOf f.fn.toNat
  let rows := s.viewRows src
  let at_ (p : Nat × Nat) : Nat := (rows[p.1]?.getD [])[p.2]?.getD 0
  let cells := (List.range dst.n).flatMap (fun i => (List.range dst.tile.cols).map (fun j => (i, j)))
  let done := (cells.zipIdx).map (fun (e : (Nat × Nat) × Nat) =>
    let sc := blockScale f.ty ((dst.block e.1.1 e.1.2).map (fun q => decodeFloat t (at_ q)))
    (e.1, sc, quantElem t f.ty f.rm (drawAt rnds e.2) sc (at_ e.1)))
  done.foldl (fun (a : State × Flags) (e : (Nat × Nat) × Nat × Nat × Flags) =>
    let i := dst.row0 + e.1.1
    ((a.1.setElem dst.core dst.tile i e.1.2 e.2.2.1).setVaultByte dst.core (dst.tile.scaleOf i e.1.2) e.2.1,
      a.2 ||| e.2.2.2)) (s, 0)

/-- VDQMX of a whole view (R309). -/
def State.dequantise (s : State) (f : Fields) (src dst : View) (rnds : List U32) : State × Flags :=
  let rows := s.viewRows src
  let cols := dst.tile.cols
  let out := (rows.zipIdx).map (fun (e : List Nat × Nat) => joinRow ((e.1.zipIdx).map (fun (x : Nat × Nat) =>
    dequantElem (tyOf f.fn.toNat) f.ty f.rm f.sat (drawAt rnds (e.2 * cols + x.2))
      (s.vaultByte src.core (src.tile.scaleOf (src.row0 + e.2) x.2)) x.1)))
  (s.setViewRows dst (out.map Prod.fst), out.foldl (fun (a : Flags) e => a ||| e.2) 0)

/-- A row of a reduction is applied to its element of D (R316). -/
def redRow (opc : Nat) (f : Fields) (src : EType) (init : Bool) (rnds : List U32) (d : Nat) (a : List Nat) : Nat × Flags :=
  let r := if opc = 0x95 then rowSum src f.ty f.rm f.sat (drawAt rnds 0) a else rowMax src f.ty a
  if init then r
  else
    let q := if opc = 0x95 then vecBinary 0x80 0 f.ty f.rm f.sat (drawAt rnds 1) d r.1
      else vecBinary 0x86 0 f.ty .rne false 0 d r.1
    (q.1, r.2 ||| q.2)

/-- The entry of the reduction table that a command works on. -/
def State.redOf (s : State) (c : Cmd) : Option Reduction :=
  ((s.core c.fire.core).redsOf c.fire.fp c.fire.ip).find? (fun r => r.round == c.fire.l.round)

/-- The command at work is changed. -/
def State.modRun (s : State) (core : Nat) (h : Cmd → Cmd) : State :=
  s.modCore core (fun k => { k with vecRun := k.vecRun.map h })

/-- A firing of a reduction has been applied, or has failed (R317). -/
def State.redStep (s : State) (c : Cmd) : State :=
  s.modCore c.fire.core (fun k => { k with
    reds := k.reds.map (fun r =>
      if r.fp == c.fire.fp && r.ip == c.fire.ip && r.round == c.fire.l.round then { r with first := false, pend := r.pend - 1 }
      else r) })

/-- The command at work leaves the unit. -/
def State.vecLeave (s : State) (opc : Nat) (c : Cmd) : State :=
  let s := s.modCore c.fire.core (fun k => { k with vecRun := none })
  if vecReduces opc then s.redStep c else s

/-- A command ends (R297, R301, R315): its flags are set, and its handle, L under POUT, or VCOMP's pair is emitted; a
firing of a reduction emits nothing. -/
def State.vecDone (s : State) (opc : Nat) (f : Fields) (c : Cmd) (fl : Flags) (count : Nat) : State :=
  let s := (s.vecLeave opc c).setFlags c.fire.ctx fl
  if vecReduces opc then s.finish c true
  else if opc = 0x9C then s.answer c f [(false, c.pass c.fire.l), (true, c.scalar (BitVec.ofNat 64 count))]
  else s.answer c f (both (c.pass (if vecIntoR opc f && !poutForm f then theVal c.fire.r else c.fire.l)))

/-- A command fails at its port (R262, R300). It does not complete, so that the flags of the rows before are not set (R94; log 126). -/
def State.vecFail (s : State) (opc : Nat) (f : Fields) (c : Cmd) (e : FaultClass) : State :=
  (s.vecLeave opc c).failWith c f e 0 0 0

/-- The state of the generator with which a command draws, and the flags that it has raised so far. -/
def Cmd.seed (c : Cmd) : U64 := BitVec.ofNat 64 (c.aux % 2 ^ 64)
def Cmd.flags (c : Cmd) : Flags := BitVec.ofNat 6 (c.aux / 2 ^ 64)

/-- One row of a command whose rows are independent: the source row, the state before and after. Result rows go to the
destination view, where there is one. -/
structure RowWork where
  s    : State
  seed : U64
  fl   : Flags
  cnt  : Nat
  out  : List Nat

/-- Row i of a command is computed, and written where it has a destination (R304 to R316). -/
def State.vecRowWork (s : State) (opc : Nat) (f : Fields) (c : Cmd) (xs : List (Nat × View)) (rs ts : List (List Nat))
    (seed : U64) (i : Nat) (a : List Nat) : RowWork :=
  let e := vecExtent opc f xs
  let dest := (vecDestNo opc f).bind (viewNo xs)
  if vecReduces opc then
    let init := bitAt f.qual 0 && (match s.redOf c with
      | some r => r.first
      | none => false)
    let d := lfsrDraws (rowDraws opc f e.2 (match s.redOf c with
      | some r => r.first
      | none => false)) seed
    match dest with
    | none => { s := s, seed := d.1, fl := 0, cnt := 0, out := [] }
    | some v =>
      let src := (viewNo xs 0).elim f.ty (fun x => x.tile.etype)
      let r := redRow opc f src init d.2 (s.elem v.core v.tile (v.row0 + i) 0) a
      { s := s.setElem v.core v.tile (v.row0 + i) 0 r.1, seed := d.1, fl := r.2, cnt := 0, out := [] }
  else
    let d := lfsrDraws (rowDraws opc f e.2 false) seed
    let r := vecRow opc f c.fire e.1 e.2 i rs ts d.2 a
    { s := match dest with
        | some v => s.setViewRow v i r.1
        | none => s
      seed := d.1, fl := r.2.1, cnt := r.2.2, out := r.1 }

/-- A command of tiles only performs its work: every source row is read before any row is written. -/
def State.vecWhole (s : State) (opc : Nat) (f : Fields) (c : Cmd) : State :=
  let xs := s.vecNow opc f c.fire
  let e := vecExtent opc f xs
  match opc, viewNo xs 0, viewNo xs 1 with
  | 0x91, some l, some r =>
    let q := s.quantise f l r (lfsrDraws (e.1 * rowDraws opc f e.2 false) c.seed).2
    q.1.vecDone opc f c q.2 0
  | 0x92, some l, some r =>
    let q := s.dequantise f l r (lfsrDraws (e.1 * rowDraws opc f e.2 false) c.seed).2
    q.1.vecDone opc f c q.2 0
  | 0x9A, some l, some r =>
    let a := s.viewRows l
    let out := (List.range r.n).map (fun i => (List.range r.tile.cols).map (fun j => (a[j]?.getD [])[i]?.getD 0))
    (s.setViewRows r out).vecDone opc f c 0 0
  | _, _, _ =>
    let rs := s.rowsOf xs 1
    let ts := s.rowsOf xs 2
    let w := (((s.rowsOf xs 0).take e.1).zipIdx).foldl (fun (w : RowWork) (p : List Nat × Nat) =>
      let r := w.s.vecRowWork opc f c xs rs ts w.seed p.2 p.1
      { r with fl := w.fl ||| r.fl, cnt := w.cnt + r.cnt })
      { s := s, seed := c.seed, fl := 0, cnt := 0, out := [] }
    w.s.vecDone opc f c w.fl w.cnt

/-- A command with PIN takes one entry from its port; a whole row is computed at once (R300, with R287). -/
def State.vecPull (s : State) (opc : Nat) (f : Fields) (c : Cmd) : State :=
  let core := c.fire.core
  let xs := s.vecNow opc f c.fire
  match portRef c.fire.l.value, (vecDestNo opc f).bind (viewNo xs) with
  | some p, some v =>
    if !(s.core core).portTurn pullsFrom p c.id then s
    else
      match ((s.core core).port p).fifo with
      | [] => s
      | e :: _ =>
        if e.mark && !c.data.isEmpty then s.vecFail opc f c .streamShape
        else
          match s.portPop core p with
          | none => s
          | some (_, s) =>
            if e.mark then (s.vecFail opc f c .streamShort).emitBoth c.fire f (Val.marker e.round provData)
            else
              let data := c.data ++ e.data
              if !e.eor then s.modRun core (fun c => { c with data := data })
              else
                let src := vecSource opc f
                let lb := lineBytes src v.tile.cols
                if data.length ≠ (lb + 63) / 64 * 64 then s.vecFail opc f c .streamShape
                else
                  let w := s.vecRowWork opc f c xs [] [] c.seed c.row (unpackRow src v.tile.cols (data.take lb))
                  let fl := c.flags ||| w.fl
                  if c.row + 1 = v.n then w.s.vecDone opc f c fl 0
                  else
                    w.s.modRun core (fun c => { c with
                      row := c.row + 1, data := [], aux := w.seed.toNat + 2 ^ 64 * fl.toNat })
  | _, _ => s

/-- A command with POUT puts one entry into its port; a row is computed when its first entry leaves (R300). -/
def State.vecPush (s : State) (opc : Nat) (f : Fields) (c : Cmd) : State :=
  let core := c.fire.core
  let xs := s.vecNow opc f c.fire
  match portRef (theVal c.fire.r).value, viewNo xs 0 with
  | some p, some v =>
    if !(s.core core).portTurn pushesTo p c.id || s.portRoom core p = 0 then s
    else
      let ne := (lineBytes f.ty v.tile.cols + 63) / 64
      let w : RowWork :=
        if c.data.isEmpty then s.vecRowWork opc f c xs [] [] c.seed c.row (s.viewRow v c.row)
        else { s := s, seed := c.seed, fl := 0, cnt := 0, out := [] }
      let fl := c.flags ||| w.fl
      let data := if c.data.isEmpty then
          let bs := packRow f.ty w.out
          bs ++ List.replicate (ne * 64 - bs.length) 0
        else c.data
      let last := decide (data.length ≤ 64)
      let e : Entry := { data := data.take 64, eot := false, eor := last, mark := false, round := c.fire.l.round }
      let s := w.s.portPush core p e
      if last && c.row + 1 == v.n then (s.vecDone opc f c fl 0).settle core p
      else
        s.modRun core (fun c => { c with
          row := if last then c.row + 1 else c.row, data := data.drop 64, aux := w.seed.toNat + 2 ^ 64 * fl.toNat })
  | _, _ => s

/-! ## The meanings of the operators -/

/-- VADD (R304). -/
def execVadd (f : Fields) (s : State) : Host.Outcome State Fault Refusal := .next (vecOperator f (.vadd f) s)
/-- VSUB (R304). -/
def execVsub (f : Fields) (s : State) : Host.Outcome State Fault Refusal := .next (vecOperator f (.vsub f) s)
/-- VMUL (R304). -/
def execVmul (f : Fields) (s : State) : Host.Outcome State Fault Refusal := .next (vecOperator f (.vmul f) s)
/-- VFMA (R304). -/
def execVfma (f : Fields) (s : State) : Host.Outcome State Fault Refusal := .next (vecOperator f (.vfma f) s)
/-- VDIV (R304). -/
def execVdiv (f : Fields) (s : State) : Host.Outcome State Fault Refusal := .next (vecOperator f (.vdiv f) s)
/-- VMIN (R304). -/
def execVmin (f : Fields) (s : State) : Host.Outcome State Fault Refusal := .next (vecOperator f (.vmin f) s)
/-- VMAX (R304). -/
def execVmax (f : Fields) (s : State) : Host.Outcome State Fault Refusal := .next (vecOperator f (.vmax f) s)
/-- VABS (R304). -/
def execVabs (f : Fields) (s : State) : Host.Outcome State Fault Refusal := .next (vecOperator f (.vabs f) s)
/-- VNEG (R304). -/
def execVneg (f : Fields) (s : State) : Host.Outcome State Fault Refusal := .next (vecOperator f (.vneg f) s)
/-- VEXP2 (R96, R304). -/
def execVexp2 (f : Fields) (s : State) : Host.Outcome State Fault Refusal := .next (vecOperator f (.vexp2 f) s)
/-- VLOG2 (R96, R304). -/
def execVlog2 (f : Fields) (s : State) : Host.Outcome State Fault Refusal := .next (vecOperator f (.vlog2 f) s)
/-- VRCP (R96, R304). -/
def execVrcp (f : Fields) (s : State) : Host.Outcome State Fault Refusal := .next (vecOperator f (.vrcp f) s)
/-- VRSQ (R96, R304). -/
def execVrsq (f : Fields) (s : State) : Host.Outcome State Fault Refusal := .next (vecOperator f (.vrsq f) s)
/-- VSQRT (R96, R304). -/
def execVsqrt (f : Fields) (s : State) : Host.Outcome State Fault Refusal := .next (vecOperator f (.vsqrt f) s)
/-- VTANH (R96, R304). -/
def execVtanh (f : Fields) (s : State) : Host.Outcome State Fault Refusal := .next (vecOperator f (.vtanh f) s)
/-- VSIGM (R96, R304). -/
def execVsigm (f : Fields) (s : State) : Host.Outcome State Fault Refusal := .next (vecOperator f (.vsigm f) s)
/-- VCVT (R307). -/
def execVcvt (f : Fields) (s : State) : Host.Outcome State Fault Refusal := .next (vecOperator f (.vcvt f) s)
/-- VQMX (R308). -/
def execVqmx (f : Fields) (s : State) : Host.Outcome State Fault Refusal := .next (vecOperator f (.vqmx f) s)
/-- VDQMX (R309). -/
def execVdqmx (f : Fields) (s : State) : Host.Outcome State Fault Refusal := .next (vecOperator f (.vdqmx f) s)
/-- VCMP (R305). -/
def execVcmp (f : Fields) (s : State) : Host.Outcome State Fault Refusal := .next (vecOperator f (.vcmp f) s)
/-- VSEL (R306). -/
def execVsel (f : Fields) (s : State) : Host.Outcome State Fault Refusal := .next (vecOperator f (.vsel f) s)
/-- VRSUM (R316, R317). -/
def execVrsum (f : Fields) (s : State) : Host.Outcome State Fault Refusal := .next (vecOperator f (.vrsum f) s)
/-- VRMAX (R316, R317). -/
def execVrmax (f : Fields) (s : State) : Host.Outcome State Fault Refusal := .next (vecOperator f (.vrmax f) s)
/-- VCSUM (R312). -/
def execVcsum (f : Fields) (s : State) : Host.Outcome State Fault Refusal := .next (vecOperator f (.vcsum f) s)
/-- VBCAST (R311). -/
def execVbcast (f : Fields) (s : State) : Host.Outcome State Fault Refusal := .next (vecOperator f (.vbcast f) s)
/-- VRBC (R310). -/
def execVrbc (f : Fields) (s : State) : Host.Outcome State Fault Refusal := .next (vecOperator f (.vrbc f) s)
/-- VTRANS (R313). -/
def execVtrans (f : Fields) (s : State) : Host.Outcome State Fault Refusal := .next (vecOperator f (.vtrans f) s)
/-- VIOTA (R314). -/
def execViota (f : Fields) (s : State) : Host.Outcome State Fault Refusal := .next (vecOperator f (.viota f) s)
/-- VCOMP (R315). -/
def execVcomp (f : Fields) (s : State) : Host.Outcome State Fault Refusal := .next (vecOperator f (.vcomp f) s)
/-- VLOGIC (R304). -/
def execVlogic (f : Fields) (s : State) : Host.Outcome State Fault Refusal := .next (vecOperator f (.vlogic f) s)
/-- VSHIFT (R304). -/
def execVshift (f : Fields) (s : State) : Host.Outcome State Fault Refusal := .next (vecOperator f (.vshift f) s)

/-! ## The events -/

/-- The head of the queue may begin: a firing of a reduction needs its round's entry of the table, which waits for the
entry of another round of the same reduction and for one of the 16 entries (R316, R317). -/
def Core.vecMayStart (k : Core) (c : Cmd) (opc : Nat) : Bool :=
  if !vecReduces opc then true
  else
    let mine := k.redsOf c.fire.fp c.fire.ip
    mine.any (fun r => r.round == c.fire.l.round && r.taken) ||
    (mine.all (fun r => !r.taken) && decide ((k.reds.filter Reduction.taken).length < 16))

/-- The round of a reduction takes its entry of the table, and D stands in shadow (R317). -/
def State.redTake (s : State) (c : Cmd) : State :=
  let core := c.fire.core
  let s := s.modCore core (fun k => { k with
    reds := k.reds.map (fun r =>
      if r.fp == c.fire.fp && r.ip == c.fire.ip && r.round == c.fire.l.round then { r with taken := true } else r) })
  match (s.redOf c).bind Reduction.dest with
  | some d => s.modTile d.2.1 d.2.2 (fun x => { x with shadow := true })
  | none => s

/-- VECTOR_COMMAND_START (R294). -/
def execVectorCommandStart (core : Nat) (s : State) : Host.Outcome State Fault Refusal :=
  .next (
    let k := s.core core
    match k.vecRun, k.vecQueue with
    | none, c :: rest =>
      let opc := (c.instr.form.map Prod.fst).getD 0
      if !k.vecMayStart c opc then s
      else
        let s := s.modCore core (fun k => { k with vecQueue := rest, vecRun := some c })
        if vecReduces opc then s.redTake c else s
    | _, _ => s)

/-- VECTOR_COMPLETE (R297, R300): the command at work ends; one that works through a port moves one entry. -/
def execVectorComplete (core : Nat) (s : State) : Host.Outcome State Fault Refusal :=
  .next (
    match (s.core core).vecRun with
    | none => s
    | some c =>
      match c.instr.form with
      | none => s
      | some (opc, _, f) =>
        if pinForm f then s.vecPull opc f c else if poutForm f then s.vecPush opc f c else s.vecWhole opc f c)

/-- A round of a reduction may be released (R317). -/
def Reduction.ready (r : Reduction) : Bool := r.marker.isSome && r.pend == 0

/-- A round of a reduction may be released now: no earlier round of the reduction stands before it (R189, R317). -/
def Core.redFree (k : Core) (r : Reduction) : Bool :=
  r.ready && (k.redsOf r.fp r.ip).all (fun x => roundOrder x.round r.round != .earlier)

/-- REDUCTION_RELEASE (R317). -/
def execReductionRelease (core : Nat) (fp : U32) (ip : BitVec 20) (s : State) : Host.Outcome State Fault Refusal :=
  .next (
    let k := s.core core
    match (k.redsOf fp ip).find? k.redFree with
    | none => s
    | some r =>
      match r.marker with
      | none => s
      | some g =>
        match s.formOf g with
        | none => s
        | some (_, f) =>
          let s := s.modCore core (fun k => { k with
            reds := k.reds.filter (fun x => !(x.fp == fp && x.ip == ip && x.round == r.round)) })
          let s := s.modCore core (fun k => k.modAny fp (fun fr => { fr with
            released := (ip, r.round) :: fr.released.filter (fun p => p.1 != ip) }))
          let s :=
            match r.dest with
            | none => s
            | some (v, c, i) =>
              let s := (s.modTile c i (fun x => { x with shadow := false })).tilesDrop [(c, i)]
              if k.quar.contains g.obj then s
              else s.emitBoth g f { v with prov := provData, round := r.round, lin := Lineage.none }
          if k.quar.contains g.obj then s else s.emitBoth g f (Val.marker r.round provData))

end Sys2Proof.Machine
end

