-- ==== Sys2Proof/Machine/System.lean ====
section
/-! DEFINITION. The system instructions (R442 to R451, R453): traps, host calls and event channels, the fault log, parked ports, control and status registers, performance counters, the stopping of cores; and the errors of memories (R429, R430). -/

namespace Sys2Proof.Machine

/-- An operator of the system unit that only a supervisor context runs (R442): R53, then PRIVILEGE. -/
def State.supervised (s : State) (n : Need) (f : Fields)
    (k : State → Firing → Val → Option Val → Option Val → State) : State :=
  s.operate n f (fun s g l r t => if !(s.ctx g.ctx).sup then s.fault g f .privilege 0 else k s g l r t)

/-- A scalar result of the system unit at dest0 (R442: PROV DATA). -/
def State.sysEmit (s : State) (g : Firing) (f : Fields) (x : U64) : State :=
  s.emit g f false (Val.scalar x g.l.round provData)

/-- The same result at both destinations. -/
def State.sysBoth (s : State) (g : Firing) (f : Fields) (x : U64) : State :=
  s.emitBoth g f (Val.scalar x g.l.round provData)

/-! ## TRAP, HCALL, EVBIND (R433, R444 to R446) -/

/-- TRAP (R444): the record, the token to the context's fault handler, then L. -/
def execTrap (f : Fields) (s : State) : Host.Outcome State Fault Refusal :=
  .next (s.operate .any f (fun s g l _ _ =>
    let p := s.logFault { g.fault .trap l.value.toNat f.imm.toNat 0 with token := (s.ctx g.ctx).hasHandler }
    (p.1.toHandler g.ctx g.core (faultValue .trap (s.vcoreOf g.core) p.2)).emitBoth g f
      { l with prov := provData, lin := Lineage.none }))

/-- The event that a HCALL raises (R432, R445). -/
def State.callEvent (s : State) (g : Firing) (chan : Nat) : U64 :=
  eventValue chan g.ctx (s.vcoreOf g.core).toNat (field g.l.value 0 32)

/-- HCALL (R445): its event is queued and 0 emitted, or it waits behind a full queue. -/
def execHcall (f : Fields) (s : State) : Host.Outcome State Fault Refusal :=
  .next (s.operate .scalars f (fun s g l _ _ =>
    let g := { g with l := l }
    let st := coreStack g.core
    let n := f.imm.toNat % 64
    let c := (s.stack st).chan n
    if c.queue.length < 16 ∧ c.calls.isEmpty then
      (s.modStack st (fun k => k.setChan n { c with queue := c.queue ++ [s.callEvent g n] })).sysEmit g f 0
    else s.modStack st (fun k => k.setChan n { c with calls := c.calls ++ [g] })))

/-- The first HCALL that waits at a channel takes the room of an event that has left (R445). -/
def State.admitCall (s : State) (stack chan : Nat) : State :=
  let c := (s.stack stack).chan chan
  match c.calls with
  | [] => s
  | g :: rest =>
    let s := s.modStack stack (fun k => k.setChan chan { c with queue := c.queue ++ [s.callEvent g chan], calls := rest })
    match s.formOf g with
    | some (_, f) => s.sysEmit g f 0
    | none => s

/-- EVENT_SEND (R431, R433, R446): a bound channel sends the event at the head of its queue, through the region map of the
context that bound it. While that context is not active it waits. -/
def execEventSend (stack chan : Nat) (s : State) : Host.Outcome State Fault Refusal :=
  .next (
    let c := (s.stack stack).chan chan
    match c.bind, c.queue with
    | some b, v :: rest =>
      if (s.ctx b.ctx).phase ≠ .active then s
      else
        let s := s.modStack stack (fun k => k.setChan chan { c with queue := rest })
        let s := match s.fpCore b.ctx b.fp with
          | none => s
          | some dst =>
            (s.modCtx b.ctx (fun c => { c with quiet := false })).post (4096 + stack) dst
              (.token { fp := b.fp, ip := b.ip, port := b.port, val := Val.scalar v 0 provData } false)
        s.admitCall stack chan
    | _, _ => s)

/-- EVBIND.BIND (R446). -/
def execEvbindBind (f : Fields) (s : State) : Host.Outcome State Fault Refusal :=
  .next (s.supervised .scalars f (fun s g l _ _ =>
    if field l.value 0 11 != 0 then s.fault g f .operandRange 0
    else
      let b : EvBind := { ctx := g.ctx, fp := field l.value 32 32, ip := field l.value 12 20, port := bitAt l.value 11 }
      (s.modStack (coreStack g.core) (fun k =>
        k.setChan (f.imm.toNat % 64) { k.chan (f.imm.toNat % 64) with bind := some b })).sysEmit g f 0))

/-- EVBIND.UNBIND (R446). -/
def execEvbindUnbind (f : Fields) (s : State) : Host.Outcome State Fault Refusal :=
  .next (s.supervised .any f (fun s g _ _ _ =>
    (s.modStack (coreStack g.core) (fun k =>
      k.setChan (f.imm.toNat % 64) { k.chan (f.imm.toNat % 64) with bind := none })).sysEmit g f 0))

/-! ## The fault log (R426, R447) -/

/-- A record of a context's log is held in its ring (R447). -/
def Ctx.holds (c : Ctx) (i : U32) : Bool :=
  i != 0xFFFFFFFF && decide ((c.flogWr - 1 - i).toNat < (c.flogWr - c.flogRd).toNat)

/-- FLTRD (R447): 8 bytes of a record, or null; what an address that no longer translates reads as is not stated (log 3). -/
def execFltrd (f : Fields) (s : State) : Host.Outcome State Fault Refusal :=
  .next (s.operate { Need.scalars with handler := true, kl := fun k => k == .scalar || k == .fault } f (fun s g l r _ =>
    match r with
    | some _ => if !(s.ctx g.ctx).sup then s.fault g f .privilege 0 else read s g l r
    | none => read s g l r))
where
  /-- The read of the record that L names, in the log of the context that R names. -/
  read (s : State) (g : Firing) (l : Val) (r : Option Val) : State :=
    let x := match r with
      | some v => (field v.value 0 12).toNat
      | none => g.ctx
    let c := s.ctx x
    let i := field l.value 0 32
    if !c.holds i then s.emitBoth g f (Val.null g.l.round provData)
    else
      match s.ctxRead x (coreStack g.core) (c.flog.toNat + 64 * (i.toNat % c.flogn) + 8 * f.fn.toNat) 8 with
      | .ok bs => s.sysBoth g f (BitVec.ofNat 64 (leNat bs))
      | .error _ => s.spend.sysBoth g f (Config.freeWord s.free)

/-! ## Parked ports (R434, R435) -/

/-- A parked-port reference (R434): kind, index, virtual core, context. -/
structure PortRef where
  kind  : Nat
  index : Nat
  vcore : Nat
  ctx   : Nat
  deriving DecidableEq, Repr

/-- The reference that a value holds; none for one that R434 refuses. discard says that it serves RESUME.DISCARD. -/
def PortRef.of (v : U64) (discard : Bool) : Option PortRef :=
  let kind := (field v 24 4).toNat
  let index := (field v 28 4).toNat
  if field v 32 32 != 0 || decide (6 < kind) || decide ((if kind < 2 then 7 else 0) < index) ||
      (discard && decide (3 ≤ kind) && decide (kind ≤ 5)) then none
  else some { kind := kind, index := index, vcore := (field v 12 12).toNat, ctx := (field v 0 12).toNat }

/-- The generators of a core whose parked port is the one named: number and generator. -/
def Core.parkedGens (k : Core) (kind index : Nat) : List (Nat × AddrGen) :=
  k.gens.filter (fun e => e.2.parked.isSome && e.2.parkPort == (kind, index))

/-- The commands of a core parked at a port. -/
def Core.parkedCmds (k : Core) (kind index : Nat) : List Cmd :=
  k.cmds.filter (fun c => c.parked.isSome && c.pport == (kind, index))

/-- The port is parked. -/
def Core.portParked (k : Core) (kind index : Nat) : Bool :=
  match kind with
  | 3 => k.framePark.isSome
  | 4 => k.installs.any Install.parked
  | 5 => k.mergePark.isSome
  | _ => !(k.parkedGens kind index).isEmpty || !(k.parkedCmds kind index).isEmpty

/-- A capability value with the current GEN of its entry (R256). -/
def Core.freshCap (k : Core) (v : Val) : Val :=
  let i := (field v.value 46 6).toNat
  { v with value := field v.value 46 18 ++ (Table.look Cap.reset k.caps i).gen ++ field v.value 0 38 }

/-- RETRY at a port (R435): the parked access repeats its checks with the current GEN; waiting work starts anew. -/
def State.retryPort (s : State) (core kind index : Nat) : State :=
  match kind with
  | 3 => s.modCore core (fun k => { k with framePark := none })
  | 4 => s.modCore core (fun k => { k with
      installs := k.installs.map (fun i => if i.parked then { i with parked := false, active := false } else i) })
  | 5 => s.modCore core (fun k => { k with mergePark := none })
  | _ =>
    let k := s.core core
    let s := (k.parkedGens kind index).foldl (fun (s : State) (e : Nat × AddrGen) =>
      s.modGen core e.1 (fun a => { a with parked := none, again := true, cap := k.freshCap a.cap })) s
    (k.parkedCmds kind index).foldl (fun s c => s.modCmd core c.id s.adopt) s

/-- The commands that wait for an access that is dropped have it noted (R358). -/
def State.abortCovers (s : State) (core n : Nat) : State :=
  s.modCore core (fun k => { k with
    cmds := k.cmds.map (fun (c : Cmd) => if c.covers.contains n then { c with aborted := true } else c) })

/-- The virtual address that an update reaches (R427). -/
def State.updateVa (s : State) (c : Cmd) (f : Fields) : Nat :=
  let t := (syncTarget c.instr c.fire).2
  let off := syncOffset c.instr f c.fire
  match t.kind with
  | .cap => ((s.core c.fire.core).cap (field t.value 46 6).toNat).vbase + off
  | _ => ((s.ctx c.fire.ctx).ep (t.value.toNat % 256)).pointer + off

/-- A parked RED is resolved by a RED_UNRESOLVED record (R371, R427). -/
def State.redResolved (s : State) (c : Cmd) (f : Fields) : State :=
  let t := (syncTarget c.instr c.fire).2
  let d2 := f.fn.toNat + 16 * tyCode f.ty + (if t.kind = .cap then 0 else 256 + 65536 * (t.value.toNat % 256))
  let r := c.fire.fault .redUnresolved (s.updateVa c f) (theVal c.fire.r).value.toNat d2
  (s.faultLogged r).modCtx c.fire.ctx (fun x => { x with redcnt := x.redcnt - 1 })

/-- The fault token of a parked command, with the index of the record that it wrote when it parked (R435). -/
def State.dropToken (s : State) (g : Firing) (d : Dest) (cls : FaultClass) (n : U32) (reply : Bool) : State :=
  let s := s.faultToken g d cls n reply
  match s.recording? g.core g.task with
  | some _ => s.endRecording (quadOf g.core) 6
  | none => s

/-- DISCARD of a command's parked access (R358, R371, R435). A RED that has left its core has given its token before. -/
def State.dropCmd (s : State) (c : Cmd) (f : Fields) (cls : FaultClass) : State :=
  let core := c.fire.core
  let s := (s.abortCovers core c.id).finish c false
  let token (s : State) : State := s.failReply c f (fun s d reply => s.dropToken c.fire d cls c.precord reply)
  match c.instr with
  | .red _ => (if c.phase = .owner then s else token s).redResolved c f
  | _ => token s

/-- DISCARD of a generator's row (R271, R435): the run ends, and the generator stands at its next row. -/
def State.dropRow (s : State) (core n : Nat) (a : AddrGen) (cls : FaultClass) : State :=
  let s := s.abortCovers core (s.rowOf core n)
  let s :=
    match a.run with
    | none => s
    | some g =>
      match s.formOf g with
      | some (_, f) => if (s.core core).quar.contains g.obj then s else s.dropToken g f.d0 cls a.precord false
      | none => s
  s.agIdle core n (a.next + 1)

/-- DISCARD at a port (R435): the access that parked there first is dropped. -/
def State.discardPort (s : State) (core kind index : Nat) : State :=
  let k := s.core core
  match k.parkedGens kind index, k.parkedCmds kind index with
  | e :: _, _ =>
    match e.2.parked with
    | some cls => s.dropRow core e.1 e.2 cls
    | none => s
  | [], c :: _ =>
    match c.fields, c.parked with
    | some f, some cls => s.dropCmd c f cls
    | _, _ => s
  | [], [] => s

/-- RESUME (R448). -/
def State.resume (s : State) (f : Fields) (discard : Bool) : State :=
  s.supervised .scalars f (fun s g l _ _ =>
    match PortRef.of l.value discard with
    | none => s.fault g f .operandRange 0
    | some p =>
      match (if (s.ctx p.ctx).live then (s.ctx p.ctx).phys p.vcore else none) with
      | none => s.sysEmit g f 0
      | some core =>
        if !(s.core core).portParked p.kind p.index then s.sysEmit g f 0
        else (if discard then s.discardPort core p.kind p.index else s.retryPort core p.kind p.index).sysEmit g f 1)

/-- RESUME.RETRY (R435, R448). -/
def execResumeRetry (f : Fields) (s : State) : Host.Outcome State Fault Refusal := .next (s.resume f false)
/-- RESUME.DISCARD (R435, R448). -/
def execResumeDiscard (f : Fields) (s : State) : Host.Outcome State Fault Refusal := .next (s.resume f true)

/-- Every port that can park: kind and index (R434). -/
def portKinds : List (Nat × Nat) :=
  (List.range 8).map (fun i => (0, i)) ++ (List.range 8).map (fun i => (1, i)) ++ [(2, 0), (3, 0), (4, 0), (5, 0), (6, 0)]

/-- The parked ports of a context: core, kind and index. -/
def State.parkedPorts (s : State) (ctx : Nat) : List (Nat × Nat × Nat) :=
  (s.regionCores ctx).flatMap (fun core =>
    (portKinds.filter (fun p => (s.core core).portParked p.1 p.2)).map (fun p => (core, p.1, p.2)))

/-- REPLAYALL (R435, R448). -/
def execReplayall (f : Fields) (s : State) : Host.Outcome State Fault Refusal :=
  .next (s.supervised .scalars f (fun s g l _ _ =>
    let x := (field l.value 0 12).toNat
    let ps := if (s.ctx x).live then s.parkedPorts x else []
    (ps.foldl (fun s p => s.retryPort p.1 p.2.1 p.2.2) s).sysEmit g f (BitVec.ofNat 64 ps.length)))

/-! ## Control and status registers (R441, R450) -/

/-- A context's CSR by number (R93, R94, R146, R172, R173, R176, R194, R196, R251, R426). -/
def Ctx.csr (c : Ctx) (n : Nat) : U64 :=
  match n with
  | 0x000 => c.fpstat.setWidth 64
  | 0x001 => c.seed
  | 0x002 => c.stalecnt
  | 0x003 => c.flogWr ++ c.flogLost
  | 0x004 => c.flogRd.setWidth 64
  | 0x010 => (0 : BitVec 24) ++ c.ctxroot ++ (0 : BitVec 12)
  | 0x011 => (0 : BitVec 32) ++ bit1 (c.bump != 0) ++ (0 : BitVec 15) ++ c.pset
  | 0x012 => c.objbase ++ (0 : BitVec 6) ++ c.objnm1
  | 0x013 => (0 : BitVec 32) ++ bit1 c.objbusy ++ c.objres ++ (0 : BitVec 18) ++ c.objop ++ (0 : BitVec 2) ++ c.objidx
  | 0x014 => c.tapebase ++ (0 : BitVec 21)
  | 0x015 => c.tapeqsz.setWidth 64
  | 0x016 => c.holdbase ++ (0 : BitVec 21)
  | 0x017 => c.bqbase ++ (0 : BitVec 12)
  | 0x018 => c.mspill ++ (0 : BitVec 20)
  | 0x019 => c.qrbase ++ (0 : BitVec 8) ++ c.qrlog
  | _ => 0

/-- EVBOUND and EVPEND (R433): a bit for each channel that satisfies a test. -/
def Stack.chanBits (k : Stack) (t : Channel → Bool) : U64 :=
  BitVec.ofNat 64 ((List.range 64).map (fun n => if t (k.chan n) then 2 ^ n else 0)).sum

/-- A stack's CSR by number (R24, R384 to R386, R433). -/
def Stack.csr (k : Stack) (id n : Nat) : U64 :=
  match n with
  | 0x100 => k.sclkStat id
  | 0x101 => k.timeReg
  | 0x102 => k.errReg.setWidth 64
  | 0x103 => k.timeStat id
  | 0x104 => k.chanBits (fun c => c.bind.isSome)
  | 0x105 => k.chanBits (fun c => !c.queue.isEmpty)
  | 0x106 => k.evlost.setWidth 64
  | _ => 0

/-- A CSR by its number (R441), as seen from a stack with a context. -/
def State.csr (s : State) (stack ctx n : Nat) : U64 :=
  if n < 0x100 then (s.ctx ctx).csr n
  else if n < 0x200 then (s.stack stack).csr stack n
  else if n = 0x200 then s.mod.timecfg.setWidth 64
  else 0

/-- A write to SEED (R92, R93): the generator of every core of the context's region is reloaded. -/
def State.writeSeed (s : State) (ctx : Nat) (v : U64) : State :=
  let s := s.modCtx ctx (fun c => { c with seed := v })
  (s.regionCores ctx).foldl (fun s core => s.modCore core (fun k => { k with lfsr := lfsrSeed v k.vcore })) s

/-- A write to FLOGRD (R426): a value beyond WR is ignored. -/
def State.writeFlogrd (s : State) (ctx : Nat) (v : U32) : State :=
  s.modCtx ctx (fun c =>
    if (c.flogWr - c.flogRd).toNat < (v - c.flogRd).toNat then c else { c with flogRd := v })

/-- A write to TIMECFG (R390): ERRLIM is in force at once. -/
def State.writeTimecfg (s : State) (v : U64) : State :=
  (List.range 16).foldl State.limitCheck (s.modMod (fun m => { m with timecfg := field v 0 35 }))

/-- A context's CSR after a write, where it has no other effect (R8, R441). -/
def Ctx.csrSet (c : Ctx) (n : Nat) (v : U64) : Ctx :=
  match n with
  | 0x000 => { c with fpstat := c.fpstat &&& ~~~(field v 0 6) }
  | 0x010 => { c with ctxroot := field v 12 28 }
  | 0x011 => if c.bump != 0 then c else { c with pset := field v 0 16, bump := 1 }
  | 0x012 => { c with objbase := field v 12 52, objnm1 := field v 0 6 }
  | 0x013 =>
    if c.objbusy then c
    else
      { c with
        objop := field v 8 2, objidx := field v 0 6, objbusy := field v 8 2 == 1 || field v 8 2 == 2 }
  | 0x014 => { c with tapebase := field v 21 43 }
  | 0x015 => { c with tapeqsz := field v 0 32 }
  | 0x016 => { c with holdbase := field v 21 43 }
  | 0x017 => { c with bqbase := field v 12 52 }
  | 0x018 => { c with mspill := field v 20 44 }
  | 0x019 => { c with qrbase := field v 12 52, qrlog := field v 0 4 }
  | _ => c

/-- A CSR is written (R450) with the access of its map. -/
def State.csrWrite (s : State) (ctx n : Nat) (v : U64) : State :=
  match n with
  | 0x001 => s.writeSeed ctx v
  | 0x004 => s.writeFlogrd ctx (field v 0 32)
  | 0x200 => s.writeTimecfg v
  | _ => s.modCtx ctx (fun c => c.csrSet n v)

/-- CSRRD (R450): OTHER reads the context that L names, which is the supervisor's right where it is another one. -/
def execCsrrd (f : Fields) (s : State) : Host.Outcome State Fault Refusal :=
  .next (s.operate { Need.any with kl := if bitAt f.imm 12 then isScalar else anyKind } f (fun s g l _ _ =>
    let x := if bitAt f.imm 12 then (field l.value 0 12).toNat else g.ctx
    if x ≠ g.ctx ∧ !(s.ctx g.ctx).sup then s.fault g f .privilege 0
    else s.sysBoth g f (s.csr (coreStack g.core) x (f.imm.toNat % 4096))))

/-- CSRWR (R441, R450): the old value is emitted. -/
def execCsrwr (f : Fields) (s : State) : Host.Outcome State Fault Refusal :=
  .next (s.operate .scalars f (fun s g l r _ =>
    let n := f.imm.toNat % 4096
    let x := match r with
      | some _ => (field l.value 0 12).toNat
      | none => g.ctx
    let v := match r with
      | some r => r.value
      | none => l.value
    if (x ≠ g.ctx ∨ 0x010 ≤ n) ∧ !(s.ctx g.ctx).sup then s.fault g f .privilege 0
    else (s.csrWrite x n v).sysEmit g f (s.csr (coreStack g.core) x n)))

/-- SEED_WRITE (R93): the part of a CSRWR that writes SEED. -/
def execSeedWrite (ctx : Nat) (value : U64) (s : State) : Host.Outcome State Fault Refusal :=
  .next (if (s.ctx ctx).live then s.writeSeed ctx value else s)

/-- FLOGRD_WRITE (R426): the part of a CSRWR that writes FLOGRD. -/
def execFlogrdWrite (ctx : Nat) (value : U32) (s : State) : Host.Outcome State Fault Refusal :=
  .next (if (s.ctx ctx).live then s.writeFlogrd ctx value else s)

/-- PERFRD (R451). -/
def execPerfrd (f : Fields) (s : State) : Host.Outcome State Fault Refusal :=
  .next (s.operate .any f (fun s g _ _ _ => s.sysBoth g f (Table.look 0 (s.core g.core).perf f.fn.toNat)))

/-- CORESTOP (R453): the core is at a token boundary, since no other operator is in execution. -/
def State.corestop (s : State) (f : Fields) (stop : Bool) : State :=
  s.supervised .scalars f (fun s g l _ _ =>
    let x := l.value.toNat
    if 4096 ≤ x ∨ x = g.core then s.fault g f .operandRange 0
    else (s.modCore x (fun k => { k with stopped := stop })).sysEmit g f 0)

/-- CORESTOP.STOP (R453). -/
def execCorestopStop (f : Fields) (s : State) : Host.Outcome State Fault Refusal := .next (s.corestop f true)
/-- CORESTOP.START (R453). -/
def execCorestopStart (f : Fields) (s : State) : Host.Outcome State Fault Refusal := .next (s.corestop f false)

/-! ## Memory errors (R429, R430) -/

/-- The code of a memory in a record (R427). -/
def memCode : MemKind → Nat
  | .hbm => 0 | .secondTier => 1 | .vault => 2 | .frameStore => 3 | .tapeStore => 4 | .instrStore => 5

/-- The MEM_POISON record of an operator (R427, R430): precise where nothing of its effects may have taken place (R423). -/
def Firing.poison (g : Firing) (e : MemError) (precise : Bool) : FaultRec :=
  { g.fault .memPoison e.addr (memCode e.kind) 0 with precise := precise }

/-- A command that writes global memory (R430): a copy with no destination tile. -/
def Cmd.writesGlobal (c : Cmd) : Bool := isCopy c.instr && c.shadow.isNone

/-- A command of a core that consumes a lasting error ends with MEM_POISON; its destination keeps SHADOW (R430). -/
def State.poisonCmd (s : State) (e : MemError) (n : Nat) : State :=
  let k := s.core e.core
  let count (i : Instr) (s : State) : State :=
    match i with
    | .red _ => s.modCtx (k.ctx.getD 0) (fun x => { x with redcnt := x.redcnt - 1 })
    | _ => s
  match k.cmd? n with
  | some c =>
    match c.fields with
    | some f => (count c.instr s).fail c f (c.fire.poison e !c.writesGlobal) false
    | none => s
  | none =>
    match k.vecRun with
    | some c =>
      match c.instr.form with
      | some (opc, _, f) => if c.id = n then (s.vecLeave opc c).fail c f (c.fire.poison e (c.row == 0)) false else s
      | none => s
    | none => s

/-- An item at work at the head of an accumulator queue consumes a lasting error. -/
def State.poisonItem (s : State) (e : MemError) (a : Bool) (n : Nat) : State :=
  match s.matHead e.core a with
  | none => s
  | some it =>
    match it.instr.form with
    | none => s
    | some (_, _, f) =>
      if it.id ≠ n ∨ !it.started then s
      else
        let s := match s.gangHeads it with
          | some hs => s.gangGone hs it
          | none => s.itemGone e.core a it.id
        (((s.tilesDrop it.tiles).setFlags it.fire.ctx it.flags).raise it.fire f.d0 (it.fire.poison e (it.row == 0)) false).matSettle e.core

/-- A generator's run consumes a lasting error. -/
def State.poisonGen (s : State) (e : MemError) (n : Nat) : State :=
  let a := (s.core e.core).gen n
  match a.run with
  | none => s
  | some g =>
    match s.formOf g with
    | some (_, f) => (s.raise g f.d0 (g.poison e (!a.write && a.moved == 0)) false).agIdle e.core n 0
    | none => s

/-- A slot of a frame is lost: the frame is aborted as under quarantine, with MEM_POISON (R181, R430). -/
def State.poisonFrame (s : State) (e : MemError) : State :=
  match (s.core e.core).frame? e.fp with
  | none => s
  | some fr =>
    if fr.freepend || fr.abort || !s.atBoundary e.core e.fp then s
    else
      let s := s.modCore e.core (fun k => ({ k.modFrame e.fp (fun f => { f with abort := true }) with
        light := k.light.filter (fun x => x.2.fp != e.fp), engine := k.engine.filter (fun x => x.2.fp != e.fp) } : Core).settle)
      (s.orphan e.core e.fp fr .memPoison).freeOrWait e.core e.fp

/-- A code page is lost while it is read or held (R180): addr names a page frame, then the install under way. -/
def State.poisonPage (s : State) (e : MemError) : State :=
  let k := s.core e.core
  let ctx := k.ctx.getD 0
  match (if e.kind = .instrStore then k.pages[e.addr]? else none) with
  | some p =>
    (s.modCore e.core (fun k => { k with pages := k.pages.filter (fun x => !(x.obj == p.obj && x.page == p.page)) })).installFails
      e.core ctx p.obj p.page .codePoison 0 0 2
  | none =>
    match k.installs.find? (fun i => i.active && !i.parked) with
    | some i => s.installFails e.core ctx i.obj i.page .codePoison 0 0 2
    | none => s

/-- A tape is lost (R430): it becomes invalid, and its replays end with FAULT (R143). addr names the tape in its quad. -/
def State.poisonTape (s : State) (e : MemError) : State :=
  let q := quadOf e.core
  match (s.engine q).tapes[e.addr]? with
  | none => s
  | some t =>
    let s := (s.invalidateOn q (fun x y _ => x == t.ctx && y == t.tmpl)).1
    let hit (r : Replay) : Bool := r.tape.ctx == t.ctx && r.tape.tmpl == t.tmpl && r.fault.isNone
    match (s.engine q).replays.find? hit with
    | none => s
    | some r =>
      let p := s.logFault {
        cls := .memPoison, ctx := t.ctx, core := e.core, obj := t.obj, ip := 0,
        fp := ((s.task? r.task).map Task.rootFp).getD 0, precise := false, parked := false, supv := false, token := true,
        port := 0, reason := 0, d0 := e.addr, d1 := memCode e.kind, d2 := 0 }
      let v : Val := {
        kind := .fault, value := faultValue .memPoison (s.vcoreOf e.core) p.2, round := 0, prov := provData,
        lin := Lineage.none }
      p.1.modEngine q (fun en => { en with replays := en.replays.map (fun r => if hit r then { r with fault := some v } else r) })

/-- What a lasting error does to its consumer (R430). -/
def State.poison (s : State) (e : MemError) : State :=
  match e.kind, e.cmd with
  | .frameStore, _ => s.poisonFrame e
  | .instrStore, _ => s.poisonPage e
  | .tapeStore, _ => s.poisonTape e
  | _, some n =>
    if 2 ^ 40 ≤ n then s.poisonGen e (n - 2 ^ 40)
    else ((s.poisonCmd e n).poisonItem e false n).poisonItem e true n
  | _, none =>
    match s.cur with
    | some g =>
      match s.formOf g with
      | some (_, f) => if g.core = e.core then s.retire.raise g f.d0 (g.poison e true) false else s
      | none => s
    | none => s.poisonPage e

/-- What a soft error logs (R427, R429): MEM_TRANSIENT to the context whose access it was. -/
def State.transient (s : State) (e : MemError) (ctx : Nat) : State :=
  s.faultLogged {
    cls := .memTransient, ctx := ctx, core := e.core, obj := (((s.core e.core).anyFrame? e.fp).map Frame.obj).getD 0, ip := 0,
    fp := e.fp, precise := false, parked := false, supv := false, token := false, port := 0, reason := 0,
    d0 := e.addr, d1 := memCode e.kind, d2 := 0 }

/-- MEMORY_ERROR (R429, R430): a read met an uncorrectable error. A clean retry logs it; a lasting one is put on the repair
list and reaches its consumer as MEM_POISON. MEM_ERR is raised with the record's index, or all ones. -/
def execMemoryError (err : MemError) (s : State) : Host.Outcome State Fault Refusal :=
  .next (
    let ctx := (s.core err.core).ctx
    let wr (s : State) : U32 := (s.ctx (ctx.getD 0)).flogWr
    let t :=
      if err.lasting then (s.poison err).modMod (fun m => { m with repair := m.repair ++ [(err.kind, err.stack, err.addr)] })
      else match ctx with
        | some x => s.transient err x
        | none => s
    let index : BitVec 31 := if ctx.isNone ∨ wr t = wr s then BitVec.allOnes 31 else field (wr s) 0 31
    t.event err.stack 9 (ctx.getD 0xFFF) (if ctx.isSome then (s.vcoreOf err.core).toNat else err.core)
      (index ++ bit1 err.lasting))

end Sys2Proof.Machine
end

