-- ==== Sys2Proof/Machine/Relocate.lean ====
section
/-! DEFINITION. What a saved context holds by physical number, carried to the cores and stacks onto which it is restored (R166, R440). -/

namespace Sys2Proof.Machine

/-- Where a restored context lies: the new physical core of an old one, and the new stack of an old one (R440). -/
structure Move where
  core  : Nat → Nat
  stack : Nat → Nat

/-- The new place of a quad: that of its first core. -/
def Move.quad (m : Move) (q : Nat) : Nat := quadOf (m.core (quadCore q 0))

/-- A firing. -/
def Firing.move (m : Move) (g : Firing) : Firing :=
  { g with core := m.core g.core, replay := g.replay.map (fun x => (m.quad x.1, x.2)) }

/-- A message: its sender may be an agent of a stack. -/
def Mail.move (m : Move) (x : Mail) : Mail :=
  { src := if x.src < 4096 then m.core x.src else x.src,
    msg := match x.msg with
      | .free fp g => .free fp (g.move m)
      | y => y }

/-- Tiles by core and index. -/
def Move.tiles (m : Move) (l : List (Nat × Nat)) : List (Nat × Nat) := l.map (fun t => (m.core t.1, t.2))

/-- A command. -/
def Cmd.move (m : Move) (c : Cmd) : Cmd :=
  { c with fire := c.fire.move m, tiles := m.tiles c.tiles, shadow := c.shadow.map (fun t => (m.core t.1, t.2)) }

/-- An address generator; its window restarts empty. -/
def AddrGen.move (m : Move) (a : AddrGen) : AddrGen :=
  { a with
    stopReq := a.stopReq.map (Firing.move m), run := a.run.map (Firing.move m), win := [], mcast := m.tiles a.mcast }

/-- A stream port. -/
def Port.move (m : Move) (p : Port) : Port :=
  { p with
    bound := p.bound.map (fun b =>
      match b with
      | .peer c n => .peer (m.core c) n
      | .branch c g t => .branch (m.core c) g (t.move m)
      | b => b),
    unbind := p.unbind.map (Firing.move m) }

/-- A round of a vector reduction. -/
def Reduction.move (m : Move) (r : Reduction) : Reduction :=
  { r with dest := r.dest.map (fun d => (d.1, m.core d.2.1, d.2.2)), marker := r.marker.map (Firing.move m) }

/-- The B binding. -/
def MatBinding.move (m : Move) (b : MatBinding) : MatBinding :=
  { b with core := m.core b.core, closing := b.closing.map (Firing.move m) }

/-- A matrix item. -/
def MatItem.move (m : Move) (x : MatItem) : MatItem :=
  { x with
    fire := x.fire.move m, binding := x.binding.map (MatBinding.move m),
    gang := x.gang.map (fun g => (m.core g.1, g.2)), tiles := m.tiles x.tiles }

/-- An accumulator. -/
def Accum.move (m : Move) (x : Accum) : Accum :=
  { x with queue := x.queue.map (MatItem.move m), held := x.held.map (MatItem.move m) }

/-- An allocation; shares says which number a share has got. -/
def AllocFor.move (m : Move) (shares : Nat → Nat) (a : AllocFor) : AllocFor :=
  match a with
  | .bind t s an => .bind t (s.map shares) an
  | .firing g i f => .firing (g.move m) i f
  | .arms x fp slot depth => .arms (x.move m) fp slot depth
  | .probe q t => .probe (m.quad q) t

/-- A frame: a worker's share has its new number. -/
def Frame.move (shares : Nat → Nat) (f : Frame) : Frame :=
  { f with worker := f.worker.map (fun w => (shares w.1, w.2)) }

/-- A core. Its translation window and its instruction store restart empty, and installs start anew (R440). -/
def Core.move (m : Move) (shares : Nat → Nat) (k : Core) : Core :=
  { k with
    inbox := k.inbox.map (Mail.move m),
    dispatchQ := k.dispatchQ.map (Mail.move m),
    blocked := k.blocked.map (Mail.move m),
    frames := k.frames.map (Frame.move shares),
    spillDir := k.spillDir.map (fun (e : Spilled) => { e with frame := e.frame.move shares }),
    fillQueue := k.fillQueue.map (fun e => (e.1, e.2.move m)),
    allocs := k.allocs.map (AllocFor.move m shares),
    light := k.light.map (fun e => (e.1, e.2.move m)),
    engine := k.engine.map (fun e => (e.1, e.2.move m)),
    pages := [],
    installs := k.installs.map (fun (i : Install) => { i with active := false, mail := i.mail.map (Mail.move m) }),
    tnewQueue := k.tnewQueue.map (Cmd.move m),
    cmds := k.cmds.map (Cmd.move m),
    win := [],
    gens := k.gens.map (fun e => (e.1, e.2.move m)),
    ports := k.ports.map (fun e => (e.1, e.2.move m)),
    vecQueue := k.vecQueue.map (Cmd.move m),
    vecRun := k.vecRun.map (Cmd.move m),
    reds := k.reds.map (Reduction.move m),
    mat := k.mat.map (MatBinding.move m),
    acc0 := k.acc0.move m,
    acc1 := k.acc1.move m,
    waiters := k.waiters.map (fun (w : Waiter) => { w with fire := w.fire.move m }),
    waits := k.waits.map (fun (w : Wait) => { w with fire := w.fire.move m }),
    waitRetry := k.waitRetry.map (fun (w : Wait) => { w with fire := w.fire.move m }) }

/-- A share. -/
def Share.move (m : Move) (x : Share) : Share := { x with owner := x.owner.map (fun o => (m.core o.1, o.2)) }

/-- A bind packet. -/
def BindPacket.move (m : Move) (shares : Nat → Nat) (p : BindPacket) : BindPacket :=
  { p with
    share := p.share.map (fun s => (shares s.1, if s.2 = byPolicy then byPolicy else m.core s.2)),
    issuer := p.issuer.map m.core, quad := p.quad.map m.quad }

/-- A held item. -/
def Held.move (m : Move) (shares : Nat → Nat) : Held → Held
  | .bind b => .bind (b.move m shares)
  | .alloc c a => .alloc (m.core c) (a.move m shares)

/-- A partition. -/
def Partition.move (m : Move) (shares : Nat → Nat) (p : Partition) : Partition :=
  { p with
    reqs := p.reqs.map (Firing.move m), switch := p.switch.map (fun x => (x.1, x.2.1, x.2.2.move m)),
    hold := p.hold.map (Held.move m shares), edge := p.edge.map (Held.move m shares) }

/-- A task: the stacks that hold parts of it. -/
def Task.move (m : Move) (t : Task) : Task :=
  { t with stack := m.stack t.stack, parts := (t.parts.map (fun p => (m.stack p.1, p.2))).eraseDups }

/-- A lock: the waiting commands of the context are named by number. -/
def Lock.move (m : Move) (ids : List Nat) (k : Lock) : Lock :=
  { k with waiters := k.waiters.map (fun w => if ids.contains w.2 then (m.core w.1, w.2) else w) }

end Sys2Proof.Machine
end

