-- ==== Sys2Proof/Machine/Save.lean ====
section
/-! DEFINITION. Pre-emption (R436 to R440, R449): CTXSAVE with its drain and the layout of the save area, and CTXLOAD with its checks. What R437 and R438 leave to the device's own format stays in State.saved. -/

namespace Sys2Proof.Machine

/-! ## The parts of a core's segment (R438) -/

/-- Slot n of a frame store with its tag (R39, R41); units outside every frame read as empty. -/
def Core.storeSlot (k : Core) (n : Nat) : U64 × U32 :=
  match k.frames.find? (fun f => decide (8 * f.base ≤ n) && decide (n < 8 * f.base + classSlots f.cls)) with
  | none => (0, 0)
  | some f => f.stored (n - 8 * f.base)

/-- The 32 bytes of a tile descriptor (R50). -/
def Tile.bytes (t : Tile) : List Byte :=
  natLe 32 (t.base * 2 ^ 224 + t.rows * 2 ^ 211 + t.cols * 2 ^ 198 + tyCode t.etype * 2 ^ 194 + t.layout.toNat * 2 ^ 192 +
    t.pitch * 2 ^ 176 + t.refcnt * 2 ^ 160 + t.gen.toNat * 2 ^ 152 +
    ((if t.valid then 8 else 0) + (if t.shadow then 4 else 0) + (if t.published then 2 else 0) +
      (if t.nullpad then 1 else 0)) * 2 ^ 148 +
    t.size * 2 ^ 128 + t.scale * 2 ^ 96 + t.busy * 2 ^ 80)

/-- A descriptor of its bytes, with what the device keeps beside it; none where a reserved field is not zero. -/
def Tile.ofBytes (old : Tile) (bs : List Byte) : Option Tile :=
  let x := leNat bs
  if bitsAt x 144 4 ≠ 0 ∨ bitsAt x 0 80 ≠ 0 then none
  else
    some { old with
      base := bitsAt x 224 32, rows := bitsAt x 211 13, cols := bitsAt x 198 13, etype := tyOf (bitsAt x 194 4),
      layout := BitVec.ofNat 2 (bitsAt x 192 2), pitch := bitsAt x 176 16, refcnt := bitsAt x 160 16,
      gen := BitVec.ofNat 8 (bitsAt x 152 8), valid := bitOf x 151, shadow := bitOf x 150, published := bitOf x 149,
      nullpad := bitOf x 148, size := bitsAt x 128 16, scale := bitsAt x 96 32, busy := bitsAt x 80 16 }

/-- The 32 bytes of a capability entry (R252). -/
def Cap.bytes (c : Cap) : List Byte :=
  natLe 32 (c.vbase * 2 ^ 192 + c.extent * 2 ^ 128 + c.root.toNat * 2 ^ 96 + c.pset.toNat * 2 ^ 80 + c.gen.toNat * 2 ^ 72 +
    ((if c.valid then 8 else 0) + (if c.u then 4 else 0) + (if c.w then 2 else 0) + (if c.r then 1 else 0)) * 2 ^ 68 +
    c.busy * 2 ^ 48)

/-- A capability entry of its bytes, with its taint list and its mark; none where a reserved field is not zero. -/
def Cap.ofBytes (old : Cap) (bs : List Byte) : Option Cap :=
  let x := leNat bs
  if bitsAt x 240 16 ≠ 0 ∨ bitsAt x 124 4 ≠ 0 ∨ bitsAt x 64 4 ≠ 0 ∨ bitsAt x 0 48 ≠ 0 then none
  else
    some { old with
      vbase := bitsAt x 192 64, extent := bitsAt x 128 64, root := BitVec.ofNat 28 (bitsAt x 96 28),
      pset := BitVec.ofNat 16 (bitsAt x 80 16), gen := BitVec.ofNat 8 (bitsAt x 72 8), valid := bitOf x 71, u := bitOf x 70,
      w := bitOf x 69, r := bitOf x 68, busy := bitsAt x 48 16 }

/-- The 1536 bytes of a port (R438): 16 entries of data and sideband, the count, and head 0. -/
def Port.bytes (p : Port) : List Byte :=
  let entry (i : Nat) : List Byte :=
    match p.fifo[i]? with
    | some e => (e.data ++ List.replicate 64 0).take 64 ++ natLe 2 e.sideband ++ List.replicate 14 0
    | none => List.replicate 80 0
  (List.range 16).flatMap entry ++ natLe 1 p.fifo.length ++ List.replicate 255 0

/-- A port with the entries of its bytes; none where they are malformed. -/
def Port.ofBytes (old : Port) (bs : List Byte) : Option Port :=
  let n := numAt bs 1280 1
  let head := numAt bs 1281 1
  let at_ (i : Nat) : Nat := 80 * ((head + i) % 16)
  if 16 < n ∨ 15 < head ∨ (List.range n).any (fun i => !zeroAt bs (at_ i + 66) 14) then none
  else
    (allSome ((List.range n).map (fun i => Entry.of (cut bs (at_ i) 64) (numAt bs (at_ i + 64) 2)))).map (fun l => { old with fifo := l })

/-! ## Token records (R439) -/

/-- A token record: the token's fields, its place and its ready class. -/
structure TokRec where
  fp    : U32
  ip    : BitVec 20
  port  : Bool
  val   : Val
  place : Nat
  cls   : Nat
  deriving DecidableEq, Repr

/-- The 32 bytes of a record (R32, R439). -/
def TokRec.bytes (t : TokRec) : List Byte :=
  natLe 16 (tokenWord t.fp t.ip t.port t.val).toNat ++
  natLe 1 t.val.prov.toNat ++ natLe 1 t.place ++ natLe 1 t.cls ++ List.replicate 13 0

/-- A record of its bytes; none where it is malformed (R439). -/
def TokRec.ofBytes (bs : List Byte) : Option TokRec :=
  let x := numAt bs 0 16
  let kind := Kind.ofCode (bitsAt x 64 3)
  let prov := numAt bs 16 1
  if kind = .reserved ∨ 15 ≤ prov ∨ 5 < numAt bs 17 1 ∨ !zeroAt bs 19 13 ∨ !valueOk kind (BitVec.ofNat 64 (bitsAt x 0 64)) then none
  else
    some {
      fp := BitVec.ofNat 32 (bitsAt x 96 32), ip := BitVec.ofNat 20 (bitsAt x 76 20), port := bitOf x 75,
      val := {
        kind := kind, value := BitVec.ofNat 64 (bitsAt x 0 64), round := BitVec.ofNat 8 (bitsAt x 67 8),
        prov := BitVec.ofNat 4 prov, lin := Lineage.none },
      place := numAt bs 17 1, cls := numAt bs 18 1 }

/-- The records of a ready entry: one for each operand, L first. -/
def readyRecs (place : Nat) (e : Nat × Firing) : List TokRec :=
  let g := e.2
  let one (p : Bool) (v : Val) : TokRec := { fp := g.fp, ip := g.ip, port := p, val := v, place := place, cls := e.1 }
  one g.port g.l :: (g.r.toList.map (one true) ++ g.t.toList.map (one false))

/-- The record of a waiting message, if it is a token. -/
def mailRec (place : Nat) (m : Mail) : List TokRec :=
  match m.msg with
  | .token t _ => [{ fp := t.fp, ip := t.ip, port := t.port, val := t.val, place := place, cls := 0 }]
  | _ => []

/-- The token records of a core, place by place in queue order (R439). -/
def Core.tokRecs (k : Core) : List TokRec :=
  k.light.flatMap (readyRecs 0) ++ k.engine.flatMap (readyRecs 1) ++ (k.dispatchQ ++ k.blocked).flatMap (mailRec 2) ++
  (k.fillQueue.map Prod.snd).flatMap (mailRec 3) ++ (k.installs.flatMap Install.mail).flatMap (mailRec 4)

/-- A ready entry with the values of the next records, and the records left. -/
def takeReady (e : Nat × Firing) (rs : List TokRec) : (Nat × Firing) × List TokRec :=
  let n := 1 + e.2.r.toList.length + e.2.t.toList.length
  let vs := (rs.take n).map TokRec.val
  let g : Firing := { e.2 with
    l := vs[0]?.getD e.2.l,
    r := e.2.r.map (fun v => vs[1]?.getD v),
    t := e.2.t.map (fun v => vs[1 + e.2.r.toList.length]?.getD v) }
  ((e.1, g), rs.drop n)

/-- A waiting message with the token of the next record, and the records left. -/
def takeMsg (m : Mail) (rs : List TokRec) : Mail × List TokRec :=
  match m.msg, rs with
  | .token _ reply, r :: t => ({ m with msg := .token { fp := r.fp, ip := r.ip, port := r.port, val := r.val } reply }, t)
  | _, _ => (m, rs)

/-- A list whose elements take records in turn. -/
def takeAll {α : Type} (f : α → List TokRec → α × List TokRec) : List α → List TokRec → List α × List TokRec
  | [], rs => ([], rs)
  | x :: t, rs =>
    let p := f x rs
    let q := takeAll f t p.2
    (p.1 :: q.1, q.2)

/-- A core whose tokens have the values of its records. -/
def Core.withRecs (k : Core) (rs : List TokRec) : Core :=
  let a := takeAll takeReady k.light rs
  let b := takeAll takeReady k.engine a.2
  let c := takeAll takeMsg k.dispatchQ b.2
  let d := takeAll takeMsg k.blocked c.2
  let e := takeAll (fun (x : U32 × Mail) rs => let p := takeMsg x.2 rs; ((x.1, p.1), p.2)) k.fillQueue d.2
  let f := takeAll (fun (x : Install) rs => let p := takeAll takeMsg x.mail rs; ({ x with mail := p.1 }, p.2)) k.installs e.2
  { k with light := a.1, engine := b.1, dispatchQ := c.1, blocked := d.1, fillQueue := e.1, installs := f.1 }

/-! ## The segment of a core (R438) -/

/-- The bytes of an accumulator. -/
def Accum.bytes (x : Accum) : List Byte := (List.range 16384).flatMap (fun n => natLe 4 (Table.look 0 x.elems n).toNat)

/-- The parts of the segment of a core: offset and bytes. -/
def State.segment (s : State) (core : Nat) : List (Nat × List Byte) :=
  let k := s.core core
  let rs := k.tokRecs
  [(0x000000, s.vaultBytes core 0 (2 ^ 22)),
   (0x400000, (List.range 32768).flatMap (fun n => natLe 8 (k.storeSlot n).1.toNat)),
   (0x440000, (List.range 32768).flatMap (fun n => natLe 4 (k.storeSlot n).2.toNat)),
   (0x460000, (List.range 4096).flatMap (fun n => (k.tile n).bytes)),
   (0x480000, k.acc0.bytes ++ k.acc1.bytes),
   (0x4A0000, (List.range 4096).map (Table.look 0 k.unitGen)),
   (0x4A1000, (List.range 64).flatMap (fun n => { k.cap n with busy := s.capBusy core n }.bytes)),
   (0x4A1800, natLe 8 k.lfsr.toNat ++ natLe 4 rs.length ++ natLe 4 0 ++
     (List.range 8).flatMap (fun n => natLe 8 (Table.look 0 k.perf n).toNat)),
   (0x4A2000, (List.range 16).flatMap (fun n => (k.port n).bytes)),
   (0x4B0000, rs.flatMap TokRec.bytes)]

/-- The base of the segment of a virtual core (R438). -/
def segBase (save vcore : Nat) : Nat := save + 2 ^ 21 + vcore * (5 * 2 ^ 20)

/-! ## The header (R437) -/

/-- MAGIC. -/
def saveMagic : List Byte := [0x4C, 0x53, 0x41, 0x56, 0x0D, 0x0A, 0x1A, 0x0A]

/-- The first 256 bytes of a save area; disp is DISP, whose form is the device's own (log 3). -/
def State.saveHeader (s : State) (x : Nat) (valid : Bool) (stack : Nat) (disp : U64) : List Byte :=
  let c := s.ctx x
  saveMagic ++ natLe 2 1 ++ natLe 2 0 ++ natLe 2 x ++ natLe 1 (if valid then 1 else 0) ++ natLe 1 0 ++ natLe 4 c.regionWord ++
  natLe 8 (s.stack stack).timeReg.toNat ++ natLe 4 0 ++ natLe 8 c.seed.toNat ++ natLe 8 c.fpstat.toNat ++
  natLe 8 c.stalecnt.toNat ++ natLe 8 c.flogRd.toNat ++
  ([0x010, 0x012, 0x014, 0x015, 0x016, 0x017, 0x018, 0x019].flatMap (fun n => natLe 8 (c.csr n).toNat)) ++
  natLe 8 disp.toNat ++ natLe 8 c.pset.toNat ++ natLe 8 c.redcnt ++ List.replicate 104 0

/-! ## The drain (R436, steps 1 to 4) -/

/-- A step of the machine would change nothing. -/
def State.rests (s : State) (o : Host.Outcome State Fault Refusal) : Bool :=
  match o with
  | .next t => decide (t = s)
  | _ => true

/-- A command waits for the host's storage, not for anything in the module. -/
def State.awaitsDisk (s : State) (c : Cmd) : Bool := s.storageCmd c && c.phase == .work && c.parked.isNone

/-- The engines of a core have drained: every command is done, parked, or waits for something that cannot come while
dispatch is stopped; matrix items and generators stand at a row boundary; nothing is on its way to the core. -/
def State.coreDrained (s : State) (core : Nat) : Bool :=
  let k := s.core core
  k.inbox.isEmpty && k.divider.isEmpty && s.props.isEmpty && s.streams.isEmpty &&
  k.cmds.all (fun c =>
    !s.awaitsDisk c && s.rests (execCopyComplete core c.id s) && s.rests (execSplitPhaseComplete core c.id s) &&
    s.rests (execUpdateApply core c.id s) &&
    (c.phase == .channel || (s.rests (execBarArrival core c.id s) && s.rests (execCollArrival core c.id s))) &&
    s.rests (execPublishSwap core c.id s)) &&
  s.rests (execVectorCommandStart core s) && s.rests (execVectorComplete core s) &&
  k.gens.all (fun e => s.rests (execAgRow core e.1 s)) &&
  (k.acc0.queue ++ k.acc1.queue).all (fun i => !(i.started && i.gang.isSome)) &&
  [0, 1].all (fun a => s.rests (execRowFiring core a s) && s.rests (execMatrixItemFinish core a s))

/-- The task belongs to a context. -/
def State.taskOf (s : State) (x task : Nat) : Bool := ((s.task? task).map Task.ctx) == some x

/-- Everything of a context has drained or parked, the bindings begun are complete, and no token of it is in flight (R436). -/
def State.drained (s : State) (x : Nat) : Bool :=
  let c := s.ctx x
  (match s.cur with
   | some g => g.ctx != x
   | none => true) &&
  (s.regionCores x).all s.coreDrained && !s.onLinks x && c.bump == 0 && !c.objbusy &&
  s.stackTab.all (fun e => (s.nextPacket (e.2.binds.filter (fun b => s.taskOf x b.task))).isNone) &&
  s.linkReqs.all (fun r => r.fire.ctx != x)

/-! ## CTXSAVE (R436, R449) -/

/-- CTXSAVE (R449): the target stops being selected from and dispatched, and its recordings end (R156), but for one that its TAPEEND has ended. -/
def execCtxsave (f : Fields) (s : State) : Host.Outcome State Fault Refusal :=
  .next (s.supervised .scalars f (fun s g l _ _ =>
    let x := (field l.value 0 12).toNat
    if x = g.ctx ∨ (s.ctx x).phase ≠ .active then s.fault g f .ctxState 0
    else
      let c := { Cmd.start s.ids { g with l := l } (.ctxsave f) .system with phase := .queued }
      let s := (s.newId.modCore g.core (fun k => { k with cmds := k.cmds ++ [c] })).modCtx x (fun y => { y with
        phase := .saving c.id })
      s.tapes.foldl (fun (s : State) e =>
        match e.2.record with
        | some r => if r.ctx = x ∧ r.open_ then s.endRecording e.1 7 else s
        | none => s) s))

/-- Parts written in order at a base through a context's CTXROOT; where one does not translate, the state with the parts
before it, and the stop. -/
def State.writeParts (s : State) (x base : Nat) : List (Nat × List Byte) → State × Option AccessStop
  | [] => (s, none)
  | p :: t =>
    match s.ctxWrite x (base + p.1) p.2 with
    | .error e => (s, some e)
    | .ok s => s.writeParts x base t

/-- The segments of cores written in order; a core with more than 10240 token records stops with SAVE_OVERFLOW. -/
def State.writeSegments (s : State) (x : Nat) : List (Nat × Nat) → State × Option AccessStop
  | [] => (s, none)
  | (v, p) :: t =>
    if 10240 < (s.core p).tokRecs.length then (s, some (.saveOverflow, 0, 0))
    else
      match s.writeParts x (segBase (s.ctx x).save.toNat v) (s.segment p) with
      | (s, some e) => (s, some e)
      | (s, none) => s.writeSegments x t

/-- The save area is written (R436, R437): VALID is 0 first, and 1 with the last write. -/
def State.writeArea (s : State) (x stack : Nat) (disp : U64) : State × Option AccessStop :=
  let base := (s.ctx x).save.toNat
  match s.writeParts x base [(0, s.saveHeader x false stack disp)] with
  | (s, some e) => (s, some e)
  | (s, none) =>
    match s.writeSegments x (s.ctx x).region with
    | (s, some e) => (s, some e)
    | (s, none) => s.writeParts x base [(0, s.saveHeader x true stack disp)]

/-- What a context has resident at the distributors: slot and what the distributor holds. -/
def State.residents (s : State) (x : Nat) : List (Nat × Resident) :=
  s.stackTab.flatMap (fun e => (e.2.slots.filter (fun r => ((s.qdesc r.2.queue).map QDesc.ctx) == some x)).map
    (fun r => (16 * e.1 + r.1, r.2)))

/-- What the device keeps of a context that is saved. -/
def State.savedOf (s : State) (x : Nat) : Saved :=
  let c := s.ctx x
  let cores := s.regionCores x
  let quads := (cores.map quadOf).eraseDups
  { ctx := x, x0 := c.x0, y0 := c.y0, wm1 := c.wm1, hm1 := c.hm1, ctxRec := c,
    cores := c.region.map (fun p => (p.1, s.core p.2)),
    slots := s.residents x,
    shares := s.stackTab.flatMap (fun e => (e.2.shares.filter (fun h => s.taskOf x h.2.task)).map
      (fun h => (shareNo e.1 h.1, h.2))),
    asks := s.stackTab.flatMap (fun e => (e.2.asks.filter (fun a => s.taskOf x a.2)).map (fun a => (e.1, a))),
    binds := s.stackTab.flatMap (fun e => (e.2.binds.filter (fun b => s.taskOf x b.task)).map (fun b => (e.1, b))),
    parts := s.stackTab.flatMap (fun e => (e.2.parts.filter (fun p => p.ctx == x)).map (fun p => (e.1, p))),
    engines := s.tapes.filter (fun e => quads.contains e.1),
    calls := s.stackTab.flatMap (fun e => e.2.chans.flatMap (fun h => (h.2.calls.filter (fun g => g.ctx == x)).map
      (fun g => (h.1, g)))),
    cursors := s.stackTab.flatMap (fun e => (Table.find e.2.cursors x).toList.map (fun v => (e.1, v))),
    locks := s.locks.filter (fun e => decide (e.1 / 256 < 4096) && cores.contains (e.1 / 256)),
    gangs := s.gangs.filter (fun c => c.fire.ctx == x),
    ends := [] }

/-- A stack without anything of a context but its event bindings. -/
def State.clearStack (s : State) (x : Nat) (k : Stack) : Stack :=
  { k with
    slots := k.slots.filter (fun r => ((s.qdesc r.2.queue).map QDesc.ctx) != some x),
    shares := k.shares.filter (fun h => !s.taskOf x h.2.task),
    asks := k.asks.filter (fun a => !s.taskOf x a.2),
    binds := k.binds.filter (fun b => !s.taskOf x b.task),
    parts := k.parts.filter (fun p => p.ctx != x),
    cursors := Table.del k.cursors x,
    chans := k.chans.map (fun h => (h.1, { h.2 with calls := h.2.calls.filter (fun g => g.ctx != x) })) }

/-- Resident queues of a context stop being resident: their counts go back to their descriptors (R102, R122). -/
def State.dropQueues (s : State) (x : Nat) : State :=
  (s.residents x).foldl (fun s r => s.dropResident r.2.queue (r.1 / 16) (r.1 % 16) r.2) s

/-- The cores of a region hold no context any more; a core stays stopped (R453). -/
def State.clearCores (s : State) (x : Nat) : State :=
  (s.regionCores x).foldl (fun s p => s.setCore p { Core.reset with stopped := (s.core p).stopped }) s

/-- The context becomes inactive and its region is free (R436, step 6). -/
def State.takeOff (s : State) (x : Nat) : State :=
  let s := if (s.ctx x).tapeqsz.toNat = 0 then (s.invalidate (fun y _ _ => y == x)).1 else s
  let sv := s.savedOf x
  let cores := s.regionCores x
  let s := s.dropQueues x
  let s := { s with
    stackTab := s.stackTab.map (fun (e : Nat × Stack) => (e.1, s.clearStack x e.2)),
    tapes := s.tapes.filter (fun e => !(sv.engines.any (fun y => y.1 == e.1))),
    locks := s.locks.filter (fun e => !(decide (e.1 / 256 < 4096) && cores.contains (e.1 / 256))),
    gangs := s.gangs.filter (fun c => c.fire.ctx != x),
    saved := Table.put s.saved x sv }
  (s.clearCores x).modCtx x (fun c => { c with phase := .inactive, eps := [], owned := [], bridges := [] })

/-- The command of a CTXSAVE, where its own context holds it. -/
def State.saver (s : State) (id : Nat) : Option Cmd := s.cores.findSome? (fun e => e.2.cmd? id)

/-- The boot aperture opens whenever no context is active (R472). -/
def State.reopen (s : State) : State :=
  if s.mod.stage = 7 ∧ s.ctxs.all (fun e => !e.2.live) then s.modMod (fun m => { m with aperture := true }) else s

/-- A save ends: its command, where its context still has it, receives 0 or the fault that abandoned it. -/
def State.saveEnd (s : State) (ctx stack : Nat) (c : Option (Cmd × Fields)) : State :=
  match s.spend.writeArea ctx stack (Config.freeWord s.free), c with
  | (s, some e), some (c, f) => (s.modCtx ctx (fun y => { y with phase := .active })).failWith c f e.1 e.2.1 e.2.2 (accessDetail e.1 .write)
  | (s, some _), none => s.modCtx ctx (fun y => { y with phase := .active })
  | (s, none), some (c, f) => (s.takeOff ctx).answer c f [(false, c.scalar 0)]
  | (s, none), none => (s.takeOff ctx).reopen

/-- SAVE_WRITE (R436): once the context has drained, the save area is written and the context becomes inactive. An abandoned
save leaves the context active, with the fault at CTXSAVE's dest0. A save whose CTXSAVE went with its destroyed context ends
without a token; one whose CTXSAVE is itself saved waits. -/
def execSaveWrite (ctx : Nat) (s : State) : Host.Outcome State Fault Refusal :=
  .next (
    match (s.ctx ctx).phase with
    | .saving id =>
      if !s.drained ctx || s.savedCmd id then s
      else
        match s.saver id with
        | none => s.saveEnd ctx (s.homeStack ctx) none
        | some c => s.saveEnd ctx (coreStack c.fire.core) (c.fields.map (fun f => (c, f)))
    | _ => s)

/-! ## CTXLOAD (R440, R449) -/

/-- The region of a context meets another region: origin, width - 1, height - 1. -/
def Ctx.meets (c : Ctx) (x0 y0 wm1 hm1 : Nat) : Bool :=
  decide (x0 ≤ c.x0 + c.wm1) && decide (c.x0 ≤ x0 + wm1) && decide (y0 ≤ c.y0 + c.hm1) && decide (c.y0 ≤ y0 + hm1)

/-- A region that a context may have (R100, R164): even, inside the grid, meeting the region of no other active context. -/
def State.regionFree (s : State) (x x0 y0 wm1 hm1 : Nat) : Bool :=
  x0 % 2 == 0 && y0 % 2 == 0 && wm1 % 2 == 1 && hm1 % 2 == 1 && decide (x0 + wm1 < 64) && decide (y0 + hm1 < 64) &&
  s.ctxs.all (fun e => e.1 == x || !e.2.live || !e.2.meets x0 y0 wm1 hm1)

/-- The reserved bits of the CSR words of a save area's header are zero (R9, R437): CTXROOT, OBJBASE, TAPEBASE, TAPEQSZ, HOLDBASE,
BQBASE, MSPILL, QRBASE, DISP apart, and PSET. -/
def csrsOk (w : Nat → Nat) : Bool :=
  bitsAt (w 0) 0 12 == 0 && decide (w 0 < 2 ^ 40) && bitsAt (w 1) 6 6 == 0 && bitsAt (w 2) 0 21 == 0 && decide (w 3 < 2 ^ 32) &&
  bitsAt (w 4) 0 21 == 0 && bitsAt (w 5) 0 12 == 0 && bitsAt (w 6) 0 20 == 0 && bitsAt (w 7) 4 8 == 0 && decide (w 9 < 2 ^ 16)

/-- The header is well formed and valid, and of the context (R9, R437, R440). -/
def headerOk (x : Nat) (h : List Byte) : Bool :=
  cut h 0 8 == saveMagic && numAt h 8 2 == 1 && numAt h 10 2 == 0 && numAt h 12 2 == x && bitOf (numAt h 14 1) 0 &&
  decide (numAt h 14 1 < 4) && zeroAt h 15 1 && zeroAt h 19 1 && zeroAt h 28 4 && zeroAt h 152 104 &&
  decide (numAt h 40 8 < 64) && decide (numAt h 56 8 < 2 ^ 32) && csrsOk (fun i => numAt h (64 + 8 * i) 8)

/-- The sizes of the parts of a segment, with NTOK token records. -/
def segParts (ntok : Nat) : List (Nat × Nat) :=
  [(0x000000, 2 ^ 22), (0x400000, 262144), (0x440000, 131072), (0x460000, 131072), (0x480000, 131072), (0x4A0000, 4096),
   (0x4A1000, 2048), (0x4A1800, 80), (0x4A2000, 24576), (0x4B0000, 32 * ntok)]

/-- The bytes of parts, or what ends the read. -/
def State.readParts (s : State) (x stack base : Nat) : List (Nat × Nat) → Except AccessStop (List (List Byte))
  | [] => .ok []
  | p :: t =>
    match s.ctxRead x stack (base + p.1) p.2 with
    | .error e => .error e
    | .ok bs =>
      match s.readParts x stack base t with
      | .error e => .error e
      | .ok l => .ok (bs :: l)

/-- A frame with the slots and header of the store's bytes (R9, R39, R41, R438). -/
def Frame.restored (f : Frame) (slots tags : List Byte) : Option Frame :=
  f.loaded (fun i => BitVec.ofNat 64 (numAt slots (8 * (8 * f.base + i)) 8))
    (fun i => BitVec.ofNat 32 (numAt tags (4 * (8 * f.base + i)) 4))

/-- A table of n entries read from bytes of a size each, over the old entries. -/
def tableOf {α : Type} (n size : Nat) (bs : List Byte) (old : Nat → α) (f : α → List Byte → Option α) : Option (Table α) :=
  (allSome ((List.range n).map (fun i => f (old i) (cut bs (size * i) size)))).map (fun l => l.zipIdx.map (fun p => (p.2, p.1)))

/-- An accumulator with the elements of its bytes. -/
def Accum.restored (x : Accum) (bs : List Byte) : Accum :=
  { x with elems := (List.range 16384).map (fun n => (n, BitVec.ofNat 32 (numAt bs (4 * n) 4))) }

/-- The rows of generators of a drained core that count in BUSY of an entry: those that are parked or are to be made again. -/
def Core.heldRows (k : Core) (i : Nat) : Nat :=
  k.gens.countP (fun e => (field e.2.cap.value 46 6).toNat == i && (e.2.parked.isSome || e.2.again))

/-- A core with the parts of its segment (R438), its vault apart; none where a structure is malformed (R9). -/
def Core.restored (k : Core) (ps : List (List Byte)) : Option Core :=
  let part (n : Nat) : List Byte := ps[n]?.getD []
  let core := part 7
  let recs := allSome ((List.range ((part 9).length / 32)).map (fun i => TokRec.ofBytes (cut (part 9) (32 * i) 32)))
  match allSome (k.frames.map (fun f => f.restored (part 1) (part 2))), tableOf 4096 32 (part 3) k.tile Tile.ofBytes,
      tableOf 64 32 (part 6) k.cap Cap.ofBytes, tableOf 16 1536 (part 8) k.port Port.ofBytes, recs with
  | some fs, some ts, some cs, some qs, some rs =>
    if rs.length ≠ k.tokRecs.length ∨ !zeroAt core 12 4 then none
    else
      some ({ k with
        frames := fs, tiles := ts, caps := cs.map (fun (e : Nat × Cap) => (e.1, { e.2 with busy := e.2.busy - k.heldRows e.1 })), ports := qs,
        acc0 := k.acc0.restored (cut (part 4) 0 65536), acc1 := k.acc1.restored (cut (part 4) 65536 65536),
        unitGen := (List.range 4096).map (fun n => (n, BitVec.ofNat 8 (numAt (part 5) n 1))),
        lfsr := BitVec.ofNat 64 (numAt core 0 8),
        perf := (List.range 8).map (fun n => (n, BitVec.ofNat 64 (numAt core (16 + 8 * n) 8))) }.withRecs rs)
  | _, _, _, _, _ => none

/-- The cores of a save area, each with its vault: none for a malformed one. -/
def State.readCores (s : State) (x stack save : Nat) : List (Nat × Core) →
    Except AccessStop (Option (List (Nat × Core × List Byte)))
  | [] => .ok (some [])
  | (v, k) :: t =>
    match s.ctxRead x stack (segBase save v + 0x4A1808) 4 with
    | .error e => .error e
    | .ok n =>
      if 10240 < leNat n then .ok none
      else
        match s.readParts x stack (segBase save v) (segParts (leNat n)) with
        | .error e => .error e
        | .ok ps =>
          match k.restored ps, s.readCores x stack save t with
          | _, .error e => .error e
          | some k, .ok (some l) => .ok (some ((v, k, ps.headD []) :: l))
          | _, .ok _ => .ok none

/-- The context's fields as they stood at the save, with the CSRs of the header (R437, R441); its objects and its log are
those it has now. -/
def Saved.context (sv : Saved) (now : Ctx) (h : List Byte) (x0 y0 : Nat) : Ctx :=
  let w (n : Nat) : U64 := BitVec.ofNat 64 (numAt h n 8)
  let c := { sv.ctxRec with
    phase := .active, x0 := x0, y0 := y0, seed := w 32, fpstat := field (w 40) 0 6, stalecnt := w 48, flogRd := field (w 56) 0 32,
    redcnt := numAt h 144 8, objs := now.objs, objbusy := now.objbusy, flogWr := now.flogWr, flogLost := now.flogLost,
    quiet := false, bump := 0 }
  let c := ([0x010, 0x012, 0x014, 0x015, 0x016, 0x017, 0x018, 0x019].zipIdx).foldl (fun (c : Ctx) p =>
    c.csrSet p.1 (w (64 + 8 * p.2))) c
  { c with pset := field (w 136) 0 16 }

/-- Where a restored region lies, and the stack that takes what a stack held (R440): the one that holds the core that was
the lowest of the region in it. -/
def Saved.move (sv : Saved) (new : Ctx) : Move :=
  let old : Ctx := { Ctx.reset with x0 := sv.x0, y0 := sv.y0, wm1 := sv.wm1, hm1 := sv.hm1 }
  let core (p : Nat) : Nat := ((old.virt p).bind new.phys).getD p
  { core := core,
    stack := fun st =>
      match (old.cores st).head? with
      | some x => coreStack (core x.2)
      | none => st }

/-- The new slot of a resident queue (R440). -/
def Move.slot (m : Move) (n : Nat) : Nat := 16 * m.stack (n / 16) + n % 16

/-- New numbers for the shares at the stacks that take them: the lowest free ones. State.sharesFit says that there are. -/
def State.placeShares (s : State) (m : Move) : List (Nat × Share) → List (Nat × Nat) → State × List (Nat × Nat)
  | [], acc => (s, acc)
  | (n, x) :: t, acc =>
    let st := m.stack (n / 2 ^ 20)
    match Table.lowestFree (s.stack st).shares maxShares with
    | none => s.placeShares m t acc
    | some i =>
      (s.modStack st (fun k => { k with shares := Table.put k.shares i (x.move m) })).placeShares m t (acc ++ [(n, shareNo st i)])

/-- The distributors that take saved shares have room for them (R113; log 52). -/
def State.sharesFit (s : State) (m : Move) (l : List (Nat × Share)) : Bool :=
  (List.range 16).all (fun st =>
    decide ((s.stack st).shares.length + l.countP (fun e => m.stack (e.1 / 2 ^ 20) == st) ≤ maxShares))

/-- A partition joins that of its context on a stack, if there is one. -/
def State.joinPart (s : State) (stack : Nat) (p : Partition) : State :=
  let q := s.part stack p.ctx
  s.setPart stack { p with hold := q.hold ++ p.hold, edge := q.edge ++ p.edge, reqs := q.reqs ++ p.reqs }

/-- The distributors take back what the context had there (R440). -/
def State.restoreStacks (s : State) (sv : Saved) (m : Move) (shares : Nat → Nat) : State :=
  let s := sv.slots.foldl (fun (s : State) r =>
    match s.qdesc r.2.queue with
    | none => s
    | some d =>
      (s.makeResident r.2.queue (m.slot r.1) d).modSlot (m.slot r.1 / 16) (m.slot r.1 % 16) (fun x => { x with
        prio := r.2.prio, eff := r.2.eff, passed := r.2.passed })) s
  let s := sv.asks.foldl (fun (s : State) a => s.modStack (m.stack a.1) (fun k => { k with
    asks := k.asks ++ [(m.core a.2.1, a.2.2)] })) s
  let s := sv.binds.foldl (fun (s : State) b => s.modStack (m.stack b.1) (fun k => { k with
    binds := k.binds ++ [b.2.move m shares] })) s
  let s := sv.parts.foldl (fun s p => s.joinPart (m.stack p.1) (p.2.move m shares)) s
  let s := sv.cursors.foldl (fun (s : State) e => s.modStack (m.stack e.1) (fun k => { k with
    cursors := Table.put k.cursors sv.ctx e.2 })) s
  sv.calls.foldl (fun (s : State) c =>
    let g := c.2.move m
    s.modStack (coreStack g.core) (fun k =>
      k.setChan c.1 { k.chan c.1 with calls := (k.chan c.1).calls ++ [g] })) s

/-- The objects of a context that are quarantined. -/
def Ctx.quarantinedObjs (c : Ctx) : List U32 := (c.objs.filter ObjRec.quar).map ObjRec.obj

/-- The cores of a restored context take notice of the objects quarantined since the save: their frames have ABORT, and what is left
of them is treated as under R181 (R440). -/
def State.noticeAll (s : State) (x : Nat) : State :=
  (s.regionCores x).foldl (fun (s : State) core =>
    (s.ctx x).quarantinedObjs.foldl (fun (s : State) obj => s.notice core obj) s) s

/-- The cores take back their state and their vaults. -/
def State.restoreCores (s : State) (sv : Saved) (x : Nat) (m : Move) (shares : Nat → Nat)
    (l : List (Nat × Core × List Byte)) : State :=
  let c := s.ctx x
  let bad := c.quarantinedObjs
  l.foldl (fun (s : State) e =>
    match c.phys e.1 with
    | none => s
    | some p =>
      let k := e.2.1.move m shares
      (s.setCore p { k with quar := k.quar.filter bad.contains, stopped := (s.core p).stopped }).setVaultBytes p 0 e.2.2) { s with
        tapes := sv.engines.foldl (fun (t : Table TapeEngine) (e : Nat × TapeEngine) => Table.put t (m.quad e.1) e.2) s.tapes,
        locks := sv.locks.foldl (fun (t : Table Lock) (e : Nat × Lock) => Table.put t (m.core (e.1 / 256) * 256 + e.1 % 256) e.2) s.locks,
        gangs := s.gangs ++ sv.gangs.map (Cmd.move m) }

/-- The numbers of the commands of restored cores. -/
def cmdIds (l : List (Nat × Core × List Byte)) : List Nat := l.flatMap (fun e => e.2.1.cmds.map Cmd.id)

/-- The scope instance of a channel whose arrivals have moved (R364). -/
def State.rechannel (s : State) (x : ScopeChan) : ScopeChan :=
  match x.arrivals with
  | [] => x
  | a :: _ =>
    match (s.core a.1).cmd? a.2.1 with
    | none => x
    | some c =>
      match c.fields with
      | none => x
      | some f =>
        match s.instanceOf c f x.coll with
        | some (i, n) => { x with inst := i, ctx := n }
        | none => x

/-- What is known by physical number outside the region: tasks, arrivals in the scope network, lock queues, the pushers of
waiting records. -/
def State.restoreRest (s : State) (x : Nat) (m : Move) (ids : List Nat) : State :=
  let s := { s with
    tasks := s.tasks.map (fun (t : Nat × Task) => if t.2.ctx = x then (t.1, t.2.move m) else t),
    locks := s.locks.map (fun (e : Nat × Lock) => (e.1, e.2.move m ids)),
    pushers := s.pushers.map (fun (e : Nat × Nat) =>
      if ((s.qdesc (e.1 / 65536)).map QDesc.ctx) == some x then (e.1, m.core e.2) else e),
    chans := s.chans.map (fun (h : ScopeChan) => { h with
      arrivals := h.arrivals.map (fun (a : Nat × Nat × Nat × List Byte) => if ids.contains a.2.1 then (m.core a.1, a.2) else a) }) }
  { s with chans := s.chans.map (fun h => if h.arrivals.any (fun a => ids.contains a.2.1) then s.rechannel h else h) }

/-- What has completed in the scope network since the save is emitted now (R436). -/
def State.restoreEnds (s : State) (ends : List (Nat × Option (List Nat × BitVec 6))) : State :=
  ends.foldl (fun s e =>
    match s.saver e.1 with
    | none => s
    | some c =>
      match c.fields with
      | none => s
      | some f =>
        let s := match e.2, s.collView c with
          | some (row, fl), some v => (s.setViewRow v 0 row).setFlags c.fire.ctx fl
          | _, _ => s
        s.answer c f (both (c.pass c.fire.l))) s

/-- A context is restored (R440). -/
def State.putBack (s : State) (sv : Saved) (x : Nat) (new : Ctx) (l : List (Nat × Core × List Byte)) : State :=
  let m := sv.move new
  let s := { (s.setCtx x new) with saved := Table.del s.saved x }
  let p := s.placeShares m sv.shares []
  let shares (n : Nat) : Nat := ((p.2.find? (fun y => y.1 == n)).map Prod.snd).getD n
  let s := (p.1.restoreStacks sv m shares).restoreCores sv x m shares l
  let s := ((s.restoreRest x m (cmdIds l)).restoreEnds sv.ends).noticeAll x
  let s := s.ctxPut 0 (s.mod.ctxtab.toNat + 128 * x + 4) (natLe 4 new.regionWord)
  s.ctxPut x (new.save.toNat + 14) [3]

/-- What the checks of R440 make of a save area: a fault with its details (R427), or what is restored. -/
inductive LoadCheck where
  | bad (e : AccessStop)
  | ok (sv : Saved) (new : Ctx) (cores : List (Nat × Core × List Byte))

/-- The checks of R440, in their order; r is R of CTXLOAD. A read that does not translate ends with its class. -/
def State.loadCheck (s : State) (x stack : Nat) (r : U64) : LoadCheck :=
  let now := s.ctx x
  let sv := Table.find s.saved x
  let save := ((sv.map Saved.ctxRec).getD now).save.toNat
  match s.ctxRead x stack save 256 with
  | .error e => .bad e
  | .ok h =>
    if !headerOk x h then .bad (.saveMalformed, 0, 0)
    else
      match sv with
      | none => if bitOf (numAt h 14 1) 1 ∨ now.phase ≠ .inactive then .bad (.ctxState, 0, 0) else .bad (.saveMalformed, 0, 0)
      | some sv =>
        let reg := numAt h 16 4
        if bitsAt reg 12 6 ≠ sv.wm1 ∨ bitsAt reg 18 6 ≠ sv.hm1 then .bad (.saveMalformed, 0, 0)
        else
          match s.readCores x stack save sv.cores with
          | .error e => .bad e
          | .ok none => .bad (.saveMalformed, 0, 0)
          | .ok (some l) =>
            let x0 := if bitAt r 12 then bitsAt reg 0 6 else (field r 0 6).toNat
            let y0 := if bitAt r 12 then bitsAt reg 6 6 else (field r 6 6).toNat
            let new := sv.context now h x0 y0
            let slots := sv.slots.map (fun e => (sv.move new).slot e.1)
            if bitOf (numAt h 14 1) 1 ∨ now.phase ≠ .inactive then .bad (.ctxState, 0, 0)
            else if !s.regionFree x x0 y0 sv.wm1 sv.hm1 then .bad (.ctxState, 0, 0)
            else if slots.eraseDups ≠ slots ∨ slots.any (fun n => (Table.find (s.stack (n / 16)).slots (n % 16)).isSome) then
              .bad (.ctxState, 0, 0)
            else if !s.sharesFit (sv.move new) sv.shares then .bad (.ctxState, 0, 0)
            else .ok sv new l

/-- CTXLOAD (R440, R449). -/
def execCtxload (f : Fields) (s : State) : Host.Outcome State Fault Refusal :=
  .next (s.supervised .scalars f (fun s g l r _ =>
    let x := (field l.value 0 12).toNat
    let o := (theVal r).value
    if 2 ^ 13 ≤ o.toNat ∨ (bitAt o 12 ∧ field o 0 12 ≠ 0) then s.fault g f .operandRange 0
    else
      match s.loadCheck x (coreStack g.core) o with
      | .bad e => s.raise g f.d0 (g.fault e.1 e.2.1 e.2.2 (accessDetail e.1 .read)) false
      | .ok sv new l => (s.putBack sv x new l).sysEmit g f 0))

end Sys2Proof.Machine
end

