-- ==== Sys2Proof/Machine/Module.lean ====
section
/-! DEFINITION. The module in its system (R464 to R492): the control page, activation and destruction of contexts, the boot aperture, windows, keys and measurements, the link policy, boot, reset and power. -/

namespace Sys2Proof.Machine

/-! ## The control page (R470) -/

/-- The host reaches the control page: the PCI Express links are up and the device is ready (R487). -/
def State.hostUp (s : State) : Bool := decide (s.mod.stage = 7)

/-- A list with bytes written at an offset, grown with zeros. -/
def splice (l : List Byte) (off : Nat) (bs : List Byte) : List Byte :=
  let l := l ++ List.replicate (off + bs.length - l.length) 0
  l.take off ++ bs ++ l.drop (off + bs.length)

/-- A word of a GROUPS entry (R478): its first or second 8 bytes. -/
def Group.word (x : Group) (second : Bool) : U64 :=
  if second then x.n ++ x.gid
  else
    BitVec.ofNat 64 (x.ctx % 4096 + (if x.valid then 2 ^ 12 else 0) + (if x.sys then 2 ^ 13 else 0) +
      (if x.coll then 2 ^ 14 else 0) + x.chan % 16 * 2 ^ 16)

/-- A GROUPS entry with a word written; reserved bits are ignored (R9). -/
def Group.setWord (x : Group) (second : Bool) (v : U64) : Group :=
  if second then { x with n := field v 32 32, gid := field v 0 32 }
  else
    { x with
      ctx := (field v 0 12).toNat, valid := bitAt v 12, sys := bitAt v 13, coll := bitAt v 14,
      chan := (field v 16 4).toNat }

/-- A window entry as 16 bytes (R474). -/
def Window.word (w : Window) : U128 :=
  w.base ++ w.pages ++ w.rid ++ (0 : BitVec 29) ++ bit1 w.w ++ bit1 w.r ++ bit1 w.v

/-- A window entry of its 16 bytes; reserved bits are ignored (R9). -/
def Window.of (v : U128) : Window :=
  { base := v.extractLsb' 76 52, pages := v.extractLsb' 48 28, rid := v.extractLsb' 32 16, w := v.getLsbD 2,
    r := v.getLsbD 1, v := v.getLsbD 0 }

/-- DEVSTAT (R470). -/
def State.devstat (s : State) : U64 :=
  Config.sku ++ Config.cores ++ (0 : BitVec 12) ++ BitVec.ofNat 3 s.mod.stage ++ bit1 s.hostUp

/-- CTXCMD (R470). -/
def Module.ctxcmd (m : Module) : U64 :=
  bit1 m.cmdBusy ++ m.cmdRes ++ (0 : BitVec 40) ++ m.cmdOp ++ (0 : BitVec 4) ++ m.cmdCtx

/-- The 16 keys of SIGNERS as bytes (R470); an empty one is all zero. -/
def Module.signerBytes (m : Module) : List Byte :=
  (List.range 16).flatMap (fun i => Table.look (List.replicate 32 0) m.signers i)

/-- The bytes of MBOX (R489). -/
def Module.mboxBytes (m : Module) : List Byte :=
  splice (splice (natLe 8 m.mboxCmd.toNat ++ natLe 8 m.mboxStat.toNat) 16 (m.mboxNonce.take 32)) 64 m.mboxResp

/-- What the host reads at an offset of the control page (R470): 64 bits. -/
def State.pageRead (s : State) (off : Nat) : U64 :=
  let m := s.mod
  let word (l : List Byte) (at_ : Nat) : U64 := BitVec.ofNat 64 (numAt l at_ 8)
  if off % 8 ≠ 0 then 0
  else if off = 0x0000 then s.devstat
  else if off = 0x0008 then m.ctxtab
  else if off = 0x0010 then m.qtab
  else if off = 0x0018 then m.ctxcmd
  else if off = 0x0020 then m.podcfg.setWidth 64
  else if off = 0x0028 then (0 : BitVec 24) ++ m.root0 ++ (0 : BitVec 12)
  else if 0x0040 ≤ off ∧ off < 0x0060 then word (m.ownerkey.getD []) (off - 0x0040)
  else if 0x0100 ≤ off ∧ off < 0x0300 then word m.signerBytes (off - 0x0100)
  else if 0x1000 ≤ off ∧ off < 0x2000 then
    (((s.window ((off - 0x1000) / 16)).word).extractLsb' (off % 16 * 8) 64)
  else if 0x2000 ≤ off ∧ off < 0x2200 then (Table.look (0 : BitVec 13) m.funcmap ((off - 0x2000) / 8)).setWidth 64
  else if 0x2200 ≤ off ∧ off < 0x2600 then
    (Table.look Group.reset m.groups ((off - 0x2200) / 16)).word (decide (off % 16 = 8))
  else if 0x3000 ≤ off ∧ off < 0x4000 then word m.mboxBytes (off - 0x3000)
  else 0

/-- A write into MBOX (R489): a command of the list sets the status to busy. -/
def Module.mboxWrite (m : Module) (off : Nat) (v : U64) : Module :=
  if off = 0 then { m with mboxCmd := v, mboxStat := if v = 1 ∨ v = 2 then 1 else m.mboxStat }
  else if off = 8 then { m with mboxStat := v }
  else if off < 48 then { m with mboxNonce := splice m.mboxNonce (off - 16) (natLe 8 v.toNat) }
  else if 64 ≤ off then { m with mboxResp := splice m.mboxResp (off - 64) (natLe 8 v.toNat) }
  else m

/-- A write of a register of the control page that has no row of its own, with the access of its map (R8, R470). -/
def State.pageWrite (s : State) (off : Nat) (v : U64) : State :=
  let m := s.mod
  if off % 8 ≠ 0 then s
  else if off = 0x0008 then s.modMod (fun m => { m with ctxtab := v &&& 0x0000_FFFF_FFFF_F000 })
  else if off = 0x0010 then s.modMod (fun m => { m with qtab := v &&& 0x0000_FFFF_FFFF_F000 })
  else if off = 0x0018 then
    if m.cmdBusy then s
    else
      s.modMod (fun m => { m with
        cmdOp := field v 16 4, cmdCtx := field v 0 12, cmdBusy := field v 16 4 == 1 || field v 16 4 == 2 })
  else if off = 0x0020 then s.modMod (fun m => { m with podcfg := field v 0 11 })
  else if off = 0x0028 then
    if s.ctxs.any (fun e => e.2.live) then s else s.modMod (fun m => { m with root0 := field v 12 28 })
  else if 0x2000 ≤ off ∧ off < 0x2200 then
    s.modMod (fun m => { m with funcmap := Table.put m.funcmap ((off - 0x2000) / 8) (field v 0 13) })
  else if 0x2200 ≤ off ∧ off < 0x2600 then
    let i := (off - 0x2200) / 16
    s.modMod (fun m => { m with
      groups := Table.put m.groups i ((Table.look Group.reset m.groups i).setWord (decide (off % 16 = 8)) v) })
  else if 0x3000 ≤ off ∧ off < 0x4000 then s.modMod (fun m => m.mboxWrite (off - 0x3000) v)
  else s

/-- REGISTER_WRITE (R8, R470): the host writes a register of the control page that has no row of its own. -/
def execRegisterWrite (offset : Nat) (value : U64) (s : State) : Host.Outcome State Fault Refusal :=
  .next (if s.hostUp then s.pageWrite offset value else s)

/-! ## Activation (R99, R100, R164, R321, R471, R472) -/

/-- RESULT of CTXCMD (R470). -/
def State.ctxcmdEnd (s : State) (r : BitVec 3) : State := s.modMod (fun m => { m with cmdBusy := false, cmdRes := r })

/-- A context with the fields of its descriptor (R99). -/
def Ctx.ofDescriptor (c : Ctx) (d : List Byte) : Ctx :=
  let reg := numAt d 4 4
  let hip := numAt d 36 4
  { c with
    cls := bitsAt (numAt d 2 1) 0 2, sup := bitOf (numAt d 2 1) 2, x0 := bitsAt reg 0 6, y0 := bitsAt reg 6 6,
    wm1 := bitsAt reg 12 6, hm1 := bitsAt reg 18 6, fba := BitVec.ofNat 64 (numAt d 8 8),
    flog := BitVec.ofNat 64 (numAt d 16 8), flogn := numAt d 24 4, fbasz := BitVec.ofNat 32 (numAt d 28 4),
    hfp := BitVec.ofNat 32 (numAt d 32 4), hip := BitVec.ofNat 20 (bitsAt hip 0 20), hport := bitOf hip 20,
    save := BitVec.ofNat 64 (numAt d 40 8), hcw := BitVec.ofNat 64 (numAt d 48 8), hcwlen := BitVec.ofNat 32 (numAt d 56 4) }

/-- A context descriptor is malformed (R9, R99); context 0 has SUP = 1 (R472). -/
def descriptorBad (x : Nat) (d : List Byte) : Bool :=
  let flogn := numAt d 24 4
  numAt d 0 2 != x || decide (8 ≤ numAt d 2 1) || numAt d 3 1 != 0 || decide (2 ^ 24 ≤ numAt d 4 4) ||
  !(List.range 11).any (fun n => flogn == 64 * 2 ^ n) ||
  (numAt d 8 8 != 0 && (numAt d 28 4 % 4096 != 0 || decide (numAt d 28 4 < 458752))) ||
  decide (2 ^ 21 ≤ numAt d 36 4) || numAt d 56 4 % 8 != 0 || !zeroAt d 60 68 || (x == 0 && !bitOf (numAt d 2 1) 2)

/-- A core of a region before the context's first binding (R92, R321, R471): a vault of zeros, an empty frame store, capability table
and tile table; it stays stopped where it was (R453). -/
def Core.fresh (x : Nat) (vcore : Nat) (seed : U64) (stopped : Bool) : Core :=
  { Core.reset with
    ctx := some x, vcore := BitVec.ofNat 12 vcore, stopped := stopped, lfsr := lfsrSeed seed (BitVec.ofNat 12 vcore) }

/-- A context becomes active on its region (R44, R92, R471; FPSTAT too is 0 in a context that is newly created, log 109). -/
def State.activate (s : State) (x : Nat) (c : Ctx) : State :=
  let c := { c with phase := .active, quiet := false, redcnt := 0, bridges := [], stalecnt := 0, fpstat := 0 }
  let s := s.setCtx x c
  let cores := c.region.map Prod.snd
  let s := c.region.foldl (fun s p => s.setCore p.2 (Core.fresh x p.1 c.seed (s.core p.2).stopped)) s
  let s := { s with vault := s.vault.filter (fun e => !cores.contains (e.1 / 2 ^ 22)) }
  if x = 0 then s else s.modMod (fun m => { m with aperture := false })

/-- CTX_ACTIVATE (R100, R164, R471, R472): the descriptor is read once, through context 0's CTXROOT, and judged. -/
def execCtxActivate (ctx : Nat) (s : State) : Host.Outcome State Fault Refusal :=
  .next (
    if !s.mod.cmdBusy || s.mod.cmdOp != 1 || s.mod.cmdCtx.toNat != ctx then s
    else if (s.ctx ctx).live then s.ctxcmdEnd 1
    else
      let s := if ctx = 0 then s.modCtx 0 (fun c => { c with ctxroot := s.mod.root0 }) else s
      match s.ctxRead 0 0 (s.mod.ctxtab.toNat + 128 * ctx) 128 with
      | .error _ => s.ctxcmdEnd 2
      | .ok d =>
        let c := (s.ctx ctx).ofDescriptor d
        if descriptorBad ctx d then s.ctxcmdEnd 2
        else if c.x0 % 2 = 1 ∨ c.y0 % 2 = 1 ∨ c.wm1 % 2 = 0 ∨ c.hm1 % 2 = 0 then s.ctxcmdEnd 1
        else if !s.regionFree ctx c.x0 c.y0 c.wm1 c.hm1 then s.ctxcmdEnd 3
        else (s.activate ctx c).ctxcmdEnd 0)

/-! ## Destruction (R469, R471) -/

/-- Steps 1 and 2 of DESTROY (R471): nothing more is selected, bound or replayed, completions that wait are discarded, and every
frame has ABORT. -/
def State.startDestroy (s : State) (x : Nat) : State :=
  let quads := ((s.regionCores x).map quadOf).eraseDups
  let mark (f : Frame) : Frame := { f with abort := true }
  let s := { s with
    stackTab := s.stackTab.map (fun (e : Nat × Stack) => (e.1, { e.2 with
      asks := e.2.asks.filter (fun a => !s.taskOf x a.2), binds := e.2.binds.filter (fun b => !s.taskOf x b.task),
      shares := e.2.shares.filter (fun h => !s.taskOf x h.2.task), parts := e.2.parts.filter (fun p => p.ctx != x) })),
    tapes := s.tapes.map (fun (e : Nat × TapeEngine) =>
      if quads.contains e.1 then (e.1, { e.2 with record := none, replays := [], waiting := [], freed := [] }) else e),
    tasks := s.tasks.filter (fun t => t.2.ctx != x) }
  let s := (s.regionCores x).foldl (fun (s : State) core => s.modCore core (fun k => { k with
    frames := k.frames.map mark, spillDir := k.spillDir.map (fun (e : Spilled) => { e with frame := mark e.frame }),
    allocs := [] })) s
  s.modCtx x (fun c => { c with phase := .destroying })

/-- Every frame of a context has been freed. -/
def State.frameless (s : State) (x : Nat) : Bool :=
  (s.regionCores x).all (fun core => (s.core core).frames.isEmpty && (s.core core).spillDir.isEmpty)

/-- Step 4 of DESTROY: a record for every RED that is parked, or waits behind one that is (R371). -/
def State.resolveReds (s : State) (x : Nat) : State :=
  ((s.regionCores x).flatMap (fun core => (s.core core).cmds)).foldl (fun s c =>
    match c.instr with
    | .red f => s.redResolved c f
    | _ => s) s

/-- What names commands of a context outside its region: arrivals in the scope network, locks held and lock queues, gangs. -/
def State.dropOutside (s : State) (x : Nat) : State :=
  let cores := s.regionCores x
  let ids := cores.flatMap (fun core => (s.core core).cmds.map Cmd.id)
  let own (e : Nat × Lock) : Bool := decide (e.1 / 256 < 4096) && cores.contains (e.1 / 256)
  { s with
    chans := (s.chans.map (fun (h : ScopeChan) => { h with arrivals := h.arrivals.filter (fun a => !ids.contains a.2.1) })).filter
      (fun h => !h.arrivals.isEmpty),
    locks := (s.locks.filter (fun e => !own e)).map (fun (e : Nat × Lock) => (e.1, { e.2 with
      held := if e.2.held = some x then none else e.2.held, waiters := e.2.waiters.filter (fun w => !ids.contains w.2) })),
    gangs := s.gangs.filter (fun c => c.fire.ctx != x),
    pushers := s.pushers.filter (fun e => ((s.qdesc (e.1 / 65536)).map QDesc.ctx) != some x) }

/-- Step 5 of DESTROY: the state of R469 is zeroed, the queues leave their slots, the descriptor is inactive and the
region free. -/
def State.endDestroy (s : State) (x : Nat) : State :=
  let cores := s.regionCores x
  let quads := (cores.map quadOf).eraseDups
  let s := ((s.resolveReds x).dropOutside x).dropQueues x
  let s := { s with
    stackTab := s.stackTab.map (fun (e : Nat × Stack) => (e.1, s.clearStack x e.2)),
    tapes := s.tapes.filter (fun e => !quads.contains e.1),
    vault := s.vault.filter (fun e => !cores.contains (e.1 / 2 ^ 22)) }
  ((s.clearCores x).modCtx x (fun c => { c with
    phase := .inactive, eps := [], owned := [], bridges := [], redcnt := 0, quiet := false })).reopen

/-- CTX_DESTROY (R471): its first step refuses or begins the destruction; its last one ends it, once every frame is freed and every
access performed or parked. -/
def execCtxDestroy (ctx : Nat) (s : State) : Host.Outcome State Fault Refusal :=
  .next (
    if !s.mod.cmdBusy || s.mod.cmdOp != 2 || s.mod.cmdCtx.toNat != ctx then s
    else
      match (s.ctx ctx).phase with
      | .active => s.startDestroy ctx
      | .destroying =>
        if s.frameless ctx && s.drained ctx then (s.endDestroy ctx).ctxcmdEnd 0 else s
      | _ => s.ctxcmdEnd 1)

/-! ## The boot aperture and the windows (R472, R474) -/

/-- APERTURE_ACCESS (R472): a write with data, or a read of len bytes, of the first 64 MiB of HBM stack 0. -/
def execApertureAccess (offset len : Nat) (data : Option (List Byte)) (s : State) : Host.Outcome State Fault Refusal :=
  .next (
    match data with
    | some bs =>
      if s.mod.aperture ∧ offset < 2 ^ 26 then s.hbmWrite offset (bs.take (2 ^ 26 - offset)) none else s
    | none =>
      let n := min len (2 ^ 26)
      let got :=
        if s.mod.aperture then
          let m := min n (2 ^ 26 - offset)
          s.hbm.readBytes offset m ++ List.replicate (n - m) 0
        else List.replicate n 0
      s.modMod (fun m => { m with hostRead := got }))

/-- A transfer of a command in flight goes through a window (R474): a copy's endpoint, or an update on its way to an endpoint. -/
def State.throughWindow (s : State) (i : Nat) (c : Cmd) : Bool :=
  let at_ (ctx ep : Nat) : Bool := ((s.ctx ctx).ep ep).kind == 1 && ((s.ctx ctx).ep ep).win == i
  c.parked.isNone &&
  (match s.memSide c with
   | some m =>
     (match m.side with
      | .ep ctx ep _ => at_ ctx ep
      | .cap _ _ => false)
   | none =>
     let t := (syncTarget c.instr c.fire).2
     c.engine == .sync && c.phase == .owner && t.kind == .scalar && at_ c.fire.ctx (t.value.toNat % 256))

/-- WINDOW_WRITE (R474): the entry is written once no transfer in flight goes through it. -/
def execWindowWrite (index : Nat) (value : U128) (s : State) : Host.Outcome State Fault Refusal :=
  .next (
    if !s.hostUp || decide (256 ≤ index) || s.cores.any (fun e => e.2.cmds.any (s.throughWindow index)) then s
    else s.modMod (fun m => { m with windows := Table.put m.windows index (Window.of value) }))

/-! ## Keys, measurements and the link policy (R470, R488 to R491) -/

/-- OWNERKEY_WRITE (R470, R489): once after each module reset; type 3 of the measurement log. -/
def execOwnerkeyWrite (key : List Byte) (s : State) : Host.Outcome State Fault Refusal :=
  .next (
    if !s.hostUp || s.mod.ownerkey.isSome || key.length != 32 then s
    else (s.modMod (fun m => { m with ownerkey := some key })).measure 3 (sha512 key))

/-- SIGNERS_WRITE (R470, R489, R490): an all-zero key empties its place; type 4 of the measurement log, over the 16 keys as they
now are. -/
def execSignersWrite (index : Nat) (key : List Byte) (s : State) : Host.Outcome State Fault Refusal :=
  .next (
    if !s.hostUp || decide (16 ≤ index) || key.length != 32 then s
    else
      let s := s.modMod (fun m => { m with
        signers := if key.all (fun b => b == 0) then Table.del m.signers index else Table.put m.signers index key })
      s.measure 4 (sha512 s.mod.signerBytes))

/-- Bytes 0 to 111 of a quote (R489). -/
def State.quoteBody (s : State) : List Byte :=
  (s.mod.mboxNonce ++ List.replicate 32 0).take 32 ++ s.mod.digest ++
  natLe 4 (s.mod.mlog.length + (if s.mod.mlogFull then 2 ^ 31 else 0)) ++ natLe 8 (s.stack 0).timeReg.toNat ++ natLe 4 0

/-- MBOX_QUOTE (R488, R489): the certificate chain and the quote. -/
def execMboxQuote (s : State) : Host.Outcome State Fault Refusal :=
  .next (
    if s.mod.mboxCmd != 1 || s.mod.mboxStat != 1 then s
    else
      let q := s.quoteBody
      s.modMod (fun m => { m with
        mboxResp := Config.certChain ++ q ++ edSign Config.identitySeed (sha512 q), mboxStat := 2 }))

/-- MBOX_LOG (R489): the entries of the measurement log, first to last. -/
def execMboxLog (s : State) : Host.Outcome State Fault Refusal :=
  .next (
    if s.mod.mboxCmd != 2 || s.mod.mboxStat != 1 then s
    else s.modMod (fun m => { m with mboxResp := m.mlog.flatten, mboxStat := 2 }))

/-- A link policy that the module accepts (R491). -/
def State.policyOk (s : State) (p : List Byte) : Bool :=
  match s.mod.ownerkey with
  | none => false
  | some key =>
    p.length == 80 && zeroAt p 10 6 && decide (numAt p 8 2 < 2 ^ 11) &&
    (match s.mod.policySeq with
     | none => true
     | some n => decide (n.toNat < numAt p 0 8)) &&
    edVerify key (sha512 (p.take 16 ++ edPublic Config.identitySeed)) (p.drop 16)

/-- The storage transfers that drain through the gate of the storage link when it closes (R491): none while it is open. -/
def State.diskDrain (s : State) (gates : BitVec 16) : List Nat :=
  if bitAt gates 9 then []
  else if bitAt s.mod.gates 9 then s.cores.flatMap (fun e => (e.2.cmds.filter s.awaitsDisk).map Cmd.id)
  else s.mod.draining

/-- LINK_POLICY (R491): an accepted policy opens and closes the gates of the external links; storage transfers in flight drain
through theirs. Type 6 of the measurement log. -/
def execLinkPolicy (policy : List Byte) (s : State) : Host.Outcome State Fault Refusal :=
  .next (
    let gates := BitVec.ofNat 16 (numAt policy 8 2)
    if !s.hostUp || !s.policyOk policy then s
    else
      (s.modMod (fun m => { m with
        gates := gates, draining := s.diskDrain gates, policySeq := some (BitVec.ofNat 64 (numAt policy 0 8)) })).measure 6
        (sha512 policy))

/-! ## Boot, reset and power (R487, R492) -/

/-- The links are trained and the time tree locks (stage 4 of R487). -/
def State.timeUp (s : State) : Bool :=
  (List.range 32).all (fun l => [0, 1].all (fun d => (s.link l d).state == 2)) && (List.range 16).all (fun n => (s.stack n).locked)

/-- BOOT_STAGE (R487): the stage in progress is passed, or fails and stops the sequence. The images of stages 1 and 2 are measured
(R489); stage 4 is passed when links and time are up; READY opens the aperture (R472). -/
def execBootStage (ok : Bool) (s : State) : Host.Outcome State Fault Refusal :=
  .next (
    let n := s.mod.stage
    let next (s : State) : State := s.modMod (fun m => { m with stage := n + 1, aperture := n == 6 })
    if s.mod.halted || decide (7 ≤ n) then s
    else if !ok then s.modMod (fun m => { m with halted := true })
    else
      match n with
      | 1 => next (s.measure 1 (Config.flashDigest 1))
      | 2 => next (s.measure 2 (Config.flashDigest 2))
      | 4 => if s.timeUp then next s else s
      | _ => next s)

/-- MODULE_RESET (R487, R488): every register, table and queue takes its reset value, and local HBM and vaults are as after power-on;
what stands outside the module, and the repair list in its flash (R429), stay. -/
def execModuleReset (s : State) : Host.Outcome State Fault Refusal :=
  .next { State.reset with
    clock := s.clock, free := s.free, ids := s.ids, hbm := s.hbm.filter (fun e => decide (2 ^ 60 ≤ e.1)), host := s.host,
    storage := s.storage, mod := { Module.reset with repair := s.mod.repair, msix := s.mod.msix, hostRead := s.mod.hostRead } }

/-- THERMAL_TRIP (R492): at 115 °C the module asks the board for power-off. -/
def execThermalTrip (s : State) : Host.Outcome State Fault Refusal :=
  .next (s.modMod (fun m => { m with offReq := true }))

/-- BOARD_POWER_OFF (R492): the board removes the power that it was asked to remove. -/
def execBoardPowerOff (s : State) : Host.Outcome State Fault Refusal :=
  .next (if s.mod.offReq then s.modMod (fun m => { m with powered := false }) else s)

/-- FREE_SLOT_REPORT (R168): a core tells the chooser of its stack how many frame-store slots are free. -/
def execFreeSlotReport (core : Nat) (s : State) : Host.Outcome State Fault Refusal :=
  .next (
    if core < 4096 then
      s.modStack (coreStack core) (fun k => { k with reports := Table.put k.reports core (s.core core).freeSlots })
    else s)

end Sys2Proof.Machine
end

