-- ==== Sys2Proof/Machine/Agents.lean ====
section
/-! DEFINITION. What happens besides the execution of operators: every event of the machine and its surroundings, with arguments that the spec leaves open, and the passing of time. -/

namespace Sys2Proof.Machine

/-- An integer of a free number. -/
def freeInt (n : Nat) : Int := if n % 2 = 0 then n / 2 else -((n / 2 : Nat) : Int) - 1

/-- A memory of a free number. -/
def freeMemory (n : Nat) : MemKind :=
  match n % 6 with
  | 0 => .hbm
  | 1 => .secondTier
  | 2 => .vault
  | 3 => .frameStore
  | 4 => .tapeStore
  | _ => .instrStore

/-- A memory error of free numbers (R429). -/
def freeError (x : Nat → Nat) : MemError :=
  { kind := freeMemory (x 1), stack := x 2 % 16, addr := x 3, lasting := x 4 % 2 == 1, core := x 5,
    cmd := if x 6 % 2 = 1 then some (x 7) else none, fp := BitVec.ofNat 32 (x 8) }

/-- The status of an NVMe command of a free number (R479). -/
def freeStatus (n : Nat) : NvmeStatus :=
  match n % 3 with
  | 0 => .success
  | 1 => .lbaOutOfRange
  | _ => .otherError

/-- The step of an agent by its number, part 1: every event with free arguments. -/
def State.agent0 (s : State) (x : Nat → Nat) : Nat → Host.Outcome State Fault Refusal
  | 0 => execClockChangeRequest (x 1) (x 2) s
  | 1 => execClockSettled (x 1) s
  | 2 => execClampAct (x 1) (x 2) (x 3 % 2 == 1) s
  | 3 => execClampRelease (x 1) s
  | 4 => execThermalTrip s
  | 5 => execTokenServe (x 1) (x 2) s
  | 6 => execFrameSpill (x 1) s
  | 7 => execFrameFill (x 1) (BitVec.ofNat 32 (x 2)) s
  | 8 => execDeferredFree (x 1) (BitVec.ofNat 32 (x 2)) s
  | 9 => execReleaseMessage (x 1) (x 2) s
  | 10 => execTileSpaceReturn (x 1) (x 2) s
  | 11 => execHostPush (x 1) (x 2) (x 3) (natLe (x 4) (x 5)) s
  | 12 => execDistributorSelect (x 1) s
  | 13 => execPriorityAging (x 1) (x 2) s
  | 14 => execBind (x 1) s
  | 15 => execAskForWork (x 1) (x 2) s
  | 16 => execAskServe (x 1) s
  | 17 => execPartReport (x 1) (x 2) s
  | 18 => execRangeTaskComplete (x 1) s
  | 19 => execPushPortRelease (x 1) (x 2) s
  | 20 => execReplayCursorGrant (x 1) s
  | 21 => execGuardSnapshot (x 1) s
  | 22 => execReplayIssue (x 1) (x 2) s
  | 23 => execProbeStart (x 1) (x 2) s
  | 24 => execReplayComplete (x 1) (x 2) s
  | 25 => execReplayFault (x 1) (x 2) s
  | 26 => execInstallStart (x 1) (BitVec.ofNat 32 (x 2)) (x 3) s
  | 27 => execInstallComplete (x 1) (BitVec.ofNat 32 (x 2)) (x 3) s
  | 28 => execQuarantineNotice (x 1) s
  | 29 => execAbortFree (x 1) (BitVec.ofNat 32 (x 2)) s
  | 30 => execSwitchAccept (x 1) (x 2) s
  | 31 => execSwitchDrain (x 1) (x 2) s
  | 32 => execBridgeProduce (x 1) (x 2) s
  | 33 => execBridgeConsume (x 1) (x 2) s
  | 34 => execObjLoad (x 1) s
  | 35 => execObjUnload (x 1) s
  | 36 => execLightDispatch (x 1) s
  | 37 => execEngineDispatch (x 1) s
  | 38 => execDispatchTurn (x 1) (x 2 % 2 == 1) s
  | _ => execQuiesced (x 1) s

/-- The step of an agent by its number, part 2: every event with free arguments. -/
def State.agent1 (s : State) (x : Nat → Nat) : Nat → Host.Outcome State Fault Refusal
  | 0 => execDividerEmit (x 1) s
  | 1 => execPageSetBump (x 1) s
  | 2 => execBumpDone (x 1) s
  | 3 => execTranslationWindowFill (x 1) (x 2) (x 3) (BitVec.ofNat 64 (x 4)) s
  | 4 => execReplicaPropagate (x 1) s
  | 5 => execPublishSwap (x 1) (x 2) s
  | 6 => execAgRow (x 1) (x 2) s
  | 7 => execTnewGrant (x 1) s
  | 8 => execSplitPhaseComplete (x 1) (x 2) s
  | 9 => execCopyComplete (x 1) (x 2) s
  | 10 => execVectorCommandStart (x 1) s
  | 11 => execVectorComplete (x 1) s
  | 12 => execReductionRelease (x 1) (BitVec.ofNat 32 (x 2)) (BitVec.ofNat 20 (x 3)) s
  | 13 => execMatrixItemStart (x 1) (x 2) s
  | 14 => execRowFiring (x 1) (x 2) s
  | 15 => execMatrixItemFinish (x 1) (x 2) s
  | 16 => execMarkerItem (x 1) (x 2) s
  | 17 => execBindingRelease (x 1) s
  | 18 => execGangGrant (x 1) (x 2) s
  | 19 => execTbWaiterRelease (x 1) s
  | 20 => execTbwaitRetry (x 1) (x 2) s
  | 21 => execBarArrival (x 1) (x 2) s
  | 22 => execCollArrival (x 1) (x 2) s
  | 23 => execUpdateApply (x 1) (x 2) s
  | 24 => execLockGrant (x 1) (x 2) s
  | 25 => execTimewaitRelease (x 1) s
  | 26 => execTimewaitRetry (x 1) s
  | 27 => execSyncExchange (x 1) s
  | 28 => execTimeMessage (x 1) (x 2) s
  | 29 => execHoldoverEnter (x 1) s
  | 30 => execHoldoverTick (x 1) s
  | 31 => execPodSyncExchange (freeInt (x 1)) (x 2) (x 3) s
  | 32 => execPtpMessage (freeInt (x 1)) (x 2) s
  | 33 => execFlitSend (x 1) (x 2) s
  | 34 => execFlitData (x 1) (x 2) s
  | 35 => execFlitOpen (x 1) (x 2) s
  | 36 => execFlitClose (x 1) (x 2) s
  | 37 => execFlitAck (x 1) (x 2) s
  | 38 => execFlitIdle (x 1) (x 2) s
  | _ => execAckDue (x 1) (x 2) s

/-- The step of an agent by its number, part 3: every event with free arguments. -/
def State.agent2 (s : State) (x : Nat → Nat) : Nat → Host.Outcome State Fault Refusal
  | 0 => execRetryWindow (x 1) (x 2) s
  | 1 => execChangeProposal (x 1) (x 2) s
  | 2 => execChangeReply (x 1) (x 2) s
  | 3 => execChangeQuiesce (x 1) (x 2) s
  | 4 => execChangeQuiet (x 1) (x 2) s
  | 5 => execRetrainStart (x 1) (x 2) s
  | 6 => execTrainingComplete (x 1) (x 2 % 2 == 1) s
  | 7 => execLinkLoss (x 1) (x 2) s
  | 8 => execMemoryError (freeError x) s
  | 9 => execEventSend (x 1) (x 2) s
  | 10 => execSaveWrite (x 1) s
  | 11 => execTaskCompletion (x 1) s
  | 12 => execNvmeCompletion (x 1) (x 2) (freeStatus (x 3)) s
  | 13 => execRegisterWrite (x 1) (BitVec.ofNat 64 (x 2)) s
  | 14 => execCtxActivate (x 1) s
  | 15 => execCtxDestroy (x 1) s
  | 16 => execWindowWrite (x 1) (BitVec.ofNat 128 (x 2)) s
  | 17 => execOwnerkeyWrite (natLe (x 1) (x 2)) s
  | 18 => execSignersWrite (x 1) (natLe (x 2) (x 3)) s
  | 19 => execMboxQuote s
  | 20 => execMboxLog s
  | 21 => execLinkPolicy (natLe (x 1) (x 2)) s
  | 22 => execModuleReset s
  | 23 => execBootStage (x 1 % 2 == 1) s
  | 24 => execCapEntryFree (x 1) (x 2) s
  | 25 => execFlitDiscard (x 1) (x 2) (x 3 % 2 == 1) s
  | 26 => execSlewComplete (x 1) s
  | 27 => execFreeSlotReport (x 1) s
  | 28 => execBoardPowerOff s
  | _ => execApertureAccess (x 1) (x 2) (if x 3 % 2 = 1 then some (natLe (x 4) (x 5)) else none) s

/-- The number of events among which the choice is made; SEED_WRITE and FLOGRD_WRITE happen within CSRWR. -/
def agentCount : Nat := 110

/-- A free step: TIME moves by a free amount, and one event, chosen freely, takes place with free arguments (log 1, log 4). An event
that nothing enables changes nothing. -/
def State.freeStep (s : State) : Host.Outcome State Fault Refusal :=
  let x (n : Nat) : Nat := Config.freeNat (s.free + n)
  let t := { s.pass (fun n => Config.tick n s.clock) with free := s.free + 16 }
  let n := x 0 % agentCount
  if n < 40 then t.agent0 x (n - 0)
  else if n < 80 then t.agent1 x (n - 40)
  else t.agent2 x (n - 80)

end Sys2Proof.Machine
end

