-- ==== Sys2Proof/Machine/ScalarInt.lean ====
section
/-! DEFINITION. The scalar integer operators (R216 to R232). -/

namespace Sys2Proof.Machine

/-! ## Shared operations -/

/-- The immediate of an integer form as R219 extends it. -/
def immWord (t : EType) (imm : U32) : Nat :=
  if tySigned t then (imm.signExtend 64).toNat else imm.toNat

/-- The R operand as a word: the token or sticky value, else the immediate (R219). -/
def operandR (t : EType) (f : Fields) (r : Option Val) : Nat :=
  match r with
  | some v => v.value.toNat
  | none => immWord t f.imm

/-- The tag of a result by rules 1, 3, 4 and 5 of R130 over all operands (R221). -/
def provAll (l : Val) (r t : Option Val) : BitVec 4 := provJoin (l.prov :: ((r.toList ++ t.toList).map Val.prov))

/-- The tag of ADD and SUB (R221): rule 2 first for 64-bit types. -/
def provSum (sub : Bool) (t : EType) (l : Val) (r : Option Val) : BitVec 4 :=
  let b : BitVec 4 := match r with
    | some v => v.prov
    | none => 0
  if tyWidth t = 64 then (if sub then provSub l.prov b else provAdd l.prov b) else provJoin [l.prov, b]

/-- The result word x of an operator is emitted with a tag, and its flags are set (R83, R94, R216). -/
def scalarResult (f : Fields) (s : State) (g : Firing) (x : U64) (p : BitVec 4) (vs : List Val) (fl : Flags) : State :=
  (s.setFlags g.ctx fl).emitBoth g f (Val.computed x g.l.round p vs)

/-- An integer operator on the w bits of its type: op gives the pattern and the flags. -/
def scalarInt (f : Fields) (s : State) (ident : U64) (op : Nat → Nat → Nat × Flags)
    (prov : Val → Option Val → BitVec 4) : Host.Outcome State Fault Refusal :=
  .next (s.operate { Need.scalars with ident := fun _ => ident } f (fun s g l r _ =>
    let x := op l.value.toNat (operandR f.ty f r)
    scalarResult f s g (extend f.ty x.1) (prov l r) (l :: r.toList) x.2))

/-- The tag of an operator with L and R. -/
def provTwo (l : Val) (r : Option Val) : BitVec 4 := provAll l r none

/-- An operation on integers as R218 reads them, wrapped. -/
def onInts (t : EType) (op : Int → Int → Int) (a b : Nat) : Nat × Flags :=
  (wrapInt t (op (decodeInt t a) (decodeInt t b)), 0)

/-- An operation on the w bits. -/
def onBits (t : EType) (op : Nat → Nat → Nat) (a b : Nat) : Nat × Flags :=
  (op (a % 2 ^ tyWidth t) (b % 2 ^ tyWidth t) % 2 ^ tyWidth t, 0)

/-- All ones in the w bits of a type, extended (R83). -/
def allOnes (t : EType) : U64 := extend t (2 ^ tyWidth t - 1)

/-- The maximum and minimum of a type as words (R84). -/
def maxWord (t : EType) : U64 := extend t (wrapInt t (tyMax t))
def minWord (t : EType) : U64 := extend t (wrapInt t (tyMin t))

/-- The amount of a shift (R226): IMM in the AR 00 forms, else the low min(8, w) bits of y. -/
def shiftAmount (t : EType) (f : Fields) (r : Option Val) : Nat :=
  match r with
  | some v => v.value.toNat % 2 ^ (min 8 (tyWidth t))
  | none => f.imm.toNat

/-- A shift or rotate (R226). -/
def scalarShift (op : Nat) (f : Fields) (s : State) : Host.Outcome State Fault Refusal :=
  .next (s.operate Need.scalars f (fun s g l r _ =>
    scalarResult f s g (extend f.ty (shiftBits op (tyWidth f.ty) l.value.toNat (shiftAmount f.ty f r))) (provTwo l r)
      (l :: r.toList) 0))

/-- The result of a divider operator waits in the divider (R217): DIVIDER_EMIT emits it and sets its flags. -/
def dividerResult (f : Fields) (s : State) (g : Firing) (x : U64) (p : BitVec 4) (vs : List Val) (fl : Flags) : State :=
  let v := Val.computed x g.l.round p vs
  let e : DivResult := { fire := g, d0 := f.d0, d1 := f.d1, val := v, flags := fl }
  s.modCore g.core (fun k => { k with divider := k.divider ++ [e] })

/-- A divider operator: R53, then its effect. What leaves it as a marker, a null or a forwarded fault token takes its turn in the
divider too (R217). -/
def State.divides (s : State) (f : Fields) (k : State → Firing → Val → Option Val → State) : State :=
  s.execute (fun s g =>
    let put (d1 : Dest) (v : Val) : State :=
      s.modCore g.core (fun k => { k with divider := k.divider ++ [{ fire := g, d0 := f.d0, d1 := d1, val := v, flags := 0 }] })
    match Need.scalars.check f g with
    | .forward v => put { mode := .discard, port := false, ip := 0 } v
    | .marker v => put f.d1 v
    | .nulls v => put f.d1 v
    | .nothing => s
    | .fail c => s.fault g f c 0
    | .go l r _ => k s g l r)

/-- DIV and REM (R225). -/
def scalarDivRem (rem : Bool) (f : Fields) (s : State) : Host.Outcome State Fault Refusal :=
  .next (s.divides f (fun s g l r =>
    let qr := intDivRem f.ty (decodeInt f.ty l.value.toNat) (decodeInt f.ty (operandR f.ty f r))
    dividerResult f s g (extend f.ty (wrapInt f.ty (if rem then qr.2 else qr.1))) (provTwo l r) (l :: r.toList) 0))

/-- A monadic operator with its own word result. -/
def scalarUnary (f : Fields) (s : State) (op : Nat → U64 × Flags) : Host.Outcome State Fault Refusal :=
  .next (s.operate Need.scalars f (fun s g l _ _ =>
    let x := op l.value.toNat
    scalarResult f s g x.1 (provAll l none none) [l] x.2))

/-- The position and length of BFX and BFI (R231). -/
def bfPos (f : Fields) : Nat := f.imm.toNat % 64
def bfLen (f : Fields) : Nat := f.imm.toNat / 256 % 64 + 1

/-! ## The operators -/

/-- MOVI.LO (R223): fired by a value of any KIND; its tag is NONE (R221). -/
def execMoviLo (f : Fields) (s : State) : Host.Outcome State Fault Refusal :=
  .next (s.operate .any f (fun s g l _ _ =>
    scalarResult f s g (extend f.ty (immWord f.ty f.imm)) 0 [l] 0))

/-- MOVI.HI (R223). -/
def execMoviHi (f : Fields) (s : State) : Host.Outcome State Fault Refusal :=
  .next (s.operate Need.scalars f (fun s g l _ _ =>
    scalarResult f s g (f.imm ++ field l.value 0 32) (provAll l none none) [l] 0))

/-- ADD (R224). -/
def execAdd (f : Fields) (s : State) : Host.Outcome State Fault Refusal :=
  scalarInt f s 0 (onInts f.ty (· + ·)) (provSum false f.ty)

/-- SUB (R224). -/
def execSub (f : Fields) (s : State) : Host.Outcome State Fault Refusal :=
  scalarInt f s 0 (onInts f.ty (· - ·)) (provSum true f.ty)

/-- MUL (R224). -/
def execMul (f : Fields) (s : State) : Host.Outcome State Fault Refusal :=
  scalarInt f s 1 (onInts f.ty (· * ·)) provTwo

/-- MULH (R224): the high half of the exact product. -/
def execMulh (f : Fields) (s : State) : Host.Outcome State Fault Refusal :=
  scalarInt f s 0 (onInts f.ty (fun x y => Int.fdiv (x * y) (2 ^ tyWidth f.ty))) provTwo

/-- DIV (R225), in the divider. -/
def execDiv (f : Fields) (s : State) : Host.Outcome State Fault Refusal :=
  scalarDivRem false f s

/-- REM (R225), in the divider. -/
def execRem (f : Fields) (s : State) : Host.Outcome State Fault Refusal :=
  scalarDivRem true f s

/-- AND (R224). -/
def execAnd (f : Fields) (s : State) : Host.Outcome State Fault Refusal :=
  scalarInt f s (allOnes f.ty) (onBits f.ty (· &&& ·)) provTwo

/-- OR (R224). -/
def execOr (f : Fields) (s : State) : Host.Outcome State Fault Refusal :=
  scalarInt f s 0 (onBits f.ty (· ||| ·)) provTwo

/-- XOR (R224). -/
def execXor (f : Fields) (s : State) : Host.Outcome State Fault Refusal :=
  scalarInt f s 0 (onBits f.ty (· ^^^ ·)) provTwo

/-- ANDN (R224). -/
def execAndn (f : Fields) (s : State) : Host.Outcome State Fault Refusal :=
  scalarInt f s 0 (onBits f.ty (fun x y => x &&& (2 ^ tyWidth f.ty - 1 - y))) provTwo

/-- SHL (R226). -/
def execShl (f : Fields) (s : State) : Host.Outcome State Fault Refusal :=
  scalarShift 0 f s

/-- SHR (R226). -/
def execShr (f : Fields) (s : State) : Host.Outcome State Fault Refusal :=
  scalarShift 1 f s

/-- SAR (R226). -/
def execSar (f : Fields) (s : State) : Host.Outcome State Fault Refusal :=
  scalarShift 2 f s

/-- ROL (R226). -/
def execRol (f : Fields) (s : State) : Host.Outcome State Fault Refusal :=
  scalarShift 3 f s

/-- MIN (R224). -/
def execMin (f : Fields) (s : State) : Host.Outcome State Fault Refusal :=
  scalarInt f s (maxWord f.ty) (onInts f.ty (fun x y => if y < x then y else x)) provTwo

/-- MAX (R224). -/
def execMax (f : Fields) (s : State) : Host.Outcome State Fault Refusal :=
  scalarInt f s (minWord f.ty) (onInts f.ty (fun x y => if x < y then y else x)) provTwo

/-- ABS (R227): it saturates under SAT. -/
def execAbs (f : Fields) (s : State) : Host.Outcome State Fault Refusal :=
  scalarUnary f s (fun a =>
    let x := fitInt f.ty f.sat ((decodeInt f.ty a).natAbs : Int)
    (extend f.ty x.1, x.2))

/-- NEG (R227): it saturates under SAT. -/
def execNeg (f : Fields) (s : State) : Host.Outcome State Fault Refusal :=
  scalarUnary f s (fun a =>
    let x := fitInt f.ty f.sat (-(decodeInt f.ty a))
    (extend f.ty x.1, x.2))

/-- ADDSAT.ADD (R227). -/
def execAddsatAdd (f : Fields) (s : State) : Host.Outcome State Fault Refusal :=
  scalarInt f s 0 (fun a b => fitInt f.ty true (decodeInt f.ty a + decodeInt f.ty b)) provTwo

/-- ADDSAT.SUB (R227). -/
def execAddsatSub (f : Fields) (s : State) : Host.Outcome State Fault Refusal :=
  scalarInt f s 0 (fun a b => fitInt f.ty true (decodeInt f.ty a - decodeInt f.ty b)) provTwo

/-- CMP (R228): 1 or 0 in all 64 bits. -/
def execCmp (f : Fields) (s : State) : Host.Outcome State Fault Refusal :=
  .next (s.operate Need.scalars f (fun s g l r _ =>
    scalarResult f s g (if intTest f.fn.toNat f.ty l.value.toNat (operandR f.ty f r) then 1 else 0) (provTwo l r)
      (l :: r.toList) 0))

/-- SEL (R229): the chosen operand unchanged, with the tag of R221. -/
def execSel (f : Fields) (s : State) : Host.Outcome State Fault Refusal :=
  .next (s.operate { Need.any with kt := isScalar } f (fun s g l r t =>
    let c : Val := if nonZero t then l else r.getD l
    let p : BitVec 4 := match t with
      | some v => if v.prov = 0 then c.prov else provAll l r t
      | none => c.prov
    let lin : Lineage := { out := c.lin.out, anc := ancestors (l :: (r.toList ++ t.toList)) }
    s.emitBoth g f { c with prov := p, lin := lin }))

/-- CLZ (R230). -/
def execClz (f : Fields) (s : State) : Host.Outcome State Fault Refusal :=
  scalarUnary f s (fun a => (BitVec.ofNat 64 (clzBits (tyWidth f.ty) a), 0))

/-- CTZ (R230). -/
def execCtz (f : Fields) (s : State) : Host.Outcome State Fault Refusal :=
  scalarUnary f s (fun a => (BitVec.ofNat 64 (ctzBits (tyWidth f.ty) a), 0))

/-- POPC (R230). -/
def execPopc (f : Fields) (s : State) : Host.Outcome State Fault Refusal :=
  scalarUnary f s (fun a => (BitVec.ofNat 64 (popBits (tyWidth f.ty) a), 0))

/-- BFX (R231). -/
def execBfx (f : Fields) (s : State) : Host.Outcome State Fault Refusal :=
  scalarUnary f s (fun a =>
    let n := bfLen f
    let x := a / 2 ^ bfPos f % 2 ^ n
    (BitVec.ofNat 64 (if f.fn = 1 ∧ 2 ^ (n - 1) ≤ x then x + (2 ^ 64 - 2 ^ n) else x), 0))

/-- BFI (R231). -/
def execBfi (f : Fields) (s : State) : Host.Outcome State Fault Refusal :=
  .next (s.operate Need.scalars f (fun s g l r _ =>
    let p := bfPos f
    let n := bfLen f
    let a := l.value.toNat
    let b := (r.map Val.value |>.getD 0).toNat
    let x := a / 2 ^ (p + n) * 2 ^ (p + n) + b % 2 ^ n * 2 ^ p + a % 2 ^ p
    scalarResult f s g (BitVec.ofNat 64 x) (provTwo l r) (l :: r.toList) 0))

/-- SEXT (R232): from the width of TY, whatever its signedness. -/
def execSext (f : Fields) (s : State) : Host.Outcome State Fault Refusal :=
  scalarUnary f s (fun a =>
    let w := tyWidth f.ty
    let x := a % 2 ^ w
    (BitVec.ofNat 64 (if 2 ^ (w - 1) ≤ x then x + (2 ^ 64 - 2 ^ w) else x), 0))

/-- ZEXT (R232). -/
def execZext (f : Fields) (s : State) : Host.Outcome State Fault Refusal :=
  scalarUnary f s (fun a => (BitVec.ofNat 64 (a % 2 ^ tyWidth f.ty), 0))

end Sys2Proof.Machine
end

