-- ==== Sys2Proof/Machine/ScalarFloat.lean ====
section
/-! DEFINITION. The scalar floating-point operators (R233 to R238). -/

namespace Sys2Proof.Machine

/-! ## Shared operations -/

/-- The tag of a result: DATA where the operator draws under SR (R221). -/
def provFloat (f : Fields) (l : Val) (r t : Option Val) : BitVec 4 :=
  if f.rm = .sr then provData else provAll l r t

/-- The exact operation and its one rounding into TY, with the draw that SR takes (R92, R95). -/
def floatRound (f : Fields) (s : State) (g : Firing) (x : Exact × Flags) : State × (Nat × Flags) :=
  let d := s.drawFor g.core f.rm
  (d.1, rounded f.ty f.rm f.sat d.2 x)

/-- A floating-point operator whose result is rounded and emitted at once. -/
def scalarFloat (f : Fields) (s : State) (ident : U64) (op : Num → Num → Num → Exact × Flags) :
    Host.Outcome State Fault Refusal :=
  .next (s.operate { Need.scalars with ident := fun _ => ident } f (fun s g l r t =>
    let num (v : Option Val) : Num := decodeFloat f.ty ((v.map Val.value).getD 0).toNat
    let y := floatRound f s g (op (num (some l)) (num r) (num t))
    scalarResult f y.1 g (extend f.ty y.2.1) (provFloat f l r t) (l :: (r.toList ++ t.toList)) y.2.2))

/-- A floating-point operator of the divider (R217). -/
def dividerFloat (f : Fields) (s : State) (op : Num → Num → Exact × Flags) : Host.Outcome State Fault Refusal :=
  .next (s.divides f (fun s g l r =>
    let num (v : Option Val) : Num := decodeFloat f.ty ((v.map Val.value).getD 0).toNat
    let y := floatRound f s g (op (num (some l)) (num r))
    dividerResult f y.1 g (extend f.ty y.2.1) (provFloat f l r none) (l :: r.toList) y.2.2))

/-- FMIN and FMAX (R235): nothing is rounded. -/
def floatMinMax (max : Bool) (f : Fields) (s : State) (ident : U64) : Host.Outcome State Fault Refusal :=
  scalarInt f s ident (floatPick f.ty max) provTwo

/-- The exact value that a conversion rounds, and a conversion in the operator's modes (R91, R237). -/
def scalarConvert (src : EType) (f : Fields) (s : State) : Host.Outcome State Fault Refusal :=
  .next (s.operate Need.scalars f (fun s g l _ _ =>
    let d := s.drawFor g.core f.rm
    let x := convertTy src f.ty f.rm f.sat d.2 l.value.toNat
    scalarResult f d.1 g (extend f.ty x.1) (provFloat f l none none) [l] x.2))

/-! ## The operators -/

/-- FADD (R234). -/
def execFadd (f : Fields) (s : State) : Host.Outcome State Fault Refusal :=
  scalarFloat f s (BitVec.ofNat 64 (signBit f.ty true)) (fun x y _ => numAdd f.rm x y)

/-- FSUB (R234). -/
def execFsub (f : Fields) (s : State) : Host.Outcome State Fault Refusal :=
  scalarFloat f s 0 (fun x y _ => numSub f.rm x y)

/-- FMUL (R234). -/
def execFmul (f : Fields) (s : State) : Host.Outcome State Fault Refusal :=
  scalarFloat f s (BitVec.ofNat 64 (fmtOne f.ty)) (fun x y _ => numMul x y)

/-- FFMA (R234). -/
def execFfma (f : Fields) (s : State) : Host.Outcome State Fault Refusal :=
  scalarFloat f s 0 (fun x y z => numFma f.rm x y z)

/-- FDIV (R234), in the divider. -/
def execFdiv (f : Fields) (s : State) : Host.Outcome State Fault Refusal :=
  dividerFloat f s numDiv

/-- FSQRT (R234), in the divider. -/
def execFsqrt (f : Fields) (s : State) : Host.Outcome State Fault Refusal :=
  dividerFloat f s (fun x _ => numSqrt x)

/-- FMIN (R235). -/
def execFmin (f : Fields) (s : State) : Host.Outcome State Fault Refusal :=
  floatMinMax false f s (BitVec.ofNat 64 (fmtInfEnc f.ty false))

/-- FMAX (R235). -/
def execFmax (f : Fields) (s : State) : Host.Outcome State Fault Refusal :=
  floatMinMax true f s (BitVec.ofNat 64 (fmtInfEnc f.ty true))

/-- FCMP (R236). -/
def execFcmp (f : Fields) (s : State) : Host.Outcome State Fault Refusal :=
  .next (s.operate Need.scalars f (fun s g l r _ =>
    let y := decodeFloat f.ty ((r.map Val.value).getD 0).toNat
    let c := floatTest f.fn.toNat (decodeFloat f.ty l.value.toNat) y
    scalarResult f s g (if c.1 then 1 else 0) (provTwo l r) (l :: r.toList) c.2))

/-- FCVT (R237). -/
def execFcvt (f : Fields) (s : State) : Host.Outcome State Fault Refusal :=
  scalarConvert (tyOf (f.fn.toNat + 8)) f s

/-- FTOI (R237). -/
def execFtoi (f : Fields) (s : State) : Host.Outcome State Fault Refusal :=
  scalarConvert (tyOf (f.fn.toNat + 8)) f s

/-- ITOF (R237). -/
def execItof (f : Fields) (s : State) : Host.Outcome State Fault Refusal :=
  scalarConvert (tyOf f.fn.toNat) f s

/-- FABS (R238): the sign bit is cleared. -/
def execFabs (f : Fields) (s : State) : Host.Outcome State Fault Refusal :=
  scalarUnary f s (fun a => (extend f.ty (a % 2 ^ (tyWidth f.ty - 1)), 0))

/-- FNEG (R238): the sign bit is inverted. -/
def execFneg (f : Fields) (s : State) : Host.Outcome State Fault Refusal :=
  scalarUnary f s (fun a => (extend f.ty (a % 2 ^ tyWidth f.ty ^^^ signBit f.ty true), 0))

/-- FCLASS (R238). -/
def execFclass (f : Fields) (s : State) : Host.Outcome State Fault Refusal :=
  scalarUnary f s (fun a => (BitVec.ofNat 64 (2 ^ floatClass f.ty a), 0))

end Sys2Proof.Machine
end

