-- ==== Sys2Proof/Machine/Dispatch.lean ====
section
/-! DEFINITION. The dispatch of a step of the machine to its meaning: one arm per constructor of Instr. -/

namespace Sys2Proof.Machine

/-- The meaning of every step. -/
def exec (i : Instr) (s : State) : Host.Outcome State Fault Refusal :=
  match i with
  | .nop f => Sys2Proof.Machine.execNop f s
  | .fork f => Sys2Proof.Machine.execFork f s
  | .steer f => Sys2Proof.Machine.execSteer f s
  | .gate f => Sys2Proof.Machine.execGate f s
  | .sync f => Sys2Proof.Machine.execSync f s
  | .drop f => Sys2Proof.Machine.execDrop f s
  | .falloc f => Sys2Proof.Machine.execFalloc f s
  | .ffreeFp f => Sys2Proof.Machine.execFfreeFp f s
  | .ffreeSelf f => Sys2Proof.Machine.execFfreeSelf f s
  | .fstore f => Sys2Proof.Machine.execFstore f s
  | .fstick f => Sys2Proof.Machine.execFstick f s
  | .freadSlot f => Sys2Proof.Machine.execFreadSlot f s
  | .freadSelf f => Sys2Proof.Machine.execFreadSelf f s
  | .call f => Sys2Proof.Machine.execCall f s
  | .callExt f => Sys2Proof.Machine.execCallExt f s
  | .ret f => Sys2Proof.Machine.execRet f s
  | .sendto f => Sys2Proof.Machine.execSendto f s
  | .iterNext f => Sys2Proof.Machine.execIterNext f s
  | .iterSet f => Sys2Proof.Machine.execIterSet f s
  | .punctMark f => Sys2Proof.Machine.execPunctMark f s
  | .punctAfter f => Sys2Proof.Machine.execPunctAfter f s
  | .rjoin f => Sys2Proof.Machine.execRjoin f s
  | .filter f => Sys2Proof.Machine.execFilter f s
  | .compact f => Sys2Proof.Machine.execCompact f s
  | .ordmerge f => Sys2Proof.Machine.execOrdmerge f s
  | .nullsetAll f => Sys2Proof.Machine.execNullsetAll f s
  | .nullsetIfz f => Sys2Proof.Machine.execNullsetIfz f s
  | .isnullNull f => Sys2Proof.Machine.execIsnullNull f s
  | .isnullKind f => Sys2Proof.Machine.execIsnullKind f s
  | .switch f => Sys2Proof.Machine.execSwitch f s
  | .endOp f => Sys2Proof.Machine.execEndOp f s
  | .moviLo f => Sys2Proof.Machine.execMoviLo f s
  | .moviHi f => Sys2Proof.Machine.execMoviHi f s
  | .add f => Sys2Proof.Machine.execAdd f s
  | .sub f => Sys2Proof.Machine.execSub f s
  | .mul f => Sys2Proof.Machine.execMul f s
  | .mulh f => Sys2Proof.Machine.execMulh f s
  | .div f => Sys2Proof.Machine.execDiv f s
  | .rem f => Sys2Proof.Machine.execRem f s
  | .and f => Sys2Proof.Machine.execAnd f s
  | .or f => Sys2Proof.Machine.execOr f s
  | .xor f => Sys2Proof.Machine.execXor f s
  | .andn f => Sys2Proof.Machine.execAndn f s
  | .shl f => Sys2Proof.Machine.execShl f s
  | .shr f => Sys2Proof.Machine.execShr f s
  | .sar f => Sys2Proof.Machine.execSar f s
  | .rol f => Sys2Proof.Machine.execRol f s
  | .min f => Sys2Proof.Machine.execMin f s
  | .max f => Sys2Proof.Machine.execMax f s
  | .abs f => Sys2Proof.Machine.execAbs f s
  | .neg f => Sys2Proof.Machine.execNeg f s
  | .addsatAdd f => Sys2Proof.Machine.execAddsatAdd f s
  | .addsatSub f => Sys2Proof.Machine.execAddsatSub f s
  | .cmp f => Sys2Proof.Machine.execCmp f s
  | .sel f => Sys2Proof.Machine.execSel f s
  | .clz f => Sys2Proof.Machine.execClz f s
  | .ctz f => Sys2Proof.Machine.execCtz f s
  | .popc f => Sys2Proof.Machine.execPopc f s
  | .bfx f => Sys2Proof.Machine.execBfx f s
  | .bfi f => Sys2Proof.Machine.execBfi f s
  | .sext f => Sys2Proof.Machine.execSext f s
  | .zext f => Sys2Proof.Machine.execZext f s
  | .fadd f => Sys2Proof.Machine.execFadd f s
  | .fsub f => Sys2Proof.Machine.execFsub f s
  | .fmul f => Sys2Proof.Machine.execFmul f s
  | .ffma f => Sys2Proof.Machine.execFfma f s
  | .fdiv f => Sys2Proof.Machine.execFdiv f s
  | .fsqrt f => Sys2Proof.Machine.execFsqrt f s
  | .fmin f => Sys2Proof.Machine.execFmin f s
  | .fmax f => Sys2Proof.Machine.execFmax f s
  | .fcmp f => Sys2Proof.Machine.execFcmp f s
  | .fcvt f => Sys2Proof.Machine.execFcvt f s
  | .ftoi f => Sys2Proof.Machine.execFtoi f s
  | .itof f => Sys2Proof.Machine.execItof f s
  | .fabs f => Sys2Proof.Machine.execFabs f s
  | .fneg f => Sys2Proof.Machine.execFneg f s
  | .fclass f => Sys2Proof.Machine.execFclass f s
  | .tnewHere f => Sys2Proof.Machine.execTnewHere f s
  | .tnewAt f => Sys2Proof.Machine.execTnewAt f s
  | .trel f => Sys2Proof.Machine.execTrel f s
  | .tdup f => Sys2Proof.Machine.execTdup f s
  | .tview f => Sys2Proof.Machine.execTview f s
  | .tinfo f => Sys2Proof.Machine.execTinfo f s
  | .tlayout f => Sys2Proof.Machine.execTlayout f s
  | .tfill f => Sys2Proof.Machine.execTfill f s
  | .tcopy f => Sys2Proof.Machine.execTcopy f s
  | .xlate f => Sys2Proof.Machine.execXlate f s
  | .capcutCut f => Sys2Proof.Machine.execCapcutCut f s
  | .capcutFree f => Sys2Proof.Machine.execCapcutFree f s
  | .fetchGlb f => Sys2Proof.Machine.execFetchGlb f s
  | .fetchEp f => Sys2Proof.Machine.execFetchEp f s
  | .fetchPort f => Sys2Proof.Machine.execFetchPort f s
  | .putGlb f => Sys2Proof.Machine.execPutGlb f s
  | .putEp f => Sys2Proof.Machine.execPutEp f s
  | .putPort f => Sys2Proof.Machine.execPutPort f s
  | .ldg f => Sys2Proof.Machine.execLdg f s
  | .stg f => Sys2Proof.Machine.execStg f s
  | .ldv f => Sys2Proof.Machine.execLdv f s
  | .stv f => Sys2Proof.Machine.execStv f s
  | .agset f => Sys2Proof.Machine.execAgset f s
  | .agrun f => Sys2Proof.Machine.execAgrun f s
  | .agstop f => Sys2Proof.Machine.execAgstop f s
  | .sbindAg f => Sys2Proof.Machine.execSbindAg f s
  | .sbindBq f => Sys2Proof.Machine.execSbindBq f s
  | .sbindPeer f => Sys2Proof.Machine.execSbindPeer f s
  | .sbindEp f => Sys2Proof.Machine.execSbindEp f s
  | .sbindUnbind f => Sys2Proof.Machine.execSbindUnbind f s
  | .sbar f => Sys2Proof.Machine.execSbar f s
  | .mcast f => Sys2Proof.Machine.execMcast f s
  | .permit f => Sys2Proof.Machine.execPermit f s
  | .publishTile f => Sys2Proof.Machine.execPublishTile f s
  | .publishGlb f => Sys2Proof.Machine.execPublishGlb f s
  | .epbind f => Sys2Proof.Machine.execEpbind f s
  | .epdrop f => Sys2Proof.Machine.execEpdrop f s
  | .vadd f => Sys2Proof.Machine.execVadd f s
  | .vsub f => Sys2Proof.Machine.execVsub f s
  | .vmul f => Sys2Proof.Machine.execVmul f s
  | .vfma f => Sys2Proof.Machine.execVfma f s
  | .vdiv f => Sys2Proof.Machine.execVdiv f s
  | .vmin f => Sys2Proof.Machine.execVmin f s
  | .vmax f => Sys2Proof.Machine.execVmax f s
  | .vabs f => Sys2Proof.Machine.execVabs f s
  | .vneg f => Sys2Proof.Machine.execVneg f s
  | .vexp2 f => Sys2Proof.Machine.execVexp2 f s
  | .vlog2 f => Sys2Proof.Machine.execVlog2 f s
  | .vrcp f => Sys2Proof.Machine.execVrcp f s
  | .vrsq f => Sys2Proof.Machine.execVrsq f s
  | .vsqrt f => Sys2Proof.Machine.execVsqrt f s
  | .vtanh f => Sys2Proof.Machine.execVtanh f s
  | .vsigm f => Sys2Proof.Machine.execVsigm f s
  | .vcvt f => Sys2Proof.Machine.execVcvt f s
  | .vqmx f => Sys2Proof.Machine.execVqmx f s
  | .vdqmx f => Sys2Proof.Machine.execVdqmx f s
  | .vcmp f => Sys2Proof.Machine.execVcmp f s
  | .vsel f => Sys2Proof.Machine.execVsel f s
  | .vrsum f => Sys2Proof.Machine.execVrsum f s
  | .vrmax f => Sys2Proof.Machine.execVrmax f s
  | .vcsum f => Sys2Proof.Machine.execVcsum f s
  | .vbcast f => Sys2Proof.Machine.execVbcast f s
  | .vrbc f => Sys2Proof.Machine.execVrbc f s
  | .vtrans f => Sys2Proof.Machine.execVtrans f s
  | .viota f => Sys2Proof.Machine.execViota f s
  | .vcomp f => Sys2Proof.Machine.execVcomp f s
  | .vlogic f => Sys2Proof.Machine.execVlogic f s
  | .vshift f => Sys2Proof.Machine.execVshift f s
  | .mbind f => Sys2Proof.Machine.execMbind f s
  | .munbind f => Sys2Proof.Machine.execMunbind f s
  | .macc f => Sys2Proof.Machine.execMacc f s
  | .mrowAcc f => Sys2Proof.Machine.execMrowAcc f s
  | .mrowOut f => Sys2Proof.Machine.execMrowOut f s
  | .mma f => Sys2Proof.Machine.execMma f s
  | .mmag f => Sys2Proof.Machine.execMmag f s
  | .msclSet f => Sys2Proof.Machine.execMsclSet f s
  | .msclClr f => Sys2Proof.Machine.execMsclClr f s
  | .mrd f => Sys2Proof.Machine.execMrd f s
  | .moutKeep f => Sys2Proof.Machine.execMoutKeep f s
  | .moutClr f => Sys2Proof.Machine.execMoutClr f s
  | .mclr f => Sys2Proof.Machine.execMclr f s
  | .mresc f => Sys2Proof.Machine.execMresc f s
  | .mdrainCur f => Sys2Proof.Machine.execMdrainCur f s
  | .mdrainAll f => Sys2Proof.Machine.execMdrainAll f s
  | .tbinit f => Sys2Proof.Machine.execTbinit f s
  | .tbexp f => Sys2Proof.Machine.execTbexp f s
  | .tbarrArr f => Sys2Proof.Machine.execTbarrArr f s
  | .tbarrTx f => Sys2Proof.Machine.execTbarrTx f s
  | .tbarrArrtx f => Sys2Proof.Machine.execTbarrArrtx f s
  | .tbwait f => Sys2Proof.Machine.execTbwait f s
  | .tbinv f => Sys2Proof.Machine.execTbinv f s
  | .bar f => Sys2Proof.Machine.execBar f s
  | .ownsetSet f => Sys2Proof.Machine.execOwnsetSet f s
  | .ownsetClr f => Sys2Proof.Machine.execOwnsetClr f s
  | .atom f => Sys2Proof.Machine.execAtom f s
  | .red f => Sys2Proof.Machine.execRed f s
  | .cas f => Sys2Proof.Machine.execCas f s
  | .lockq f => Sys2Proof.Machine.execLockq f s
  | .lockr f => Sys2Proof.Machine.execLockr f s
  | .fence f => Sys2Proof.Machine.execFence f s
  | .acq f => Sys2Proof.Machine.execAcq f s
  | .rel f => Sys2Proof.Machine.execRel f s
  | .coll f => Sys2Proof.Machine.execColl f s
  | .taperec f => Sys2Proof.Machine.execTaperec f s
  | .tapeend f => Sys2Proof.Machine.execTapeend f s
  | .tapeplay f => Sys2Proof.Machine.execTapeplay f s
  | .tapegrd f => Sys2Proof.Machine.execTapegrd f s
  | .tapepatArg f => Sys2Proof.Machine.execTapepatArg f s
  | .tapepatConst f => Sys2Proof.Machine.execTapepatConst f s
  | .tapedropQuad f => Sys2Proof.Machine.execTapedropQuad f s
  | .tapedropAll f => Sys2Proof.Machine.execTapedropAll f s
  | .tapeinfo f => Sys2Proof.Machine.execTapeinfo f s
  | .timerdNow f => Sys2Proof.Machine.execTimerdNow f s
  | .timerdStat f => Sys2Proof.Machine.execTimerdStat f s
  | .timecmp f => Sys2Proof.Machine.execTimecmp f s
  | .timewaitAbs f => Sys2Proof.Machine.execTimewaitAbs f s
  | .timewaitRel f => Sys2Proof.Machine.execTimewaitRel f s
  | .timeadjSlew f => Sys2Proof.Machine.execTimeadjSlew f s
  | .timeadjStep f => Sys2Proof.Machine.execTimeadjStep f s
  | .launch f => Sys2Proof.Machine.execLaunch f s
  | .qpush f => Sys2Proof.Machine.execQpush f s
  | .range f => Sys2Proof.Machine.execRange f s
  | .rgive f => Sys2Proof.Machine.execRgive f s
  | .qprio f => Sys2Proof.Machine.execQprio f s
  | .qinfo f => Sys2Proof.Machine.execQinfo f s
  | .qbindBind f => Sys2Proof.Machine.execQbindBind f s
  | .qbindUnbind f => Sys2Proof.Machine.execQbindUnbind f s
  | .ctxinfo f => Sys2Proof.Machine.execCtxinfo f s
  | .trap f => Sys2Proof.Machine.execTrap f s
  | .hcall f => Sys2Proof.Machine.execHcall f s
  | .evbindBind f => Sys2Proof.Machine.execEvbindBind f s
  | .evbindUnbind f => Sys2Proof.Machine.execEvbindUnbind f s
  | .fltrd f => Sys2Proof.Machine.execFltrd f s
  | .resumeRetry f => Sys2Proof.Machine.execResumeRetry f s
  | .resumeDiscard f => Sys2Proof.Machine.execResumeDiscard f s
  | .replayall f => Sys2Proof.Machine.execReplayall f s
  | .ctxsave f => Sys2Proof.Machine.execCtxsave f s
  | .ctxload f => Sys2Proof.Machine.execCtxload f s
  | .csrrd f => Sys2Proof.Machine.execCsrrd f s
  | .csrwr f => Sys2Proof.Machine.execCsrwr f s
  | .perfrd f => Sys2Proof.Machine.execPerfrd f s
  | .linkctlPause f => Sys2Proof.Machine.execLinkctlPause f s
  | .linkctlResume f => Sys2Proof.Machine.execLinkctlResume f s
  | .linkctlMap f => Sys2Proof.Machine.execLinkctlMap f s
  | .linkctlSched f => Sys2Proof.Machine.execLinkctlSched f s
  | .linkctlCancel f => Sys2Proof.Machine.execLinkctlCancel f s
  | .linkctlClrcnt f => Sys2Proof.Machine.execLinkctlClrcnt f s
  | .linkctlCfg f => Sys2Proof.Machine.execLinkctlCfg f s
  | .linkst f => Sys2Proof.Machine.execLinkst f s
  | .corestopStop f => Sys2Proof.Machine.execCorestopStop f s
  | .corestopStart f => Sys2Proof.Machine.execCorestopStart f s
  | .clockChangeRequest stack mhz => Sys2Proof.Machine.execClockChangeRequest stack mhz s
  | .clockSettled stack => Sys2Proof.Machine.execClockSettled stack s
  | .clampAct stack mhz idle => Sys2Proof.Machine.execClampAct stack mhz idle s
  | .clampRelease stack => Sys2Proof.Machine.execClampRelease stack s
  | .thermalTrip => Sys2Proof.Machine.execThermalTrip s
  | .tokenServe core src => Sys2Proof.Machine.execTokenServe core src s
  | .frameSpill core => Sys2Proof.Machine.execFrameSpill core s
  | .frameFill core fp => Sys2Proof.Machine.execFrameFill core fp s
  | .deferredFree core fp => Sys2Proof.Machine.execDeferredFree core fp s
  | .releaseMessage core src => Sys2Proof.Machine.execReleaseMessage core src s
  | .tileSpaceReturn core index => Sys2Proof.Machine.execTileSpaceReturn core index s
  | .hostPush func queue offset data => Sys2Proof.Machine.execHostPush func queue offset data s
  | .distributorSelect stack => Sys2Proof.Machine.execDistributorSelect stack s
  | .priorityAging stack slot => Sys2Proof.Machine.execPriorityAging stack slot s
  | .bind stack => Sys2Proof.Machine.execBind stack s
  | .askForWork core task => Sys2Proof.Machine.execAskForWork core task s
  | .askServe stack => Sys2Proof.Machine.execAskServe stack s
  | .partReport stack task => Sys2Proof.Machine.execPartReport stack task s
  | .rangeTaskComplete task => Sys2Proof.Machine.execRangeTaskComplete task s
  | .pushPortRelease core cmd => Sys2Proof.Machine.execPushPortRelease core cmd s
  | .replayCursorGrant quad => Sys2Proof.Machine.execReplayCursorGrant quad s
  | .guardSnapshot quad => Sys2Proof.Machine.execGuardSnapshot quad s
  | .replayIssue quad task => Sys2Proof.Machine.execReplayIssue quad task s
  | .probeStart quad task => Sys2Proof.Machine.execProbeStart quad task s
  | .replayComplete quad task => Sys2Proof.Machine.execReplayComplete quad task s
  | .replayFault quad task => Sys2Proof.Machine.execReplayFault quad task s
  | .installStart core obj page => Sys2Proof.Machine.execInstallStart core obj page s
  | .installComplete core obj page => Sys2Proof.Machine.execInstallComplete core obj page s
  | .quarantineNotice core => Sys2Proof.Machine.execQuarantineNotice core s
  | .abortFree core fp => Sys2Proof.Machine.execAbortFree core fp s
  | .switchAccept stack ctx => Sys2Proof.Machine.execSwitchAccept stack ctx s
  | .switchDrain stack ctx => Sys2Proof.Machine.execSwitchDrain stack ctx s
  | .bridgeProduce core port => Sys2Proof.Machine.execBridgeProduce core port s
  | .bridgeConsume core port => Sys2Proof.Machine.execBridgeConsume core port s
  | .objLoad ctx => Sys2Proof.Machine.execObjLoad ctx s
  | .objUnload ctx => Sys2Proof.Machine.execObjUnload ctx s
  | .lightDispatch core => Sys2Proof.Machine.execLightDispatch core s
  | .engineDispatch core => Sys2Proof.Machine.execEngineDispatch core s
  | .dispatchTurn core engine => Sys2Proof.Machine.execDispatchTurn core engine s
  | .quiesced ctx => Sys2Proof.Machine.execQuiesced ctx s
  | .dividerEmit core => Sys2Proof.Machine.execDividerEmit core s
  | .pageSetBump ctx => Sys2Proof.Machine.execPageSetBump ctx s
  | .bumpDone ctx => Sys2Proof.Machine.execBumpDone ctx s
  | .translationWindowFill core unit cap va => Sys2Proof.Machine.execTranslationWindowFill core unit cap va s
  | .replicaPropagate stack => Sys2Proof.Machine.execReplicaPropagate stack s
  | .publishSwap core cmd => Sys2Proof.Machine.execPublishSwap core cmd s
  | .agRow core gen => Sys2Proof.Machine.execAgRow core gen s
  | .tnewGrant core => Sys2Proof.Machine.execTnewGrant core s
  | .splitPhaseComplete core cmd => Sys2Proof.Machine.execSplitPhaseComplete core cmd s
  | .copyComplete core cmd => Sys2Proof.Machine.execCopyComplete core cmd s
  | .vectorCommandStart core => Sys2Proof.Machine.execVectorCommandStart core s
  | .vectorComplete core => Sys2Proof.Machine.execVectorComplete core s
  | .reductionRelease core fp ip => Sys2Proof.Machine.execReductionRelease core fp ip s
  | .matrixItemStart core acc => Sys2Proof.Machine.execMatrixItemStart core acc s
  | .rowFiring core acc => Sys2Proof.Machine.execRowFiring core acc s
  | .matrixItemFinish core acc => Sys2Proof.Machine.execMatrixItemFinish core acc s
  | .markerItem core acc => Sys2Proof.Machine.execMarkerItem core acc s
  | .bindingRelease core => Sys2Proof.Machine.execBindingRelease core s
  | .gangGrant stack row => Sys2Proof.Machine.execGangGrant stack row s
  | .tbWaiterRelease core => Sys2Proof.Machine.execTbWaiterRelease core s
  | .tbwaitRetry core cmd => Sys2Proof.Machine.execTbwaitRetry core cmd s
  | .barArrival core cmd => Sys2Proof.Machine.execBarArrival core cmd s
  | .collArrival core cmd => Sys2Proof.Machine.execCollArrival core cmd s
  | .updateApply core cmd => Sys2Proof.Machine.execUpdateApply core cmd s
  | .lockGrant node entry => Sys2Proof.Machine.execLockGrant node entry s
  | .timewaitRelease core => Sys2Proof.Machine.execTimewaitRelease core s
  | .timewaitRetry core => Sys2Proof.Machine.execTimewaitRetry core s
  | .syncExchange link => Sys2Proof.Machine.execSyncExchange link s
  | .timeMessage link side => Sys2Proof.Machine.execTimeMessage link side s
  | .holdoverEnter stack => Sys2Proof.Machine.execHoldoverEnter stack s
  | .holdoverTick stack => Sys2Proof.Machine.execHoldoverTick stack s
  | .podSyncExchange off err tiers => Sys2Proof.Machine.execPodSyncExchange off err tiers s
  | .ptpMessage off err => Sys2Proof.Machine.execPtpMessage off err s
  | .flitSend link side => Sys2Proof.Machine.execFlitSend link side s
  | .flitData link side => Sys2Proof.Machine.execFlitData link side s
  | .flitOpen link side => Sys2Proof.Machine.execFlitOpen link side s
  | .flitClose link side => Sys2Proof.Machine.execFlitClose link side s
  | .flitAck link side => Sys2Proof.Machine.execFlitAck link side s
  | .flitIdle link side => Sys2Proof.Machine.execFlitIdle link side s
  | .ackDue link side => Sys2Proof.Machine.execAckDue link side s
  | .retryWindow link side => Sys2Proof.Machine.execRetryWindow link side s
  | .changeProposal link side => Sys2Proof.Machine.execChangeProposal link side s
  | .changeReply link side => Sys2Proof.Machine.execChangeReply link side s
  | .changeQuiesce link side => Sys2Proof.Machine.execChangeQuiesce link side s
  | .changeQuiet link side => Sys2Proof.Machine.execChangeQuiet link side s
  | .retrainStart link side => Sys2Proof.Machine.execRetrainStart link side s
  | .trainingComplete link ok => Sys2Proof.Machine.execTrainingComplete link ok s
  | .linkLoss link side => Sys2Proof.Machine.execLinkLoss link side s
  | .memoryError err => Sys2Proof.Machine.execMemoryError err s
  | .eventSend stack chan => Sys2Proof.Machine.execEventSend stack chan s
  | .saveWrite ctx => Sys2Proof.Machine.execSaveWrite ctx s
  | .taskCompletion task => Sys2Proof.Machine.execTaskCompletion task s
  | .nvmeCompletion core cmd status => Sys2Proof.Machine.execNvmeCompletion core cmd status s
  | .registerWrite offset value => Sys2Proof.Machine.execRegisterWrite offset value s
  | .seedWrite ctx value => Sys2Proof.Machine.execSeedWrite ctx value s
  | .flogrdWrite ctx value => Sys2Proof.Machine.execFlogrdWrite ctx value s
  | .ctxActivate ctx => Sys2Proof.Machine.execCtxActivate ctx s
  | .ctxDestroy ctx => Sys2Proof.Machine.execCtxDestroy ctx s
  | .apertureAccess offset len data => Sys2Proof.Machine.execApertureAccess offset len data s
  | .windowWrite index value => Sys2Proof.Machine.execWindowWrite index value s
  | .ownerkeyWrite key => Sys2Proof.Machine.execOwnerkeyWrite key s
  | .signersWrite index key => Sys2Proof.Machine.execSignersWrite index key s
  | .mboxQuote => Sys2Proof.Machine.execMboxQuote s
  | .mboxLog => Sys2Proof.Machine.execMboxLog s
  | .linkPolicy policy => Sys2Proof.Machine.execLinkPolicy policy s
  | .moduleReset => Sys2Proof.Machine.execModuleReset s
  | .bootStage ok => Sys2Proof.Machine.execBootStage ok s
  | .capEntryFree core index => Sys2Proof.Machine.execCapEntryFree core index s
  | .flitDiscard link side badCrc => Sys2Proof.Machine.execFlitDiscard link side badCrc s
  | .slewComplete stack => Sys2Proof.Machine.execSlewComplete stack s
  | .freeSlotReport core => Sys2Proof.Machine.execFreeSlotReport core s
  | .boardPowerOff => Sys2Proof.Machine.execBoardPowerOff s

end Sys2Proof.Machine
end

