-- ==== Sys2Proof/Machine/Fetch.lean ====
section
/-! DEFINITION. How the operator in execution gets its word (R43, R178), and what it takes to place a word where the next step fetches it (log 12). -/

namespace Sys2Proof.Machine

/-- The word of a firing: the one read when it fired, else that of the resident page of its core. -/
def State.fetch (s : State) (g : Firing) : Option U128 :=
  match g.word with
  | some w => some w
  | none => (s.core g.core).wordAt g.ctx g.obj g.ip

/-- The operands that fire a word: scalars 0, as many as its AR matches (R57). -/
def operandsOf (w : U128) : Option Val × Option Val :=
  match wordForm w with
  | none => (none, none)
  | some (_, f) =>
    match f.ar with
    | .monadic => (none, none)
    | .dyadic | .sticky => (some Val.zero, none)
    | .triadic => (some Val.zero, some Val.zero)

/-- A root frame of class 0 at BASE 0 of core 0, of object 0 (R35, R36). -/
def bootFrame : Frame :=
  { base := 0, gen := 0, cls := 0, vcore := 0, obj := 0, ctx := 0, pfp := 0, rip := 0, rport := false, live := 0, policy := 0, anchor := 0,
    fround := 0, root := true, hostc := true, abort := false, freepend := false, tmode := 0, task := 0, worker := none, probe := false,
    owes := false, pobj := none, arms := [], born := 0, stamp := 0, released := [], slots := [] }

/-- Page 0 of object 0 with a word at IP 0 (R178). -/
def bootPage (w : U128) : PageFrame := { ctx := 0, obj := 0, page := 0, words := [(0, w)], stamp := 0 }

/-- The operator at IP 0 of the boot page in its cycle of execution, with its operands. -/
def bootFiring (w : U128) : Firing :=
  { core := 0, fp := 0, ip := 0, ctx := 0, obj := 0, task := 0, port := false, l := Val.zero, r := (operandsOf w).1, t := (operandsOf w).2,
    replay := none, word := none, recorded := false }

/-- A word placed so that the next step fetches it: it stands for the bring-up of R472 and the load, binding and match that lead
to it (log 12). Context 0 is active on its region, core 0 holds the page and a frame, and the operator has fired. -/
def State.place0 (s : State) (w : U128) : State :=
  let c := s.ctx 0
  let k := s.core 0
  { (s.setCtx 0 { c with phase := .active, wm1 := max 1 c.wm1, hm1 := max 1 c.hm1 }).setCore 0
      { k with ctx := some 0, vcore := 0, frames := [bootFrame], pages := [bootPage w] } with
    cur := some (bootFiring w) }

end Sys2Proof.Machine
end

