-- ==== Sys2Proof/Machine/Step.lean ====
section
/-! DEFINITION. One step of the machine: the operator in execution, else a step that follows at once, else the next event of the schedule, else an event chosen freely (log 1, log 11). -/

namespace Sys2Proof.Machine

/-- One step. -/
def step (s : State) : Host.Outcome State Fault Refusal :=
  if !s.mod.powered then .fault .noPower
  else
    match s.cur with
    | some g =>
      match s.fetch g with
      | none => .fault .noCode
      | some w =>
        match decode w with
        | .ok i => exec i { s with cur := some { g with word := some w } }
        | .reject _ => .fault .illegalWord
    | none =>
      match s.due with
      | i :: rest => exec i { s with due := rest }
      | [] =>
        match s.agenda with
        | (d, i) :: rest => exec i { s.pass (fun _ => d) with agenda := rest }
        | [] => s.freeStep

/-- A state in which the next step fetches and runs the instruction of the given bits (log 12). -/
def State.withFetchWord (s : State) (nbits w : Nat) : State := s.place0 (wordOfBytes (wordBytes (BitVec.ofNat 128 (w % 2 ^ nbits))))

end Sys2Proof.Machine
end

