-- ==== Sys2Proof/Safety.lean ====
section
/-! DEFINITION. The terms in which claims about the machine are stated: firings whose operands are plain, memories in canonical form, states whose clocks and modes are legal. -/

namespace Sys2Proof.Machine

/-! ## Firings -/

/-- No operand is a fault token, a marker or a null: steps 1 to 3 of R53 let the firing through. -/
abbrev Firing.plain (g : Firing) : Prop := ∀ v ∈ g.vals, v.kind ≠ .fault ∧ v.kind ≠ .marker ∧ v.kind ≠ .null

/-- Every operand is a scalar. -/
abbrev Firing.scalars (g : Firing) : Prop := ∀ v ∈ g.vals, v.kind = .scalar

/-! ## Tokens on their way -/

/-- The token that a destination of an operator takes can be delivered: its frame lies in the region of the context (R165), and a
parent destination is not a host continuation (R59). A destination that discards asks nothing. -/
def State.reaches (s : State) (g : Firing) (d : Dest) : Prop :=
  match d.mode with
  | .discard => True
  | .same => (s.fpCore g.ctx g.fp).isSome = true
  | .parent => ∃ fr, (s.core g.core).anyFrame? g.fp = some fr ∧ fr.hostc = false ∧ (s.fpCore g.ctx fr.pfp).isSome = true
  | .operand => ∀ fp, s.destFp g d = some fp → (s.fpCore g.ctx fp).isSome = true

/-- Both destinations can be delivered to, and the firing is no replayed command, whose outputs go to the tape engine (R140). -/
def State.delivers (s : State) (g : Firing) (f : Fields) : Prop :=
  g.replay = none ∧ s.reaches g f.d0 ∧ s.reaches g f.d1

/-- What the sending of tokens does and no more: messages join the inboxes of cores and the output queues of link ends, a context that
reported its quiescence may report it anew (R195), and everything else of the machine stays: every register, flag, frame, tile,
capability, engine, memory and clock. -/
def State.onlyTokens (s t : State) : Prop :=
  { t with cores := [], ctxs := [], links := [] } = { s with cores := [], ctxs := [], links := [] } ∧
  (∀ c, ∃ l, t.core c = { s.core c with inbox := (s.core c).inbox ++ l }) ∧
  (∀ n, t.ctx n = s.ctx n ∨ t.ctx n = { s.ctx n with quiet := false }) ∧
  (∀ l side, ∃ o, t.link l side = { s.link l side with out := (s.link l side).out ++ o })

/-! ## Memories -/

/-- Every memory of the machine is in its canonical form. -/
abbrev State.memOk (s : State) : Prop := s.hbm.wf ∧ s.vault.wf ∧ s.host.wf ∧ s.storage.wf

/-! ## Numbers -/

/-- The rational number of a finite encoding of a floating-point type; none for an infinity or a NaN (R85). -/
def floatRat (t : EType) (bits : Nat) : Option Rat :=
  match decodeFloat t bits with
  | .fin neg n u => some (if neg then -((n : Rat) / 2 ^ u) else (n : Rat) / 2 ^ u)
  | _ => none

end Sys2Proof.Machine
end

