-- ==== Sys2Proof/Laws/Operands.lean ====
section
/-! SUPPORT. What the checks of R53 do with a firing, said once: an operator that is in execution on plain operands of accepted kinds has its own effect; a fault token is forwarded, a null is treated under NP, a wrong kind faults. -/

namespace Sys2Proof.Machine

variable {s : State} {g : Firing} {n : Need} {f : Fields}

/-- With an operator in execution, its effect happens in the state in which it has left its cycle. -/
theorem State.execute_some {k : State → Firing → State} (h : s.cur = some g) : s.execute k = k s.retire g := by
  simp [State.execute, h]

/-- With no operator in execution nothing happens. -/
theorem State.execute_none {k : State → Firing → State} (h : s.cur = none) : s.execute k = s := by
  simp [State.execute, h]

/-- Plain operands of accepted kinds pass the checks unchanged. -/
theorem Need.check_plain (hp : g.plain) (hk : kindsOk n g.l g.r g.t = true) : n.check f g = .go g.l g.r g.t := by
  have h1 : g.vals.find? (fun v => v.kind = .fault) = none := by
    simp only [List.find?_eq_none, decide_eq_true_eq]; exact fun v hv => (hp v hv).1
  have h2 : (g.l :: g.r.toList).find? (fun v => v.kind = .marker) = none := by
    simp only [List.find?_eq_none, decide_eq_true_eq]
    intro v hv
    refine (hp v ?_).2.1
    simp only [Firing.vals, List.mem_cons, List.mem_append] at hv ⊢
    grind
  have h3 : g.vals.any (fun v => decide (v.kind = .null)) = false := by
    simp only [List.any_eq_false, decide_eq_true_eq]; exact fun v hv => (hp v hv).2.2
  unfold Need.check
  simp [h1, h2, h3, hk]

/-- An operator in execution on plain operands of accepted kinds has its own effect. -/
theorem State.operate_plain {k : State → Firing → Val → Option Val → Option Val → State} (h : s.cur = some g) (hp : g.plain)
    (hk : kindsOk n g.l g.r g.t = true) : s.operate n f k = k s.retire g g.l g.r g.t := by
  rw [State.operate, State.execute_some h, State.checked, Need.check_plain hp hk]

/-- Scalars are plain. -/
theorem Firing.scalars.plain (h : g.scalars) : g.plain := fun v hv => by simp [h v hv]

/-- Scalars are accepted wherever an operator takes scalars. -/
theorem kindsOk_scalars (h : g.scalars) (hl : n.kl .scalar = true) (hr : n.kr .scalar = true) (ht : n.kt .scalar = true) :
    kindsOk n g.l g.r g.t = true := by
  have e (v : Val) (hv : v ∈ g.vals) : v.kind = .scalar := h v hv
  unfold kindsOk
  cases hgr : g.r <;> cases hgt : g.t <;> simp_all [Firing.vals]

/-- Every KIND is accepted by an operator that takes any. -/
theorem kindsOk_any (l : Val) (r t : Option Val) : kindsOk Need.any l r t = true := by
  cases r <;> cases t <;> rfl

/-- An operator of scalars on scalars. -/
theorem State.operate_scalars {k : State → Firing → Val → Option Val → Option Val → State} (h : s.cur = some g)
    (hs : g.scalars) (hl : n.kl .scalar = true) (hr : n.kr .scalar = true) (ht : n.kt .scalar = true) :
    s.operate n f k = k s.retire g g.l g.r g.t :=
  State.operate_plain h hs.plain (kindsOk_scalars hs hl hr ht)

end Sys2Proof.Machine
end

