-- ==== Sys2Proof/Laws/Memory.lean ====
section
/-! SUPPORT. Tables and memories: what is read after a write, and that every operation keeps the canonical form. -/

namespace Sys2Proof.Machine

variable {α : Type}

/-! ## Tables -/

/-- Every key of a table lies above a bound. -/
def Table.above (b : Nat) (t : List (Nat × α)) : Prop := ∀ e ∈ t, b < e.1

theorem Table.wf_cons {k : Nat} {v : α} {t : List (Nat × α)} :
    Table.wf ((k, v) :: t) = true ↔ Table.above k t ∧ Table.wf t = true := by
  induction t generalizing k v with
  | nil => simp [Table.wf, Table.above]
  | cons e t ih =>
    obtain ⟨k', v'⟩ := e
    have h : Table.wf ((k, v) :: (k', v') :: t) = (decide (k < k') && Table.wf ((k', v') :: t)) := rfl
    rw [h, Bool.and_eq_true, decide_eq_true_eq]
    constructor
    · rintro ⟨h1, h2⟩
      refine ⟨?_, h2⟩
      intro e he
      rcases List.mem_cons.mp he with rfl | he
      · exact h1
      · exact Nat.lt_trans h1 ((ih.mp h2).1 e he)
    · rintro ⟨h1, h2⟩
      exact ⟨h1 _ (List.mem_cons_self ..), h2⟩

/-- What is found at a key after a put. -/
theorem Table.find_put (t : List (Nat × α)) (k k' : Nat) (v : α) :
    Table.find (Table.put t k v) k' = if k = k' then some v else Table.find t k' := by
  induction t with
  | nil => simp [Table.put, Table.find]
  | cons e t ih =>
    obtain ⟨a, x⟩ := e
    unfold Table.put
    by_cases h1 : k < a
    · rw [if_pos h1]; simp only [Table.find]
    · rw [if_neg h1]
      by_cases h2 : k = a
      · rw [if_pos h2]; subst h2; simp only [Table.find]; grind
      · rw [if_neg h2]; simp only [Table.find, ih]; grind

/-- What is found at a key after a deletion. -/
theorem Table.find_del (t : List (Nat × α)) (k k' : Nat) :
    Table.find (Table.del t k) k' = if k = k' then none else Table.find t k' := by
  induction t with
  | nil => simp [Table.del, Table.find]
  | cons e t ih =>
    obtain ⟨a, x⟩ := e
    simp only [Table.del, Table.find]
    by_cases h : a = k
    · rw [if_pos h, ih]; grind
    · rw [if_neg h]; simp only [Table.find, ih]; grind

/-- What a key reads as after a put. -/
theorem Table.look_put (d : α) (t : List (Nat × α)) (k k' : Nat) (v : α) :
    Table.look d (Table.put t k v) k' = if k = k' then v else Table.look d t k' := by
  unfold Table.look; rw [Table.find_put]; split <;> rfl

@[simp] theorem Table.look_put_same (d : α) (t : List (Nat × α)) (k : Nat) (v : α) :
    Table.look d (Table.put t k v) k = v := by rw [Table.look_put, if_pos rfl]

theorem Table.look_put_ne (d : α) (t : List (Nat × α)) {k k' : Nat} (v : α) (h : k ≠ k') :
    Table.look d (Table.put t k v) k' = Table.look d t k' := by rw [Table.look_put, if_neg h]

/-- A put adds one entry and takes none but the old one of its key. -/
theorem Table.mem_put {t : List (Nat × α)} {k : Nat} {v : α} {e : Nat × α} (h : e ∈ Table.put t k v) : e = (k, v) ∨ e ∈ t := by
  induction t with
  | nil => simp [Table.put] at h; exact .inl h
  | cons x t ih =>
    obtain ⟨a, y⟩ := x
    unfold Table.put at h
    split at h
    · exact (List.mem_cons.mp h)
    · split at h
      · rcases List.mem_cons.mp h with h | h
        · exact .inl h
        · exact .inr (List.mem_cons_of_mem _ h)
      · rcases List.mem_cons.mp h with h | h
        · exact .inr (h ▸ List.mem_cons_self ..)
        · rcases ih h with h | h
          · exact .inl h
          · exact .inr (List.mem_cons_of_mem _ h)

/-- A deletion adds nothing. -/
theorem Table.mem_del {t : List (Nat × α)} {k : Nat} {e : Nat × α} (h : e ∈ Table.del t k) : e ∈ t := by
  induction t with
  | nil => simp [Table.del] at h
  | cons x t ih =>
    obtain ⟨a, y⟩ := x
    simp only [Table.del] at h
    split at h
    · exact List.mem_cons_of_mem _ (ih h)
    · rcases List.mem_cons.mp h with h | h
      · exact h ▸ List.mem_cons_self ..
      · exact List.mem_cons_of_mem _ (ih h)

/-- A put keeps the keys rising. -/
theorem Table.wf_put {t : List (Nat × α)} (h : Table.wf t = true) (k : Nat) (v : α) : Table.wf (Table.put t k v) = true := by
  induction t with
  | nil => rfl
  | cons e t ih =>
    obtain ⟨a, x⟩ := e
    have ⟨h1, h2⟩ := Table.wf_cons.mp h
    unfold Table.put
    split
    · rename_i hk
      refine Table.wf_cons.mpr ⟨?_, h⟩
      intro e he
      rcases List.mem_cons.mp he with rfl | he
      · exact hk
      · exact Nat.lt_trans hk (h1 e he)
    · split
      · rename_i hk; subst hk
        exact Table.wf_cons.mpr ⟨h1, h2⟩
      · rename_i hk hk2
        refine Table.wf_cons.mpr ⟨?_, ih h2⟩
        intro e he
        rcases Table.mem_put he with rfl | he
        · show a < k; omega
        · exact h1 e he

/-- A deletion keeps the keys rising. -/
theorem Table.wf_del {t : List (Nat × α)} (h : Table.wf t = true) (k : Nat) : Table.wf (Table.del t k) = true := by
  induction t with
  | nil => rfl
  | cons e t ih =>
    obtain ⟨a, x⟩ := e
    have ⟨h1, h2⟩ := Table.wf_cons.mp h
    simp only [Table.del]
    split
    · exact ih h2
    · exact Table.wf_cons.mpr ⟨fun e he => h1 e (Table.mem_del he), ih h2⟩

/-- A selection of entries keeps the keys rising. -/
theorem Table.wf_filter {t : List (Nat × α)} (h : Table.wf t = true) (p : Nat × α → Bool) : Table.wf (t.filter p) = true := by
  induction t with
  | nil => rfl
  | cons e t ih =>
    obtain ⟨a, x⟩ := e
    have ⟨h1, h2⟩ := Table.wf_cons.mp h
    rw [List.filter_cons]
    split
    · exact Table.wf_cons.mpr ⟨fun e he => h1 e (List.mem_filter.mp he).1, ih h2⟩
    · exact ih h2

/-! ## Memories -/

/-- The byte read at an address after a byte was written. -/
theorem Memory.read_write (m : Memory) (a a' : Nat) (b : Byte) :
    (m.write a b).read a' = if a = a' then b else m.read a' := by
  unfold Memory.write Memory.read
  split
  · rename_i hb
    unfold Table.look
    rw [Table.find_del]
    split
    · exact hb.symm
    · rfl
  · exact Table.look_put _ _ _ _ _

/-- A write of a byte keeps the canonical form. -/
theorem Memory.write_wf {m : Memory} (h : m.wf) (a : Nat) (b : Byte) : (m.write a b).wf := by
  unfold Memory.write
  split
  · exact ⟨Table.wf_del h.1 a, fun c hc => h.2 c (Table.mem_del hc)⟩
  · rename_i hb
    refine ⟨Table.wf_put h.1 a b, fun c hc => ?_⟩
    rcases Table.mem_put hc with rfl | hc
    · exact hb
    · exact h.2 c hc

/-- A write of bytes keeps the canonical form. -/
theorem Memory.writeBytes_wf {m : Memory} (h : m.wf) (a : Nat) (bs : List Byte) : (m.writeBytes a bs).wf := by
  induction bs generalizing m a with
  | nil => exact h
  | cons b t ih => exact ih (Memory.write_wf h a b) (a + 1)

/-- A selection of entries keeps the canonical form. -/
theorem Memory.filter_wf {m : Memory} (h : m.wf) (p : Host.Cell → Bool) : Memory.wf (List.filter p m) :=
  ⟨Table.wf_filter h.1 p, fun c hc => h.2 c (List.mem_filter.mp hc).1⟩

/-- The byte read at an address after bytes were written. -/
theorem Memory.read_writeBytes (m : Memory) (a a' : Nat) (bs : List Byte) :
    (m.writeBytes a bs).read a' = if a ≤ a' ∧ a' < a + bs.length then bs.getD (a' - a) 0 else m.read a' := by
  induction bs generalizing m a with
  | nil => simp [Memory.writeBytes] <;> omega
  | cons b t ih =>
    simp only [Memory.writeBytes, ih, Memory.read_write, List.length_cons]
    by_cases h1 : a = a'
    · subst h1; simp <;> omega
    · by_cases h2 : a + 1 ≤ a' ∧ a' < a + 1 + t.length
      · have h3 : a ≤ a' ∧ a' < a + (t.length + 1) := by omega
        have h4 : a' - a = (a' - (a + 1)) + 1 := by omega
        rw [if_pos h2, if_pos h3, h4]; simp
      · have h3 : ¬ (a ≤ a' ∧ a' < a + (t.length + 1)) := by omega
        rw [if_neg h2, if_neg h3, if_neg h1]

/-- Bytes written are read back. -/
theorem Memory.readBytes_writeBytes (m : Memory) (a : Nat) (bs : List Byte) :
    (m.writeBytes a bs).readBytes a bs.length = bs := by
  induction bs generalizing m a with
  | nil => rfl
  | cons b t ih =>
    have h : (m.writeBytes a (b :: t)).read a = b := by rw [Memory.read_writeBytes]; simp
    simp only [List.length_cons, Memory.readBytes, h]
    exact congrArg (b :: ·) (ih (m.write a b) (a + 1))

/-- A number of n bytes comes back from its bytes (R7). -/
theorem leNat_natLe (n x : Nat) : leNat (natLe n x) = x % 256 ^ n := by
  induction n generalizing x with
  | zero => simp [natLe, leNat, Nat.mod_one]
  | succ n ih =>
    have h : (BitVec.ofNat 8 x).toNat = x % 256 := BitVec.toNat_ofNat ..
    simp only [natLe, leNat, ih, h]
    rw [Nat.pow_succ, Nat.mul_comm (256 ^ n) 256, Nat.mod_mul]

end Sys2Proof.Machine
end

