-- ==== Sys2Proof/Laws/State.lean ====
section
/-! SUPPORT. What each update of the state leaves as it was, one fact per field, and what is read back. -/

namespace Sys2Proof.Machine

variable (s : State)

/-! ## setCore -/

@[simp] theorem State.setCore_cur (c : Nat) (k : Core) : (s.setCore c k).cur = s.cur := rfl
@[simp] theorem State.setCore_due (c : Nat) (k : Core) : (s.setCore c k).due = s.due := rfl
@[simp] theorem State.setCore_agenda (c : Nat) (k : Core) : (s.setCore c k).agenda = s.agenda := rfl
@[simp] theorem State.setCore_clock (c : Nat) (k : Core) : (s.setCore c k).clock = s.clock := rfl
@[simp] theorem State.setCore_free (c : Nat) (k : Core) : (s.setCore c k).free = s.free := rfl
@[simp] theorem State.setCore_ids (c : Nat) (k : Core) : (s.setCore c k).ids = s.ids := rfl
@[simp] theorem State.setCore_stacks (c : Nat) (k : Core) : (s.setCore c k).stackTab = s.stackTab := rfl
@[simp] theorem State.setCore_ctxs (c : Nat) (k : Core) : (s.setCore c k).ctxs = s.ctxs := rfl
@[simp] theorem State.setCore_tapes (c : Nat) (k : Core) : (s.setCore c k).tapes = s.tapes := rfl
@[simp] theorem State.setCore_tasks (c : Nat) (k : Core) : (s.setCore c k).tasks = s.tasks := rfl
@[simp] theorem State.setCore_pushers (c : Nat) (k : Core) : (s.setCore c k).pushers = s.pushers := rfl
@[simp] theorem State.setCore_links (c : Nat) (k : Core) : (s.setCore c k).links = s.links := rfl
@[simp] theorem State.setCore_chans (c : Nat) (k : Core) : (s.setCore c k).chans = s.chans := rfl
@[simp] theorem State.setCore_locks (c : Nat) (k : Core) : (s.setCore c k).locks = s.locks := rfl
@[simp] theorem State.setCore_props (c : Nat) (k : Core) : (s.setCore c k).props = s.props := rfl
@[simp] theorem State.setCore_streams (c : Nat) (k : Core) : (s.setCore c k).streams = s.streams := rfl
@[simp] theorem State.setCore_gangs (c : Nat) (k : Core) : (s.setCore c k).gangs = s.gangs := rfl
@[simp] theorem State.setCore_linkReqs (c : Nat) (k : Core) : (s.setCore c k).linkReqs = s.linkReqs := rfl
@[simp] theorem State.setCore_saved (c : Nat) (k : Core) : (s.setCore c k).saved = s.saved := rfl
@[simp] theorem State.setCore_mod (c : Nat) (k : Core) : (s.setCore c k).mod = s.mod := rfl
@[simp] theorem State.setCore_hbm (c : Nat) (k : Core) : (s.setCore c k).hbm = s.hbm := rfl
@[simp] theorem State.setCore_vault (c : Nat) (k : Core) : (s.setCore c k).vault = s.vault := rfl
@[simp] theorem State.setCore_host (c : Nat) (k : Core) : (s.setCore c k).host = s.host := rfl
@[simp] theorem State.setCore_storage (c : Nat) (k : Core) : (s.setCore c k).storage = s.storage := rfl
@[simp] theorem State.setCore_stack (c : Nat) (k : Core) (n' : Nat) : (s.setCore c k).stack n' = s.stack n' := rfl
@[simp] theorem State.setCore_ctx (c : Nat) (k : Core) (n' : Nat) : (s.setCore c k).ctx n' = s.ctx n' := rfl
@[simp] theorem State.setCore_engine (c : Nat) (k : Core) (q' : Nat) : (s.setCore c k).engine q' = s.engine q' := rfl
@[simp] theorem State.setCore_task_of (c : Nat) (k : Core) (n' : Nat) : (s.setCore c k).task? n' = s.task? n' := rfl
@[simp] theorem State.setCore_link (c : Nat) (k : Core) (l' side' : Nat) : (s.setCore c k).link l' side' = s.link l' side' := rfl

/-! ## modCore -/

@[simp] theorem State.modCore_cur (c : Nat) (f : Core → Core) : (s.modCore c f).cur = s.cur := rfl
@[simp] theorem State.modCore_due (c : Nat) (f : Core → Core) : (s.modCore c f).due = s.due := rfl
@[simp] theorem State.modCore_agenda (c : Nat) (f : Core → Core) : (s.modCore c f).agenda = s.agenda := rfl
@[simp] theorem State.modCore_clock (c : Nat) (f : Core → Core) : (s.modCore c f).clock = s.clock := rfl
@[simp] theorem State.modCore_free (c : Nat) (f : Core → Core) : (s.modCore c f).free = s.free := rfl
@[simp] theorem State.modCore_ids (c : Nat) (f : Core → Core) : (s.modCore c f).ids = s.ids := rfl
@[simp] theorem State.modCore_stacks (c : Nat) (f : Core → Core) : (s.modCore c f).stackTab = s.stackTab := rfl
@[simp] theorem State.modCore_ctxs (c : Nat) (f : Core → Core) : (s.modCore c f).ctxs = s.ctxs := rfl
@[simp] theorem State.modCore_tapes (c : Nat) (f : Core → Core) : (s.modCore c f).tapes = s.tapes := rfl
@[simp] theorem State.modCore_tasks (c : Nat) (f : Core → Core) : (s.modCore c f).tasks = s.tasks := rfl
@[simp] theorem State.modCore_pushers (c : Nat) (f : Core → Core) : (s.modCore c f).pushers = s.pushers := rfl
@[simp] theorem State.modCore_links (c : Nat) (f : Core → Core) : (s.modCore c f).links = s.links := rfl
@[simp] theorem State.modCore_chans (c : Nat) (f : Core → Core) : (s.modCore c f).chans = s.chans := rfl
@[simp] theorem State.modCore_locks (c : Nat) (f : Core → Core) : (s.modCore c f).locks = s.locks := rfl
@[simp] theorem State.modCore_props (c : Nat) (f : Core → Core) : (s.modCore c f).props = s.props := rfl
@[simp] theorem State.modCore_streams (c : Nat) (f : Core → Core) : (s.modCore c f).streams = s.streams := rfl
@[simp] theorem State.modCore_gangs (c : Nat) (f : Core → Core) : (s.modCore c f).gangs = s.gangs := rfl
@[simp] theorem State.modCore_linkReqs (c : Nat) (f : Core → Core) : (s.modCore c f).linkReqs = s.linkReqs := rfl
@[simp] theorem State.modCore_saved (c : Nat) (f : Core → Core) : (s.modCore c f).saved = s.saved := rfl
@[simp] theorem State.modCore_mod (c : Nat) (f : Core → Core) : (s.modCore c f).mod = s.mod := rfl
@[simp] theorem State.modCore_hbm (c : Nat) (f : Core → Core) : (s.modCore c f).hbm = s.hbm := rfl
@[simp] theorem State.modCore_vault (c : Nat) (f : Core → Core) : (s.modCore c f).vault = s.vault := rfl
@[simp] theorem State.modCore_host (c : Nat) (f : Core → Core) : (s.modCore c f).host = s.host := rfl
@[simp] theorem State.modCore_storage (c : Nat) (f : Core → Core) : (s.modCore c f).storage = s.storage := rfl
@[simp] theorem State.modCore_stack (c : Nat) (f : Core → Core) (n' : Nat) : (s.modCore c f).stack n' = s.stack n' := rfl
@[simp] theorem State.modCore_ctx (c : Nat) (f : Core → Core) (n' : Nat) : (s.modCore c f).ctx n' = s.ctx n' := rfl
@[simp] theorem State.modCore_engine (c : Nat) (f : Core → Core) (q' : Nat) : (s.modCore c f).engine q' = s.engine q' := rfl
@[simp] theorem State.modCore_task_of (c : Nat) (f : Core → Core) (n' : Nat) : (s.modCore c f).task? n' = s.task? n' := rfl
@[simp] theorem State.modCore_link (c : Nat) (f : Core → Core) (l' side' : Nat) : (s.modCore c f).link l' side' = s.link l' side' := rfl

/-! ## setStack -/

@[simp] theorem State.setStack_cur (n : Nat) (k : Stack) : (s.setStack n k).cur = s.cur := rfl
@[simp] theorem State.setStack_due (n : Nat) (k : Stack) : (s.setStack n k).due = s.due := rfl
@[simp] theorem State.setStack_agenda (n : Nat) (k : Stack) : (s.setStack n k).agenda = s.agenda := rfl
@[simp] theorem State.setStack_clock (n : Nat) (k : Stack) : (s.setStack n k).clock = s.clock := rfl
@[simp] theorem State.setStack_free (n : Nat) (k : Stack) : (s.setStack n k).free = s.free := rfl
@[simp] theorem State.setStack_ids (n : Nat) (k : Stack) : (s.setStack n k).ids = s.ids := rfl
@[simp] theorem State.setStack_cores (n : Nat) (k : Stack) : (s.setStack n k).cores = s.cores := rfl
@[simp] theorem State.setStack_ctxs (n : Nat) (k : Stack) : (s.setStack n k).ctxs = s.ctxs := rfl
@[simp] theorem State.setStack_tapes (n : Nat) (k : Stack) : (s.setStack n k).tapes = s.tapes := rfl
@[simp] theorem State.setStack_tasks (n : Nat) (k : Stack) : (s.setStack n k).tasks = s.tasks := rfl
@[simp] theorem State.setStack_pushers (n : Nat) (k : Stack) : (s.setStack n k).pushers = s.pushers := rfl
@[simp] theorem State.setStack_links (n : Nat) (k : Stack) : (s.setStack n k).links = s.links := rfl
@[simp] theorem State.setStack_chans (n : Nat) (k : Stack) : (s.setStack n k).chans = s.chans := rfl
@[simp] theorem State.setStack_locks (n : Nat) (k : Stack) : (s.setStack n k).locks = s.locks := rfl
@[simp] theorem State.setStack_props (n : Nat) (k : Stack) : (s.setStack n k).props = s.props := rfl
@[simp] theorem State.setStack_streams (n : Nat) (k : Stack) : (s.setStack n k).streams = s.streams := rfl
@[simp] theorem State.setStack_gangs (n : Nat) (k : Stack) : (s.setStack n k).gangs = s.gangs := rfl
@[simp] theorem State.setStack_linkReqs (n : Nat) (k : Stack) : (s.setStack n k).linkReqs = s.linkReqs := rfl
@[simp] theorem State.setStack_saved (n : Nat) (k : Stack) : (s.setStack n k).saved = s.saved := rfl
@[simp] theorem State.setStack_mod (n : Nat) (k : Stack) : (s.setStack n k).mod = s.mod := rfl
@[simp] theorem State.setStack_hbm (n : Nat) (k : Stack) : (s.setStack n k).hbm = s.hbm := rfl
@[simp] theorem State.setStack_vault (n : Nat) (k : Stack) : (s.setStack n k).vault = s.vault := rfl
@[simp] theorem State.setStack_host (n : Nat) (k : Stack) : (s.setStack n k).host = s.host := rfl
@[simp] theorem State.setStack_storage (n : Nat) (k : Stack) : (s.setStack n k).storage = s.storage := rfl
@[simp] theorem State.setStack_core (n : Nat) (k : Stack) (c' : Nat) : (s.setStack n k).core c' = s.core c' := rfl
@[simp] theorem State.setStack_ctx (n : Nat) (k : Stack) (n' : Nat) : (s.setStack n k).ctx n' = s.ctx n' := rfl
@[simp] theorem State.setStack_engine (n : Nat) (k : Stack) (q' : Nat) : (s.setStack n k).engine q' = s.engine q' := rfl
@[simp] theorem State.setStack_task_of (n : Nat) (k : Stack) (n' : Nat) : (s.setStack n k).task? n' = s.task? n' := rfl
@[simp] theorem State.setStack_link (n : Nat) (k : Stack) (l' side' : Nat) : (s.setStack n k).link l' side' = s.link l' side' := rfl

/-! ## modStack -/

@[simp] theorem State.modStack_cur (n : Nat) (f : Stack → Stack) : (s.modStack n f).cur = s.cur := rfl
@[simp] theorem State.modStack_due (n : Nat) (f : Stack → Stack) : (s.modStack n f).due = s.due := rfl
@[simp] theorem State.modStack_agenda (n : Nat) (f : Stack → Stack) : (s.modStack n f).agenda = s.agenda := rfl
@[simp] theorem State.modStack_clock (n : Nat) (f : Stack → Stack) : (s.modStack n f).clock = s.clock := rfl
@[simp] theorem State.modStack_free (n : Nat) (f : Stack → Stack) : (s.modStack n f).free = s.free := rfl
@[simp] theorem State.modStack_ids (n : Nat) (f : Stack → Stack) : (s.modStack n f).ids = s.ids := rfl
@[simp] theorem State.modStack_cores (n : Nat) (f : Stack → Stack) : (s.modStack n f).cores = s.cores := rfl
@[simp] theorem State.modStack_ctxs (n : Nat) (f : Stack → Stack) : (s.modStack n f).ctxs = s.ctxs := rfl
@[simp] theorem State.modStack_tapes (n : Nat) (f : Stack → Stack) : (s.modStack n f).tapes = s.tapes := rfl
@[simp] theorem State.modStack_tasks (n : Nat) (f : Stack → Stack) : (s.modStack n f).tasks = s.tasks := rfl
@[simp] theorem State.modStack_pushers (n : Nat) (f : Stack → Stack) : (s.modStack n f).pushers = s.pushers := rfl
@[simp] theorem State.modStack_links (n : Nat) (f : Stack → Stack) : (s.modStack n f).links = s.links := rfl
@[simp] theorem State.modStack_chans (n : Nat) (f : Stack → Stack) : (s.modStack n f).chans = s.chans := rfl
@[simp] theorem State.modStack_locks (n : Nat) (f : Stack → Stack) : (s.modStack n f).locks = s.locks := rfl
@[simp] theorem State.modStack_props (n : Nat) (f : Stack → Stack) : (s.modStack n f).props = s.props := rfl
@[simp] theorem State.modStack_streams (n : Nat) (f : Stack → Stack) : (s.modStack n f).streams = s.streams := rfl
@[simp] theorem State.modStack_gangs (n : Nat) (f : Stack → Stack) : (s.modStack n f).gangs = s.gangs := rfl
@[simp] theorem State.modStack_linkReqs (n : Nat) (f : Stack → Stack) : (s.modStack n f).linkReqs = s.linkReqs := rfl
@[simp] theorem State.modStack_saved (n : Nat) (f : Stack → Stack) : (s.modStack n f).saved = s.saved := rfl
@[simp] theorem State.modStack_mod (n : Nat) (f : Stack → Stack) : (s.modStack n f).mod = s.mod := rfl
@[simp] theorem State.modStack_hbm (n : Nat) (f : Stack → Stack) : (s.modStack n f).hbm = s.hbm := rfl
@[simp] theorem State.modStack_vault (n : Nat) (f : Stack → Stack) : (s.modStack n f).vault = s.vault := rfl
@[simp] theorem State.modStack_host (n : Nat) (f : Stack → Stack) : (s.modStack n f).host = s.host := rfl
@[simp] theorem State.modStack_storage (n : Nat) (f : Stack → Stack) : (s.modStack n f).storage = s.storage := rfl
@[simp] theorem State.modStack_core (n : Nat) (f : Stack → Stack) (c' : Nat) : (s.modStack n f).core c' = s.core c' := rfl
@[simp] theorem State.modStack_ctx (n : Nat) (f : Stack → Stack) (n' : Nat) : (s.modStack n f).ctx n' = s.ctx n' := rfl
@[simp] theorem State.modStack_engine (n : Nat) (f : Stack → Stack) (q' : Nat) : (s.modStack n f).engine q' = s.engine q' := rfl
@[simp] theorem State.modStack_task_of (n : Nat) (f : Stack → Stack) (n' : Nat) : (s.modStack n f).task? n' = s.task? n' := rfl
@[simp] theorem State.modStack_link (n : Nat) (f : Stack → Stack) (l' side' : Nat) : (s.modStack n f).link l' side' = s.link l' side' := rfl

/-! ## setCtx -/

@[simp] theorem State.setCtx_cur (n : Nat) (k : Ctx) : (s.setCtx n k).cur = s.cur := rfl
@[simp] theorem State.setCtx_due (n : Nat) (k : Ctx) : (s.setCtx n k).due = s.due := rfl
@[simp] theorem State.setCtx_agenda (n : Nat) (k : Ctx) : (s.setCtx n k).agenda = s.agenda := rfl
@[simp] theorem State.setCtx_clock (n : Nat) (k : Ctx) : (s.setCtx n k).clock = s.clock := rfl
@[simp] theorem State.setCtx_free (n : Nat) (k : Ctx) : (s.setCtx n k).free = s.free := rfl
@[simp] theorem State.setCtx_ids (n : Nat) (k : Ctx) : (s.setCtx n k).ids = s.ids := rfl
@[simp] theorem State.setCtx_cores (n : Nat) (k : Ctx) : (s.setCtx n k).cores = s.cores := rfl
@[simp] theorem State.setCtx_stacks (n : Nat) (k : Ctx) : (s.setCtx n k).stackTab = s.stackTab := rfl
@[simp] theorem State.setCtx_tapes (n : Nat) (k : Ctx) : (s.setCtx n k).tapes = s.tapes := rfl
@[simp] theorem State.setCtx_tasks (n : Nat) (k : Ctx) : (s.setCtx n k).tasks = s.tasks := rfl
@[simp] theorem State.setCtx_pushers (n : Nat) (k : Ctx) : (s.setCtx n k).pushers = s.pushers := rfl
@[simp] theorem State.setCtx_links (n : Nat) (k : Ctx) : (s.setCtx n k).links = s.links := rfl
@[simp] theorem State.setCtx_chans (n : Nat) (k : Ctx) : (s.setCtx n k).chans = s.chans := rfl
@[simp] theorem State.setCtx_locks (n : Nat) (k : Ctx) : (s.setCtx n k).locks = s.locks := rfl
@[simp] theorem State.setCtx_props (n : Nat) (k : Ctx) : (s.setCtx n k).props = s.props := rfl
@[simp] theorem State.setCtx_streams (n : Nat) (k : Ctx) : (s.setCtx n k).streams = s.streams := rfl
@[simp] theorem State.setCtx_gangs (n : Nat) (k : Ctx) : (s.setCtx n k).gangs = s.gangs := rfl
@[simp] theorem State.setCtx_linkReqs (n : Nat) (k : Ctx) : (s.setCtx n k).linkReqs = s.linkReqs := rfl
@[simp] theorem State.setCtx_saved (n : Nat) (k : Ctx) : (s.setCtx n k).saved = s.saved := rfl
@[simp] theorem State.setCtx_mod (n : Nat) (k : Ctx) : (s.setCtx n k).mod = s.mod := rfl
@[simp] theorem State.setCtx_hbm (n : Nat) (k : Ctx) : (s.setCtx n k).hbm = s.hbm := rfl
@[simp] theorem State.setCtx_vault (n : Nat) (k : Ctx) : (s.setCtx n k).vault = s.vault := rfl
@[simp] theorem State.setCtx_host (n : Nat) (k : Ctx) : (s.setCtx n k).host = s.host := rfl
@[simp] theorem State.setCtx_storage (n : Nat) (k : Ctx) : (s.setCtx n k).storage = s.storage := rfl
@[simp] theorem State.setCtx_core (n : Nat) (k : Ctx) (c' : Nat) : (s.setCtx n k).core c' = s.core c' := rfl
@[simp] theorem State.setCtx_stack (n : Nat) (k : Ctx) (n' : Nat) : (s.setCtx n k).stack n' = s.stack n' := rfl
@[simp] theorem State.setCtx_engine (n : Nat) (k : Ctx) (q' : Nat) : (s.setCtx n k).engine q' = s.engine q' := rfl
@[simp] theorem State.setCtx_task_of (n : Nat) (k : Ctx) (n' : Nat) : (s.setCtx n k).task? n' = s.task? n' := rfl
@[simp] theorem State.setCtx_link (n : Nat) (k : Ctx) (l' side' : Nat) : (s.setCtx n k).link l' side' = s.link l' side' := rfl

/-! ## modCtx -/

@[simp] theorem State.modCtx_cur (n : Nat) (f : Ctx → Ctx) : (s.modCtx n f).cur = s.cur := rfl
@[simp] theorem State.modCtx_due (n : Nat) (f : Ctx → Ctx) : (s.modCtx n f).due = s.due := rfl
@[simp] theorem State.modCtx_agenda (n : Nat) (f : Ctx → Ctx) : (s.modCtx n f).agenda = s.agenda := rfl
@[simp] theorem State.modCtx_clock (n : Nat) (f : Ctx → Ctx) : (s.modCtx n f).clock = s.clock := rfl
@[simp] theorem State.modCtx_free (n : Nat) (f : Ctx → Ctx) : (s.modCtx n f).free = s.free := rfl
@[simp] theorem State.modCtx_ids (n : Nat) (f : Ctx → Ctx) : (s.modCtx n f).ids = s.ids := rfl
@[simp] theorem State.modCtx_cores (n : Nat) (f : Ctx → Ctx) : (s.modCtx n f).cores = s.cores := rfl
@[simp] theorem State.modCtx_stacks (n : Nat) (f : Ctx → Ctx) : (s.modCtx n f).stackTab = s.stackTab := rfl
@[simp] theorem State.modCtx_tapes (n : Nat) (f : Ctx → Ctx) : (s.modCtx n f).tapes = s.tapes := rfl
@[simp] theorem State.modCtx_tasks (n : Nat) (f : Ctx → Ctx) : (s.modCtx n f).tasks = s.tasks := rfl
@[simp] theorem State.modCtx_pushers (n : Nat) (f : Ctx → Ctx) : (s.modCtx n f).pushers = s.pushers := rfl
@[simp] theorem State.modCtx_links (n : Nat) (f : Ctx → Ctx) : (s.modCtx n f).links = s.links := rfl
@[simp] theorem State.modCtx_chans (n : Nat) (f : Ctx → Ctx) : (s.modCtx n f).chans = s.chans := rfl
@[simp] theorem State.modCtx_locks (n : Nat) (f : Ctx → Ctx) : (s.modCtx n f).locks = s.locks := rfl
@[simp] theorem State.modCtx_props (n : Nat) (f : Ctx → Ctx) : (s.modCtx n f).props = s.props := rfl
@[simp] theorem State.modCtx_streams (n : Nat) (f : Ctx → Ctx) : (s.modCtx n f).streams = s.streams := rfl
@[simp] theorem State.modCtx_gangs (n : Nat) (f : Ctx → Ctx) : (s.modCtx n f).gangs = s.gangs := rfl
@[simp] theorem State.modCtx_linkReqs (n : Nat) (f : Ctx → Ctx) : (s.modCtx n f).linkReqs = s.linkReqs := rfl
@[simp] theorem State.modCtx_saved (n : Nat) (f : Ctx → Ctx) : (s.modCtx n f).saved = s.saved := rfl
@[simp] theorem State.modCtx_mod (n : Nat) (f : Ctx → Ctx) : (s.modCtx n f).mod = s.mod := rfl
@[simp] theorem State.modCtx_hbm (n : Nat) (f : Ctx → Ctx) : (s.modCtx n f).hbm = s.hbm := rfl
@[simp] theorem State.modCtx_vault (n : Nat) (f : Ctx → Ctx) : (s.modCtx n f).vault = s.vault := rfl
@[simp] theorem State.modCtx_host (n : Nat) (f : Ctx → Ctx) : (s.modCtx n f).host = s.host := rfl
@[simp] theorem State.modCtx_storage (n : Nat) (f : Ctx → Ctx) : (s.modCtx n f).storage = s.storage := rfl
@[simp] theorem State.modCtx_core (n : Nat) (f : Ctx → Ctx) (c' : Nat) : (s.modCtx n f).core c' = s.core c' := rfl
@[simp] theorem State.modCtx_stack (n : Nat) (f : Ctx → Ctx) (n' : Nat) : (s.modCtx n f).stack n' = s.stack n' := rfl
@[simp] theorem State.modCtx_engine (n : Nat) (f : Ctx → Ctx) (q' : Nat) : (s.modCtx n f).engine q' = s.engine q' := rfl
@[simp] theorem State.modCtx_task_of (n : Nat) (f : Ctx → Ctx) (n' : Nat) : (s.modCtx n f).task? n' = s.task? n' := rfl
@[simp] theorem State.modCtx_link (n : Nat) (f : Ctx → Ctx) (l' side' : Nat) : (s.modCtx n f).link l' side' = s.link l' side' := rfl

/-! ## setEngine -/

@[simp] theorem State.setEngine_cur (q : Nat) (k : TapeEngine) : (s.setEngine q k).cur = s.cur := rfl
@[simp] theorem State.setEngine_due (q : Nat) (k : TapeEngine) : (s.setEngine q k).due = s.due := rfl
@[simp] theorem State.setEngine_agenda (q : Nat) (k : TapeEngine) : (s.setEngine q k).agenda = s.agenda := rfl
@[simp] theorem State.setEngine_clock (q : Nat) (k : TapeEngine) : (s.setEngine q k).clock = s.clock := rfl
@[simp] theorem State.setEngine_free (q : Nat) (k : TapeEngine) : (s.setEngine q k).free = s.free := rfl
@[simp] theorem State.setEngine_ids (q : Nat) (k : TapeEngine) : (s.setEngine q k).ids = s.ids := rfl
@[simp] theorem State.setEngine_cores (q : Nat) (k : TapeEngine) : (s.setEngine q k).cores = s.cores := rfl
@[simp] theorem State.setEngine_stacks (q : Nat) (k : TapeEngine) : (s.setEngine q k).stackTab = s.stackTab := rfl
@[simp] theorem State.setEngine_ctxs (q : Nat) (k : TapeEngine) : (s.setEngine q k).ctxs = s.ctxs := rfl
@[simp] theorem State.setEngine_tasks (q : Nat) (k : TapeEngine) : (s.setEngine q k).tasks = s.tasks := rfl
@[simp] theorem State.setEngine_pushers (q : Nat) (k : TapeEngine) : (s.setEngine q k).pushers = s.pushers := rfl
@[simp] theorem State.setEngine_links (q : Nat) (k : TapeEngine) : (s.setEngine q k).links = s.links := rfl
@[simp] theorem State.setEngine_chans (q : Nat) (k : TapeEngine) : (s.setEngine q k).chans = s.chans := rfl
@[simp] theorem State.setEngine_locks (q : Nat) (k : TapeEngine) : (s.setEngine q k).locks = s.locks := rfl
@[simp] theorem State.setEngine_props (q : Nat) (k : TapeEngine) : (s.setEngine q k).props = s.props := rfl
@[simp] theorem State.setEngine_streams (q : Nat) (k : TapeEngine) : (s.setEngine q k).streams = s.streams := rfl
@[simp] theorem State.setEngine_gangs (q : Nat) (k : TapeEngine) : (s.setEngine q k).gangs = s.gangs := rfl
@[simp] theorem State.setEngine_linkReqs (q : Nat) (k : TapeEngine) : (s.setEngine q k).linkReqs = s.linkReqs := rfl
@[simp] theorem State.setEngine_saved (q : Nat) (k : TapeEngine) : (s.setEngine q k).saved = s.saved := rfl
@[simp] theorem State.setEngine_mod (q : Nat) (k : TapeEngine) : (s.setEngine q k).mod = s.mod := rfl
@[simp] theorem State.setEngine_hbm (q : Nat) (k : TapeEngine) : (s.setEngine q k).hbm = s.hbm := rfl
@[simp] theorem State.setEngine_vault (q : Nat) (k : TapeEngine) : (s.setEngine q k).vault = s.vault := rfl
@[simp] theorem State.setEngine_host (q : Nat) (k : TapeEngine) : (s.setEngine q k).host = s.host := rfl
@[simp] theorem State.setEngine_storage (q : Nat) (k : TapeEngine) : (s.setEngine q k).storage = s.storage := rfl
@[simp] theorem State.setEngine_core (q : Nat) (k : TapeEngine) (c' : Nat) : (s.setEngine q k).core c' = s.core c' := rfl
@[simp] theorem State.setEngine_stack (q : Nat) (k : TapeEngine) (n' : Nat) : (s.setEngine q k).stack n' = s.stack n' := rfl
@[simp] theorem State.setEngine_ctx (q : Nat) (k : TapeEngine) (n' : Nat) : (s.setEngine q k).ctx n' = s.ctx n' := rfl
@[simp] theorem State.setEngine_task_of (q : Nat) (k : TapeEngine) (n' : Nat) : (s.setEngine q k).task? n' = s.task? n' := rfl
@[simp] theorem State.setEngine_link (q : Nat) (k : TapeEngine) (l' side' : Nat) : (s.setEngine q k).link l' side' = s.link l' side' := rfl

/-! ## modEngine -/

@[simp] theorem State.modEngine_cur (q : Nat) (f : TapeEngine → TapeEngine) : (s.modEngine q f).cur = s.cur := rfl
@[simp] theorem State.modEngine_due (q : Nat) (f : TapeEngine → TapeEngine) : (s.modEngine q f).due = s.due := rfl
@[simp] theorem State.modEngine_agenda (q : Nat) (f : TapeEngine → TapeEngine) : (s.modEngine q f).agenda = s.agenda := rfl
@[simp] theorem State.modEngine_clock (q : Nat) (f : TapeEngine → TapeEngine) : (s.modEngine q f).clock = s.clock := rfl
@[simp] theorem State.modEngine_free (q : Nat) (f : TapeEngine → TapeEngine) : (s.modEngine q f).free = s.free := rfl
@[simp] theorem State.modEngine_ids (q : Nat) (f : TapeEngine → TapeEngine) : (s.modEngine q f).ids = s.ids := rfl
@[simp] theorem State.modEngine_cores (q : Nat) (f : TapeEngine → TapeEngine) : (s.modEngine q f).cores = s.cores := rfl
@[simp] theorem State.modEngine_stacks (q : Nat) (f : TapeEngine → TapeEngine) : (s.modEngine q f).stackTab = s.stackTab := rfl
@[simp] theorem State.modEngine_ctxs (q : Nat) (f : TapeEngine → TapeEngine) : (s.modEngine q f).ctxs = s.ctxs := rfl
@[simp] theorem State.modEngine_tasks (q : Nat) (f : TapeEngine → TapeEngine) : (s.modEngine q f).tasks = s.tasks := rfl
@[simp] theorem State.modEngine_pushers (q : Nat) (f : TapeEngine → TapeEngine) : (s.modEngine q f).pushers = s.pushers := rfl
@[simp] theorem State.modEngine_links (q : Nat) (f : TapeEngine → TapeEngine) : (s.modEngine q f).links = s.links := rfl
@[simp] theorem State.modEngine_chans (q : Nat) (f : TapeEngine → TapeEngine) : (s.modEngine q f).chans = s.chans := rfl
@[simp] theorem State.modEngine_locks (q : Nat) (f : TapeEngine → TapeEngine) : (s.modEngine q f).locks = s.locks := rfl
@[simp] theorem State.modEngine_props (q : Nat) (f : TapeEngine → TapeEngine) : (s.modEngine q f).props = s.props := rfl
@[simp] theorem State.modEngine_streams (q : Nat) (f : TapeEngine → TapeEngine) : (s.modEngine q f).streams = s.streams := rfl
@[simp] theorem State.modEngine_gangs (q : Nat) (f : TapeEngine → TapeEngine) : (s.modEngine q f).gangs = s.gangs := rfl
@[simp] theorem State.modEngine_linkReqs (q : Nat) (f : TapeEngine → TapeEngine) : (s.modEngine q f).linkReqs = s.linkReqs := rfl
@[simp] theorem State.modEngine_saved (q : Nat) (f : TapeEngine → TapeEngine) : (s.modEngine q f).saved = s.saved := rfl
@[simp] theorem State.modEngine_mod (q : Nat) (f : TapeEngine → TapeEngine) : (s.modEngine q f).mod = s.mod := rfl
@[simp] theorem State.modEngine_hbm (q : Nat) (f : TapeEngine → TapeEngine) : (s.modEngine q f).hbm = s.hbm := rfl
@[simp] theorem State.modEngine_vault (q : Nat) (f : TapeEngine → TapeEngine) : (s.modEngine q f).vault = s.vault := rfl
@[simp] theorem State.modEngine_host (q : Nat) (f : TapeEngine → TapeEngine) : (s.modEngine q f).host = s.host := rfl
@[simp] theorem State.modEngine_storage (q : Nat) (f : TapeEngine → TapeEngine) : (s.modEngine q f).storage = s.storage := rfl
@[simp] theorem State.modEngine_core (q : Nat) (f : TapeEngine → TapeEngine) (c' : Nat) : (s.modEngine q f).core c' = s.core c' := rfl
@[simp] theorem State.modEngine_stack (q : Nat) (f : TapeEngine → TapeEngine) (n' : Nat) : (s.modEngine q f).stack n' = s.stack n' := rfl
@[simp] theorem State.modEngine_ctx (q : Nat) (f : TapeEngine → TapeEngine) (n' : Nat) : (s.modEngine q f).ctx n' = s.ctx n' := rfl
@[simp] theorem State.modEngine_task_of (q : Nat) (f : TapeEngine → TapeEngine) (n' : Nat) : (s.modEngine q f).task? n' = s.task? n' := rfl
@[simp] theorem State.modEngine_link (q : Nat) (f : TapeEngine → TapeEngine) (l' side' : Nat) : (s.modEngine q f).link l' side' = s.link l' side' := rfl

/-! ## setTask -/

@[simp] theorem State.setTask_cur (n : Nat) (t : Task) : (s.setTask n t).cur = s.cur := rfl
@[simp] theorem State.setTask_due (n : Nat) (t : Task) : (s.setTask n t).due = s.due := rfl
@[simp] theorem State.setTask_agenda (n : Nat) (t : Task) : (s.setTask n t).agenda = s.agenda := rfl
@[simp] theorem State.setTask_clock (n : Nat) (t : Task) : (s.setTask n t).clock = s.clock := rfl
@[simp] theorem State.setTask_free (n : Nat) (t : Task) : (s.setTask n t).free = s.free := rfl
@[simp] theorem State.setTask_ids (n : Nat) (t : Task) : (s.setTask n t).ids = s.ids := rfl
@[simp] theorem State.setTask_cores (n : Nat) (t : Task) : (s.setTask n t).cores = s.cores := rfl
@[simp] theorem State.setTask_stacks (n : Nat) (t : Task) : (s.setTask n t).stackTab = s.stackTab := rfl
@[simp] theorem State.setTask_ctxs (n : Nat) (t : Task) : (s.setTask n t).ctxs = s.ctxs := rfl
@[simp] theorem State.setTask_tapes (n : Nat) (t : Task) : (s.setTask n t).tapes = s.tapes := rfl
@[simp] theorem State.setTask_pushers (n : Nat) (t : Task) : (s.setTask n t).pushers = s.pushers := rfl
@[simp] theorem State.setTask_links (n : Nat) (t : Task) : (s.setTask n t).links = s.links := rfl
@[simp] theorem State.setTask_chans (n : Nat) (t : Task) : (s.setTask n t).chans = s.chans := rfl
@[simp] theorem State.setTask_locks (n : Nat) (t : Task) : (s.setTask n t).locks = s.locks := rfl
@[simp] theorem State.setTask_props (n : Nat) (t : Task) : (s.setTask n t).props = s.props := rfl
@[simp] theorem State.setTask_streams (n : Nat) (t : Task) : (s.setTask n t).streams = s.streams := rfl
@[simp] theorem State.setTask_gangs (n : Nat) (t : Task) : (s.setTask n t).gangs = s.gangs := rfl
@[simp] theorem State.setTask_linkReqs (n : Nat) (t : Task) : (s.setTask n t).linkReqs = s.linkReqs := rfl
@[simp] theorem State.setTask_saved (n : Nat) (t : Task) : (s.setTask n t).saved = s.saved := rfl
@[simp] theorem State.setTask_mod (n : Nat) (t : Task) : (s.setTask n t).mod = s.mod := rfl
@[simp] theorem State.setTask_hbm (n : Nat) (t : Task) : (s.setTask n t).hbm = s.hbm := rfl
@[simp] theorem State.setTask_vault (n : Nat) (t : Task) : (s.setTask n t).vault = s.vault := rfl
@[simp] theorem State.setTask_host (n : Nat) (t : Task) : (s.setTask n t).host = s.host := rfl
@[simp] theorem State.setTask_storage (n : Nat) (t : Task) : (s.setTask n t).storage = s.storage := rfl
@[simp] theorem State.setTask_core (n : Nat) (t : Task) (c' : Nat) : (s.setTask n t).core c' = s.core c' := rfl
@[simp] theorem State.setTask_stack (n : Nat) (t : Task) (n' : Nat) : (s.setTask n t).stack n' = s.stack n' := rfl
@[simp] theorem State.setTask_ctx (n : Nat) (t : Task) (n' : Nat) : (s.setTask n t).ctx n' = s.ctx n' := rfl
@[simp] theorem State.setTask_engine (n : Nat) (t : Task) (q' : Nat) : (s.setTask n t).engine q' = s.engine q' := rfl
@[simp] theorem State.setTask_link (n : Nat) (t : Task) (l' side' : Nat) : (s.setTask n t).link l' side' = s.link l' side' := rfl

/-! ## setLink -/

@[simp] theorem State.setLink_cur (l side : Nat) (k : LinkEnd) : (s.setLink l side k).cur = s.cur := rfl
@[simp] theorem State.setLink_due (l side : Nat) (k : LinkEnd) : (s.setLink l side k).due = s.due := rfl
@[simp] theorem State.setLink_agenda (l side : Nat) (k : LinkEnd) : (s.setLink l side k).agenda = s.agenda := rfl
@[simp] theorem State.setLink_clock (l side : Nat) (k : LinkEnd) : (s.setLink l side k).clock = s.clock := rfl
@[simp] theorem State.setLink_free (l side : Nat) (k : LinkEnd) : (s.setLink l side k).free = s.free := rfl
@[simp] theorem State.setLink_ids (l side : Nat) (k : LinkEnd) : (s.setLink l side k).ids = s.ids := rfl
@[simp] theorem State.setLink_cores (l side : Nat) (k : LinkEnd) : (s.setLink l side k).cores = s.cores := rfl
@[simp] theorem State.setLink_stacks (l side : Nat) (k : LinkEnd) : (s.setLink l side k).stackTab = s.stackTab := rfl
@[simp] theorem State.setLink_ctxs (l side : Nat) (k : LinkEnd) : (s.setLink l side k).ctxs = s.ctxs := rfl
@[simp] theorem State.setLink_tapes (l side : Nat) (k : LinkEnd) : (s.setLink l side k).tapes = s.tapes := rfl
@[simp] theorem State.setLink_tasks (l side : Nat) (k : LinkEnd) : (s.setLink l side k).tasks = s.tasks := rfl
@[simp] theorem State.setLink_pushers (l side : Nat) (k : LinkEnd) : (s.setLink l side k).pushers = s.pushers := rfl
@[simp] theorem State.setLink_chans (l side : Nat) (k : LinkEnd) : (s.setLink l side k).chans = s.chans := rfl
@[simp] theorem State.setLink_locks (l side : Nat) (k : LinkEnd) : (s.setLink l side k).locks = s.locks := rfl
@[simp] theorem State.setLink_props (l side : Nat) (k : LinkEnd) : (s.setLink l side k).props = s.props := rfl
@[simp] theorem State.setLink_streams (l side : Nat) (k : LinkEnd) : (s.setLink l side k).streams = s.streams := rfl
@[simp] theorem State.setLink_gangs (l side : Nat) (k : LinkEnd) : (s.setLink l side k).gangs = s.gangs := rfl
@[simp] theorem State.setLink_linkReqs (l side : Nat) (k : LinkEnd) : (s.setLink l side k).linkReqs = s.linkReqs := rfl
@[simp] theorem State.setLink_saved (l side : Nat) (k : LinkEnd) : (s.setLink l side k).saved = s.saved := rfl
@[simp] theorem State.setLink_mod (l side : Nat) (k : LinkEnd) : (s.setLink l side k).mod = s.mod := rfl
@[simp] theorem State.setLink_hbm (l side : Nat) (k : LinkEnd) : (s.setLink l side k).hbm = s.hbm := rfl
@[simp] theorem State.setLink_vault (l side : Nat) (k : LinkEnd) : (s.setLink l side k).vault = s.vault := rfl
@[simp] theorem State.setLink_host (l side : Nat) (k : LinkEnd) : (s.setLink l side k).host = s.host := rfl
@[simp] theorem State.setLink_storage (l side : Nat) (k : LinkEnd) : (s.setLink l side k).storage = s.storage := rfl
@[simp] theorem State.setLink_core (l side : Nat) (k : LinkEnd) (c' : Nat) : (s.setLink l side k).core c' = s.core c' := rfl
@[simp] theorem State.setLink_stack (l side : Nat) (k : LinkEnd) (n' : Nat) : (s.setLink l side k).stack n' = s.stack n' := rfl
@[simp] theorem State.setLink_ctx (l side : Nat) (k : LinkEnd) (n' : Nat) : (s.setLink l side k).ctx n' = s.ctx n' := rfl
@[simp] theorem State.setLink_engine (l side : Nat) (k : LinkEnd) (q' : Nat) : (s.setLink l side k).engine q' = s.engine q' := rfl
@[simp] theorem State.setLink_task_of (l side : Nat) (k : LinkEnd) (n' : Nat) : (s.setLink l side k).task? n' = s.task? n' := rfl

/-! ## modLink -/

@[simp] theorem State.modLink_cur (l side : Nat) (f : LinkEnd → LinkEnd) : (s.modLink l side f).cur = s.cur := rfl
@[simp] theorem State.modLink_due (l side : Nat) (f : LinkEnd → LinkEnd) : (s.modLink l side f).due = s.due := rfl
@[simp] theorem State.modLink_agenda (l side : Nat) (f : LinkEnd → LinkEnd) : (s.modLink l side f).agenda = s.agenda := rfl
@[simp] theorem State.modLink_clock (l side : Nat) (f : LinkEnd → LinkEnd) : (s.modLink l side f).clock = s.clock := rfl
@[simp] theorem State.modLink_free (l side : Nat) (f : LinkEnd → LinkEnd) : (s.modLink l side f).free = s.free := rfl
@[simp] theorem State.modLink_ids (l side : Nat) (f : LinkEnd → LinkEnd) : (s.modLink l side f).ids = s.ids := rfl
@[simp] theorem State.modLink_cores (l side : Nat) (f : LinkEnd → LinkEnd) : (s.modLink l side f).cores = s.cores := rfl
@[simp] theorem State.modLink_stacks (l side : Nat) (f : LinkEnd → LinkEnd) : (s.modLink l side f).stackTab = s.stackTab := rfl
@[simp] theorem State.modLink_ctxs (l side : Nat) (f : LinkEnd → LinkEnd) : (s.modLink l side f).ctxs = s.ctxs := rfl
@[simp] theorem State.modLink_tapes (l side : Nat) (f : LinkEnd → LinkEnd) : (s.modLink l side f).tapes = s.tapes := rfl
@[simp] theorem State.modLink_tasks (l side : Nat) (f : LinkEnd → LinkEnd) : (s.modLink l side f).tasks = s.tasks := rfl
@[simp] theorem State.modLink_pushers (l side : Nat) (f : LinkEnd → LinkEnd) : (s.modLink l side f).pushers = s.pushers := rfl
@[simp] theorem State.modLink_chans (l side : Nat) (f : LinkEnd → LinkEnd) : (s.modLink l side f).chans = s.chans := rfl
@[simp] theorem State.modLink_locks (l side : Nat) (f : LinkEnd → LinkEnd) : (s.modLink l side f).locks = s.locks := rfl
@[simp] theorem State.modLink_props (l side : Nat) (f : LinkEnd → LinkEnd) : (s.modLink l side f).props = s.props := rfl
@[simp] theorem State.modLink_streams (l side : Nat) (f : LinkEnd → LinkEnd) : (s.modLink l side f).streams = s.streams := rfl
@[simp] theorem State.modLink_gangs (l side : Nat) (f : LinkEnd → LinkEnd) : (s.modLink l side f).gangs = s.gangs := rfl
@[simp] theorem State.modLink_linkReqs (l side : Nat) (f : LinkEnd → LinkEnd) : (s.modLink l side f).linkReqs = s.linkReqs := rfl
@[simp] theorem State.modLink_saved (l side : Nat) (f : LinkEnd → LinkEnd) : (s.modLink l side f).saved = s.saved := rfl
@[simp] theorem State.modLink_mod (l side : Nat) (f : LinkEnd → LinkEnd) : (s.modLink l side f).mod = s.mod := rfl
@[simp] theorem State.modLink_hbm (l side : Nat) (f : LinkEnd → LinkEnd) : (s.modLink l side f).hbm = s.hbm := rfl
@[simp] theorem State.modLink_vault (l side : Nat) (f : LinkEnd → LinkEnd) : (s.modLink l side f).vault = s.vault := rfl
@[simp] theorem State.modLink_host (l side : Nat) (f : LinkEnd → LinkEnd) : (s.modLink l side f).host = s.host := rfl
@[simp] theorem State.modLink_storage (l side : Nat) (f : LinkEnd → LinkEnd) : (s.modLink l side f).storage = s.storage := rfl
@[simp] theorem State.modLink_core (l side : Nat) (f : LinkEnd → LinkEnd) (c' : Nat) : (s.modLink l side f).core c' = s.core c' := rfl
@[simp] theorem State.modLink_stack (l side : Nat) (f : LinkEnd → LinkEnd) (n' : Nat) : (s.modLink l side f).stack n' = s.stack n' := rfl
@[simp] theorem State.modLink_ctx (l side : Nat) (f : LinkEnd → LinkEnd) (n' : Nat) : (s.modLink l side f).ctx n' = s.ctx n' := rfl
@[simp] theorem State.modLink_engine (l side : Nat) (f : LinkEnd → LinkEnd) (q' : Nat) : (s.modLink l side f).engine q' = s.engine q' := rfl
@[simp] theorem State.modLink_task_of (l side : Nat) (f : LinkEnd → LinkEnd) (n' : Nat) : (s.modLink l side f).task? n' = s.task? n' := rfl

/-! ## modMod -/

@[simp] theorem State.modMod_cur (f : Module → Module) : (s.modMod f).cur = s.cur := rfl
@[simp] theorem State.modMod_due (f : Module → Module) : (s.modMod f).due = s.due := rfl
@[simp] theorem State.modMod_agenda (f : Module → Module) : (s.modMod f).agenda = s.agenda := rfl
@[simp] theorem State.modMod_clock (f : Module → Module) : (s.modMod f).clock = s.clock := rfl
@[simp] theorem State.modMod_free (f : Module → Module) : (s.modMod f).free = s.free := rfl
@[simp] theorem State.modMod_ids (f : Module → Module) : (s.modMod f).ids = s.ids := rfl
@[simp] theorem State.modMod_cores (f : Module → Module) : (s.modMod f).cores = s.cores := rfl
@[simp] theorem State.modMod_stacks (f : Module → Module) : (s.modMod f).stackTab = s.stackTab := rfl
@[simp] theorem State.modMod_ctxs (f : Module → Module) : (s.modMod f).ctxs = s.ctxs := rfl
@[simp] theorem State.modMod_tapes (f : Module → Module) : (s.modMod f).tapes = s.tapes := rfl
@[simp] theorem State.modMod_tasks (f : Module → Module) : (s.modMod f).tasks = s.tasks := rfl
@[simp] theorem State.modMod_pushers (f : Module → Module) : (s.modMod f).pushers = s.pushers := rfl
@[simp] theorem State.modMod_links (f : Module → Module) : (s.modMod f).links = s.links := rfl
@[simp] theorem State.modMod_chans (f : Module → Module) : (s.modMod f).chans = s.chans := rfl
@[simp] theorem State.modMod_locks (f : Module → Module) : (s.modMod f).locks = s.locks := rfl
@[simp] theorem State.modMod_props (f : Module → Module) : (s.modMod f).props = s.props := rfl
@[simp] theorem State.modMod_streams (f : Module → Module) : (s.modMod f).streams = s.streams := rfl
@[simp] theorem State.modMod_gangs (f : Module → Module) : (s.modMod f).gangs = s.gangs := rfl
@[simp] theorem State.modMod_linkReqs (f : Module → Module) : (s.modMod f).linkReqs = s.linkReqs := rfl
@[simp] theorem State.modMod_saved (f : Module → Module) : (s.modMod f).saved = s.saved := rfl
@[simp] theorem State.modMod_hbm (f : Module → Module) : (s.modMod f).hbm = s.hbm := rfl
@[simp] theorem State.modMod_vault (f : Module → Module) : (s.modMod f).vault = s.vault := rfl
@[simp] theorem State.modMod_host (f : Module → Module) : (s.modMod f).host = s.host := rfl
@[simp] theorem State.modMod_storage (f : Module → Module) : (s.modMod f).storage = s.storage := rfl
@[simp] theorem State.modMod_core (f : Module → Module) (c' : Nat) : (s.modMod f).core c' = s.core c' := rfl
@[simp] theorem State.modMod_stack (f : Module → Module) (n' : Nat) : (s.modMod f).stack n' = s.stack n' := rfl
@[simp] theorem State.modMod_ctx (f : Module → Module) (n' : Nat) : (s.modMod f).ctx n' = s.ctx n' := rfl
@[simp] theorem State.modMod_engine (f : Module → Module) (q' : Nat) : (s.modMod f).engine q' = s.engine q' := rfl
@[simp] theorem State.modMod_task_of (f : Module → Module) (n' : Nat) : (s.modMod f).task? n' = s.task? n' := rfl
@[simp] theorem State.modMod_link (f : Module → Module) (l' side' : Nat) : (s.modMod f).link l' side' = s.link l' side' := rfl

/-! ## spend -/

@[simp] theorem State.spend_cur : s.spend.cur = s.cur := rfl
@[simp] theorem State.spend_due : s.spend.due = s.due := rfl
@[simp] theorem State.spend_agenda : s.spend.agenda = s.agenda := rfl
@[simp] theorem State.spend_clock : s.spend.clock = s.clock := rfl
@[simp] theorem State.spend_ids : s.spend.ids = s.ids := rfl
@[simp] theorem State.spend_cores : s.spend.cores = s.cores := rfl
@[simp] theorem State.spend_stacks : s.spend.stackTab = s.stackTab := rfl
@[simp] theorem State.spend_ctxs : s.spend.ctxs = s.ctxs := rfl
@[simp] theorem State.spend_tapes : s.spend.tapes = s.tapes := rfl
@[simp] theorem State.spend_tasks : s.spend.tasks = s.tasks := rfl
@[simp] theorem State.spend_pushers : s.spend.pushers = s.pushers := rfl
@[simp] theorem State.spend_links : s.spend.links = s.links := rfl
@[simp] theorem State.spend_chans : s.spend.chans = s.chans := rfl
@[simp] theorem State.spend_locks : s.spend.locks = s.locks := rfl
@[simp] theorem State.spend_props : s.spend.props = s.props := rfl
@[simp] theorem State.spend_streams : s.spend.streams = s.streams := rfl
@[simp] theorem State.spend_gangs : s.spend.gangs = s.gangs := rfl
@[simp] theorem State.spend_linkReqs : s.spend.linkReqs = s.linkReqs := rfl
@[simp] theorem State.spend_saved : s.spend.saved = s.saved := rfl
@[simp] theorem State.spend_mod : s.spend.mod = s.mod := rfl
@[simp] theorem State.spend_hbm : s.spend.hbm = s.hbm := rfl
@[simp] theorem State.spend_vault : s.spend.vault = s.vault := rfl
@[simp] theorem State.spend_host : s.spend.host = s.host := rfl
@[simp] theorem State.spend_storage : s.spend.storage = s.storage := rfl
@[simp] theorem State.spend_core (c' : Nat) : s.spend.core c' = s.core c' := rfl
@[simp] theorem State.spend_stack (n' : Nat) : s.spend.stack n' = s.stack n' := rfl
@[simp] theorem State.spend_ctx (n' : Nat) : s.spend.ctx n' = s.ctx n' := rfl
@[simp] theorem State.spend_engine (q' : Nat) : s.spend.engine q' = s.engine q' := rfl
@[simp] theorem State.spend_task_of (n' : Nat) : s.spend.task? n' = s.task? n' := rfl
@[simp] theorem State.spend_link (l' side' : Nat) : s.spend.link l' side' = s.link l' side' := rfl

/-! ## newId -/

@[simp] theorem State.newId_cur : s.newId.cur = s.cur := rfl
@[simp] theorem State.newId_due : s.newId.due = s.due := rfl
@[simp] theorem State.newId_agenda : s.newId.agenda = s.agenda := rfl
@[simp] theorem State.newId_clock : s.newId.clock = s.clock := rfl
@[simp] theorem State.newId_free : s.newId.free = s.free := rfl
@[simp] theorem State.newId_cores : s.newId.cores = s.cores := rfl
@[simp] theorem State.newId_stacks : s.newId.stackTab = s.stackTab := rfl
@[simp] theorem State.newId_ctxs : s.newId.ctxs = s.ctxs := rfl
@[simp] theorem State.newId_tapes : s.newId.tapes = s.tapes := rfl
@[simp] theorem State.newId_tasks : s.newId.tasks = s.tasks := rfl
@[simp] theorem State.newId_pushers : s.newId.pushers = s.pushers := rfl
@[simp] theorem State.newId_links : s.newId.links = s.links := rfl
@[simp] theorem State.newId_chans : s.newId.chans = s.chans := rfl
@[simp] theorem State.newId_locks : s.newId.locks = s.locks := rfl
@[simp] theorem State.newId_props : s.newId.props = s.props := rfl
@[simp] theorem State.newId_streams : s.newId.streams = s.streams := rfl
@[simp] theorem State.newId_gangs : s.newId.gangs = s.gangs := rfl
@[simp] theorem State.newId_linkReqs : s.newId.linkReqs = s.linkReqs := rfl
@[simp] theorem State.newId_saved : s.newId.saved = s.saved := rfl
@[simp] theorem State.newId_mod : s.newId.mod = s.mod := rfl
@[simp] theorem State.newId_hbm : s.newId.hbm = s.hbm := rfl
@[simp] theorem State.newId_vault : s.newId.vault = s.vault := rfl
@[simp] theorem State.newId_host : s.newId.host = s.host := rfl
@[simp] theorem State.newId_storage : s.newId.storage = s.storage := rfl
@[simp] theorem State.newId_core (c' : Nat) : s.newId.core c' = s.core c' := rfl
@[simp] theorem State.newId_stack (n' : Nat) : s.newId.stack n' = s.stack n' := rfl
@[simp] theorem State.newId_ctx (n' : Nat) : s.newId.ctx n' = s.ctx n' := rfl
@[simp] theorem State.newId_engine (q' : Nat) : s.newId.engine q' = s.engine q' := rfl
@[simp] theorem State.newId_task_of (n' : Nat) : s.newId.task? n' = s.task? n' := rfl
@[simp] theorem State.newId_link (l' side' : Nat) : s.newId.link l' side' = s.link l' side' := rfl

/-! ## retire -/

@[simp] theorem State.retire_due : s.retire.due = s.due := rfl
@[simp] theorem State.retire_agenda : s.retire.agenda = s.agenda := rfl
@[simp] theorem State.retire_clock : s.retire.clock = s.clock := rfl
@[simp] theorem State.retire_free : s.retire.free = s.free := rfl
@[simp] theorem State.retire_ids : s.retire.ids = s.ids := rfl
@[simp] theorem State.retire_cores : s.retire.cores = s.cores := rfl
@[simp] theorem State.retire_stacks : s.retire.stackTab = s.stackTab := rfl
@[simp] theorem State.retire_ctxs : s.retire.ctxs = s.ctxs := rfl
@[simp] theorem State.retire_tapes : s.retire.tapes = s.tapes := rfl
@[simp] theorem State.retire_tasks : s.retire.tasks = s.tasks := rfl
@[simp] theorem State.retire_pushers : s.retire.pushers = s.pushers := rfl
@[simp] theorem State.retire_links : s.retire.links = s.links := rfl
@[simp] theorem State.retire_chans : s.retire.chans = s.chans := rfl
@[simp] theorem State.retire_locks : s.retire.locks = s.locks := rfl
@[simp] theorem State.retire_props : s.retire.props = s.props := rfl
@[simp] theorem State.retire_streams : s.retire.streams = s.streams := rfl
@[simp] theorem State.retire_gangs : s.retire.gangs = s.gangs := rfl
@[simp] theorem State.retire_linkReqs : s.retire.linkReqs = s.linkReqs := rfl
@[simp] theorem State.retire_saved : s.retire.saved = s.saved := rfl
@[simp] theorem State.retire_mod : s.retire.mod = s.mod := rfl
@[simp] theorem State.retire_hbm : s.retire.hbm = s.hbm := rfl
@[simp] theorem State.retire_vault : s.retire.vault = s.vault := rfl
@[simp] theorem State.retire_host : s.retire.host = s.host := rfl
@[simp] theorem State.retire_storage : s.retire.storage = s.storage := rfl
@[simp] theorem State.retire_core (c' : Nat) : s.retire.core c' = s.core c' := rfl
@[simp] theorem State.retire_stack (n' : Nat) : s.retire.stack n' = s.stack n' := rfl
@[simp] theorem State.retire_ctx (n' : Nat) : s.retire.ctx n' = s.ctx n' := rfl
@[simp] theorem State.retire_engine (q' : Nat) : s.retire.engine q' = s.engine q' := rfl
@[simp] theorem State.retire_task_of (n' : Nat) : s.retire.task? n' = s.task? n' := rfl
@[simp] theorem State.retire_link (l' side' : Nat) : s.retire.link l' side' = s.link l' side' := rfl

/-! ## soon -/

@[simp] theorem State.soon_cur (i : Instr) : (s.soon i).cur = s.cur := rfl
@[simp] theorem State.soon_agenda (i : Instr) : (s.soon i).agenda = s.agenda := rfl
@[simp] theorem State.soon_clock (i : Instr) : (s.soon i).clock = s.clock := rfl
@[simp] theorem State.soon_free (i : Instr) : (s.soon i).free = s.free := rfl
@[simp] theorem State.soon_ids (i : Instr) : (s.soon i).ids = s.ids := rfl
@[simp] theorem State.soon_cores (i : Instr) : (s.soon i).cores = s.cores := rfl
@[simp] theorem State.soon_stacks (i : Instr) : (s.soon i).stackTab = s.stackTab := rfl
@[simp] theorem State.soon_ctxs (i : Instr) : (s.soon i).ctxs = s.ctxs := rfl
@[simp] theorem State.soon_tapes (i : Instr) : (s.soon i).tapes = s.tapes := rfl
@[simp] theorem State.soon_tasks (i : Instr) : (s.soon i).tasks = s.tasks := rfl
@[simp] theorem State.soon_pushers (i : Instr) : (s.soon i).pushers = s.pushers := rfl
@[simp] theorem State.soon_links (i : Instr) : (s.soon i).links = s.links := rfl
@[simp] theorem State.soon_chans (i : Instr) : (s.soon i).chans = s.chans := rfl
@[simp] theorem State.soon_locks (i : Instr) : (s.soon i).locks = s.locks := rfl
@[simp] theorem State.soon_props (i : Instr) : (s.soon i).props = s.props := rfl
@[simp] theorem State.soon_streams (i : Instr) : (s.soon i).streams = s.streams := rfl
@[simp] theorem State.soon_gangs (i : Instr) : (s.soon i).gangs = s.gangs := rfl
@[simp] theorem State.soon_linkReqs (i : Instr) : (s.soon i).linkReqs = s.linkReqs := rfl
@[simp] theorem State.soon_saved (i : Instr) : (s.soon i).saved = s.saved := rfl
@[simp] theorem State.soon_mod (i : Instr) : (s.soon i).mod = s.mod := rfl
@[simp] theorem State.soon_hbm (i : Instr) : (s.soon i).hbm = s.hbm := rfl
@[simp] theorem State.soon_vault (i : Instr) : (s.soon i).vault = s.vault := rfl
@[simp] theorem State.soon_host (i : Instr) : (s.soon i).host = s.host := rfl
@[simp] theorem State.soon_storage (i : Instr) : (s.soon i).storage = s.storage := rfl
@[simp] theorem State.soon_core (i : Instr) (c' : Nat) : (s.soon i).core c' = s.core c' := rfl
@[simp] theorem State.soon_stack (i : Instr) (n' : Nat) : (s.soon i).stack n' = s.stack n' := rfl
@[simp] theorem State.soon_ctx (i : Instr) (n' : Nat) : (s.soon i).ctx n' = s.ctx n' := rfl
@[simp] theorem State.soon_engine (i : Instr) (q' : Nat) : (s.soon i).engine q' = s.engine q' := rfl
@[simp] theorem State.soon_task_of (i : Instr) (n' : Nat) : (s.soon i).task? n' = s.task? n' := rfl
@[simp] theorem State.soon_link (i : Instr) (l' side' : Nat) : (s.soon i).link l' side' = s.link l' side' := rfl

/-! ## What is read back -/

theorem State.core_setCore (c c' : Nat) (k : Core) : (s.setCore c k).core c' = if c = c' then k else s.core c' :=
  Table.look_put _ _ _ _ _
theorem State.core_modCore (c c' : Nat) (f : Core → Core) :
    (s.modCore c f).core c' = if c = c' then f (s.core c) else s.core c' := Table.look_put _ _ _ _ _
@[simp] theorem State.core_modCore_same (c : Nat) (f : Core → Core) : (s.modCore c f).core c = f (s.core c) := by
  rw [State.core_modCore, if_pos rfl]
theorem State.stack_modStack (n n' : Nat) (f : Stack → Stack) :
    (s.modStack n f).stack n' = if n = n' then f (s.stack n) else s.stack n' := by
  show Table.look _ (Table.put _ _ _) _ = _
  rw [Table.look_put]
  rfl
@[simp] theorem State.stack_modStack_same (n : Nat) (f : Stack → Stack) : (s.modStack n f).stack n = f (s.stack n) := by
  rw [State.stack_modStack, if_pos rfl]
theorem State.ctx_modCtx (n n' : Nat) (f : Ctx → Ctx) :
    (s.modCtx n f).ctx n' = if n = n' then f (s.ctx n) else s.ctx n' := Table.look_put _ _ _ _ _
@[simp] theorem State.ctx_modCtx_same (n : Nat) (f : Ctx → Ctx) : (s.modCtx n f).ctx n = f (s.ctx n) := by
  rw [State.ctx_modCtx, if_pos rfl]
theorem State.engine_modEngine (q q' : Nat) (f : TapeEngine → TapeEngine) :
    (s.modEngine q f).engine q' = if q = q' then f (s.engine q) else s.engine q' := Table.look_put _ _ _ _ _
@[simp] theorem State.engine_modEngine_same (q : Nat) (f : TapeEngine → TapeEngine) :
    (s.modEngine q f).engine q = f (s.engine q) := by rw [State.engine_modEngine, if_pos rfl]
theorem State.task_setTask (n n' : Nat) (t : Task) : (s.setTask n t).task? n' = if n = n' then some t else s.task? n' :=
  Table.find_put _ _ _ _
theorem State.link_modLink (l side l' side' : Nat) (f : LinkEnd → LinkEnd) :
    (s.modLink l side f).link l' side' = if 2 * l + side = 2 * l' + side' then f (s.link l side) else s.link l' side' :=
  Table.look_put _ _ _ _ _
@[simp] theorem State.link_modLink_same (l side : Nat) (f : LinkEnd → LinkEnd) :
    (s.modLink l side f).link l side = f (s.link l side) := by rw [State.link_modLink, if_pos rfl]
@[simp] theorem State.mod_modMod (f : Module → Module) : (s.modMod f).mod = f s.mod := rfl
@[simp] theorem State.free_spend : s.spend.free = s.free + 1 := rfl
@[simp] theorem State.ids_newId : s.newId.ids = s.ids + 1 := rfl
@[simp] theorem State.cur_retire : s.retire.cur = none := rfl
@[simp] theorem State.due_soon (i : Instr) : (s.soon i).due = s.due ++ [i] := rfl

/-! ## modTask -/

@[simp] theorem State.modTask_cur (n : Nat) (f : Task → Task) : (s.modTask n f).cur = s.cur := by
  unfold State.modTask; split <;> rfl
@[simp] theorem State.modTask_due (n : Nat) (f : Task → Task) : (s.modTask n f).due = s.due := by
  unfold State.modTask; split <;> rfl
@[simp] theorem State.modTask_agenda (n : Nat) (f : Task → Task) : (s.modTask n f).agenda = s.agenda := by
  unfold State.modTask; split <;> rfl
@[simp] theorem State.modTask_clock (n : Nat) (f : Task → Task) : (s.modTask n f).clock = s.clock := by
  unfold State.modTask; split <;> rfl
@[simp] theorem State.modTask_free (n : Nat) (f : Task → Task) : (s.modTask n f).free = s.free := by
  unfold State.modTask; split <;> rfl
@[simp] theorem State.modTask_ids (n : Nat) (f : Task → Task) : (s.modTask n f).ids = s.ids := by
  unfold State.modTask; split <;> rfl
@[simp] theorem State.modTask_cores (n : Nat) (f : Task → Task) : (s.modTask n f).cores = s.cores := by
  unfold State.modTask; split <;> rfl
@[simp] theorem State.modTask_stacks (n : Nat) (f : Task → Task) : (s.modTask n f).stackTab = s.stackTab := by
  unfold State.modTask; split <;> rfl
@[simp] theorem State.modTask_ctxs (n : Nat) (f : Task → Task) : (s.modTask n f).ctxs = s.ctxs := by
  unfold State.modTask; split <;> rfl
@[simp] theorem State.modTask_tapes (n : Nat) (f : Task → Task) : (s.modTask n f).tapes = s.tapes := by
  unfold State.modTask; split <;> rfl
@[simp] theorem State.modTask_pushers (n : Nat) (f : Task → Task) : (s.modTask n f).pushers = s.pushers := by
  unfold State.modTask; split <;> rfl
@[simp] theorem State.modTask_links (n : Nat) (f : Task → Task) : (s.modTask n f).links = s.links := by
  unfold State.modTask; split <;> rfl
@[simp] theorem State.modTask_chans (n : Nat) (f : Task → Task) : (s.modTask n f).chans = s.chans := by
  unfold State.modTask; split <;> rfl
@[simp] theorem State.modTask_locks (n : Nat) (f : Task → Task) : (s.modTask n f).locks = s.locks := by
  unfold State.modTask; split <;> rfl
@[simp] theorem State.modTask_props (n : Nat) (f : Task → Task) : (s.modTask n f).props = s.props := by
  unfold State.modTask; split <;> rfl
@[simp] theorem State.modTask_streams (n : Nat) (f : Task → Task) : (s.modTask n f).streams = s.streams := by
  unfold State.modTask; split <;> rfl
@[simp] theorem State.modTask_gangs (n : Nat) (f : Task → Task) : (s.modTask n f).gangs = s.gangs := by
  unfold State.modTask; split <;> rfl
@[simp] theorem State.modTask_linkReqs (n : Nat) (f : Task → Task) : (s.modTask n f).linkReqs = s.linkReqs := by
  unfold State.modTask; split <;> rfl
@[simp] theorem State.modTask_saved (n : Nat) (f : Task → Task) : (s.modTask n f).saved = s.saved := by
  unfold State.modTask; split <;> rfl
@[simp] theorem State.modTask_mod (n : Nat) (f : Task → Task) : (s.modTask n f).mod = s.mod := by
  unfold State.modTask; split <;> rfl
@[simp] theorem State.modTask_hbm (n : Nat) (f : Task → Task) : (s.modTask n f).hbm = s.hbm := by
  unfold State.modTask; split <;> rfl
@[simp] theorem State.modTask_vault (n : Nat) (f : Task → Task) : (s.modTask n f).vault = s.vault := by
  unfold State.modTask; split <;> rfl
@[simp] theorem State.modTask_host (n : Nat) (f : Task → Task) : (s.modTask n f).host = s.host := by
  unfold State.modTask; split <;> rfl
@[simp] theorem State.modTask_storage (n : Nat) (f : Task → Task) : (s.modTask n f).storage = s.storage := by
  unfold State.modTask; split <;> rfl
@[simp] theorem State.modTask_core_of (n : Nat) (f : Task → Task) (c' : Nat) : (s.modTask n f).core c' = s.core c' := by
  unfold State.modTask; split <;> rfl
@[simp] theorem State.modTask_stack_of (n : Nat) (f : Task → Task) (n' : Nat) : (s.modTask n f).stack n' = s.stack n' := by
  unfold State.modTask; split <;> rfl
@[simp] theorem State.modTask_ctx_of (n : Nat) (f : Task → Task) (n' : Nat) : (s.modTask n f).ctx n' = s.ctx n' := by
  unfold State.modTask; split <;> rfl
@[simp] theorem State.modTask_engine_of (n : Nat) (f : Task → Task) (q' : Nat) : (s.modTask n f).engine q' = s.engine q' := by
  unfold State.modTask; split <;> rfl
@[simp] theorem State.modTask_link_of (n : Nat) (f : Task → Task) (l' side' : Nat) : (s.modTask n f).link l' side' = s.link l' side' := by
  unfold State.modTask; split <;> rfl

theorem State.task_modTask (n n' : Nat) (f : Task → Task) :
    (s.modTask n f).task? n' = if n = n' then (s.task? n).map f else s.task? n' := by
  unfold State.modTask
  split
  · rename_i t h; rw [State.task_setTask, h]; rfl
  · rename_i h; split
    · rename_i e; subst e; rw [h]; rfl
    · rfl

end Sys2Proof.Machine
end

