-- ==== Sys2Proof/Laws/Emission.lean ====
section
/-! SUPPORT. What the sending of tokens can do, said once: R25, R42, R59, R60, R165. -/

namespace Sys2Proof.Machine

variable {s t u : State} {g : Firing} {f : Fields}

/-- Nothing sent. -/
theorem State.onlyTokens.refl (s : State) : s.onlyTokens s :=
  ⟨rfl, fun _ => ⟨[], by simp⟩, fun _ => .inl rfl, fun _ _ => ⟨[], by simp⟩⟩

/-- One sending after another. -/
theorem State.onlyTokens.trans (h : s.onlyTokens t) (k : t.onlyTokens u) : s.onlyTokens u := by
  obtain ⟨h1, h2, h3, h4⟩ := h
  obtain ⟨k1, k2, k3, k4⟩ := k
  refine ⟨k1.trans h1, fun c => ?_, fun n => ?_, fun l side => ?_⟩
  · obtain ⟨a, ha⟩ := h2 c
    obtain ⟨b, hb⟩ := k2 c
    exact ⟨a ++ b, by rw [hb, ha]; simp⟩
  · rcases h3 n with h | h <;> rcases k3 n with k | k <;> rw [k, h] <;> simp
  · obtain ⟨a, ha⟩ := h4 l side
    obtain ⟨b, hb⟩ := k4 l side
    exact ⟨a ++ b, by rw [hb, ha]; simp⟩

/-- A message to a core of the same stack joins its inbox. -/
theorem State.route_near {stack dst : Nat} {m : Mail} (h : nextHop stack (coreStack dst) = none) :
    s.route stack dst m = s.modCore dst (fun k => { k with inbox := k.inbox ++ [m] }) := by
  unfold State.route; rw [h]

/-- A message on its way to a core is only a token. -/
theorem State.onlyTokens_route (stack dst : Nat) (m : Mail) : s.onlyTokens (s.route stack dst m) := by
  unfold State.route
  split
  · refine ⟨rfl, fun c => ?_, fun n => .inl rfl, fun l side => ⟨[], by simp⟩⟩
    rw [State.core_modCore]
    split
    · rename_i h; subst h; exact ⟨[m], rfl⟩
    · exact ⟨[], by simp⟩
  · rename_i l' side' _ _
    refine ⟨rfl, fun c => ⟨[], by simp⟩, fun n => .inl rfl, fun l side => ?_⟩
    rw [State.link_modLink]
    split
    · rename_i h
      refine ⟨[{ tag := 0, seq := 0, body := .tokens [(dst, m)] }], ?_⟩
      have e : s.link l side = s.link l' side' := by unfold State.link; rw [h]
      rw [e]
    · exact ⟨[], by simp⟩

/-- A message from a core or an agent is only a token. -/
theorem State.onlyTokens_post (src dst : Nat) (m : Msg) : s.onlyTokens (s.post src dst m) := State.onlyTokens_route ..

/-- A context that may report its quiescence anew. -/
theorem State.onlyTokens_quiet (ctx : Nat) : s.onlyTokens (s.modCtx ctx (fun c => { c with quiet := false })) := by
  refine ⟨rfl, fun c => ⟨[], by simp⟩, fun n => ?_, fun l side => ⟨[], by simp⟩⟩
  rw [State.ctx_modCtx]
  split
  · rename_i h; subst h; exact .inr rfl
  · exact .inl rfl

/-- A token to a frame in the region is only a token (R165). -/
theorem State.onlyTokens_send {src ctx : Nat} {t : Token} {reply : Bool} (h : (s.fpCore ctx t.fp).isSome = true) :
    s.onlyTokens (s.send src ctx t reply) := by
  unfold State.send
  split
  · exact (State.onlyTokens_quiet ctx).trans (State.onlyTokens_post ..)
  · simp_all

/-- The region map survives the sending of tokens. -/
theorem State.onlyTokens.phys (h : s.onlyTokens t) (ctx v : Nat) : (t.ctx ctx).phys v = (s.ctx ctx).phys v := by
  rcases h.2.2.1 ctx with e | e <;> rw [e] <;> rfl

/-- The frames of a core survive the sending of tokens. -/
theorem State.onlyTokens.anyFrame (h : s.onlyTokens t) (c : Nat) (fp : U32) :
    (t.core c).anyFrame? fp = (s.core c).anyFrame? fp := by
  obtain ⟨l, e⟩ := h.2.1 c
  rw [e]; rfl

/-- The frame that a destination names survives the sending of tokens. -/
theorem State.onlyTokens.destFp (h : s.onlyTokens t) (g : Firing) (d : Dest) : t.destFp g d = s.destFp g d := by
  unfold State.destFp
  simp only [h.anyFrame]

/-- What can be delivered still can after other tokens were sent. -/
theorem State.onlyTokens.reaches (h : s.onlyTokens t) {d : Dest} (r : s.reaches g d) : t.reaches g d := by
  unfold State.reaches State.fpCore at *
  simp only [h.phys, h.anyFrame, h.destFp]
  exact r

/-- A token to a destination that can be delivered to is only a token. -/
theorem State.onlyTokens_emit {second : Bool} {v : Val} {reply : Bool} (hr : g.replay = none)
    (h : s.reaches g (if second then f.d1 else f.d0)) : s.onlyTokens (s.emit g f second v reply) := by
  unfold State.emit
  rw [hr]
  show s.onlyTokens (s.emitTo g f second v reply)
  unfold State.emitTo State.sendAt
  unfold State.reaches at h
  dsimp only
  split <;> rename_i hm <;> rw [hm] at h <;> dsimp only at h
  · exact State.onlyTokens.refl s
  · exact State.onlyTokens_send h
  · split
    · rename_i fp hf
      exact State.onlyTokens_send (h fp hf)
    · exact State.onlyTokens.refl s
  · obtain ⟨fr, h1, h2, h3⟩ := h
    rw [h1]
    dsimp only
    rw [if_neg (by simp [h2])]
    exact State.onlyTokens_send h3

/-- A result to every destination is only tokens. -/
theorem State.onlyTokens_emitBoth {v : Val} (h : s.delivers g f) : s.onlyTokens (s.emitBoth g f v) := by
  obtain ⟨h0, h1, h2⟩ := h
  have k : s.onlyTokens (s.emit g f false v) := State.onlyTokens_emit h0 h1
  exact k.trans (State.onlyTokens_emit h0 (k.reaches h2))

/-- Delivery does not depend on what tokens were sent before. -/
theorem State.onlyTokens.delivers (h : s.onlyTokens t) (d : s.delivers g f) : t.delivers g f :=
  ⟨d.1, h.reaches d.2.1, h.reaches d.2.2⟩

end Sys2Proof.Machine
end

