-- ==== Sys2Proof/Laws/PerInstr.lean ====
section
/-! SUPPORT. One fact per constructor of Instr: an operator is found again from its opcode, its FN and its fields. -/

namespace Sys2Proof.Laws

/-- The operator's opcode has 8 bits, and the opcode, the FN and the fields that an operator is written with name that operator (R55, R64);
an event has no word. -/
def FormKept.Statement (i : Instr) : Prop :=
  ∀ opc fixed f, i.form = some (opc, fixed, f) → (∀ k, fixed = some k → f.fn.toNat = k) →
    opc < 256 ∧ mkOp opc f.fn.toNat f = some i

/-- From the form of one operator. -/
theorem formKept_of_form {i : Instr} {o : Nat} {x : Option Nat} {g : Fields} (h : i.form = some (o, x, g))
    (hlt : o < 256) (hk : (∀ k, x = some k → g.fn.toNat = k) → mkOp o g.fn.toNat g = some i) : FormKept.Statement i := by
  intro opc fixed f hf hx
  rw [h] at hf
  cases hf
  exact ⟨hlt, hk hx⟩

/-- From the absence of a form. -/
theorem formKept_of_event {i : Instr} (h : i.form = none) : FormKept.Statement i := by
  intro opc fixed f hf
  rw [h] at hf
  cases hf

theorem FormKept.nop (f : Fields) : FormKept.Statement (.nop f) := formKept_of_form rfl (by decide) (fun _ => rfl)
theorem FormKept.fork (f : Fields) : FormKept.Statement (.fork f) := formKept_of_form rfl (by decide) (fun _ => rfl)
theorem FormKept.steer (f : Fields) : FormKept.Statement (.steer f) := formKept_of_form rfl (by decide) (fun _ => rfl)
theorem FormKept.gate (f : Fields) : FormKept.Statement (.gate f) := formKept_of_form rfl (by decide) (fun _ => rfl)
theorem FormKept.sync (f : Fields) : FormKept.Statement (.sync f) := formKept_of_form rfl (by decide) (fun _ => rfl)
theorem FormKept.drop (f : Fields) : FormKept.Statement (.drop f) := formKept_of_form rfl (by decide) (fun _ => rfl)
theorem FormKept.falloc (f : Fields) : FormKept.Statement (.falloc f) := formKept_of_form rfl (by decide) (fun _ => rfl)
theorem FormKept.ffreeFp (f : Fields) : FormKept.Statement (.ffreeFp f) := formKept_of_form rfl (by decide) (fun h => by rw [h _ rfl]; rfl)
theorem FormKept.ffreeSelf (f : Fields) : FormKept.Statement (.ffreeSelf f) := formKept_of_form rfl (by decide) (fun h => by rw [h _ rfl]; rfl)
theorem FormKept.fstore (f : Fields) : FormKept.Statement (.fstore f) := formKept_of_form rfl (by decide) (fun _ => rfl)
theorem FormKept.fstick (f : Fields) : FormKept.Statement (.fstick f) := formKept_of_form rfl (by decide) (fun _ => rfl)
theorem FormKept.freadSlot (f : Fields) : FormKept.Statement (.freadSlot f) := formKept_of_form rfl (by decide) (fun h => by rw [h _ rfl]; rfl)
theorem FormKept.freadSelf (f : Fields) : FormKept.Statement (.freadSelf f) := formKept_of_form rfl (by decide) (fun h => by rw [h _ rfl]; rfl)
theorem FormKept.call (f : Fields) : FormKept.Statement (.call f) := formKept_of_form rfl (by decide) (fun h => by rw [h _ rfl]; rfl)
theorem FormKept.callExt (f : Fields) : FormKept.Statement (.callExt f) := formKept_of_form rfl (by decide) (fun h => by rw [h _ rfl]; rfl)
theorem FormKept.ret (f : Fields) : FormKept.Statement (.ret f) := formKept_of_form rfl (by decide) (fun _ => rfl)
theorem FormKept.sendto (f : Fields) : FormKept.Statement (.sendto f) := formKept_of_form rfl (by decide) (fun _ => rfl)
theorem FormKept.iterNext (f : Fields) : FormKept.Statement (.iterNext f) := formKept_of_form rfl (by decide) (fun h => by rw [h _ rfl]; rfl)
theorem FormKept.iterSet (f : Fields) : FormKept.Statement (.iterSet f) := formKept_of_form rfl (by decide) (fun h => by rw [h _ rfl]; rfl)
theorem FormKept.punctMark (f : Fields) : FormKept.Statement (.punctMark f) := formKept_of_form rfl (by decide) (fun h => by rw [h _ rfl]; rfl)
theorem FormKept.punctAfter (f : Fields) : FormKept.Statement (.punctAfter f) := formKept_of_form rfl (by decide) (fun h => by rw [h _ rfl]; rfl)
theorem FormKept.rjoin (f : Fields) : FormKept.Statement (.rjoin f) := formKept_of_form rfl (by decide) (fun _ => rfl)
theorem FormKept.filter (f : Fields) : FormKept.Statement (.filter f) := formKept_of_form rfl (by decide) (fun _ => rfl)
theorem FormKept.compact (f : Fields) : FormKept.Statement (.compact f) := formKept_of_form rfl (by decide) (fun _ => rfl)
theorem FormKept.ordmerge (f : Fields) : FormKept.Statement (.ordmerge f) := formKept_of_form rfl (by decide) (fun _ => rfl)
theorem FormKept.nullsetAll (f : Fields) : FormKept.Statement (.nullsetAll f) := formKept_of_form rfl (by decide) (fun h => by rw [h _ rfl]; rfl)
theorem FormKept.nullsetIfz (f : Fields) : FormKept.Statement (.nullsetIfz f) := formKept_of_form rfl (by decide) (fun h => by rw [h _ rfl]; rfl)
theorem FormKept.isnullNull (f : Fields) : FormKept.Statement (.isnullNull f) := formKept_of_form rfl (by decide) (fun h => by rw [h _ rfl]; rfl)
theorem FormKept.isnullKind (f : Fields) : FormKept.Statement (.isnullKind f) := formKept_of_form rfl (by decide) (fun h => by rw [h _ rfl]; rfl)
theorem FormKept.switch (f : Fields) : FormKept.Statement (.switch f) := formKept_of_form rfl (by decide) (fun _ => rfl)
theorem FormKept.endOp (f : Fields) : FormKept.Statement (.endOp f) := formKept_of_form rfl (by decide) (fun _ => rfl)
theorem FormKept.moviLo (f : Fields) : FormKept.Statement (.moviLo f) := formKept_of_form rfl (by decide) (fun h => by rw [h _ rfl]; rfl)
theorem FormKept.moviHi (f : Fields) : FormKept.Statement (.moviHi f) := formKept_of_form rfl (by decide) (fun h => by rw [h _ rfl]; rfl)
theorem FormKept.add (f : Fields) : FormKept.Statement (.add f) := formKept_of_form rfl (by decide) (fun _ => rfl)
theorem FormKept.sub (f : Fields) : FormKept.Statement (.sub f) := formKept_of_form rfl (by decide) (fun _ => rfl)
theorem FormKept.mul (f : Fields) : FormKept.Statement (.mul f) := formKept_of_form rfl (by decide) (fun _ => rfl)
theorem FormKept.mulh (f : Fields) : FormKept.Statement (.mulh f) := formKept_of_form rfl (by decide) (fun _ => rfl)
theorem FormKept.div (f : Fields) : FormKept.Statement (.div f) := formKept_of_form rfl (by decide) (fun _ => rfl)
theorem FormKept.rem (f : Fields) : FormKept.Statement (.rem f) := formKept_of_form rfl (by decide) (fun _ => rfl)
theorem FormKept.and (f : Fields) : FormKept.Statement (.and f) := formKept_of_form rfl (by decide) (fun _ => rfl)
theorem FormKept.or (f : Fields) : FormKept.Statement (.or f) := formKept_of_form rfl (by decide) (fun _ => rfl)
theorem FormKept.xor (f : Fields) : FormKept.Statement (.xor f) := formKept_of_form rfl (by decide) (fun _ => rfl)
theorem FormKept.andn (f : Fields) : FormKept.Statement (.andn f) := formKept_of_form rfl (by decide) (fun _ => rfl)
theorem FormKept.shl (f : Fields) : FormKept.Statement (.shl f) := formKept_of_form rfl (by decide) (fun _ => rfl)
theorem FormKept.shr (f : Fields) : FormKept.Statement (.shr f) := formKept_of_form rfl (by decide) (fun _ => rfl)
theorem FormKept.sar (f : Fields) : FormKept.Statement (.sar f) := formKept_of_form rfl (by decide) (fun _ => rfl)
theorem FormKept.rol (f : Fields) : FormKept.Statement (.rol f) := formKept_of_form rfl (by decide) (fun _ => rfl)
theorem FormKept.min (f : Fields) : FormKept.Statement (.min f) := formKept_of_form rfl (by decide) (fun _ => rfl)
theorem FormKept.max (f : Fields) : FormKept.Statement (.max f) := formKept_of_form rfl (by decide) (fun _ => rfl)
theorem FormKept.abs (f : Fields) : FormKept.Statement (.abs f) := formKept_of_form rfl (by decide) (fun _ => rfl)
theorem FormKept.neg (f : Fields) : FormKept.Statement (.neg f) := formKept_of_form rfl (by decide) (fun _ => rfl)
theorem FormKept.addsatAdd (f : Fields) : FormKept.Statement (.addsatAdd f) := formKept_of_form rfl (by decide) (fun h => by rw [h _ rfl]; rfl)
theorem FormKept.addsatSub (f : Fields) : FormKept.Statement (.addsatSub f) := formKept_of_form rfl (by decide) (fun h => by rw [h _ rfl]; rfl)
theorem FormKept.cmp (f : Fields) : FormKept.Statement (.cmp f) := formKept_of_form rfl (by decide) (fun _ => rfl)
theorem FormKept.sel (f : Fields) : FormKept.Statement (.sel f) := formKept_of_form rfl (by decide) (fun _ => rfl)
theorem FormKept.clz (f : Fields) : FormKept.Statement (.clz f) := formKept_of_form rfl (by decide) (fun _ => rfl)
theorem FormKept.ctz (f : Fields) : FormKept.Statement (.ctz f) := formKept_of_form rfl (by decide) (fun _ => rfl)
theorem FormKept.popc (f : Fields) : FormKept.Statement (.popc f) := formKept_of_form rfl (by decide) (fun _ => rfl)
theorem FormKept.bfx (f : Fields) : FormKept.Statement (.bfx f) := formKept_of_form rfl (by decide) (fun _ => rfl)
theorem FormKept.bfi (f : Fields) : FormKept.Statement (.bfi f) := formKept_of_form rfl (by decide) (fun _ => rfl)
theorem FormKept.sext (f : Fields) : FormKept.Statement (.sext f) := formKept_of_form rfl (by decide) (fun _ => rfl)
theorem FormKept.zext (f : Fields) : FormKept.Statement (.zext f) := formKept_of_form rfl (by decide) (fun _ => rfl)
theorem FormKept.fadd (f : Fields) : FormKept.Statement (.fadd f) := formKept_of_form rfl (by decide) (fun _ => rfl)
theorem FormKept.fsub (f : Fields) : FormKept.Statement (.fsub f) := formKept_of_form rfl (by decide) (fun _ => rfl)
theorem FormKept.fmul (f : Fields) : FormKept.Statement (.fmul f) := formKept_of_form rfl (by decide) (fun _ => rfl)
theorem FormKept.ffma (f : Fields) : FormKept.Statement (.ffma f) := formKept_of_form rfl (by decide) (fun _ => rfl)
theorem FormKept.fdiv (f : Fields) : FormKept.Statement (.fdiv f) := formKept_of_form rfl (by decide) (fun _ => rfl)
theorem FormKept.fsqrt (f : Fields) : FormKept.Statement (.fsqrt f) := formKept_of_form rfl (by decide) (fun _ => rfl)
theorem FormKept.fmin (f : Fields) : FormKept.Statement (.fmin f) := formKept_of_form rfl (by decide) (fun _ => rfl)
theorem FormKept.fmax (f : Fields) : FormKept.Statement (.fmax f) := formKept_of_form rfl (by decide) (fun _ => rfl)
theorem FormKept.fcmp (f : Fields) : FormKept.Statement (.fcmp f) := formKept_of_form rfl (by decide) (fun _ => rfl)
theorem FormKept.fcvt (f : Fields) : FormKept.Statement (.fcvt f) := formKept_of_form rfl (by decide) (fun _ => rfl)
theorem FormKept.ftoi (f : Fields) : FormKept.Statement (.ftoi f) := formKept_of_form rfl (by decide) (fun _ => rfl)
theorem FormKept.itof (f : Fields) : FormKept.Statement (.itof f) := formKept_of_form rfl (by decide) (fun _ => rfl)
theorem FormKept.fabs (f : Fields) : FormKept.Statement (.fabs f) := formKept_of_form rfl (by decide) (fun _ => rfl)
theorem FormKept.fneg (f : Fields) : FormKept.Statement (.fneg f) := formKept_of_form rfl (by decide) (fun _ => rfl)
theorem FormKept.fclass (f : Fields) : FormKept.Statement (.fclass f) := formKept_of_form rfl (by decide) (fun _ => rfl)
theorem FormKept.tnewHere (f : Fields) : FormKept.Statement (.tnewHere f) := formKept_of_form rfl (by decide) (fun h => by rw [h _ rfl]; rfl)
theorem FormKept.tnewAt (f : Fields) : FormKept.Statement (.tnewAt f) := formKept_of_form rfl (by decide) (fun h => by rw [h _ rfl]; rfl)
theorem FormKept.trel (f : Fields) : FormKept.Statement (.trel f) := formKept_of_form rfl (by decide) (fun _ => rfl)
theorem FormKept.tdup (f : Fields) : FormKept.Statement (.tdup f) := formKept_of_form rfl (by decide) (fun _ => rfl)
theorem FormKept.tview (f : Fields) : FormKept.Statement (.tview f) := formKept_of_form rfl (by decide) (fun _ => rfl)
theorem FormKept.tinfo (f : Fields) : FormKept.Statement (.tinfo f) := formKept_of_form rfl (by decide) (fun _ => rfl)
theorem FormKept.tlayout (f : Fields) : FormKept.Statement (.tlayout f) := formKept_of_form rfl (by decide) (fun _ => rfl)
theorem FormKept.tfill (f : Fields) : FormKept.Statement (.tfill f) := formKept_of_form rfl (by decide) (fun _ => rfl)
theorem FormKept.tcopy (f : Fields) : FormKept.Statement (.tcopy f) := formKept_of_form rfl (by decide) (fun _ => rfl)
theorem FormKept.xlate (f : Fields) : FormKept.Statement (.xlate f) := formKept_of_form rfl (by decide) (fun _ => rfl)
theorem FormKept.capcutCut (f : Fields) : FormKept.Statement (.capcutCut f) := formKept_of_form rfl (by decide) (fun h => by rw [h _ rfl]; rfl)
theorem FormKept.capcutFree (f : Fields) : FormKept.Statement (.capcutFree f) := formKept_of_form rfl (by decide) (fun h => by rw [h _ rfl]; rfl)
theorem FormKept.fetchGlb (f : Fields) : FormKept.Statement (.fetchGlb f) := formKept_of_form rfl (by decide) (fun h => by rw [h _ rfl]; rfl)
theorem FormKept.fetchEp (f : Fields) : FormKept.Statement (.fetchEp f) := formKept_of_form rfl (by decide) (fun h => by rw [h _ rfl]; rfl)
theorem FormKept.fetchPort (f : Fields) : FormKept.Statement (.fetchPort f) := formKept_of_form rfl (by decide) (fun h => by rw [h _ rfl]; rfl)
theorem FormKept.putGlb (f : Fields) : FormKept.Statement (.putGlb f) := formKept_of_form rfl (by decide) (fun h => by rw [h _ rfl]; rfl)
theorem FormKept.putEp (f : Fields) : FormKept.Statement (.putEp f) := formKept_of_form rfl (by decide) (fun h => by rw [h _ rfl]; rfl)
theorem FormKept.putPort (f : Fields) : FormKept.Statement (.putPort f) := formKept_of_form rfl (by decide) (fun h => by rw [h _ rfl]; rfl)
theorem FormKept.ldg (f : Fields) : FormKept.Statement (.ldg f) := formKept_of_form rfl (by decide) (fun _ => rfl)
theorem FormKept.stg (f : Fields) : FormKept.Statement (.stg f) := formKept_of_form rfl (by decide) (fun _ => rfl)
theorem FormKept.ldv (f : Fields) : FormKept.Statement (.ldv f) := formKept_of_form rfl (by decide) (fun _ => rfl)
theorem FormKept.stv (f : Fields) : FormKept.Statement (.stv f) := formKept_of_form rfl (by decide) (fun _ => rfl)
theorem FormKept.agset (f : Fields) : FormKept.Statement (.agset f) := formKept_of_form rfl (by decide) (fun _ => rfl)
theorem FormKept.agrun (f : Fields) : FormKept.Statement (.agrun f) := formKept_of_form rfl (by decide) (fun _ => rfl)
theorem FormKept.agstop (f : Fields) : FormKept.Statement (.agstop f) := formKept_of_form rfl (by decide) (fun _ => rfl)
theorem FormKept.sbindAg (f : Fields) : FormKept.Statement (.sbindAg f) := formKept_of_form rfl (by decide) (fun h => by rw [h _ rfl]; rfl)
theorem FormKept.sbindBq (f : Fields) : FormKept.Statement (.sbindBq f) := formKept_of_form rfl (by decide) (fun h => by rw [h _ rfl]; rfl)
theorem FormKept.sbindPeer (f : Fields) : FormKept.Statement (.sbindPeer f) := formKept_of_form rfl (by decide) (fun h => by rw [h _ rfl]; rfl)
theorem FormKept.sbindEp (f : Fields) : FormKept.Statement (.sbindEp f) := formKept_of_form rfl (by decide) (fun h => by rw [h _ rfl]; rfl)
theorem FormKept.sbindUnbind (f : Fields) : FormKept.Statement (.sbindUnbind f) := formKept_of_form rfl (by decide) (fun h => by rw [h _ rfl]; rfl)
theorem FormKept.sbar (f : Fields) : FormKept.Statement (.sbar f) := formKept_of_form rfl (by decide) (fun _ => rfl)
theorem FormKept.mcast (f : Fields) : FormKept.Statement (.mcast f) := formKept_of_form rfl (by decide) (fun _ => rfl)
theorem FormKept.permit (f : Fields) : FormKept.Statement (.permit f) := formKept_of_form rfl (by decide) (fun _ => rfl)
theorem FormKept.publishTile (f : Fields) : FormKept.Statement (.publishTile f) := formKept_of_form rfl (by decide) (fun h => by rw [h _ rfl]; rfl)
theorem FormKept.publishGlb (f : Fields) : FormKept.Statement (.publishGlb f) := formKept_of_form rfl (by decide) (fun h => by rw [h _ rfl]; rfl)
theorem FormKept.epbind (f : Fields) : FormKept.Statement (.epbind f) := formKept_of_form rfl (by decide) (fun _ => rfl)
theorem FormKept.epdrop (f : Fields) : FormKept.Statement (.epdrop f) := formKept_of_form rfl (by decide) (fun _ => rfl)
theorem FormKept.vadd (f : Fields) : FormKept.Statement (.vadd f) := formKept_of_form rfl (by decide) (fun _ => rfl)
theorem FormKept.vsub (f : Fields) : FormKept.Statement (.vsub f) := formKept_of_form rfl (by decide) (fun _ => rfl)
theorem FormKept.vmul (f : Fields) : FormKept.Statement (.vmul f) := formKept_of_form rfl (by decide) (fun _ => rfl)
theorem FormKept.vfma (f : Fields) : FormKept.Statement (.vfma f) := formKept_of_form rfl (by decide) (fun _ => rfl)
theorem FormKept.vdiv (f : Fields) : FormKept.Statement (.vdiv f) := formKept_of_form rfl (by decide) (fun _ => rfl)
theorem FormKept.vmin (f : Fields) : FormKept.Statement (.vmin f) := formKept_of_form rfl (by decide) (fun _ => rfl)
theorem FormKept.vmax (f : Fields) : FormKept.Statement (.vmax f) := formKept_of_form rfl (by decide) (fun _ => rfl)
theorem FormKept.vabs (f : Fields) : FormKept.Statement (.vabs f) := formKept_of_form rfl (by decide) (fun _ => rfl)
theorem FormKept.vneg (f : Fields) : FormKept.Statement (.vneg f) := formKept_of_form rfl (by decide) (fun _ => rfl)
theorem FormKept.vexp2 (f : Fields) : FormKept.Statement (.vexp2 f) := formKept_of_form rfl (by decide) (fun _ => rfl)
theorem FormKept.vlog2 (f : Fields) : FormKept.Statement (.vlog2 f) := formKept_of_form rfl (by decide) (fun _ => rfl)
theorem FormKept.vrcp (f : Fields) : FormKept.Statement (.vrcp f) := formKept_of_form rfl (by decide) (fun _ => rfl)
theorem FormKept.vrsq (f : Fields) : FormKept.Statement (.vrsq f) := formKept_of_form rfl (by decide) (fun _ => rfl)
theorem FormKept.vsqrt (f : Fields) : FormKept.Statement (.vsqrt f) := formKept_of_form rfl (by decide) (fun _ => rfl)
theorem FormKept.vtanh (f : Fields) : FormKept.Statement (.vtanh f) := formKept_of_form rfl (by decide) (fun _ => rfl)
theorem FormKept.vsigm (f : Fields) : FormKept.Statement (.vsigm f) := formKept_of_form rfl (by decide) (fun _ => rfl)
theorem FormKept.vcvt (f : Fields) : FormKept.Statement (.vcvt f) := formKept_of_form rfl (by decide) (fun _ => rfl)
theorem FormKept.vqmx (f : Fields) : FormKept.Statement (.vqmx f) := formKept_of_form rfl (by decide) (fun _ => rfl)
theorem FormKept.vdqmx (f : Fields) : FormKept.Statement (.vdqmx f) := formKept_of_form rfl (by decide) (fun _ => rfl)
theorem FormKept.vcmp (f : Fields) : FormKept.Statement (.vcmp f) := formKept_of_form rfl (by decide) (fun _ => rfl)
theorem FormKept.vsel (f : Fields) : FormKept.Statement (.vsel f) := formKept_of_form rfl (by decide) (fun _ => rfl)
theorem FormKept.vrsum (f : Fields) : FormKept.Statement (.vrsum f) := formKept_of_form rfl (by decide) (fun _ => rfl)
theorem FormKept.vrmax (f : Fields) : FormKept.Statement (.vrmax f) := formKept_of_form rfl (by decide) (fun _ => rfl)
theorem FormKept.vcsum (f : Fields) : FormKept.Statement (.vcsum f) := formKept_of_form rfl (by decide) (fun _ => rfl)
theorem FormKept.vbcast (f : Fields) : FormKept.Statement (.vbcast f) := formKept_of_form rfl (by decide) (fun _ => rfl)
theorem FormKept.vrbc (f : Fields) : FormKept.Statement (.vrbc f) := formKept_of_form rfl (by decide) (fun _ => rfl)
theorem FormKept.vtrans (f : Fields) : FormKept.Statement (.vtrans f) := formKept_of_form rfl (by decide) (fun _ => rfl)
theorem FormKept.viota (f : Fields) : FormKept.Statement (.viota f) := formKept_of_form rfl (by decide) (fun _ => rfl)
theorem FormKept.vcomp (f : Fields) : FormKept.Statement (.vcomp f) := formKept_of_form rfl (by decide) (fun _ => rfl)
theorem FormKept.vlogic (f : Fields) : FormKept.Statement (.vlogic f) := formKept_of_form rfl (by decide) (fun _ => rfl)
theorem FormKept.vshift (f : Fields) : FormKept.Statement (.vshift f) := formKept_of_form rfl (by decide) (fun _ => rfl)
theorem FormKept.mbind (f : Fields) : FormKept.Statement (.mbind f) := formKept_of_form rfl (by decide) (fun _ => rfl)
theorem FormKept.munbind (f : Fields) : FormKept.Statement (.munbind f) := formKept_of_form rfl (by decide) (fun _ => rfl)
theorem FormKept.macc (f : Fields) : FormKept.Statement (.macc f) := formKept_of_form rfl (by decide) (fun _ => rfl)
theorem FormKept.mrowAcc (f : Fields) : FormKept.Statement (.mrowAcc f) := formKept_of_form rfl (by decide) (fun h => by rw [h _ rfl]; rfl)
theorem FormKept.mrowOut (f : Fields) : FormKept.Statement (.mrowOut f) := formKept_of_form rfl (by decide) (fun h => by rw [h _ rfl]; rfl)
theorem FormKept.mma (f : Fields) : FormKept.Statement (.mma f) := formKept_of_form rfl (by decide) (fun _ => rfl)
theorem FormKept.mmag (f : Fields) : FormKept.Statement (.mmag f) := formKept_of_form rfl (by decide) (fun _ => rfl)
theorem FormKept.msclSet (f : Fields) : FormKept.Statement (.msclSet f) := formKept_of_form rfl (by decide) (fun h => by rw [h _ rfl]; rfl)
theorem FormKept.msclClr (f : Fields) : FormKept.Statement (.msclClr f) := formKept_of_form rfl (by decide) (fun h => by rw [h _ rfl]; rfl)
theorem FormKept.mrd (f : Fields) : FormKept.Statement (.mrd f) := formKept_of_form rfl (by decide) (fun _ => rfl)
theorem FormKept.moutKeep (f : Fields) : FormKept.Statement (.moutKeep f) := formKept_of_form rfl (by decide) (fun h => by rw [h _ rfl]; rfl)
theorem FormKept.moutClr (f : Fields) : FormKept.Statement (.moutClr f) := formKept_of_form rfl (by decide) (fun h => by rw [h _ rfl]; rfl)
theorem FormKept.mclr (f : Fields) : FormKept.Statement (.mclr f) := formKept_of_form rfl (by decide) (fun _ => rfl)
theorem FormKept.mresc (f : Fields) : FormKept.Statement (.mresc f) := formKept_of_form rfl (by decide) (fun _ => rfl)
theorem FormKept.mdrainCur (f : Fields) : FormKept.Statement (.mdrainCur f) := formKept_of_form rfl (by decide) (fun h => by rw [h _ rfl]; rfl)
theorem FormKept.mdrainAll (f : Fields) : FormKept.Statement (.mdrainAll f) := formKept_of_form rfl (by decide) (fun h => by rw [h _ rfl]; rfl)
theorem FormKept.tbinit (f : Fields) : FormKept.Statement (.tbinit f) := formKept_of_form rfl (by decide) (fun _ => rfl)
theorem FormKept.tbexp (f : Fields) : FormKept.Statement (.tbexp f) := formKept_of_form rfl (by decide) (fun _ => rfl)
theorem FormKept.tbarrArr (f : Fields) : FormKept.Statement (.tbarrArr f) := formKept_of_form rfl (by decide) (fun h => by rw [h _ rfl]; rfl)
theorem FormKept.tbarrTx (f : Fields) : FormKept.Statement (.tbarrTx f) := formKept_of_form rfl (by decide) (fun h => by rw [h _ rfl]; rfl)
theorem FormKept.tbarrArrtx (f : Fields) : FormKept.Statement (.tbarrArrtx f) := formKept_of_form rfl (by decide) (fun h => by rw [h _ rfl]; rfl)
theorem FormKept.tbwait (f : Fields) : FormKept.Statement (.tbwait f) := formKept_of_form rfl (by decide) (fun _ => rfl)
theorem FormKept.tbinv (f : Fields) : FormKept.Statement (.tbinv f) := formKept_of_form rfl (by decide) (fun _ => rfl)
theorem FormKept.bar (f : Fields) : FormKept.Statement (.bar f) := formKept_of_form rfl (by decide) (fun _ => rfl)
theorem FormKept.ownsetSet (f : Fields) : FormKept.Statement (.ownsetSet f) := formKept_of_form rfl (by decide) (fun h => by rw [h _ rfl]; rfl)
theorem FormKept.ownsetClr (f : Fields) : FormKept.Statement (.ownsetClr f) := formKept_of_form rfl (by decide) (fun h => by rw [h _ rfl]; rfl)
theorem FormKept.atom (f : Fields) : FormKept.Statement (.atom f) := formKept_of_form rfl (by decide) (fun _ => rfl)
theorem FormKept.red (f : Fields) : FormKept.Statement (.red f) := formKept_of_form rfl (by decide) (fun _ => rfl)
theorem FormKept.cas (f : Fields) : FormKept.Statement (.cas f) := formKept_of_form rfl (by decide) (fun _ => rfl)
theorem FormKept.lockq (f : Fields) : FormKept.Statement (.lockq f) := formKept_of_form rfl (by decide) (fun _ => rfl)
theorem FormKept.lockr (f : Fields) : FormKept.Statement (.lockr f) := formKept_of_form rfl (by decide) (fun _ => rfl)
theorem FormKept.fence (f : Fields) : FormKept.Statement (.fence f) := formKept_of_form rfl (by decide) (fun _ => rfl)
theorem FormKept.acq (f : Fields) : FormKept.Statement (.acq f) := formKept_of_form rfl (by decide) (fun _ => rfl)
theorem FormKept.rel (f : Fields) : FormKept.Statement (.rel f) := formKept_of_form rfl (by decide) (fun _ => rfl)
theorem FormKept.coll (f : Fields) : FormKept.Statement (.coll f) := formKept_of_form rfl (by decide) (fun _ => rfl)
theorem FormKept.taperec (f : Fields) : FormKept.Statement (.taperec f) := formKept_of_form rfl (by decide) (fun _ => rfl)
theorem FormKept.tapeend (f : Fields) : FormKept.Statement (.tapeend f) := formKept_of_form rfl (by decide) (fun _ => rfl)
theorem FormKept.tapeplay (f : Fields) : FormKept.Statement (.tapeplay f) := formKept_of_form rfl (by decide) (fun _ => rfl)
theorem FormKept.tapegrd (f : Fields) : FormKept.Statement (.tapegrd f) := formKept_of_form rfl (by decide) (fun _ => rfl)
theorem FormKept.tapepatArg (f : Fields) : FormKept.Statement (.tapepatArg f) := formKept_of_form rfl (by decide) (fun h => by rw [h _ rfl]; rfl)
theorem FormKept.tapepatConst (f : Fields) : FormKept.Statement (.tapepatConst f) := formKept_of_form rfl (by decide) (fun h => by rw [h _ rfl]; rfl)
theorem FormKept.tapedropQuad (f : Fields) : FormKept.Statement (.tapedropQuad f) := formKept_of_form rfl (by decide) (fun h => by rw [h _ rfl]; rfl)
theorem FormKept.tapedropAll (f : Fields) : FormKept.Statement (.tapedropAll f) := formKept_of_form rfl (by decide) (fun h => by rw [h _ rfl]; rfl)
theorem FormKept.tapeinfo (f : Fields) : FormKept.Statement (.tapeinfo f) := formKept_of_form rfl (by decide) (fun _ => rfl)
theorem FormKept.timerdNow (f : Fields) : FormKept.Statement (.timerdNow f) := formKept_of_form rfl (by decide) (fun h => by rw [h _ rfl]; rfl)
theorem FormKept.timerdStat (f : Fields) : FormKept.Statement (.timerdStat f) := formKept_of_form rfl (by decide) (fun h => by rw [h _ rfl]; rfl)
theorem FormKept.timecmp (f : Fields) : FormKept.Statement (.timecmp f) := formKept_of_form rfl (by decide) (fun _ => rfl)
theorem FormKept.timewaitAbs (f : Fields) : FormKept.Statement (.timewaitAbs f) := formKept_of_form rfl (by decide) (fun h => by rw [h _ rfl]; rfl)
theorem FormKept.timewaitRel (f : Fields) : FormKept.Statement (.timewaitRel f) := formKept_of_form rfl (by decide) (fun h => by rw [h _ rfl]; rfl)
theorem FormKept.timeadjSlew (f : Fields) : FormKept.Statement (.timeadjSlew f) := formKept_of_form rfl (by decide) (fun h => by rw [h _ rfl]; rfl)
theorem FormKept.timeadjStep (f : Fields) : FormKept.Statement (.timeadjStep f) := formKept_of_form rfl (by decide) (fun h => by rw [h _ rfl]; rfl)
theorem FormKept.launch (f : Fields) : FormKept.Statement (.launch f) := formKept_of_form rfl (by decide) (fun _ => rfl)
theorem FormKept.qpush (f : Fields) : FormKept.Statement (.qpush f) := formKept_of_form rfl (by decide) (fun _ => rfl)
theorem FormKept.range (f : Fields) : FormKept.Statement (.range f) := formKept_of_form rfl (by decide) (fun _ => rfl)
theorem FormKept.rgive (f : Fields) : FormKept.Statement (.rgive f) := formKept_of_form rfl (by decide) (fun _ => rfl)
theorem FormKept.qprio (f : Fields) : FormKept.Statement (.qprio f) := formKept_of_form rfl (by decide) (fun _ => rfl)
theorem FormKept.qinfo (f : Fields) : FormKept.Statement (.qinfo f) := formKept_of_form rfl (by decide) (fun _ => rfl)
theorem FormKept.qbindBind (f : Fields) : FormKept.Statement (.qbindBind f) := formKept_of_form rfl (by decide) (fun h => by rw [h _ rfl]; rfl)
theorem FormKept.qbindUnbind (f : Fields) : FormKept.Statement (.qbindUnbind f) := formKept_of_form rfl (by decide) (fun h => by rw [h _ rfl]; rfl)
theorem FormKept.ctxinfo (f : Fields) : FormKept.Statement (.ctxinfo f) := formKept_of_form rfl (by decide) (fun _ => rfl)
theorem FormKept.trap (f : Fields) : FormKept.Statement (.trap f) := formKept_of_form rfl (by decide) (fun _ => rfl)
theorem FormKept.hcall (f : Fields) : FormKept.Statement (.hcall f) := formKept_of_form rfl (by decide) (fun _ => rfl)
theorem FormKept.evbindBind (f : Fields) : FormKept.Statement (.evbindBind f) := formKept_of_form rfl (by decide) (fun h => by rw [h _ rfl]; rfl)
theorem FormKept.evbindUnbind (f : Fields) : FormKept.Statement (.evbindUnbind f) := formKept_of_form rfl (by decide) (fun h => by rw [h _ rfl]; rfl)
theorem FormKept.fltrd (f : Fields) : FormKept.Statement (.fltrd f) := formKept_of_form rfl (by decide) (fun _ => rfl)
theorem FormKept.resumeRetry (f : Fields) : FormKept.Statement (.resumeRetry f) := formKept_of_form rfl (by decide) (fun h => by rw [h _ rfl]; rfl)
theorem FormKept.resumeDiscard (f : Fields) : FormKept.Statement (.resumeDiscard f) := formKept_of_form rfl (by decide) (fun h => by rw [h _ rfl]; rfl)
theorem FormKept.replayall (f : Fields) : FormKept.Statement (.replayall f) := formKept_of_form rfl (by decide) (fun _ => rfl)
theorem FormKept.ctxsave (f : Fields) : FormKept.Statement (.ctxsave f) := formKept_of_form rfl (by decide) (fun _ => rfl)
theorem FormKept.ctxload (f : Fields) : FormKept.Statement (.ctxload f) := formKept_of_form rfl (by decide) (fun _ => rfl)
theorem FormKept.csrrd (f : Fields) : FormKept.Statement (.csrrd f) := formKept_of_form rfl (by decide) (fun _ => rfl)
theorem FormKept.csrwr (f : Fields) : FormKept.Statement (.csrwr f) := formKept_of_form rfl (by decide) (fun _ => rfl)
theorem FormKept.perfrd (f : Fields) : FormKept.Statement (.perfrd f) := formKept_of_form rfl (by decide) (fun _ => rfl)
theorem FormKept.linkctlPause (f : Fields) : FormKept.Statement (.linkctlPause f) := formKept_of_form rfl (by decide) (fun h => by rw [h _ rfl]; rfl)
theorem FormKept.linkctlResume (f : Fields) : FormKept.Statement (.linkctlResume f) := formKept_of_form rfl (by decide) (fun h => by rw [h _ rfl]; rfl)
theorem FormKept.linkctlMap (f : Fields) : FormKept.Statement (.linkctlMap f) := formKept_of_form rfl (by decide) (fun h => by rw [h _ rfl]; rfl)
theorem FormKept.linkctlSched (f : Fields) : FormKept.Statement (.linkctlSched f) := formKept_of_form rfl (by decide) (fun h => by rw [h _ rfl]; rfl)
theorem FormKept.linkctlCancel (f : Fields) : FormKept.Statement (.linkctlCancel f) := formKept_of_form rfl (by decide) (fun h => by rw [h _ rfl]; rfl)
theorem FormKept.linkctlClrcnt (f : Fields) : FormKept.Statement (.linkctlClrcnt f) := formKept_of_form rfl (by decide) (fun h => by rw [h _ rfl]; rfl)
theorem FormKept.linkctlCfg (f : Fields) : FormKept.Statement (.linkctlCfg f) := formKept_of_form rfl (by decide) (fun h => by rw [h _ rfl]; rfl)
theorem FormKept.linkst (f : Fields) : FormKept.Statement (.linkst f) := formKept_of_form rfl (by decide) (fun _ => rfl)
theorem FormKept.corestopStop (f : Fields) : FormKept.Statement (.corestopStop f) := formKept_of_form rfl (by decide) (fun h => by rw [h _ rfl]; rfl)
theorem FormKept.corestopStart (f : Fields) : FormKept.Statement (.corestopStart f) := formKept_of_form rfl (by decide) (fun h => by rw [h _ rfl]; rfl)
theorem FormKept.clockChangeRequest (stack mhz : Nat) : FormKept.Statement (.clockChangeRequest stack mhz) := formKept_of_event rfl
theorem FormKept.clockSettled (stack : Nat) : FormKept.Statement (.clockSettled stack) := formKept_of_event rfl
theorem FormKept.clampAct (stack mhz : Nat) (idle : Bool) : FormKept.Statement (.clampAct stack mhz idle) := formKept_of_event rfl
theorem FormKept.clampRelease (stack : Nat) : FormKept.Statement (.clampRelease stack) := formKept_of_event rfl
theorem FormKept.thermalTrip : FormKept.Statement (.thermalTrip) := formKept_of_event rfl
theorem FormKept.tokenServe (core src : Nat) : FormKept.Statement (.tokenServe core src) := formKept_of_event rfl
theorem FormKept.frameSpill (core : Nat) : FormKept.Statement (.frameSpill core) := formKept_of_event rfl
theorem FormKept.frameFill (core : Nat) (fp : U32) : FormKept.Statement (.frameFill core fp) := formKept_of_event rfl
theorem FormKept.deferredFree (core : Nat) (fp : U32) : FormKept.Statement (.deferredFree core fp) := formKept_of_event rfl
theorem FormKept.releaseMessage (core src : Nat) : FormKept.Statement (.releaseMessage core src) := formKept_of_event rfl
theorem FormKept.tileSpaceReturn (core index : Nat) : FormKept.Statement (.tileSpaceReturn core index) := formKept_of_event rfl
theorem FormKept.hostPush (func queue offset : Nat) (data : List Byte) : FormKept.Statement (.hostPush func queue offset data) := formKept_of_event rfl
theorem FormKept.distributorSelect (stack : Nat) : FormKept.Statement (.distributorSelect stack) := formKept_of_event rfl
theorem FormKept.priorityAging (stack slot : Nat) : FormKept.Statement (.priorityAging stack slot) := formKept_of_event rfl
theorem FormKept.bind (stack : Nat) : FormKept.Statement (.bind stack) := formKept_of_event rfl
theorem FormKept.askForWork (core task : Nat) : FormKept.Statement (.askForWork core task) := formKept_of_event rfl
theorem FormKept.askServe (stack : Nat) : FormKept.Statement (.askServe stack) := formKept_of_event rfl
theorem FormKept.partReport (stack task : Nat) : FormKept.Statement (.partReport stack task) := formKept_of_event rfl
theorem FormKept.rangeTaskComplete (task : Nat) : FormKept.Statement (.rangeTaskComplete task) := formKept_of_event rfl
theorem FormKept.pushPortRelease (core cmd : Nat) : FormKept.Statement (.pushPortRelease core cmd) := formKept_of_event rfl
theorem FormKept.replayCursorGrant (quad : Nat) : FormKept.Statement (.replayCursorGrant quad) := formKept_of_event rfl
theorem FormKept.guardSnapshot (quad : Nat) : FormKept.Statement (.guardSnapshot quad) := formKept_of_event rfl
theorem FormKept.replayIssue (quad task : Nat) : FormKept.Statement (.replayIssue quad task) := formKept_of_event rfl
theorem FormKept.probeStart (quad task : Nat) : FormKept.Statement (.probeStart quad task) := formKept_of_event rfl
theorem FormKept.replayComplete (quad task : Nat) : FormKept.Statement (.replayComplete quad task) := formKept_of_event rfl
theorem FormKept.replayFault (quad task : Nat) : FormKept.Statement (.replayFault quad task) := formKept_of_event rfl
theorem FormKept.installStart (core : Nat) (obj : U32) (page : Nat) : FormKept.Statement (.installStart core obj page) := formKept_of_event rfl
theorem FormKept.installComplete (core : Nat) (obj : U32) (page : Nat) : FormKept.Statement (.installComplete core obj page) := formKept_of_event rfl
theorem FormKept.quarantineNotice (core : Nat) : FormKept.Statement (.quarantineNotice core) := formKept_of_event rfl
theorem FormKept.abortFree (core : Nat) (fp : U32) : FormKept.Statement (.abortFree core fp) := formKept_of_event rfl
theorem FormKept.switchAccept (stack ctx : Nat) : FormKept.Statement (.switchAccept stack ctx) := formKept_of_event rfl
theorem FormKept.switchDrain (stack ctx : Nat) : FormKept.Statement (.switchDrain stack ctx) := formKept_of_event rfl
theorem FormKept.bridgeProduce (core port : Nat) : FormKept.Statement (.bridgeProduce core port) := formKept_of_event rfl
theorem FormKept.bridgeConsume (core port : Nat) : FormKept.Statement (.bridgeConsume core port) := formKept_of_event rfl
theorem FormKept.objLoad (ctx : Nat) : FormKept.Statement (.objLoad ctx) := formKept_of_event rfl
theorem FormKept.objUnload (ctx : Nat) : FormKept.Statement (.objUnload ctx) := formKept_of_event rfl
theorem FormKept.lightDispatch (core : Nat) : FormKept.Statement (.lightDispatch core) := formKept_of_event rfl
theorem FormKept.engineDispatch (core : Nat) : FormKept.Statement (.engineDispatch core) := formKept_of_event rfl
theorem FormKept.dispatchTurn (core : Nat) (engine : Bool) : FormKept.Statement (.dispatchTurn core engine) := formKept_of_event rfl
theorem FormKept.quiesced (ctx : Nat) : FormKept.Statement (.quiesced ctx) := formKept_of_event rfl
theorem FormKept.dividerEmit (core : Nat) : FormKept.Statement (.dividerEmit core) := formKept_of_event rfl
theorem FormKept.pageSetBump (ctx : Nat) : FormKept.Statement (.pageSetBump ctx) := formKept_of_event rfl
theorem FormKept.bumpDone (ctx : Nat) : FormKept.Statement (.bumpDone ctx) := formKept_of_event rfl
theorem FormKept.translationWindowFill (core unit cap : Nat) (va : U64) : FormKept.Statement (.translationWindowFill core unit cap va) := formKept_of_event rfl
theorem FormKept.replicaPropagate (stack : Nat) : FormKept.Statement (.replicaPropagate stack) := formKept_of_event rfl
theorem FormKept.publishSwap (core cmd : Nat) : FormKept.Statement (.publishSwap core cmd) := formKept_of_event rfl
theorem FormKept.agRow (core gen : Nat) : FormKept.Statement (.agRow core gen) := formKept_of_event rfl
theorem FormKept.tnewGrant (core : Nat) : FormKept.Statement (.tnewGrant core) := formKept_of_event rfl
theorem FormKept.splitPhaseComplete (core cmd : Nat) : FormKept.Statement (.splitPhaseComplete core cmd) := formKept_of_event rfl
theorem FormKept.copyComplete (core cmd : Nat) : FormKept.Statement (.copyComplete core cmd) := formKept_of_event rfl
theorem FormKept.vectorCommandStart (core : Nat) : FormKept.Statement (.vectorCommandStart core) := formKept_of_event rfl
theorem FormKept.vectorComplete (core : Nat) : FormKept.Statement (.vectorComplete core) := formKept_of_event rfl
theorem FormKept.reductionRelease (core : Nat) (fp : U32) (ip : BitVec 20) : FormKept.Statement (.reductionRelease core fp ip) := formKept_of_event rfl
theorem FormKept.matrixItemStart (core acc : Nat) : FormKept.Statement (.matrixItemStart core acc) := formKept_of_event rfl
theorem FormKept.rowFiring (core acc : Nat) : FormKept.Statement (.rowFiring core acc) := formKept_of_event rfl
theorem FormKept.matrixItemFinish (core acc : Nat) : FormKept.Statement (.matrixItemFinish core acc) := formKept_of_event rfl
theorem FormKept.markerItem (core acc : Nat) : FormKept.Statement (.markerItem core acc) := formKept_of_event rfl
theorem FormKept.bindingRelease (core : Nat) : FormKept.Statement (.bindingRelease core) := formKept_of_event rfl
theorem FormKept.gangGrant (stack row : Nat) : FormKept.Statement (.gangGrant stack row) := formKept_of_event rfl
theorem FormKept.tbWaiterRelease (core : Nat) : FormKept.Statement (.tbWaiterRelease core) := formKept_of_event rfl
theorem FormKept.tbwaitRetry (core cmd : Nat) : FormKept.Statement (.tbwaitRetry core cmd) := formKept_of_event rfl
theorem FormKept.barArrival (core cmd : Nat) : FormKept.Statement (.barArrival core cmd) := formKept_of_event rfl
theorem FormKept.collArrival (core cmd : Nat) : FormKept.Statement (.collArrival core cmd) := formKept_of_event rfl
theorem FormKept.updateApply (core cmd : Nat) : FormKept.Statement (.updateApply core cmd) := formKept_of_event rfl
theorem FormKept.lockGrant (node entry : Nat) : FormKept.Statement (.lockGrant node entry) := formKept_of_event rfl
theorem FormKept.timewaitRelease (core : Nat) : FormKept.Statement (.timewaitRelease core) := formKept_of_event rfl
theorem FormKept.timewaitRetry (core : Nat) : FormKept.Statement (.timewaitRetry core) := formKept_of_event rfl
theorem FormKept.syncExchange (link : Nat) : FormKept.Statement (.syncExchange link) := formKept_of_event rfl
theorem FormKept.timeMessage (link side : Nat) : FormKept.Statement (.timeMessage link side) := formKept_of_event rfl
theorem FormKept.holdoverEnter (stack : Nat) : FormKept.Statement (.holdoverEnter stack) := formKept_of_event rfl
theorem FormKept.holdoverTick (stack : Nat) : FormKept.Statement (.holdoverTick stack) := formKept_of_event rfl
theorem FormKept.podSyncExchange (off : Int) (err tiers : Nat) : FormKept.Statement (.podSyncExchange off err tiers) := formKept_of_event rfl
theorem FormKept.ptpMessage (off : Int) (err : Nat) : FormKept.Statement (.ptpMessage off err) := formKept_of_event rfl
theorem FormKept.flitSend (link side : Nat) : FormKept.Statement (.flitSend link side) := formKept_of_event rfl
theorem FormKept.flitData (link side : Nat) : FormKept.Statement (.flitData link side) := formKept_of_event rfl
theorem FormKept.flitOpen (link side : Nat) : FormKept.Statement (.flitOpen link side) := formKept_of_event rfl
theorem FormKept.flitClose (link side : Nat) : FormKept.Statement (.flitClose link side) := formKept_of_event rfl
theorem FormKept.flitAck (link side : Nat) : FormKept.Statement (.flitAck link side) := formKept_of_event rfl
theorem FormKept.flitIdle (link side : Nat) : FormKept.Statement (.flitIdle link side) := formKept_of_event rfl
theorem FormKept.ackDue (link side : Nat) : FormKept.Statement (.ackDue link side) := formKept_of_event rfl
theorem FormKept.retryWindow (link side : Nat) : FormKept.Statement (.retryWindow link side) := formKept_of_event rfl
theorem FormKept.changeProposal (link side : Nat) : FormKept.Statement (.changeProposal link side) := formKept_of_event rfl
theorem FormKept.changeReply (link side : Nat) : FormKept.Statement (.changeReply link side) := formKept_of_event rfl
theorem FormKept.changeQuiesce (link side : Nat) : FormKept.Statement (.changeQuiesce link side) := formKept_of_event rfl
theorem FormKept.changeQuiet (link side : Nat) : FormKept.Statement (.changeQuiet link side) := formKept_of_event rfl
theorem FormKept.retrainStart (link side : Nat) : FormKept.Statement (.retrainStart link side) := formKept_of_event rfl
theorem FormKept.trainingComplete (link : Nat) (ok : Bool) : FormKept.Statement (.trainingComplete link ok) := formKept_of_event rfl
theorem FormKept.linkLoss (link side : Nat) : FormKept.Statement (.linkLoss link side) := formKept_of_event rfl
theorem FormKept.memoryError (err : MemError) : FormKept.Statement (.memoryError err) := formKept_of_event rfl
theorem FormKept.eventSend (stack chan : Nat) : FormKept.Statement (.eventSend stack chan) := formKept_of_event rfl
theorem FormKept.saveWrite (ctx : Nat) : FormKept.Statement (.saveWrite ctx) := formKept_of_event rfl
theorem FormKept.taskCompletion (task : Nat) : FormKept.Statement (.taskCompletion task) := formKept_of_event rfl
theorem FormKept.nvmeCompletion (core cmd : Nat) (status : NvmeStatus) : FormKept.Statement (.nvmeCompletion core cmd status) := formKept_of_event rfl
theorem FormKept.registerWrite (offset : Nat) (value : U64) : FormKept.Statement (.registerWrite offset value) := formKept_of_event rfl
theorem FormKept.seedWrite (ctx : Nat) (value : U64) : FormKept.Statement (.seedWrite ctx value) := formKept_of_event rfl
theorem FormKept.flogrdWrite (ctx : Nat) (value : U32) : FormKept.Statement (.flogrdWrite ctx value) := formKept_of_event rfl
theorem FormKept.ctxActivate (ctx : Nat) : FormKept.Statement (.ctxActivate ctx) := formKept_of_event rfl
theorem FormKept.ctxDestroy (ctx : Nat) : FormKept.Statement (.ctxDestroy ctx) := formKept_of_event rfl
theorem FormKept.apertureAccess (offset len : Nat) (data : Option (List Byte)) : FormKept.Statement (.apertureAccess offset len data) := formKept_of_event rfl
theorem FormKept.windowWrite (index : Nat) (value : U128) : FormKept.Statement (.windowWrite index value) := formKept_of_event rfl
theorem FormKept.ownerkeyWrite (key : List Byte) : FormKept.Statement (.ownerkeyWrite key) := formKept_of_event rfl
theorem FormKept.signersWrite (index : Nat) (key : List Byte) : FormKept.Statement (.signersWrite index key) := formKept_of_event rfl
theorem FormKept.mboxQuote : FormKept.Statement (.mboxQuote) := formKept_of_event rfl
theorem FormKept.mboxLog : FormKept.Statement (.mboxLog) := formKept_of_event rfl
theorem FormKept.linkPolicy (policy : List Byte) : FormKept.Statement (.linkPolicy policy) := formKept_of_event rfl
theorem FormKept.moduleReset : FormKept.Statement (.moduleReset) := formKept_of_event rfl
theorem FormKept.bootStage (ok : Bool) : FormKept.Statement (.bootStage ok) := formKept_of_event rfl
theorem FormKept.capEntryFree (core index : Nat) : FormKept.Statement (.capEntryFree core index) := formKept_of_event rfl
theorem FormKept.flitDiscard (link side : Nat) (badCrc : Bool) : FormKept.Statement (.flitDiscard link side badCrc) := formKept_of_event rfl
theorem FormKept.slewComplete (stack : Nat) : FormKept.Statement (.slewComplete stack) := formKept_of_event rfl
theorem FormKept.freeSlotReport (core : Nat) : FormKept.Statement (.freeSlotReport core) := formKept_of_event rfl
theorem FormKept.boardPowerOff : FormKept.Statement (.boardPowerOff) := formKept_of_event rfl

end Sys2Proof.Laws
end

