-- ==== Sys2Proof/Laws/Encoding.lean ====
section
/-! SUPPORT. The fields of a word and the word of its fields are inverse (R55); an accepted word carries legal RM and SCOPE codes (R62, R67); an operator made of a word has that word's form. -/

namespace Sys2Proof

open Enc

/-! ## Bits -/

/-- A bit of the lower part. -/
theorem getLsbD_append_lo {n m : Nat} (x : BitVec n) (y : BitVec m) (i : Nat) (h : i < m) :
    (x ++ y).getLsbD i = y.getLsbD i := by
  simp [BitVec.getLsbD_append, h]

/-- A bit of the upper part. -/
theorem getLsbD_append_hi {n m : Nat} (x : BitVec n) (y : BitVec m) (i : Nat) (h : m ≤ i) :
    (x ++ y).getLsbD i = x.getLsbD (i - m) := by
  simp [BitVec.getLsbD_append, Nat.not_lt.mpr h]

/-- Two neighbouring fields are one. -/
theorem field_glue {N a b n m : Nat} (w : BitVec N) (h : a = b + m) : field w a n ++ field w b m = field w b (n + m) := by
  subst h
  apply BitVec.eq_of_getLsbD_eq
  intro i hi
  simp only [field, BitVec.getLsbD_append, BitVec.getLsbD_extractLsb']
  by_cases h : i < m
  · simp [h, hi]
  · have h1 : i - m < n := by omega
    have h2 : b + m + (i - m) = b + i := by omega
    simp [h, hi, h1, h2]

/-- The fields of the word that fields make are those fields (R55). -/
theorem Raw.ofWord_toWord (r : Raw) : Raw.ofWord r.toWord = r := by
  cases r
  simp only [Raw.ofWord, Raw.toWord, Raw.mk.injEq]
  refine ⟨?_, ?_, ?_, ?_, ?_, ?_, ?_, ?_, ?_, ?_, ?_, ?_, ?_, ?_, ?_, ?_, ?_, ?_, ?_⟩
  all_goals
    apply BitVec.eq_of_getLsbD_eq
    intro i hi
    simp (disch := omega) only [field, BitVec.getLsbD_extractLsb', getLsbD_append_lo, getLsbD_append_hi, hi, decide_true,
      Bool.true_and]
    refine congrArg _ ?_
    try omega

/-- The word that the fields of a word make is that word (R55). -/
theorem Raw.toWord_ofWord (w : U128) : (Raw.ofWord w).toWord = w := by
  simp only [Raw.ofWord, Raw.toWord]
  repeat rw [field_glue w (by rfl)]
  apply BitVec.eq_of_getLsbD_eq
  intro i hi
  simp [hi]

/-! ## What the rows accept -/

/-- The modifiers that a row allows keep RM and SCOPE among the codes that have a name (R62). -/
theorem Enc.xtUse_lt {rm sat scope mx : Bool} {q : Nat → Bool} {r : Raw} (h : xtUse rm sat scope mx q r = true) :
    r.rm.toNat ≤ 4 ∧ r.scope.toNat ≤ 5 := by
  unfold xtUse at h
  simp only [Bool.and_eq_true] at h
  obtain ⟨⟨⟨⟨h1, _⟩, h2⟩, _⟩, _⟩ := h
  constructor
  · split at h1 <;> simp_all
  · split at h2 <;> simp_all

/-- The second of two conditions. -/
theorem Enc.and_r {a b : Bool} (h : (a && b) = true) : b = true := by simp_all

set_option maxHeartbeats 2000000 in
/-- Every row's check of XT keeps RM and SCOPE among the codes that have a name (R62, R67). -/
theorem opRow_xt {opc : Nat} {row : OpRow} (hl : opc < 256) (h : opRow opc = some row) (r : Raw)
    (hx : row.xt r = true) : r.rm.toNat ≤ 4 ∧ r.scope.toNat ≤ 5 := by
  interval_cases opc
  all_goals
    first
    | (injection h with h
       subst h
       first
       | exact xtUse_lt hx
       | exact xtUse_lt (and_r hx)
       | (dsimp only [xtQual, xt0, xtScope, xtAtom, rmSat, sysRow, floatRow] at hx
          first
          | exact xtUse_lt hx
          | exact xtUse_lt (and_r hx)
          | (simp only [Bool.and_eq_true] at hx
             first
             | exact xtUse_lt hx.1
             | exact xtUse_lt hx.1.1
             | exact xtUse_lt hx.1.1.1
             | exact xtUse_lt hx.1.1.1.1
             | exact xtUse_lt hx.1.1.1.1.1
             | exact xtUse_lt hx.1.2
             | exact xtUse_lt hx.1.1.2
             | (have h2 := hx.2
                split at h2
                · exact xtUse_lt h2
                · exact xtUse_lt (and_r h2)))))
    | injection h

/-- A word that passes the checks of R67 has legal RM and SCOPE. -/
theorem installReason_xt {o : ObjInfo} {r : Raw} (h : installReason o r = none) : r.rm.toNat ≤ 4 ∧ r.scope.toNat ≤ 5 := by
  unfold installReason at h
  split at h
  · cases h
  · rename_i row hr
    refine opRow_xt r.opc.isLt hr r ?_
    grind

/-! ## Names and codes -/

/-- Fields come back from their codes. -/
theorem Raw.fields_ofFields (opc : Nat) (f : Fields) : (Raw.ofFields opc f).fields = f := by
  obtain ⟨fn, ty, ar, np, slot, ⟨m0, p0, i0⟩, ⟨m1, p1, i1⟩, pri, rm, sat, scope, mx, qual, imm⟩ := f
  simp only [Raw.fields, Raw.ofFields, Dest.ofBits, Fields.mk.injEq, Dest.mk.injEq]
  refine ⟨trivial, ?_, ?_, ?_, trivial, ⟨?_, ?_, trivial⟩, ⟨?_, ?_, trivial⟩, trivial, ?_, ?_, ?_, ?_, trivial, trivial⟩
  · cases ty <;> rfl
  · cases ar <;> rfl
  · cases np <;> rfl
  · cases m0 <;> rfl
  · cases p0 <;> rfl
  · cases m1 <;> rfl
  · cases p1 <;> rfl
  · cases rm <;> rfl
  · cases sat <;> rfl
  · cases scope <;> rfl
  · cases mx <;> rfl

theorem EType.code_ofCode (c : BitVec 4) : (EType.ofCode c).code = c := by revert c; decide
theorem Arity.code_ofCode (c : BitVec 2) : (Arity.ofCode c).code = c := by revert c; decide
theorem NullPolicy.code_ofCode (c : BitVec 2) : (NullPolicy.ofCode c).code = c := by revert c; decide
theorem DestMode.code_ofCode (c : BitVec 2) : (DestMode.ofCode c).code = c := by revert c; decide
theorem Rounding.code_ofCode (c : BitVec 3) (h : c.toNat ≤ 4) : (Rounding.ofCode c).code = c := by revert c; decide
theorem Scope.code_ofCode (c : BitVec 3) (h : c.toNat ≤ 5) : (Scope.ofCode c).code = c := by revert c; decide
theorem bit1_eq_one (c : BitVec 1) : bit1 (c == 1#1) = c := by revert c; decide

/-- The bits of fields come back, where RM and SCOPE are legal. -/
theorem Raw.ofFields_fields (r : Raw) (h1 : r.rm.toNat ≤ 4) (h2 : r.scope.toNat ≤ 5) :
    Raw.ofFields r.opc.toNat r.fields = r := by
  cases r
  simp_all [Raw.fields, Raw.ofFields, Dest.ofBits, EType.code_ofCode, Arity.code_ofCode, NullPolicy.code_ofCode,
    DestMode.code_ofCode, Rounding.code_ofCode, Scope.code_ofCode, bit1_eq_one]

set_option maxHeartbeats 2000000 in
/-- The operator made of an opcode, an FN and fields has that form (R64). -/
theorem mkOp_form {opc fn : Nat} {f : Fields} {i : Instr} (hl : opc < 256) (hf : fn < 16)
    (h : mkOp opc fn f = some i) :
    ∃ fixed, i.form = some (opc, fixed, f) ∧ ∀ k, fixed = some k → fn = k := by
  interval_cases opc
  all_goals first
    | (injection h with h; subst h; exact ⟨none, rfl, fun _ h => nomatch h⟩)
    | injection h
    | (interval_cases fn
       all_goals first
         | (injection h with h; subst h; exact ⟨some _, rfl, fun _ h => Option.some.inj h⟩)
         | injection h)

end Sys2Proof
end

