-- ==== Sys2Proof/Laws/Engine.lean ====
section
/-! SUPPORT. What the acceptance of an engine command does, said once (R39, R252, R260). -/

namespace Sys2Proof.Machine

variable {s : State}

/-- BUSY of capability entries changes nothing else. -/
theorem State.capsBusy_spec (core : Nat) (cs : List Nat) (h : Nat → Nat) :
    { s.capsBusy core cs h with cores := [] } = { s with cores := [] } ∧
    ∀ n, ∃ t, (s.capsBusy core cs h).core n = { s.core n with caps := t } := by
  induction cs generalizing s with
  | nil => exact ⟨rfl, fun n => ⟨_, rfl⟩⟩
  | cons i cs ih =>
    obtain ⟨h1, h2⟩ := @ih (s.modCore core (fun k =>
      { k with caps := Table.put k.caps i { Table.look Cap.reset k.caps i with
          busy := h (Table.look Cap.reset k.caps i).busy } }))
    refine ⟨h1.trans rfl, fun n => ?_⟩
    obtain ⟨t, ht⟩ := h2 n
    refine ⟨t, ?_⟩
    show (State.capsBusy _ core cs h).core n = _
    rw [ht, State.core_modCore]
    split
    · rename_i e; subst e; rfl
    · rfl

/-- LIVE of a frame changes nothing but that frame. -/
theorem State.liveInc_spec (ctx : Nat) (fp : U32) :
    { s.liveInc ctx fp with cores := [] } = { s with cores := [] } ∧
    ∀ n, ∃ a b, (s.liveInc ctx fp).core n = { s.core n with frames := a, spillDir := b } := by
  unfold State.liveInc
  split
  · exact ⟨rfl, fun n => ⟨_, _, rfl⟩⟩
  · refine ⟨rfl, fun n => ?_⟩
    rw [State.core_modCore]
    split
    · rename_i e; subst e
      unfold Core.modAny
      split
      · exact ⟨_, _, rfl⟩
      · exact ⟨_, _, rfl⟩
    · exact ⟨_, _, rfl⟩

/-- LIVE of frames changes nothing but those frames. -/
theorem State.liveIncs_spec (ctx : Nat) (fps : List U32) :
    { s.liveIncs ctx fps with cores := [] } = { s with cores := [] } ∧
    ∀ n, ∃ a b, (s.liveIncs ctx fps).core n = { s.core n with frames := a, spillDir := b } := by
  induction fps generalizing s with
  | nil => exact ⟨rfl, fun n => ⟨_, _, rfl⟩⟩
  | cons fp t ih =>
    obtain ⟨h1, h2⟩ := @ih (s.liveInc ctx fp)
    obtain ⟨k1, k2⟩ := State.liveInc_spec (s := s) ctx fp
    refine ⟨h1.trans k1, fun n => ?_⟩
    obtain ⟨a, b, h⟩ := h2 n
    obtain ⟨a', b', h'⟩ := k2 n
    exact ⟨a, b, by show (State.liveIncs _ ctx t).core n = _; rw [h, h']⟩

/-- An accepted command takes the next number and joins the commands of its core; BUSY of its entries and LIVE of the frame of its
reply grow; nothing else of the machine changes. -/
theorem State.accept_spec (f : Fields) (c : Cmd) :
    { (s.accept f c).1 with cores := [], ids := 0 } = { s with cores := [], ids := 0 } ∧
    (s.accept f c).1.ids = s.ids + 1 ∧
    (∃ live, (s.accept f c).2 = { c with id := s.ids, live := live }) ∧
    ∀ n, ∃ t a b, (s.accept f c).1.core n =
      { s.core n with
        caps := t, frames := a, spillDir := b,
        cmds := if c.fire.core = n then (s.core n).cmds ++ [(s.accept f c).2] else (s.core n).cmds } := by
  have key (u : State) (c' : Cmd) (hu : { u with cores := [], ids := 0 } = { s with cores := [], ids := 0 }) (hi : u.ids = s.ids + 1)
      (hc : c'.fire.core = c.fire.core)
      (hn : ∀ n, ∃ t a b, u.core n = { s.core n with caps := t, frames := a, spillDir := b }) :
      { u.modCore c.fire.core (fun k => { k with cmds := k.cmds ++ [c'] }) with cores := [], ids := 0 } =
        { s with cores := [], ids := 0 } ∧
      (u.modCore c.fire.core (fun k => { k with cmds := k.cmds ++ [c'] })).ids = s.ids + 1 ∧
      ∀ n, ∃ t a b, (u.modCore c.fire.core (fun k => { k with cmds := k.cmds ++ [c'] })).core n =
        { s.core n with
          caps := t, frames := a, spillDir := b,
          cmds := if c.fire.core = n then (s.core n).cmds ++ [c'] else (s.core n).cmds } := by
    refine ⟨hu, hi, fun n => ?_⟩
    obtain ⟨t, a, b, h⟩ := hn n
    rw [State.core_modCore]
    split
    · rename_i e
      subst e
      exact ⟨t, a, b, by rw [h]⟩
    · exact ⟨t, a, b, h⟩
  obtain ⟨p1, p2⟩ := State.capsBusy_spec (s := s.newId) c.fire.core c.caps (· + 1)
  have q (n : Nat) : ∃ t a b, (s.newId.capsBusy c.fire.core c.caps (· + 1)).core n = { s.core n with caps := t, frames := a, spillDir := b } := by
    obtain ⟨t, ht⟩ := p2 n
    exact ⟨t, (s.core n).frames, (s.core n).spillDir, ht⟩
  have i1 : (s.newId.capsBusy c.fire.core c.caps (· + 1)).ids = s.ids + 1 := congrArg State.ids p1
  have e1 : { s.newId.capsBusy c.fire.core c.caps (· + 1) with cores := [], ids := 0 } = { s with cores := [], ids := 0 } :=
    congrArg (fun u : State => { u with ids := 0 }) p1
  let fps := s.replyFrames c.fire f
  let live : Bool := decide (c.engine = .split) && !fps.isEmpty
  let u := s.newId.capsBusy c.fire.core c.caps (· + 1)
  have fin : { (if live then u.liveIncs c.fire.ctx fps else u) with cores := [], ids := 0 } = { s with cores := [], ids := 0 } ∧
      (if live then u.liveIncs c.fire.ctx fps else u).ids = s.ids + 1 ∧
      ∀ n, ∃ t a b, (if live then u.liveIncs c.fire.ctx fps else u).core n = { s.core n with caps := t, frames := a, spillDir := b } := by
    obtain ⟨l1, l2⟩ := State.liveIncs_spec (s := u) c.fire.ctx fps
    cases live
    · exact ⟨e1, i1, q⟩
    · refine ⟨(congrArg (fun u : State => { u with ids := 0 }) l1).trans e1, (congrArg State.ids l1).trans i1, fun n => ?_⟩
      obtain ⟨a, b, h⟩ := l2 n
      obtain ⟨t, _, _, h'⟩ := q n
      exact ⟨t, a, b, by show (u.liveIncs c.fire.ctx fps).core n = _; rw [h, h']⟩
  obtain ⟨k1, k2, k3⟩ := key (if live then u.liveIncs c.fire.ctx fps else u) { c with id := s.ids, live := live } fin.1 fin.2.1 rfl fin.2.2
  exact ⟨k1, k2, ⟨_, rfl⟩, k3⟩

/-- Acceptance leaves every tile as it was. -/
theorem State.accept_tiles (f : Fields) (c : Cmd) (n : Nat) : ((s.accept f c).1.core n).tiles = (s.core n).tiles := by
  obtain ⟨-, -, -, h⟩ := State.accept_spec (s := s) f c
  obtain ⟨t, a, b, e⟩ := h n
  rw [e]

/-- Acceptance leaves every context as it was. -/
theorem State.accept_ctx (f : Fields) (c : Cmd) (n : Nat) : (s.accept f c).1.ctx n = s.ctx n := by
  obtain ⟨h, -, -, -⟩ := State.accept_spec (s := s) f c
  have e : (s.accept f c).1.ctxs = s.ctxs := by have := congrArg State.ctxs h; exact this
  unfold State.ctx; rw [e]

/-- A handle that passes R51 before acceptance passes it after, with the same view. -/
theorem State.accept_view (f : Fields) (c : Cmd) (ctx : Nat) (h : U64) (sh : Bool) :
    (s.accept f c).1.view ctx h sh = s.view ctx h sh := by
  unfold State.view Core.tile
  simp only [State.accept_ctx, State.accept_tiles]

/-- Acceptance leaves the memories as they were. -/
theorem State.accept_memory (f : Fields) (c : Cmd) :
    (s.accept f c).1.hbm = s.hbm ∧ (s.accept f c).1.vault = s.vault ∧ (s.accept f c).1.host = s.host ∧
    (s.accept f c).1.storage = s.storage := by
  obtain ⟨h, -, -, -⟩ := State.accept_spec (s := s) f c
  have h1 := congrArg State.hbm h
  have h2 := congrArg State.vault h
  have h3 := congrArg State.host h
  have h4 := congrArg State.storage h
  exact ⟨h1, h2, h3, h4⟩

end Sys2Proof.Machine
end

