-- ==== Sys2Proof/Laws/Numbers.lean ====
section
/-! SUPPORT. Integers of a type: how operands are read (R218), results wrapped and extended (R83, R84). -/

namespace Sys2Proof.Machine

/-- How an operand is read, with its condition as a proposition (R84, R218). -/
theorem decodeInt_eq (t : EType) (n : Nat) :
    decodeInt t n = if tySigned t = true ∧ 2 ^ (tyWidth t - 1) ≤ n % 2 ^ tyWidth t then ((n % 2 ^ tyWidth t : Nat) : Int) - 2 ^ tyWidth t
      else ((n % 2 ^ tyWidth t : Nat) : Int) := by
  simp only [decodeInt, Bool.and_eq_true, decide_eq_true_eq]

/-- How a result is extended, with its condition as a proposition (R83). -/
theorem extend_eq (t : EType) (n : Nat) :
    extend t n = if tySigned t = true ∧ 2 ^ (tyWidth t - 1) ≤ n % 2 ^ tyWidth t then
        BitVec.ofNat 64 (n % 2 ^ tyWidth t + (2 ^ 64 - 2 ^ tyWidth t))
      else BitVec.ofNat 64 (n % 2 ^ tyWidth t) := by
  simp only [extend, Bool.and_eq_true, decide_eq_true_eq]

/-- An operand is read modulo 2^w, within the range of its type (R84, R218). -/
theorem decodeInt_spec (t : EType) (n : Nat) :
    tyMin t ≤ decodeInt t n ∧ decodeInt t n ≤ tyMax t ∧ decodeInt t n % (2 ^ tyWidth t : Int) = (n : Int) % 2 ^ tyWidth t := by
  rw [decodeInt_eq]
  cases t <;> simp only [tyMin, tyMax, tySigned, tyWidth, true_and, false_and, if_true, if_false, Bool.false_eq_true, Nat.reduceSub] <;>
    (try split) <;> omega

/-- The word of an integer of a type's range is the extended pattern (R83). -/
theorem extend_ofInt (t : EType) (n : Nat) : extend t n = BitVec.ofInt 64 (decodeInt t n) := by
  rw [extend_eq, decodeInt_eq]
  apply BitVec.eq_of_toNat_eq
  cases t <;> simp only [tySigned, tyWidth, true_and, false_and, if_false, Bool.false_eq_true, Nat.reduceSub] <;>
    (try split) <;> simp only [BitVec.toNat_ofNat, BitVec.toNat_ofInt] <;> omega

/-- A wrapped result is congruent to the exact one (R84). -/
theorem decodeInt_wrapInt (t : EType) (e : Int) : decodeInt t (wrapInt t e) % (2 ^ tyWidth t : Int) = e % 2 ^ tyWidth t := by
  rw [(decodeInt_spec t _).2.2]
  cases t <;> simp only [wrapInt, tyWidth] <;> omega

/-- A result word is the integer of the type's range that the exact result wraps to (R83, R84). -/
theorem extend_wrapInt (t : EType) (e : Int) :
    ∃ k : Int, extend t (wrapInt t e) = BitVec.ofInt 64 k ∧ tyMin t ≤ k ∧ k ≤ tyMax t ∧
      k % (2 ^ tyWidth t : Int) = e % 2 ^ tyWidth t :=
  ⟨_, extend_ofInt t _, (decodeInt_spec t _).1, (decodeInt_spec t _).2.1, decodeInt_wrapInt t e⟩

/-- Two integers of a type's range that agree modulo 2^w are equal (R84). -/
theorem range_unique (t : EType) {k e : Int} (hk : tyMin t ≤ k ∧ k ≤ tyMax t) (he : tyMin t ≤ e ∧ e ≤ tyMax t)
    (h : k % (2 ^ tyWidth t : Int) = e % 2 ^ tyWidth t) : k = e := by
  cases t <;> simp only [tyMin, tyMax, tySigned, tyWidth, if_true, if_false, Bool.false_eq_true, Nat.reduceSub] at * <;> omega

/-- An exact result within the range is emitted as it is (R83, R84). -/
theorem extend_wrapInt_fits (t : EType) {e : Int} (h : tyMin t ≤ e ∧ e ≤ tyMax t) : extend t (wrapInt t e) = BitVec.ofInt 64 e := by
  obtain ⟨k, h1, h2, h3, h4⟩ := extend_wrapInt t e
  rw [h1, range_unique t ⟨h2, h3⟩ h h4]

end Sys2Proof.Machine
end

