-- ==== Sys2Proof/Certificates/Slice0/Obligations.lean ====
section
/-! DEFINITION. The statements about the machine: what its operators and agents do, what they leave alone, and what every step keeps. -/

open Sys2Proof Sys2Proof.Machine

/-- Decoding the word of a well-formed operator gives the operator back, with every field at every value that the encoding admits (R55, R62, R64, R67). -/
def Obligations.EncodeDecodeRoundTrip : Prop :=
  ∀ (i : Instr) (w : U128), i.wf = true → encode i = some w → decode w = .ok i

/-- A word that decodes is the word of the operator it decodes to, and that operator is well-formed: each accepted word has one meaning and none of its
bits is dropped (R55, R64, R67). -/
def Obligations.DecodedWordEncodesBack : Prop :=
  ∀ (w : U128) (i : Instr), decode w = .ok i → i.wf = true ∧ encode i = some w

/-- The step keeps every memory in its canonical form, whatever the state (R7). -/
def Obligations.StepKeepsMemoryCanonical : Prop :=
  ∀ (s t : State), s.memOk → step s = .next t → t.memOk

/-- One step, with power (R56, R178, R183). An operator in its cycle of execution whose word, kept with the firing or on the resident page, decodes to an
instruction runs as exec of that instruction, in the state in which the firing holds its word; with no operator in its cycle the first step that must
follow at once runs, else the first event of the schedule, with TIME moved on as the schedule says, else one of the agents, chosen freely. Without
power nothing runs. The order of steps is the model's choice (log 1, log 11). -/
def Obligations.StepRunsDecodedInstruction : Prop :=
  ∀ (s : State),
    (s.mod.powered = false → step s = .fault .noPower) ∧
    (s.mod.powered = true →
      (∀ g w i, s.cur = some g → s.fetch g = some w → decode w = .ok i → step s = exec i { s with cur := some { g with word := some w } }) ∧
      (∀ i rest, s.cur = none → s.due = i :: rest → step s = exec i { s with due := rest }) ∧
      (∀ n i rest, s.cur = none → s.due = [] → s.agenda = (n, i) :: rest → step s = exec i { s.pass (fun _ => n) with agenda := rest }) ∧
      (s.cur = none → s.due = [] → s.agenda = [] → step s = s.freeStep))

/-- Words written out bit by bit from the layout of R55 decode to the operators of the map of R64 that they stand for, with their fields: FADD F32 of a
pair in slot 12, RM 1, PRI 2, to IP 0x43 and to port R of IP 0x50 of the parent; STEER in slot 20; SHR N32 by 3; LAUNCH with the sticky slot 16; HCALL
of channel 40; ATOM.MIN; FETCH.GLB triadic in slot 20; TIMECMP with IMM 32. A word with an opcode that R64 does not assign is refused with reason 1,
whatever its other bits (R66). -/
def Obligations.SpecWordsDecode : Prop :=
  let same (ip : BitVec 20) : Dest := { mode := .same, port := false, ip := ip }
  let none_ : Dest := { mode := .discard, port := false, ip := 0 }
  let z : Fields := { fn := 0, ty := .i64, ar := .monadic, np := .absorb, slot := 0, d0 := none_, d1 := none_, pri := 0, rm := .rne, sat := false, scope := .core, mx := false, qual := 0, imm := 0 }
  decode 0x4009_400C_0000_86C0_0142_2000_0000_0000 =
    .ok (.fadd { z with ty := .f32, ar := .dyadic, slot := 12, d0 := same 0x43, d1 := { mode := .parent, port := true, ip := 0x50 }, pri := 2, rm := .rtz }) ∧
  decode 0x0200_4014_0000_6200_00E0_0000_0000_0000 = .ok (.steer { z with ar := .dyadic, slot := 20, d0 := same 0x31, d1 := same 0x38 }) ∧
  decode 0x2C03_0000_0000_A580_0000_0000_0000_0003 = .ok (.shr { z with ty := .n32, d0 := same 0x52, imm := 3 }) ∧
  decode 0xD000_0010_0000_4240_00C0_0000_0000_0000 = .ok (.launch { z with slot := 16, d0 := same 0x21, d1 := { same 0x30 with port := true } }) ∧
  decode 0xE100_0000_C000_0180_0000_0000_0000_0028 = .ok (.hcall { z with imm := 40 }) ∧
  decode 0xB710_C01E_0000_8980_0000_0000_0000_0000 = .ok (.atom { z with fn := 1, ar := .triadic, slot := 30, d0 := same 0x44 }) ∧
  decode 0x6200_C014_0000_C180_0000_0002_0000_0100 = .ok (.fetchGlb { z with ar := .triadic, slot := 20, d0 := same 0x60, qual := 2, imm := 0x100 }) ∧
  decode 0xC900_400C_0000_B180_0000_0000_0000_0020 = .ok (.timecmp { z with ar := .dyadic, slot := 12, d0 := same 0x58, imm := 0x20 }) ∧
  decode 0x9919_400C_0000_E380_0000_0000_0000_0000 = .ok (.vrbc { z with fn := 1, ty := .f32, ar := .dyadic, slot := 12, d0 := same 0x71 }) ∧
  (∀ w : BitVec 128, let opc := (w.extractLsb' 120 8).toNat
    (0x18 ≤ opc ∧ opc < 0x20) ∨ (0x3D ≤ opc ∧ opc < 0x40) ∨ opc = 0x4F ∨ (0x58 ≤ opc ∧ opc < 0x60) ∨ (0x72 ≤ opc ∧ opc < 0x80) ∨ opc = 0x9F ∨ (0xAC ≤ opc ∧ opc < 0xB0) ∨ opc = 0xC7 ∨ (0xCC ≤ opc ∧ opc < 0xD0) ∨
      (0xD8 ≤ opc ∧ opc < 0xE0) ∨ 0xEE ≤ opc → decode w = .reject .opcode)

/-- The machine right after module reset (R384, R386, R390, R433, R441, R470, R472, R487): it has power, is in boot stage 0, has no context active, the
aperture shut, TIMECFG 0x2_0000_0000 and no mailbox command; every stack has TIME 0, ERR all ones, EVLOST 0 and unbound channels with empty queues;
every context's registers are 0; no core holds a context, a frame, a firing or a command. Memories in reset list nothing (log 5), which is their
canonical form. -/
def Obligations.ResetState : Prop :=
  let s := State.reset
  s.memOk ∧ s.cur = none ∧ s.mod.powered = true ∧ s.mod.stage = 0 ∧ s.mod.aperture = false ∧ s.mod.timecfg = 0x200000000 ∧ s.mod.cmdBusy = false ∧ s.mod.mboxStat = 0 ∧ s.mod.ownerkey = none ∧ s.mod.gates = 0 ∧
  (∀ n, (s.stack n).time = 0 ∧ (s.stack n).errReg = 0xFFFFFFFF ∧ (s.stack n).evlost = 0 ∧ (s.stack n).epoch = 0 ∧ ∀ c, ((s.stack n).chan c).bind = none ∧ ((s.stack n).chan c).queue = []) ∧
  (∀ x, (s.ctx x).live = false ∧ (s.ctx x).fpstat = 0 ∧ (s.ctx x).seed = 0 ∧ (s.ctx x).stalecnt = 0 ∧ (s.ctx x).flogWr = 0 ∧ (s.ctx x).flogLost = 0 ∧ (s.ctx x).ctxroot = 0 ∧ (s.ctx x).pset = 0) ∧
  (∀ c, (s.core c).ctx = none ∧ (s.core c).frames = [] ∧ (s.core c).light = [] ∧ (s.core c).engine = [] ∧ (s.core c).cmds = [] ∧ (∀ n, ((s.core c).cap n).valid = false) ∧ (∀ n, ((s.core c).tile n).valid = false)) ∧
  (∀ l side, (s.link l side).state = 1)

/-- The checks of R53 on the operands of a scalar operator, in their order: a fault token is passed on from dest0; else a marker at L or R goes to both
destinations; else a null ends the firing under ABSORB, gives a null of L's round under PASS, and raises NULL_OPERAND under FAULT; else an operand
that is no scalar raises KIND. No register but the fault log and no memory changes for the first two. What the divider's operators emit so takes its
turn in the divider (R217). -/
def Obligations.OperandChecks : Prop :=
  ∀ (s : State) (g : Firing) (f : Fields), s.cur = some g →
    ∀ i ∈ [Instr.add f, .sub f, .mul f, .mulh f, .div f, .rem f, .and f, .or f, .xor f, .andn f, .shl f, .shr f, .sar f, .rol f, .min f, .max f, .abs f, .neg f, .addsatAdd f, .addsatSub f, .cmp f, .clz f, .ctz f,
      .popc f, .bfx f, .bfi f, .sext f, .zext f, .fadd f, .fsub f, .fmul f, .ffma f, .fdiv f, .fsqrt f, .fmin f, .fmax f, .fcmp f, .fcvt f, .ftoi f, .itof f, .fabs f, .fneg f, .fclass f, .moviHi f],
      let t : State := s.retire
      let divides : Bool := decide (i ∈ [Instr.div f, .rem f, .fdiv f, .fsqrt f])
      let waits (d1 : Dest) (v : Val) : State := t.modCore g.core (fun k => { k with divider := k.divider ++ [{ fire := g, d0 := f.d0, d1 := d1, val := v, flags := 0 }] })
      let faults (v : Val) : Prop := v.kind = .fault
      (∀ v, g.vals.find? (fun v => v.kind = .fault) = some v → exec i s = .next (if divides then waits { mode := .discard, port := false, ip := 0 } v else t.emit g f false v)) ∧
      ((∀ v ∈ g.vals, ¬faults v) → ∀ v, (g.l :: g.r.toList).find? (fun v => v.kind = .marker) = some v →
        exec i s = .next (if divides then waits f.d1 v else t.emitBoth g f v)) ∧
      ((∀ v ∈ g.vals, ¬faults v) → (∀ v ∈ g.l :: g.r.toList, v.kind ≠ .marker) → (∃ v ∈ g.vals, v.kind = .null) →
        (f.np = .absorb → exec i s = .next t) ∧
        (f.np = .fault → exec i s = .next (t.fault g f .nullOperand 0)) ∧
        (f.np = .pass → ∃ v : Val, v.kind = .null ∧ v.value = 0 ∧ v.round = g.l.round ∧ exec i s = .next (if divides then waits f.d1 v else t.emitBoth g f v))) ∧
      (g.plain → ¬g.scalars → exec i s = .next (t.fault g f .kind 0))

/-- Faults (R33, R60, R423, R425, R426). A precise fault logs a record and, unless dest0 discards, sends to it a fault token whose VALUE is the class, the
virtual core and the record's index, with L's round. A record of a log with room whose place translates is written there and takes the next index;
else LOST counts, FLOG_FULL is raised and the token carries all ones. The record's fields lie where R425 puts them. -/
def Obligations.FaultRecordResults : Prop :=
  (∀ (s : State) (r : FaultRec),
    let c := s.ctx r.ctx
    let place := c.flog.toNat + 64 * (c.flogWr.toNat % c.flogn)
    let lost : State := (s.modCtx r.ctx (fun c => { c with flogLost := if c.flogLost = 0xFFFFFFFF then 0xFFFFFFFF else c.flogLost + 1 })).event (s.homeStack r.ctx) 8 r.ctx 0 (if c.flogLost = 0xFFFFFFFF then 0xFFFFFFFF else c.flogLost + 1)
    (c.flog = 0 ∨ (c.flogWr - c.flogRd).toNat = c.flogn → s.logFault r = (lost, 0xFFFFFFFF)) ∧
    (c.flog ≠ 0 → c.flogn ≠ 0 → (c.flogWr - c.flogRd).toNat ≠ c.flogn →
      (∀ e, s.ctxWrite r.ctx place (s.recordBytes r c.flogWr) = .error e → s.logFault r = (lost, 0xFFFFFFFF)) ∧
      (∀ u, s.ctxWrite r.ctx place (s.recordBytes r c.flogWr) = .ok u → s.logFault r = (u.modCtx r.ctx (fun c => { c with flogWr := c.flogWr + 1 }), c.flogWr)))) ∧
  (∀ (s : State) (r : FaultRec) (n : BitVec 32),
    let b := s.recordBytes r n
    let at_ (off len : Nat) : Nat := (((b.drop off).take len).foldr (fun x k => x.toNat + 256 * k) 0)
    b.length = 64 ∧ at_ 0 1 = r.cls.code ∧ at_ 2 2 = r.ctx % 65536 ∧ at_ 4 2 = (s.core r.core).vcore.toNat ∧ at_ 6 1 = r.port % 256 ∧ at_ 7 1 = r.reason % 256 ∧ at_ 8 4 = r.obj.toNat ∧ at_ 12 4 = r.ip.toNat ∧
    at_ 16 4 = r.fp.toNat ∧ at_ 20 4 = n.toNat ∧ at_ 24 8 = (s.stack (coreStack r.core)).timeReg.toNat ∧ at_ 32 4 = (s.stack (coreStack r.core)).errReg.toNat ∧ at_ 36 2 = (s.stack (coreStack r.core)).epoch.toNat ∧
    at_ 39 1 = 0 ∧ at_ 40 8 = r.d0 % 2 ^ 64 ∧ at_ 48 8 = r.d1 % 2 ^ 64 ∧ at_ 56 8 = r.d2 % 2 ^ 64) ∧
  (∀ (s : State) (g : Firing) (f : Fields) (cls : FaultClass) (d : Nat), g.replay = none → s.recording? g.core g.task = none →
    let r : FaultRec := { cls := cls, ctx := g.ctx, core := g.core, obj := g.obj, ip := g.ip, fp := g.fp, precise := true, parked := false, supv := false, token := f.d0.mode != .discard, port := 0, reason := 0, d0 := d, d1 := 0, d2 := 0 }
    let p := s.logFault r
    (f.d0.mode = .discard → (p.1.recording? g.core g.task = none → s.fault g f cls d = p.1)) ∧
    (∀ fp, p.1.destFp g f.d0 = some fp → ∃ v : Val, v.kind = .fault ∧ v.round = g.l.round ∧ v.prov = 7 ∧ v.value = BitVec.ofNat 8 cls.code ++ (s.core g.core).vcore ++ (0 : BitVec 12) ++ p.2 ∧
      ((p.1.sendAt g fp f.d0 v false).recording? g.core g.task = none → s.fault g f cls d = p.1.sendAt g fp f.d0 v false)))

/-- Memories (R7, R25, R247, R255, R258). A store through a capability whose range translates changes the bytes of its chunks in device memory, each at
its home, and no other byte of any memory; a chunk whose home is the HBM of another stack sets out over the links and changes no byte yet. Bytes put into a vault, or into device memory, read back, and every other byte reads as before. Each of them
keeps the canonical form of memory. -/
def Obligations.StoresChangeOnlyTheirBytes : Prop :=
  (∀ (s : State) (core cap off : Nat) (bs : List Byte) (kc cmd : Nat) (own : Option (Nat × Nat)) (cs : List Chunk),
    s.xlate ((s.core kc).cap cap).root.toNat (s.core kc).win cap .write (((s.core kc).cap cap).vbase + off) bs.length = .ok cs →
    ∃ u : State, s.sideWrite (.cap kc cap) off bs core cmd own = .ok u ∧ u = { s with hbm := u.hbm, tapes := u.tapes, saved := u.saved, props := u.props, streams := u.streams, links := u.links, ids := u.ids } ∧
      (s.memOk → u.memOk) ∧ (∀ a, (∀ c ∈ cs, a < s.writeKey c ∨ s.writeKey c + c.len ≤ a) → u.hbm.read a = s.hbm.read a) ∧
      (∀ c, cs = [c] → c.len = bs.length → bs ≠ [] →
        let far : Prop := core < 4096 ∧ s.writeKey c < 2 ^ 40 ∧ s.writeKey c / 2 ^ 36 ≠ coreStack core
        (¬far → u.streams = s.streams ∧ ∀ n (h : n < bs.length), u.hbm.read (s.writeKey c + n) = bs[n]) ∧
        (far → u.hbm = s.hbm ∧ ∃ t : Transit, u.streams = s.streams ++ [t] ∧ t.key = s.writeKey c ∧ t.bytes = bs ∧ t.core = core ∧ t.cmd = cmd))) ∧
  (∀ (s : State) (core off : Nat) (bs : List Byte), off + bs.length ≤ 2 ^ 22 →
    let u := s.setVaultBytes core off bs
    u = { s with vault := u.vault } ∧ (s.memOk → u.memOk) ∧ u.vaultBytes core off bs.length = bs ∧
    (∀ c n k, n + k ≤ 2 ^ 22 → c ≠ core ∨ n + k ≤ off ∨ off + bs.length ≤ n → u.vaultBytes c n k = s.vaultBytes c n k)) ∧
  (∀ (s : State) (a : Nat) (bs : List Byte) (own : Option (Nat × Nat)),
    let u := s.hbmWrite a bs own
    u = { s with hbm := u.hbm, tapes := u.tapes, saved := u.saved } ∧ (s.memOk → u.memOk) ∧ u.hbm.readBytes a bs.length = bs ∧ ∀ b, b < a ∨ a + bs.length ≤ b → u.hbm.read b = s.hbm.read b)

/-- The frame of the scalar operators (R12, R60, R92, R221, R224 to R238): on scalars, with destinations that can be delivered to and in no replay, each
leaves everything as it was but for its tokens on their way and the flags it raises, and an operator that draws under SR advances the rounding
generator of its core: no register, frame, tile, capability, engine, clock or byte of memory changes. -/
def Obligations.ScalarOperatorFrame : Prop :=
  ∀ (s : State) (g : Firing) (f : Fields), s.cur = some g → g.scalars → s.delivers g f →
    (∀ i ∈ [Instr.moviLo f, .moviHi f, .add f, .sub f, .mul f, .mulh f, .and f, .or f, .xor f, .andn f, .shl f, .shr f, .sar f, .rol f, .min f, .max f, .abs f, .neg f, .addsatAdd f, .addsatSub f, .cmp f, .sel f, .clz f, .ctz f,
        .popc f, .bfx f, .bfi f, .sext f, .zext f, .fmin f, .fmax f, .fcmp f, .fabs f, .fneg f, .fclass f],
      ∃ (u : State) (fl : Flags), exec i s = .next u ∧ (s.retire.setFlags g.ctx fl).onlyTokens u) ∧
    (∀ i ∈ [Instr.fadd f, .fsub f, .fmul f, .ffma f, .fcvt f, .ftoi f, .itof f],
      ∃ (u : State) (fl : Flags) (x : BitVec 64), exec i s = .next u ∧
        ((if f.rm = .sr then s.retire.modCore g.core (fun k => { k with lfsr := x }) else s.retire).setFlags g.ctx fl).onlyTokens u) ∧
    (∀ i ∈ [Instr.div f, .rem f, .fdiv f, .fsqrt f], ∃ (u : State) (e : DivResult), exec i s = .next u ∧ e.fire = g ∧
      (∀ c, c ≠ g.core → u.core c = s.core c) ∧ (u.core g.core).divider = (s.core g.core).divider ++ [e] ∧ { u with cores := [] } = { s.retire with cores := [] })

/-- An operand of an integer operator is the integer of its type's range that agrees with VALUE modulo 2^w: the bits above w are ignored, I types are
two's complement, N types unsigned (R84, R218). ADD, SUB, MUL, MULH, MIN and MAX on scalars emit to both destinations, setting no flag, the integer of
the type's range that the exact result of R224 wraps to (R84), extended to 64 bits (R83); MULH's exact result is the floor of the product over 2^w.
The R operand is the matched or sticky value, or IMM (R219). AND, OR, XOR and ANDN on scalars emit to both destinations, setting no flag, a scalar
whose low w bits are the bitwise result of R224; SEXT's rule of R83 gives the bits above. -/
def Obligations.IntegerArithmeticResults : Prop :=
  (∀ (t : EType) (v : U64), tyMin t ≤ decodeInt t v.toNat ∧ decodeInt t v.toNat ≤ tyMax t ∧
     decodeInt t v.toNat % (2 ^ tyWidth t : Int) = (v.toNat : Int) % 2 ^ tyWidth t ∧
     (∀ u : U64, u.toNat % 2 ^ tyWidth t = v.toNat % 2 ^ tyWidth t → decodeInt t u.toNat = decodeInt t v.toNat)) ∧
  (∀ (s : State) (g : Firing) (f : Fields), s.cur = some g → g.scalars →
     ∀ i e, (i, e) ∈ (let x := decodeInt f.ty g.l.value.toNat
         let y := decodeInt f.ty (operandR f.ty f g.r)
         [(Instr.add f, x + y), (.sub f, x - y), (.mul f, x * y), (.mulh f, x * y / 2 ^ tyWidth f.ty),
           (.min f, min x y), (.max f, max x y)]) →
       ∃ (v : Val) (k : Int), exec i s = .next (s.retire.emitBoth g f v) ∧ v.kind = .scalar ∧ v.round = g.l.round ∧
         v.value = BitVec.ofInt 64 k ∧ tyMin f.ty ≤ k ∧ k ≤ tyMax f.ty ∧
         k % (2 ^ tyWidth f.ty : Int) = e % 2 ^ tyWidth f.ty) ∧
  (∀ (s : State) (g : Firing) (f : Fields), s.cur = some g → g.scalars →
     ∀ i b, (i, b) ∈ (let x := g.l.value.toNat
         let y := operandR f.ty f g.r
         [(Instr.and f, fun k => x.testBit k && y.testBit k), (.or f, fun k => x.testBit k || y.testBit k),
           (.xor f, fun k => x.testBit k ^^ y.testBit k), (.andn f, fun k => x.testBit k && !y.testBit k)]) →
       ∃ v : Val, exec i s = .next (s.retire.emitBoth g f v) ∧ v.kind = .scalar ∧ v.round = g.l.round ∧
         (∀ k, k < tyWidth f.ty → v.value.getLsbD k = b k) ∧
         (∀ k, tyWidth f.ty ≤ k → k < 64 → v.value.getLsbD k = (tySigned f.ty && v.value.getLsbD (tyWidth f.ty - 1))))

/-- ABS and NEG (with SAT), ADDSAT.ADD and ADDSAT.SUB (always) bring the exact result to the nearest value of the type's range and set ISAT exactly when
that changes it; ABS and NEG without SAT wrap and set no flag (R84, R227). CMP on scalars emits 1 where its condition of R228 holds for the two
operands and 0 where it does not, in all 64 bits, and sets no flag; TST looks at the bits that both operands have set below w. -/
def Obligations.SaturatingAndCompareResults : Prop :=
  (∀ (s : State) (g : Firing) (f : Fields), s.cur = some g → g.scalars →
     ∀ i sat e, (i, sat, e) ∈ (let x := decodeInt f.ty g.l.value.toNat
         let y := decodeInt f.ty (operandR f.ty f g.r)
         [(Instr.abs f, f.sat, (x.natAbs : Int)), (.neg f, f.sat, -x), (.addsatAdd f, true, x + y), (.addsatSub f, true, x - y)]) →
       ∃ (v : Val) (k : Int), v.kind = .scalar ∧ v.round = g.l.round ∧ v.value = BitVec.ofInt 64 k ∧
         tyMin f.ty ≤ k ∧ k ≤ tyMax f.ty ∧
         (sat = false → k % (2 ^ tyWidth f.ty : Int) = e % 2 ^ tyWidth f.ty ∧ exec i s = .next (s.retire.emitBoth g f v)) ∧
         (sat = true → k = max (tyMin f.ty) (min e (tyMax f.ty)) ∧
           exec i s = .next ((if k = e then s.retire else s.retire.modCtx g.ctx (fun c =>
             { c with fpstat := c.fpstat ||| flagISAT })).emitBoth g f v))) ∧
  (∀ (s : State) (g : Firing) (f : Fields), s.cur = some g → g.scalars → f.fn.toNat ≤ 6 →
     ∃ v : Val, exec (.cmp f) s = .next (s.retire.emitBoth g f v) ∧ v.kind = .scalar ∧ v.round = g.l.round ∧
       (let x := decodeInt f.ty g.l.value.toNat
        let y := decodeInt f.ty (operandR f.ty f g.r)
        let p : Prop :=
          match f.fn.toNat with
          | 0 => x = y
          | 1 => x ≠ y
          | 2 => x < y
          | 3 => x ≤ y
          | 4 => x > y
          | 5 => x ≥ y
          | _ => ∃ k, k < tyWidth f.ty ∧ g.l.value.toNat.testBit k ∧ (operandR f.ty f g.r).testBit k
        (p → v.value = 1) ∧ (¬p → v.value = 0)))

/-- DIV and REM on scalars put into their core's divider, and emit nothing yet (R217), the quotient rounded toward zero and the remainder with the
dividend's sign, with the two corners of R225, extended under R83; and they set no flag. -/
def Obligations.DivisionResults : Prop :=
  ∀ (s : State) (g : Firing) (f : Fields), s.cur = some g → g.scalars →
    ∀ i e, (i, e) ∈ (let x := decodeInt f.ty g.l.value.toNat
        let y := decodeInt f.ty (operandR f.ty f g.r)
        let low := tySigned f.ty ∧ x = tyMin f.ty ∧ y = -1
        [(Instr.div f, if y = 0 then (if tySigned f.ty then -1 else tyMax f.ty) else if low then x else x.tdiv y),
          (.rem f, if y = 0 then x else if low then 0 else x.tmod y)]) →
      ∃ v : Val, exec i s = .next (s.retire.modCore g.core (fun k =>
          { k with divider := k.divider ++ [{ fire := g, d0 := f.d0, d1 := f.d1, val := v, flags := 0 }] })) ∧
        v.kind = .scalar ∧ v.round = g.l.round ∧ v.value = BitVec.ofInt 64 e

/-- SHL, SHR, SAR and ROL on scalars emit to both destinations, setting no flag, the w-bit result of R226 (extended under R83): bit k of it comes from bit
k − n, k + n or the sign, or from the bit n places lower round the w bits. The amount n is the low min(8, w) bits of a token or sticky value, or IMM.
CLZ, CTZ and POPC count the zero bits above the highest one bit, those below the lowest one bit (w of them where all bits are 0), and the one bits of
the w-bit pattern; they set no flag (R230). BFX, BFI, SEXT, ZEXT, MOVI.LO and MOVI.HI give the bits that R223, R231 and R232 name, and set no flag.
BFX and BFI work on the field of n bits from p. MOVI.LO fires on a plain value of any KIND and emits the scalar that its IMM is in its type, of the
firing's round, with PROV NONE (R221, R223); within the range that install admits nothing is lost. -/
def Obligations.ShiftAndFieldResults : Prop :=
  (∀ (s : State) (g : Firing) (f : Fields), s.cur = some g → g.scalars →
     ∀ i b, (i, b) ∈ (let x := g.l.value.toNat
         let w := tyWidth f.ty
         let n := shiftAmount f.ty f g.r
         [(Instr.shl f, fun k => decide (n ≤ k) && x.testBit (k - n)), (.shr f, fun k => decide (k + n < w) && x.testBit (k + n)),
           (.sar f, fun k => x.testBit (min (k + n) (w - 1))), (.rol f, fun k => x.testBit ((k + (w - n % w)) % w))]) →
       ∃ v : Val, exec i s = .next (s.retire.emitBoth g f v) ∧ v.kind = .scalar ∧ v.round = g.l.round ∧
         (∀ k, k < tyWidth f.ty → v.value.getLsbD k = b k) ∧
         (∀ k, tyWidth f.ty ≤ k → k < 64 → v.value.getLsbD k = (tySigned f.ty && v.value.getLsbD (tyWidth f.ty - 1)))) ∧
  (∀ (s : State) (g : Firing) (f : Fields), s.cur = some g → g.scalars →
     (∃ (v : Val) (n : Nat), exec (.clz f) s = .next (s.retire.emitBoth g f v) ∧ v.kind = .scalar ∧ v.value = BitVec.ofNat 64 n ∧
       n ≤ tyWidth f.ty ∧ (∀ k, k < n → g.l.value.toNat.testBit (tyWidth f.ty - 1 - k) = false) ∧
       (n < tyWidth f.ty → g.l.value.toNat.testBit (tyWidth f.ty - 1 - n) = true)) ∧
     (∃ (v : Val) (n : Nat), exec (.ctz f) s = .next (s.retire.emitBoth g f v) ∧ v.kind = .scalar ∧ v.value = BitVec.ofNat 64 n ∧
       n ≤ tyWidth f.ty ∧ (∀ k, k < n → g.l.value.toNat.testBit k = false) ∧
       (n < tyWidth f.ty → g.l.value.toNat.testBit n = true)) ∧
     (∃ v : Val, exec (.popc f) s = .next (s.retire.emitBoth g f v) ∧ v.kind = .scalar ∧
       v.value = BitVec.ofNat 64 (((List.range (tyWidth f.ty)).map (fun k => if g.l.value.toNat.testBit k then 1 else 0)).sum))) ∧
  (∀ (s : State) (g : Firing) (f : Fields), s.cur = some g → g.scalars →
     ∀ i b, (i, b) ∈ (let x := g.l.value
         let y := (g.r.map Val.value).getD 0
         let p := f.imm.toNat % 64
         let n := f.imm.toNat / 256 % 64 + 1
         let w := tyWidth f.ty
         [(Instr.bfx f, fun k => if k < n then x.getLsbD (k + p) else f.fn == 1 && x.getLsbD (p + n - 1)),
           (.bfi f, fun k => if p ≤ k ∧ k < p + n then y.getLsbD (k - p) else x.getLsbD k),
           (.sext f, fun k => x.getLsbD (min k (w - 1))),
           (.zext f, fun k => decide (k < w) && x.getLsbD k),
           (.moviHi f, fun k => if k < 32 then x.getLsbD k else f.imm.getLsbD (k - 32))]) →
       (i = .bfx f ∨ i = .bfi f → f.imm.toNat % 64 + (f.imm.toNat / 256 % 64 + 1) ≤ 64) →
       ∃ v : Val, exec i s = .next (s.retire.emitBoth g f v) ∧ v.kind = .scalar ∧ v.round = g.l.round ∧
         ∀ k, k < 64 → v.value.getLsbD k = b k) ∧
  (∀ (s : State) (g : Firing) (f : Fields), s.cur = some g → g.plain →
     ∃ (v : Val) (k : Int), exec (.moviLo f) s = .next (s.retire.emitBoth g f v) ∧ v.kind = .scalar ∧ v.round = g.l.round ∧
       v.prov = 0 ∧ v.value = BitVec.ofInt 64 k ∧ tyMin f.ty ≤ k ∧ k ≤ tyMax f.ty ∧
       k % (2 ^ tyWidth f.ty : Int) = (if tySigned f.ty then f.imm.toInt else f.imm.toNat) % (2 ^ tyWidth f.ty : Int))

/-- NOP, SYNC, DROP, FORK, STEER, GATE, FILTER and SENDTO on plain operands, in a task that no tape engine records: each emits what R199 to R201 and R208
say, to the destinations they say, and nothing else happens; what passes also descends from the other operand (R128). SEL passes L where its predicate's VALUE is not 0, and R where it is 0, unchanged in
KIND, VALUE and round; with a predicate of PROV NONE the tag is unchanged too (R221, R229). NULLSET and ISNULL: a null with VALUE 0 for any value or
for a scalar 0 only, 1 for a null and 0 for any other value, and the KIND's code, for a fault token too (R33, R213). -/
def Obligations.RoutingResults : Prop :=
  (∀ (s : State) (g : Firing) (f : Fields), s.cur = some g → g.plain → s.recording? g.core g.task = none →
     exec (.nop f) s = .next (s.retire.emitBoth g f g.l) ∧
     exec (.sync f) s = .next (s.retire.emitBoth g f (g.l.since g.r.toList)) ∧
     exec (.drop f) s = .next s.retire ∧
     exec (.fork f) s = .next (((List.range (f.imm.toNat % 16)).foldl (fun t k =>
       t.emit g { f with d0 := { f.d0 with ip := f.d0.ip + BitVec.ofNat 20 k } } false g.l) s.retire).emit g f true g.l) ∧
     (∀ r : Val, g.r = some r → g.t = none → r.kind = .scalar →
       exec (.steer f) s = .next (if r.value ≠ 0 then s.retire.emit g f false (g.l.since [r]) else s.retire.emit g f true (g.l.since [r])) ∧
       exec (.gate f) s = .next (if r.value ≠ 0 then s.retire.emitBoth g f (g.l.since [r]) else s.retire) ∧
       (∃ v : Val, v.kind = .null ∧ v.value = 0 ∧ v.round = g.l.round ∧
         exec (.filter f) s = .next (if r.value ≠ 0 then s.retire.emitBoth g f (g.l.since [r]) else s.retire.emitBoth g f v)) ∧
       exec (.sendto f) s = .next (s.retire.emitBoth g f (g.l.since [r])))) ∧
  (∀ (s : State) (g : Firing) (f : Fields) (r t : Val), s.cur = some g → g.plain → g.r = some r → g.t = some t → t.kind = .scalar →
     ∃ v : Val, exec (.sel f) s = .next (s.retire.emitBoth g f v) ∧
       (let c := if t.value = 0 then r else g.l
        v.kind = c.kind ∧ v.value = c.value ∧ v.round = c.round ∧ (t.prov = 0 → v.prov = c.prov))) ∧
  (∀ (s : State) (g : Firing) (f : Fields), s.cur = some g → g.r = none → g.t = none → g.l.kind ≠ .marker →
     (g.l.kind ≠ .fault → ∃ v : Val, v.kind = .null ∧ v.value = 0 ∧ v.round = g.l.round ∧
       exec (.nullsetAll f) s = .next (s.retire.emitBoth g f v) ∧
       exec (.nullsetIfz f) s = .next (s.retire.emitBoth g f (if g.l.kind = .scalar ∧ g.l.value = 0 then v else g.l))) ∧
     (g.l.kind ≠ .fault → ∃ v : Val, v.kind = .scalar ∧ v.round = g.l.round ∧ v.value = (if g.l.kind = .null then 1 else 0) ∧
       exec (.isnullNull f) s = .next (s.retire.emitBoth g f v)) ∧
     (∃ v : Val, v.kind = .scalar ∧ v.round = g.l.round ∧ v.value = BitVec.ofNat 64 g.l.kind.code ∧
       exec (.isnullKind f) s = .next (s.retire.emitBoth g f v)))

/-- ITER and PUNCT on plain operands: ITER.NEXT sends L with the next round, ITER.SET with the round of IMM, PUNCT.MARK the marker of L's round,
PUNCT.AFTER L and then its round's marker to each destination; FROUND of the frame advances to the new round where that is later. A new round 128 away
from FROUND raises ROUND_RANGE instead (R34, R209). FSTORE, FSTICK, FREAD.SLOT and FREAD.SELF on plain operands in a resident frame that has the named
slot: FSTORE fills an empty slot with the token parked on IMM's port and passes L, and raises SLOT_BUSY on a filled one; FSTICK makes the slot sticky
unless a token is parked there; FREAD copies a slot, or gives the frame's own pointer in VALUE[63:32]; a slot beyond the frame raises SLOT_RANGE (R38,
R206, R207). -/
def Obligations.RoundAndSlotResults : Prop :=
  (∀ (s : State) (g : Firing) (f : Fields), s.cur = some g → g.plain →
     let adv (r : BitVec 8) : State := s.retire.modFrameOf g (fun fr =>
       if (r - fr.fround).toNat = 0 ∨ 128 ≤ (r - fr.fround).toNat then fr else { fr with fround := r })
     let gives (i : Instr) (r : BitVec 8) (sent : State → State) : Prop :=
       ((∃ fr, s.retire.frameOf g = some fr ∧ r - fr.fround = 128) → exec i s = .next (s.retire.fault g f .roundRange 0)) ∧
       ((∀ fr, s.retire.frameOf g = some fr → r - fr.fround ≠ 128) → exec i s = .next (sent (adv r)))
     gives (.iterNext f) (g.l.round + 1) (fun t => t.emitBoth g f { g.l with round := g.l.round + 1 }) ∧
     gives (.iterSet f) (f.imm.extractLsb' 0 8) (fun t => t.emitBoth g f { g.l with round := f.imm.extractLsb' 0 8 }) ∧
     gives (.punctMark f) (g.l.round + 1) (fun t => t.emitBoth g f (Val.markerOf g.l.round [g.l])) ∧
     gives (.punctAfter f) (g.l.round + 1) (fun t => (((t.emit g f false g.l).emit g f false (Val.markerOf g.l.round [g.l])).emit
       g f true g.l).emit g f true (Val.markerOf g.l.round [g.l]))) ∧
  (∀ (s : State) (g : Firing) (f : Fields) (fr : Frame), s.cur = some g → g.plain → s.retire.frameOf g = some fr → g.replay = none →
     let n := f.slot.toNat
     let put (x : Slot) : State := s.retire.modFrameOf g (fun fr => fr.setSlot n x)
     (2 ^ (fr.cls + 4) ≤ n → ∀ i ∈ [Instr.fstore f, .fstick f, .freadSlot f], exec i s = .next (s.retire.fault g f .slotRange 0)) ∧
     (n < 2 ^ (fr.cls + 4) →
       (fr.slot n = .empty → exec (.fstore f) s = .next ((put (.parked (f.imm.getLsbD 0) g.l)).emitBoth g f g.l)) ∧
       (fr.slot n ≠ .empty → exec (.fstore f) s = .next (s.retire.fault g f .slotBusy 0)) ∧
       ((∀ p v, fr.slot n ≠ .parked p v) → exec (.fstick f) s = .next ((put (.sticky g.port g.l)).emitBoth g f g.l)) ∧
       (∀ p v, fr.slot n = .parked p v → exec (.fstick f) s = .next (s.retire.fault g f .slotBusy 0)) ∧
       (4 ≤ n → ∀ p v, fr.slot n = .parked p v ∨ fr.slot n = .sticky p v →
         exec (.freadSlot f) s = .next (s.retire.emitBoth g f ({ v with round := g.l.round }.since [g.l]))) ∧
       (4 ≤ n → fr.slot n = .empty → exec (.freadSlot f) s = .next (s.retire.emitBoth g f { Val.nullOf g.l.round [g.l] with prov := provData })) ∧
       (n < 4 → exec (.freadSlot f) s = .next (s.retire.emitBoth g f (Val.computed (fr.header n) g.l.round provData [g.l])))) ∧
     (∃ v : Val, v.kind = .scalar ∧ v.round = g.l.round ∧ v.value = g.fp ++ (0 : BitVec 32) ∧
       exec (.freadSelf f) s = .next (s.retire.emitBoth g f v)))

/-- RET, FFREE.SELF and END on plain operands in a resident frame that is not being freed: RET sends L to the parent at RIP and RPORT and frees a frame
that is no root; FFREE.SELF frees it; END gives a task's completion its value and frees a root frame that is no worker; RET and FFREE in a root frame
raise FRAME_ROOT and END elsewhere NOT_ROOT; where FREEPEND is set all three raise DOUBLE_FREE (R204, R205, R215). FFREE.FP sends the free request to
the core that the pointer names (R205). -/
def Obligations.FrameEndResults : Prop :=
  ∀ (s : State) (g : Firing) (f : Fields) (fr : Frame), s.cur = some g → g.plain → g.r = none → g.t = none → s.retire.frameOf g = some fr →
    (fr.freepend = true → ∀ i ∈ [Instr.ret f, .ffreeSelf f, .endOp f], exec i s = .next (s.retire.fault g f .doubleFree 0)) ∧
    (fr.freepend = false → fr.root = true →
      (∀ i ∈ [Instr.ret f, .ffreeSelf f], exec i s = .next (s.retire.fault g f .frameRoot 0)) ∧
      (fr.worker = none → exec (.endOp f) s =
        .next ((s.retire.modTask g.task (fun t => { t with ended := some g.l })).freeOrWait g.core g.fp))) ∧
    (fr.freepend = false → fr.root = false →
      exec (.endOp f) s = .next (s.retire.fault g f .notRoot 0) ∧
      exec (.ffreeSelf f) s = .next (s.retire.freeOrWait g.core g.fp) ∧
      exec (.ret f) s = .next (((s.retire.send g.core g.ctx { fp := fr.pfp, ip := fr.rip, port := fr.rport, val := g.l } fr.owes).modFrameOf
        g (fun x => { x with owes := false })).freeOrWait g.core g.fp)) ∧
    (fr.freepend = false → g.l.kind = .scalar → ∀ dst, s.retire.fpCore g.ctx (g.l.value.extractLsb' 32 32) = some dst →
      exec (.ffreeFp f) s = .next (s.retire.post g.core dst (.free (g.l.value.extractLsb' 32 32) g)))

/-- FALLOC, CALL and CALL.EXT on a plain operand, in a resident frame (R167, R168, R202, R203). A child of a host continuation's parent raises NO_PARENT; a policy that
finds no target core REGION_RANGE; an object that may not run on the target's partition OBJ_DISABLED. Else the parent's LIVE grows by one for a child
frame of QUAL's class whose header names the parent, the return IP and port of dest1, the object, the policy, and the round of L. Where the object is
pending on the target's partition the request is held there; where other allocations wait at the target core, its frame port is parked or the object
is loading, it waits there in order; and where the core has a free place, the frame stands in that place with a fresh generation, and FALLOC emits its
pointer in the upper half of a scalar, CALL sends L to dest0's IP and port in it, and CALL.EXT, whose object's first entry gives the class and the IP,
sends L to port L there. -/
def Obligations.ChildFrameResults : Prop :=
  ∀ (s : State) (g : Firing) (f : Fields) (fr : Frame), s.cur = some g → g.plain → g.r = none → g.t = none → s.retire.frameOf g = some fr →
    (f.qual.toNat % 16 < 4 ∨ g.l.kind = .scalar) →
    ∀ i obj, (i, obj) ∈ [(Instr.falloc f, g.obj), (.call f, g.obj), (.callExt f, f.imm)] → (i = .call f → f.fn = 0) → (i = .callExt f → f.fn = 1) →
      (f.d1.mode = .parent → fr.hostc = true → exec i s = .next (s.retire.fault g f .noParent 0)) ∧
      (¬(f.d1.mode = .parent ∧ fr.hostc = true) →
        (s.retire.childTarget g.ctx g.core g.task (f.qual.toNat % 16) g.l.value = none →
          exec i s = .next (s.retire.fault g f .regionRange (g.l.value.toNat % 4096))) ∧
        ∀ v p, s.retire.childTarget g.ctx g.core g.task (f.qual.toNat % 16) g.l.value = some (v, p) →
        (s.retire.allocState g obj p = .disabled → exec i s = .next (s.retire.fault g f .objDisabled 0)) ∧
        ∃ child : Frame, child.pfp = (if f.d1.mode = .parent then fr.pfp else g.fp) ∧ child.rip = f.d1.ip ∧ child.rport = f.d1.port ∧
          child.obj = obj ∧ child.ctx = fr.ctx ∧ child.cls = f.qual.toNat / 16 ∧ child.policy.toNat = f.qual.toNat % 16 ∧
          child.fround = g.l.round ∧ child.root = false ∧ child.hostc = false ∧ child.live = 0 ∧ child.slots = [] ∧
          (let u : State := (s.retire.modCore g.core (fun k => if f.qual.toNat % 16 = 2 then { k with cursor := v } else k)).liveInc g.ctx child.pfp
           let k := u.core p
           let free := k.allocs = [] ∧ k.framePark = none ∧ u.objStatus g.ctx obj ≠ .loading ∧ obj ∉ k.quar
           let placed (cls : Nat) (w : State) (fp : U32) : Prop := ∃ b n, (b, n) ∈ k.framePlaces (classUnits cls) ∧ fp = mkFp k.vcore.toNat b n ∧
             (w.core p).frames = k.frames ++ [{ child with cls := cls, base := b, gen := n, born := u.clock, stamp := u.clock }] ∧
             (∀ c, c ≠ p → w.core c = u.core c) ∧ w.hbm = s.hbm ∧ w.vault = s.vault
           (s.retire.allocState g obj p = .held → exec i s = .next (u.hold (p / 256) g.ctx (.alloc p (.firing g i child)))) ∧
           (s.retire.allocState g obj p = .allowed →
             (k.allocs ≠ [] ∨ k.framePark ≠ none ∨ u.objStatus g.ctx obj = .loading →
               exec i s = .next (u.modCore p (fun k => { k with allocs := k.allocs ++ [.firing g i child] }))) ∧
             (free → k.framePlaces (classUnits child.cls) ≠ [] →
               (i = .falloc f → ∃ (w : State) (fp : U32), placed child.cls w fp ∧ ∃ x : Val, x.kind = .scalar ∧ x.value = fp ++ (0 : BitVec 32) ∧
                 x.round = g.l.round ∧ exec i s = .next (w.emit g f false x)) ∧
               (i = .call f → ∃ (w : State) (fp : U32), placed child.cls w fp ∧ exec i s = .next (w.sendAt g fp f.d0 g.l false))) ∧
             (∀ o ip cls rest, i = .callExt f → free → u.objOn p g.ctx obj = .usable o → o.entries = (ip, cls) :: rest → ip.toNat < o.ninstr →
               k.framePlaces (classUnits cls) ≠ [] → ∃ (w : State) (fp : U32), placed cls w fp ∧
                 exec i s = .next (w.send g.core g.ctx { fp := fp, ip := ip, port := false, val := g.l } false)))))

/-- round_to of R89 for an exact non-zero rational and a floating-point type, with the neighbours of R89: where no overflow is flagged the result y is the
exact number if it has an encoding, and else a number with none between it and q: toward the side of RTZ, RDN or RUP, for RNE one that no number is
nearer than (the even encoding of two that are as near), and for SR the upper neighbour exactly when F + rnd reaches 2^32 (R92). An overflow needs |q|
above every finite number, sets OF and NX, and gives MAX where the mode points toward zero or SAT is set (R90). NX is flagged exactly when the result
is not exact. -/
def Obligations.RoundingChoosesNeighbour : Prop :=
  ∀ (t : EType) (rm : Rounding) (sat : Bool) (rnd : U32) (neg : Bool) (n d : Nat), tyFloat t = true → 0 < n → 0 < d →
    let q : Rat := if neg then -((n : Rat) / d) else (n : Rat) / d
    let r := roundTo t rm sat rnd (.mag neg (.ratio n d))
    (r.2 &&& flagOF = 0 → ∃ y, floatRat t r.1 = some y ∧
      (r.2 &&& flagNX = 0 ↔ y = q) ∧
      (∀ b z, floatRat t b = some z → (y < q → z ≤ y ∨ q ≤ z) ∧ (q < y → z ≤ q ∨ y ≤ z) ∧ (z = q → y = q)) ∧
      (rm = .rtz → |y| ≤ |q|) ∧ (rm = .rdn → y ≤ q) ∧ (rm = .rup → q ≤ y) ∧
      (rm = .rne → ∀ b z, floatRat t b = some z → |y - q| ≤ |z - q| ∧ (|y - q| = |z - q| → z ≠ y → r.1 % 2 = 0)) ∧
      (rm = .sr → ∀ a b lo hi, floatRat t a = some lo → floatRat t b = some hi → lo < q → q < hi →
        (∀ c z, floatRat t c = some z → z ≤ lo ∨ hi ≤ z) →
        y = if (2 ^ 32 : Int) ≤ ((q - lo) / (hi - lo) * 2 ^ 32).floor + rnd.toNat then hi else lo)) ∧
    (r.2 &&& flagOF ≠ 0 → (∀ b z, floatRat t b = some z → |z| < |q|) ∧ r.2 = flagOF ||| flagNX ∧
      (sat = true ∨ rm = .rtz ∨ (rm = .rdn ∧ neg = false) ∨ (rm = .rup ∧ neg = true) → floatRat t r.1 = floatRat t (fmtMaxEnc t neg)))

/-- FADD, FSUB, FMUL and FFMA on scalars whose encodings are finite numbers emit to both destinations the one rounding, in the instruction's mode and
type, of the exact sum, difference, product, or product plus third operand, draw from the core's generator exactly under SR, and set in the context
the flags of that rounding and no other; an exact zero is a zero and sets no flag (R95, R234). FDIV and FSQRT on scalars whose encodings are finite
numbers put the one rounding of the exact quotient or root into the core's divider with the flags of that rounding, and emit nothing yet (R217, R234);
a finite non-zero number over a zero is an infinity of the quotient's sign with DZ, zero over zero and the root of a number below zero are the NaN
with NV, and a zero over another number is a zero. -/
def Obligations.FloatArithmeticResults : Prop :=
  (∀ (s : State) (g : Firing) (f : Fields) (x y z : Rat), s.cur = some g → g.scalars → tyFloat f.ty = true →
     floatRat f.ty g.l.value.toNat = some x → floatRat f.ty ((g.r.map Val.value).getD 0).toNat = some y →
     floatRat f.ty ((g.t.map Val.value).getD 0).toNat = some z →
     ∀ i e, (i, e) ∈ [(Instr.fadd f, x + y), (.fsub f, x - y), (.fmul f, x * y), (.ffma f, x * y + z)] →
       ∃ (v : Val) (bits : Nat) (fl : Flags), v.kind = .scalar ∧ v.round = g.l.round ∧ v.value = extend f.ty bits ∧
         exec i s = .next (((s.retire.drawFor g.core f.rm).1.setFlags g.ctx fl).emitBoth g f v) ∧
         (e = 0 → floatRat f.ty bits = some 0 ∧ fl = 0) ∧
         (e ≠ 0 → ∃ n d : Nat, 0 < n ∧ 0 < d ∧ e = (if e < 0 then -((n : Rat) / d) else (n : Rat) / d) ∧
           (bits, fl) = roundTo f.ty f.rm f.sat (s.retire.drawFor g.core f.rm).2 (.mag (decide (e < 0)) (.ratio n d)))) ∧
  (∀ (s : State) (g : Firing) (f : Fields) (x y : Rat), s.cur = some g → g.scalars → tyFloat f.ty = true →
     floatRat f.ty g.l.value.toNat = some x → floatRat f.ty ((g.r.map Val.value).getD 0).toNat = some y →
     let t := (s.retire.drawFor g.core f.rm).1
     let round (e : Exact) : Nat × Flags := roundTo f.ty f.rm f.sat (s.retire.drawFor g.core f.rm).2 e
     let neg := g.l.value.getLsbD (tyWidth f.ty - 1) != ((g.r.map Val.value).getD 0).getLsbD (tyWidth f.ty - 1)
     let waits (i : Instr) (e : Exact) (fl : Flags) : Prop := ∃ v : Val, v.kind = .scalar ∧ v.round = g.l.round ∧
       v.value = extend f.ty (round e).1 ∧ exec i s = .next (t.modCore g.core (fun k => { k with divider := k.divider ++
         [{ fire := g, d0 := f.d0, d1 := f.d1, val := v, flags := (round e).2 ||| fl }] }))
     (y = 0 → x = 0 → waits (.fdiv f) .nan flagNV) ∧
     (y = 0 → x ≠ 0 → waits (.fdiv f) (.inf neg) flagDZ) ∧
     (y ≠ 0 → x = 0 → waits (.fdiv f) (.zero neg) 0) ∧
     (y ≠ 0 → x ≠ 0 → ∃ n d : Nat, 0 < n ∧ 0 < d ∧ |x / y| = (n : Rat) / d ∧ waits (.fdiv f) (.mag neg (.ratio n d)) 0) ∧
     (x < 0 → waits (.fsqrt f) .nan flagNV) ∧
     (0 < x → ∃ n d : Nat, 0 < n ∧ 0 < d ∧ x = (n : Rat) / d ∧ waits (.fsqrt f) (.mag false (.root n d)) 0))

/-- FTOI on a scalar: a NaN gives 0, an infinity or a rounded value beyond the type's range the end of the range, both with NV alone; any other value the
integer beside it that the mode takes, with NX where it is not exact. ITOF and FCVT emit the one rounding into TY of the exact number that L has in
the type that FN names; FCVT keeps the sign of a zero (R89, R91, R237). FMIN and FMAX emit the encoding of the operand that is the lesser or greater
number, −0 below +0, the other operand where one is a NaN, and the canonical NaN where both are; FCMP emits 1 where the condition of its FN holds and
0 elsewhere, every condition but NE and UN failing on a NaN and OLT to OGE then setting NV as a signalling NaN does; FABS and FNEG change the sign bit
alone; FCLASS sets the one bit of the class (R95, R235, R236, R238). -/
def Obligations.FloatConversionResults : Prop :=
  (∀ (s : State) (g : Firing) (f : Fields), s.cur = some g → g.scalars →
     let t := (s.retire.drawFor g.core f.rm).1
     let rnd := (s.retire.drawFor g.core f.rm).2
     let src := tyOf (f.fn.toNat + 8)
     let gives (i : Instr) (x : U64) (fl : Flags) : Prop := ∃ v : Val, v.kind = .scalar ∧ v.round = g.l.round ∧ v.value = x ∧
       exec i s = .next ((t.setFlags g.ctx fl).emitBoth g f v)
     let rounds (i : Instr) (e : Exact) : Prop :=
       gives i (extend f.ty (roundTo f.ty f.rm f.sat rnd e).1) (roundTo f.ty f.rm f.sat rnd e).2
     (tyFloat f.ty = false →
       (∀ b, decodeFloat src g.l.value.toNat = .nan b → gives (.ftoi f) 0 flagNV) ∧
       (∀ neg, decodeFloat src g.l.value.toNat = .inf neg →
         gives (.ftoi f) (BitVec.ofInt 64 (if neg then tyMin f.ty else tyMax f.ty)) flagNV) ∧
       (∀ q, floatRat src g.l.value.toNat = some q → ∃ k : Int, |(k : Rat) - q| < 1 ∧
         (f.rm = .rtz → |(k : Rat)| ≤ |q|) ∧ (f.rm = .rdn → (k : Rat) ≤ q) ∧ (f.rm = .rup → q ≤ k) ∧
         (f.rm = .rne → |(k : Rat) - q| ≤ 1 / 2 ∧ (|(k : Rat) - q| = 1 / 2 → k % 2 = 0)) ∧
         (f.rm = .sr → ∀ n : Int, (n : Rat) < q → q < n + 1 →
           k = if (2 ^ 32 : Int) ≤ ((q - n) * 2 ^ 32).floor + rnd.toNat then n + 1 else n) ∧
         gives (.ftoi f) (BitVec.ofInt 64 (max (tyMin f.ty) (min k (tyMax f.ty))))
           (if k < tyMin f.ty ∨ tyMax f.ty < k then flagNV else if (k : Rat) = q then 0 else flagNX))) ∧
     (tyFloat f.ty = true →
       (∀ x, decodeInt (tyOf f.fn.toNat) g.l.value.toNat = x → tyFloat (tyOf f.fn.toNat) = false →
         rounds (.itof f) (if x = 0 then .zero false else .mag (decide (x < 0)) (.ratio x.natAbs 1))) ∧
       (∀ b, decodeFloat src g.l.value.toNat = .nan b →
         gives (.fcvt f) (extend f.ty (fmtNan f.ty)) (if b ∨ fmtNan f.ty = 0 then flagNV else 0)) ∧
       (∀ neg, decodeFloat src g.l.value.toNat = .inf neg → rounds (.fcvt f) (.inf neg)) ∧
       (∀ q, floatRat src g.l.value.toNat = some q →
         (q = 0 → gives (.fcvt f) (extend f.ty (signBit f.ty (g.l.value.getLsbD (tyWidth src - 1)))) 0) ∧
         (q ≠ 0 → ∃ n d : Nat, 0 < n ∧ 0 < d ∧ |q| = (n : Rat) / d ∧ rounds (.fcvt f) (.mag (decide (q < 0)) (.ratio n d)))))) ∧
  (∀ (s : State) (g : Firing) (f : Fields), s.cur = some g → g.scalars → tyFloat f.ty = true →
     let w := tyWidth f.ty
     let a := g.l.value.toNat
     let b := ((g.r.map Val.value).getD 0).toNat
     let gives (i : Instr) (x : U64) (fl : Flags) : Prop := ∃ v : Val, v.kind = .scalar ∧ v.round = g.l.round ∧ v.value = x ∧
       exec i s = .next ((s.retire.setFlags g.ctx fl).emitBoth g f v)
     let nan (n : Nat) : Prop := ∃ q, decodeFloat f.ty n = .nan q
     let signals : Flags := if decodeFloat f.ty a = .nan true ∨ decodeFloat f.ty b = .nan true then flagNV else 0
     let bits (n : Nat) : U64 := BitVec.ofNat 64 (n % 2 ^ w)
     (nan a → nan b → ∀ i ∈ [Instr.fmin f, .fmax f], gives i (BitVec.ofNat 64 (fmtNan f.ty)) signals) ∧
     (nan a → ¬nan b → ∀ i ∈ [Instr.fmin f, .fmax f], gives i (bits b) signals) ∧
     (¬nan a → nan b → ∀ i ∈ [Instr.fmin f, .fmax f], gives i (bits a) signals) ∧
     (∀ x y, floatRat f.ty a = some x → floatRat f.ty b = some y →
       (x < y → gives (.fmin f) (bits a) 0 ∧ gives (.fmax f) (bits b) 0) ∧
       (y < x → gives (.fmin f) (bits b) 0 ∧ gives (.fmax f) (bits a) 0) ∧
       (x = 0 → y = 0 → a.testBit (w - 1) = true → b.testBit (w - 1) = false → gives (.fmin f) (bits a) 0 ∧ gives (.fmax f) (bits b) 0) ∧
       (∀ n p, (n, p) ∈ [(0, x = y), (1, x ≠ y), (2, x < y), (3, x ≤ y), (4, y < x), (5, y ≤ x), (6, False), (7, True)] → f.fn.toNat = n →
         (p → gives (.fcmp f) 1 0) ∧ (¬p → gives (.fcmp f) 0 0))) ∧
     (nan a ∨ nan b → f.fn.toNat ≤ 7 → gives (.fcmp f) (if f.fn.toNat = 1 ∨ f.fn.toNat = 6 then 1 else 0)
       (if 2 ≤ f.fn.toNat ∧ f.fn.toNat ≤ 5 then flagNV else signals)) ∧
     (∃ x : U64, gives (.fabs f) x 0 ∧ ∀ k, x.getLsbD k = (decide (k < w - 1) && g.l.value.getLsbD k)) ∧
     (∃ x : U64, gives (.fneg f) x 0 ∧ ∀ k, x.getLsbD k = (decide (k < w) && (g.l.value.getLsbD k ^^ decide (k = w - 1)))) ∧
     (∃ k, gives (.fclass f) (BitVec.ofNat 64 (2 ^ k)) 0 ∧ k ≤ 9 ∧ (k = 9 ↔ decodeFloat f.ty a = .nan false) ∧ (k = 8 ↔ decodeFloat f.ty a = .nan true) ∧
       (k = 7 ↔ decodeFloat f.ty a = .inf false) ∧ (k = 0 ↔ decodeFloat f.ty a = .inf true) ∧
       (∀ x, floatRat f.ty a = some x → (0 < x ↔ k = 5 ∨ k = 6) ∧ (x < 0 ↔ k = 1 ∨ k = 2) ∧
         (k = 2 ∨ k = 5 ↔ 0 < |x| ∧ |x| < 2 ^ fmtM f.ty / (2 : Rat) ^ fmtUlp f.ty) ∧ (k = 3 ↔ x = 0 ∧ a.testBit (w - 1)))))

/-- RJOIN in a resident frame whose three slots hold its state j, acc a and acc b: a data token of round CUR updates a, one of round CUR + 1 whose port
has had the marker of CUR updates b, a marker notes its arrival, and the one that completes the round sends a and the marker of CUR to dest0 and then
to dest1 and moves to the next round with b for a and the identity for b, which ends at once where both its markers have come. Anything else is
ROUND_SKEW, or ROUND_RANGE half way round (R34, R210). COMPACT in a task that no tape engine records and a resident frame: a pair whose mask is not 0
sends L to dest0 and adds 1 to the count of slot SLOT + 1, a pair with mask 0 sends nothing, and a pair of markers sends the count to dest1 and then
the marker to both destinations, and clears the count (R211). ORDMERGE in a resident frame whose slot holds CUR, LM and RM and whose arms are empty: a
token of round CUR on L while LM is 0, or on R while LM is 1, goes to both destinations at once; one of round CUR on R while LM is 0, and one of a
later round, goes to its arm buffer; and the second marker of CUR sends the marker and moves to round CUR + 1 (R212). Buffered R tokens of CUR follow
the marker on L. -/
def Obligations.StreamJoinResults : Prop :=
  (∀ (s : State) (g : Firing) (f : Fields) (fr : Frame) (w a b : Val), s.cur = some g → g.r = none → g.t = none →
     s.retire.frameOf g = some fr → f.slot.toNat + 2 < 2 ^ (fr.cls + 4) → fr.slot f.slot.toNat = .parked false w →
     fr.slot (f.slot.toNat + 1) = .parked false a → fr.slot (f.slot.toNat + 2) = .parked false b → f.ty = .i64 ∨ f.ty = .n64 →
     let j := Rjoin.ofWord w.value
     let x := g.l.value
     let less (p q : U64) : Bool := if f.ty = .i64 then decide (p.toInt < q.toInt) else decide (p.toNat < q.toNat)
     let top : U64 := if f.ty = .i64 then BitVec.ofInt 64 (2 ^ 63 - 1) else BitVec.ofInt 64 (2 ^ 64 - 1)
     let low : U64 := if f.ty = .i64 then BitVec.ofInt 64 (-2 ^ 63) else 0
     let put (t : State) (j : Rjoin) (p q : Val) : Prop := ∃ (tag : BitVec 4) (anc : List Nat), t = s.retire.modFrameOf g (fun fr =>
       ((fr.setSlot f.slot.toNat (stateSlot j.word j.cur tag anc)).setSlot (f.slot.toNat + 1) (stateSlot p.value j.cur p.prov p.lin.anc)).setSlot
         (f.slot.toNat + 2) (stateSlot q.value (j.cur + 1) q.prov q.lin.anc))
     let marks (m : Val) (cur : BitVec 8) : Prop := m.kind = .marker ∧ m.round = cur
     ∀ (n : Nat) (upd : U64 → U64) (ident : U64),
       (n, upd, ident) ∈ [(0, (fun y => y + 1), (0 : U64)), (1, (fun y => y + x), 0), (2, (fun y => if less x y then x else y), top),
         (3, (fun y => if less y x then x else y), low), (4, (fun y => y ||| x), 0), (5, (fun y => y &&& x), BitVec.allOnes 64)] → f.fn.toNat = n →
       (g.l.kind = .scalar → g.l.round = j.cur → ∃ (p : Val) (t : State), p.value = upd a.value ∧ put t j p b ∧ exec (.rjoin f) s = .next t) ∧
       (g.l.kind = .scalar → g.l.round = j.cur + 1 → (if g.port then j.rm else j.lm) = true →
         ∃ (q : Val) (t : State), q.value = upd b.value ∧ put t j a q ∧ exec (.rjoin f) s = .next t) ∧
       (g.l.kind = .scalar → g.l.round = j.cur + 1 → (if g.port then j.rm else j.lm) = false →
         ∃ t, put t j a b ∧ exec (.rjoin f) s = .next (t.fault g f .roundSkew 0)) ∧
       (g.l.kind = .scalar ∨ g.l.kind = .marker → 2 ≤ (g.l.round - j.cur).toNat → ∃ t, put t j a b ∧ exec (.rjoin f) s =
         .next (t.fault g f (if (g.l.round - j.cur).toNat = 128 then .roundRange else .roundSkew) 0)) ∧
       (g.l.kind = .marker → g.l.round = j.cur → (if g.port then j.lm else j.rm) = false →
         ∃ t, put t (if g.port then { j with rm := true } else { j with lm := true }) a b ∧ exec (.rjoin f) s = .next t) ∧
       (g.l.kind = .marker → g.l.round = j.cur + 1 → (j.lm && j.rm) = false →
         ∃ t, put t (if g.port then { j with rm1 := true } else { j with lm1 := true }) a b ∧ exec (.rjoin f) s = .next t) ∧
       (g.l.kind = .marker → g.l.round = j.cur → (if g.port then j.lm else j.rm) = true →
         let ends (v m : Val) (t : State) : State := (((t.emit g f false v).emit g f false m).emit g f true v).emit g f true m
         ∃ v w z m n : Val, v.kind = .scalar ∧ v.value = a.value ∧ v.round = j.cur ∧ w.kind = .scalar ∧ w.value = b.value ∧ w.round = j.cur + 1 ∧
           z.value = ident ∧ marks m j.cur ∧ marks n (j.cur + 1) ∧
           ((j.lm1 && j.rm1) = false → ∃ t, put t { cur := j.cur + 1, lm := j.lm1, rm := j.rm1, lm1 := false, rm1 := false } b z ∧
             exec (.rjoin f) s = .next (ends v m t)) ∧
           ((j.lm1 && j.rm1) = true → ∃ t, put t { cur := j.cur + 2, lm := false, rm := false, lm1 := false, rm1 := false } z z ∧
             exec (.rjoin f) s = .next (ends w n (ends v m t))))) ∧
  (∀ (s : State) (g : Firing) (f : Fields) (fr : Frame) (r c : Val), s.cur = some g → g.r = some r → g.t = none → g.replay = none →
     s.recording? g.core g.task = none → s.retire.frameOf g = some fr → f.slot.toNat + 1 < 2 ^ (fr.cls + 4) →
     fr.slot (f.slot.toNat + 1) = .parked false c → c.value.toNat < 2 ^ 32 - 1 →
     let count (n : Nat) (t : State) : Prop := ∃ p anc, t = s.retire.modFrameOf g (fun fr =>
       fr.setSlot (f.slot.toNat + 1) (stateSlot (BitVec.ofNat 64 n) g.l.round p anc))
     (g.l.kind = .marker → r.kind = .marker → ∃ (t : State) (v m : Val), count 0 t ∧ v.kind = .scalar ∧ v.value = c.value ∧ v.round = g.l.round ∧
       m.kind = .marker ∧ m.round = g.l.round ∧ exec (.compact f) s = .next ((t.emit g f true v).emitBoth g f m)) ∧
     (g.l.kind ≠ .marker → g.l.kind ≠ .null → g.l.kind ≠ .fault → r.kind = .scalar →
       (r.value ≠ 0 → ∃ t, count (c.value.toNat + 1) t ∧ exec (.compact f) s = .next (t.emit g f false (g.l.since [r]))) ∧
       (r.value = 0 → ∃ t, count c.value.toNat t ∧ exec (.compact f) s = .next t))) ∧
  (∀ (s : State) (g : Firing) (f : Fields) (fr : Frame) (w : Val) (arms : Arms), s.cur = some g → g.r = none → g.t = none →
     g.l.kind ≠ .fault → g.l.kind ≠ .null → s.retire.frameOf g = some fr → f.slot.toNat < 2 ^ (fr.cls + 4) →
     fr.slot f.slot.toNat = .parked false w → Table.find fr.arms f.slot.toNat = some arms → arms.left = [] →
     let cur : BitVec 8 := w.value.extractLsb' 56 8
     let lm := w.value.getLsbD 55
     let rm := w.value.getLsbD 54
     let depth := f.imm.toNat % 4096
     let put (t : State) (cur : BitVec 8) (lm rm : Bool) (left right : List Val) : Prop := ∃ (tag : BitVec 4) (anc : List Nat),
       t = s.retire.modFrameOf g (fun fr =>
         let fr := fr.setSlot f.slot.toNat (stateSlot (cur ++ BitVec.ofBool lm ++ BitVec.ofBool rm ++ BitVec.ofNat 12 (min depth left.length) ++
           BitVec.ofNat 12 (min depth right.length) ++ (0 : BitVec 30)) cur tag anc)
         match Table.find fr.arms f.slot.toNat with
         | none => fr
         | some a => { fr with arms := Table.put fr.arms f.slot.toNat { a with left := left, right := right } })
     let only (left right : List Val) : Prop := ∃ t, put t cur lm rm left right ∧ exec (.ordmerge f) s = .next t
     (g.l.kind ≠ .marker → g.l.round = cur → g.port = lm →
       ∃ t, put t cur lm rm [] arms.right ∧ exec (.ordmerge f) s = .next (t.emitBoth g f g.l)) ∧
     (g.l.kind ≠ .marker → g.l.round = cur → g.port = true → lm = false → only [] (arms.right ++ [g.l])) ∧
     (g.port = true → 1 ≤ (g.l.round - cur).toNat → (g.l.round - cur).toNat < 128 → only [] (arms.right ++ [g.l])) ∧
     (g.port = false → 1 ≤ (g.l.round - cur).toNat → (g.l.round - cur).toNat < 128 → only [g.l] arms.right) ∧
     (g.l.kind = .marker → g.l.round = cur → g.port = false → rm = false → (∀ x ∈ arms.right, x.kind ≠ .marker ∧ x.round = cur) →
       ∃ t, put t cur true false [] [] ∧ exec (.ordmerge f) s = .next (arms.right.foldl (fun t x => t.emitBoth g f x) t)) ∧
     (g.l.kind = .marker → g.l.round = cur → g.port = true → lm = true → arms.right = [] →
       ∃ (t : State) (m : Val), put t (cur + 1) false false [] [] ∧ m.kind = .marker ∧ m.round = cur ∧
         exec (.ordmerge f) s = .next (t.emitBoth g f m)))

/-- SWITCH on two scalars puts its request into the queue of the switch agent of the partition it names: that of its own stack with HERE, else that of the
stack that holds virtual core (IMM[3:0], 0, 0), and REGION_RANGE where the region has no such core (R214). Where no request waits there, the agent's next
step on it emits 1 if both objects are the same, or if the old one is not enabled and the new one is verified, which enables the new one. The switch agent of a partition at a
request that it can decide (R170, R214): 1 at once where old and new object are the same and where the old one is not enabled, which enables the new
one; SWITCH_BUSY while another switch drains; OBJ_REJECTED for an object that is not verified or is quarantined; else the old object drains.
SWITCH_DRAIN, once nothing of the old object is in flight, drops its pages, disables it, enables the new one, serves what was held and answers 0
(R171). -/
def Obligations.SwitchResults : Prop :=
  (∀ (s : State) (g : Firing) (f : Fields), s.cur = some g → g.scalars →
     let submit (stack : Nat) : State := s.retire.setPart stack { s.part stack g.ctx with reqs := (s.part stack g.ctx).reqs ++ [g] }
     (f.qual.getLsbD 0 = true → exec (.switch f) s = .next (submit (g.core / 256))) ∧
     (f.qual.getLsbD 0 = false → ∀ p, (s.ctx g.ctx).phys (f.imm.toNat % 16 * 256) = some p → exec (.switch f) s = .next (submit (p / 256))) ∧
     (f.qual.getLsbD 0 = false → (s.ctx g.ctx).phys (f.imm.toNat % 16 * 256) = none →
       exec (.switch f) s = .next (s.retire.fault g f .regionRange (f.imm.toNat % 16 * 256))) ∧
     (∀ (opc : Nat) (r : Val), f.qual.getLsbD 0 = true → s.formOf g = some (opc, f) → g.r = some r → (s.part (g.core / 256) g.ctx).reqs = [] →
       (s.part (g.core / 256) g.ctx).ctx = g.ctx →
       let old : U32 := g.l.value.extractLsb' 0 32
       let new : U32 := r.value.extractLsb' 0 32
       let one (t : State) : State := t.emit g f false (Val.scalar 1 g.l.round provData)
       ∃ t : State, exec (.switch f) s = .next t ∧
         (s.objStatus g.ctx new ≠ .loading → old = new → exec (.switchAccept (g.core / 256) g.ctx) t = .next (one (t.setPart (g.core / 256) (s.part (g.core / 256) g.ctx)))) ∧
         (∀ o, old ≠ new → (s.part (g.core / 256) g.ctx).switch = none → s.objStatus g.ctx new = .usable o → o.quar = false →
           ((s.part (g.core / 256) g.ctx).state old ≠ .enabled ∨ (s.ctx g.ctx).obj? old = none) →
           exec (.switchAccept (g.core / 256) g.ctx) t = .next (one ((t.setPart (g.core / 256) (s.part (g.core / 256) g.ctx)).setPart (g.core / 256)
             ((s.part (g.core / 256) g.ctx).setState new .enabled)))))) ∧
  (∀ (s : State) (stack ctx : Nat) (g : Firing) (f : Fields) (opc : Nat), s.formOf g = some (opc, f) →
     let p := s.part stack ctx
     let old : U32 := g.l.value.extractLsb' 0 32
     let new : U32 := ((g.r.map Val.value).getD 0).extractLsb' 0 32
     let done (t : State) (x : U64) : State := t.emit g f false (Val.scalar x g.l.round provData)
     (∀ rest, p.reqs = g :: rest → s.objStatus ctx new ≠ .loading → p.ctx = ctx →
       let t := s.setPart stack { p with reqs := rest }
       (old = new → exec (.switchAccept stack ctx) s = .next (done t 1)) ∧
       (old ≠ new → p.switch ≠ none → exec (.switchAccept stack ctx) s = .next (t.fault g f .switchBusy 0)) ∧
       (old ≠ new → p.switch = none → (∀ o, s.objStatus ctx new = .usable o → o.quar = true) →
         exec (.switchAccept stack ctx) s = .next (t.fault g f .objRejected 0)) ∧
       (∀ o, old ≠ new → p.switch = none → s.objStatus ctx new = .usable o → o.quar = false →
         (p.state old ≠ .enabled ∨ (s.ctx ctx).obj? old = none →
           exec (.switchAccept stack ctx) s = .next (done (t.setPart stack ({ p with reqs := rest }.setState new .enabled)) 1)) ∧
         (p.state old = .enabled → (s.ctx ctx).obj? old ≠ none → ∃ q : Partition, q.state old = .draining ∧ q.reqs = rest ∧ q.switch = some (old, new, g) ∧
           (q.state new = .pending ∨ q.state new = .enabled) ∧ exec (.switchAccept stack ctx) s = .next (t.setPart stack q)))) ∧
     (p.switch = some (old, new, g) → s.inflight stack ctx old = false → old ≠ new →
       ∃ (t : State) (q : Partition) (held : List Held),
         exec (.switchDrain stack ctx) s = .next ((held.foldl (fun u h => u.unhold stack h) (t.setPart stack q)).switchDone g 0) ∧
         q.state old = .disabled ∧ q.state new = .enabled ∧ q.switch = none ∧ q.hold = [] ∧ q.edge = [] ∧
         ∀ c ∈ s.partCores stack ctx, ∀ x ∈ (t.core c).pages, x.obj ≠ old))

/-- TREL and TDUP on a handle of a good tile of the firing core's own vault, not held back by an SBAR: TREL with more than one reference takes one away
and emits the rest, at the last one it ends the tile, so that GEN advances, VALID, PUBLISHED and SHADOW fall, and the space stays held exactly while
BUSY is not 0; TDUP adds a reference and emits the handle with PROV DATA to both destinations, and at 65,535 raises REF_OVERFLOW (R52, R265, R280). A
handle of another core's vault is a command for that core. TVIEW on a handle of a good tile of the own vault: DELTA, from R or IMM, gives an offset
and a row count; the new handle names the same tile from row ROW0 + offset with that many rows, or, with count 0, all the rest; a DELTA of 2^24 or
more raises OPERAND_RANGE and rows beyond the view VIEW_RANGE (R281). TINFO and TLAYOUT on a handle of a good tile of the own vault. TINFO packs, by
FN, the shape, the view, REFCNT, the flags with BUSY, or PITCH with SIZE (R286). TLAYOUT gives an unshared, idle, unpublished tile the shape of its
record where it fits the span, and emits the handle with no view to dest0; one that is shared, busy or published raises LAYOUT_BUSY (R282). -/
def Obligations.TileReferenceResults : Prop :=
  (∀ (s : State) (g : Firing) (f : Fields) (v : View), s.cur = some g → g.r = none → g.t = none → g.l.kind = .tile →
     s.view g.ctx g.l.value false = .ok v →
     let sent (i : Instr) (p : Phase) := s.retire.accept f { Cmd.start 0 g i .split with phase := p }
     (v.core ≠ g.core → ∀ i ∈ [Instr.trel f, .tdup f], exec i s = .next (sent i .owner).1) ∧
     (v.core = g.core → (s.core g.core).barred 16 s.ids = false →
       (1 < v.tile.refcnt → exec (.trel f) s = .next (((sent (.trel f) .work).1.modTile v.core v.index
         (fun t => { t with refcnt := t.refcnt - 1 })).answer (sent (.trel f) .work).2 f
           [(false, Val.scalar (BitVec.ofNat 64 (v.tile.refcnt - 1)) g.l.round 7)])) ∧
       (v.tile.refcnt ≤ 1 → v.tile.bars = [] → exec (.trel f) s = .next (((sent (.trel f) .work).1.modTile v.core v.index
         (fun t => { t with refcnt := 0, valid := false, gen := t.gen + 1, published := false, shadow := false, bars := [], held := t.busy != 0 })).answer
           (sent (.trel f) .work).2 f [(false, Val.scalar 0 g.l.round 7)])) ∧
       (v.tile.refcnt = 65535 → exec (.tdup f) s = .next ((sent (.tdup f) .work).1.failWith (sent (.tdup f) .work).2 f .refOverflow 0 0 0)) ∧
       (v.tile.refcnt ≠ 65535 → ∃ h : Val, h.kind = .tile ∧ h.value = g.l.value ∧ h.round = g.l.round ∧ h.prov = 7 ∧
         exec (.tdup f) s = .next (((sent (.tdup f) .work).1.modTile v.core v.index (fun t => { t with refcnt := t.refcnt + 1 })).answer
           (sent (.tdup f) .work).2 f [(false, h), (true, h)])))) ∧
  (∀ (s : State) (g : Firing) (f : Fields) (v : View), s.cur = some g → g.t = none → g.l.kind = .tile → (∀ r, g.r = some r → r.kind = .scalar) →
     s.view g.ctx g.l.value false = .ok v → v.core = g.core → (s.core g.core).barred 16 s.ids = false →
     let a := (s.retire.accept f (Cmd.start 0 g (.tview f) .split)).1
     let c := (s.retire.accept f (Cmd.start 0 g (.tview f) .split)).2
     let d := match g.r with
       | some r => r.value.toNat
       | none => f.imm.toNat
     let off := d % 4096
     let m := d / 4096
     (2 ^ 24 ≤ d → exec (.tview f) s = .next (a.failWith c f .operandRange 0 0 0)) ∧
     (d < 2 ^ 24 → v.n < off + max 1 m ∨ 4096 ≤ v.row0 + off → exec (.tview f) s = .next (a.failWith c f .viewRange 0 0 0)) ∧
     (d < 2 ^ 24 → off + max 1 m ≤ v.n → v.row0 + off < 4096 → v.n < 4096 →
       ∃ h : Val, h.kind = .tile ∧ h.round = g.l.round ∧ h.prov = 7 ∧ hVcore h.value = hVcore g.l.value ∧ hIndex h.value = hIndex g.l.value ∧
         hGen h.value = hGen g.l.value ∧ hRow0 h.value = v.row0 + off ∧
         (m ≠ 0 → hNrows h.value = m) ∧ (m = 0 → hNrows g.l.value = 0 → hNrows h.value = 0) ∧
         (m = 0 → hNrows g.l.value ≠ 0 → hNrows h.value = v.n - off) ∧
         exec (.tview f) s = .next (a.answer c f [(false, h), (true, h)]))) ∧
  (∀ (s : State) (g : Firing) (f : Fields) (v : View), s.cur = some g → g.r = none → g.t = none → g.l.kind = .tile →
     s.view g.ctx g.l.value false = .ok v → v.core = g.core → (s.core g.core).barred 16 s.ids = false →
     let sent (i : Instr) := s.retire.accept f (Cmd.start 0 g i .split)
     let t := v.tile
     (∃ x : U64, exec (.tinfo f) s = .next ((sent (.tinfo f)).1.answer (sent (.tinfo f)).2 f
         [(false, Val.scalar x g.l.round 7), (true, Val.scalar x g.l.round 7)]) ∧
       (f.fn.toNat = 0 → (x.extractLsb' 0 13).toNat = t.rows % 2 ^ 13 ∧ (x.extractLsb' 13 13).toNat = t.cols % 2 ^ 13 ∧
         (x.extractLsb' 26 4).toNat = tyCode t.etype ∧ x.extractLsb' 30 2 = t.layout) ∧
       (f.fn.toNat = 1 → (x.extractLsb' 0 12).toNat = v.row0 ∧ (x.extractLsb' 12 12).toNat = v.n % 2 ^ 12) ∧
       (f.fn.toNat = 2 → x = BitVec.ofNat 64 t.refcnt) ∧
       (f.fn.toNat = 3 → x.getLsbD 0 = false ∧ x.getLsbD 1 = t.published ∧ x.getLsbD 2 = t.nullpad ∧ x.getLsbD 3 = decide (t.scale ≠ 0) ∧
         (x.extractLsb' 4 16).toNat = t.busy % 2 ^ 16) ∧
       (f.fn.toNat = 4 → t.pitch < 2 ^ 16 → (x.extractLsb' 0 16).toNat = t.pitch ∧ x.toNat / 2 ^ 16 = t.size % 2 ^ 48)) ∧
     (∀ x, s.shapeOf g (f.imm.toNat % 4096) = some x →
       (t.refcnt ≠ 1 ∨ t.busy ≠ 0 ∨ t.published = true →
         exec (.tlayout f) s = .next ((sent (.tlayout f)).1.failWith (sent (.tlayout f)).2 f .layoutBusy 0 0 0)) ∧
       (t.refcnt = 1 → t.busy = 0 → t.published = false → ∀ d align, x.span = some (d, align) →
         (t.base % align ≠ 0 ∨ t.size * 64 + 64 < d →
           exec (.tlayout f) s = .next ((sent (.tlayout f)).1.failWith (sent (.tlayout f)).2 f .tileMalformed 0 0 0)) ∧
         (t.base % align = 0 → d ≤ t.size * 64 + 64 → f.mx = false → ∃ h : Val, h.kind = .tile ∧ hRow0 h.value = 0 ∧ hNrows h.value = 0 ∧
           h.value.extractLsb' 32 32 = g.l.value.extractLsb' 32 32 ∧
           exec (.tlayout f) s = .next (((sent (.tlayout f)).1.modTile v.core v.index (fun _ => { t with
             rows := x.rows, cols := x.cols, etype := x.etype, layout := x.layout, pitch := x.pitch, scale := 0 })).answer (sent (.tlayout f)).2 f
               [(false, h)])) ∧
         (t.base % align = 0 → d ≤ t.size * 64 + 64 → f.mx = true →
           (t.scale < t.base + d ∨ t.base + t.size * 64 + 64 < t.scale + x.scales →
             exec (.tlayout f) s = .next ((sent (.tlayout f)).1.failWith (sent (.tlayout f)).2 f .tileMalformed 0 0 0)) ∧
           (t.base + d ≤ t.scale → t.scale + x.scales ≤ t.base + t.size * 64 + 64 → ∃ h : Val, h.kind = .tile ∧
             exec (.tlayout f) s = .next (((sent (.tlayout f)).1.modTile v.core v.index (fun _ => { t with
               rows := x.rows, cols := x.cols, etype := x.etype, layout := x.layout, pitch := x.pitch })).answer (sent (.tlayout f)).2 f [(false, h)]))))))

/-- TNEW.HERE, and TNEW.AT for the firing core, with an admissible shape, an empty allocation queue, a free index and a free span: the lowest free index
gets a valid tile of that shape at the lowest free span, with REFCNT 1, no SHADOW, PUBLISHED or NULLPAD and BUSY 0, and its handle goes to both
destinations; with NOWAIT and no room the answer is a null; without NOWAIT the command joins the vault's allocation queue (R50, R52, R279). TNEW_GRANT
gives the command at the head of a vault's allocation queue the lowest free index and span once there is room, so that the queue loses its head and
the handle goes out (R279); TILE_SPACE_RETURN ends the hold on the space of a released tile once BUSY is 0, and changes nothing before (R52). -/
def Obligations.NewTileResults : Prop :=
  (∀ (s : State) (g : Firing) (f : Fields) (x : Shape) (size : Nat × Nat × Nat), s.cur = some g → g.scalars →
     s.shapeOf g (f.imm.toNat % 4096) = some x → shapeSize x f.mx = some size → (s.core g.core).barred 16 s.ids = false →
     ∀ i, (i = .tnewHere f ∧ (s.ctx g.ctx).phys (s.vcoreOf g.core).toNat = some g.core) ∨
         (i = .tnewAt f ∧ (s.ctx g.ctx).phys (g.l.value.toNat % 4096) = some g.core) →
       let a := (s.retire.accept f (Cmd.start 0 g i .split)).1
       let c := (s.retire.accept f (Cmd.start 0 g i .split)).2
       (∀ n b, (s.core g.core).tnewQueue = [] → (List.range 4096).find? (fun n => ((s.core g.core).tile n).free) = some n →
         (s.core g.core).freeSpan size.1 size.2.1 = some b →
         ∃ t : Tile, t.base = b ∧ t.rows = x.rows ∧ t.cols = x.cols ∧ t.etype = x.etype ∧ t.layout = x.layout ∧ t.pitch = x.pitch ∧
           t.refcnt = 1 ∧ t.gen = ((s.core g.core).tile n).gen ∧ t.valid = true ∧ t.shadow = false ∧ t.published = false ∧
           t.nullpad = false ∧ t.busy = 0 ∧ t.size = size.1 / 64 - 1 ∧
           exec i s = .next ((a.modTile g.core n (fun _ => t)).answer c f
             (both { c.scalar (mkHandle (s.vcoreOf g.core) n t.gen 0 0) with kind := .tile }))) ∧
       ((s.core g.core).tnewQueue ≠ [] ∨ (s.core g.core).freeSpan size.1 size.2.1 = none →
         exec i s = .next (
           if f.qual.getLsbD 0 then a.answer c f (both (Val.null g.l.round provData))
           else (a.modCore g.core (fun k => { k with cmds := k.cmds.filter (fun y => y.id != c.id) })).modCore g.core (fun k =>
             { k with tnewQueue := k.tnewQueue ++ [{ c with phase := .queued }] })))) ∧
  (∀ (s : State) (core : Nat),
     (∀ (c : Cmd) (rest : List Cmd) (f : Fields) (x : Shape) (size : Nat × Nat × Nat) (n b : Nat), (s.core core).tnewQueue = c :: rest →
       c.fields = some f → s.shapeOf c.fire (f.imm.toNat % 4096) = some x → shapeSize x f.mx = some size →
       (List.range 4096).find? (fun n => ((s.core core).tile n).free) = some n → (s.core core).freeSpan size.1 size.2.1 = some b →
       ∃ (t : Tile) (h : Val), t.base = b ∧ t.rows = x.rows ∧ t.cols = x.cols ∧ t.etype = x.etype ∧ t.layout = x.layout ∧ t.pitch = x.pitch ∧
         t.refcnt = 1 ∧ t.valid = true ∧ t.shadow = false ∧ t.busy = 0 ∧ t.gen = ((s.core core).tile n).gen ∧
         h.kind = .tile ∧ h.value = mkHandle (s.core core).vcore n t.gen 0 0 ∧
         exec (.tnewGrant core) s = .next (((s.modTile core n (fun _ => t)).modCore core (fun k => { k with tnewQueue := rest })).answer c f
           [(false, h), (true, h)])) ∧
     (∀ n, (((s.core core).tile n).held = true ∧ ((s.core core).tile n).busy = 0 →
         exec (.tileSpaceReturn core n) s = .next (s.modTile core n (fun t => { t with held := false }))) ∧
       (((s.core core).tile n).held = false ∨ ((s.core core).tile n).busy ≠ 0 → exec (.tileSpaceReturn core n) s = .next s)))

/-- The copy-class operators TFILL, TCOPY, FETCH, PUT, LDV and STV with operands of their KINDs (R51, R52, R255, R260, R263, R278, R495). A handle, capability or
endpoint whose checks fail raises that fault, and so do, of a command with every tile in the firing core's own vault, its shapes, ranges and
permissions and then its destination. Else the command is accepted with the next number: BUSY of each of its tiles in the own vault grows by one for
each time it is named, a destination there is put in shadow, no memory changes, and nothing is emitted yet. It is at work at once, but for a stale
capability, on which it parks with CAP_STALE, and for a tile in another vault, to which it goes first. -/
def Obligations.CopyAcceptance : Prop :=
  ∀ (s : State) (g : Firing) (f : Fields), s.cur = some g → g.plain →
    let third : Kind := if f.fn = 0 then .scalar else .tile
    ∀ i kl kr kt, (i, kl, kr, kt) ∈ [(Instr.tfill f, Kind.tile, Kind.scalar, (none : Option Kind)), (.tcopy f, .tile, .tile, none),
        (.fetchGlb f, .cap, .tile, some .scalar), (.fetchGlb f, .cap, .cap, some .scalar), (.fetchEp f, .scalar, .tile, some .tile),
        (.fetchEp f, .scalar, .cap, some .tile), (.fetchPort f, .scalar, .tile, none), (.putGlb f, .tile, .cap, some .scalar),
        (.putEp f, .tile, .scalar, none), (.putPort f, .tile, .scalar, none), (.ldv f, .tile, .tile, some third), (.stv f, .tile, .tile, some third)] →
      g.l.kind = kl → (∀ v, g.r = some v → v.kind = kr) → (∀ v k, g.t = some v → kt = some k → v.kind = k) →
      let c : Cmd := { Cmd.start 0 g i .split with caps := (Cmd.start 0 g i .split).capParts }
      let fails (e : FaultClass) (d0 d2 : Nat) : Prop := exec i s = .next (s.retire.raise g f.d0 (g.fault e d0 0 d2) false)
      let accepted (u : State) (d : Cmd) (ph : Phase) : Prop := d ∈ (u.core g.core).cmds ∧ d.id = s.ids ∧ d.fire = g ∧ d.instr = i ∧ d.phase = ph ∧
        (∀ k n, ((u.core k).tile n).busy = ((s.core k).tile n).busy + (s.retire.partTiles c false).count (k, n)) ∧
        (∀ x, s.retire.destHere c false = some x → ((u.core x.1).tile x.2).shadow = true)
      let kept (u : State) : Prop := u.hbm = s.hbm ∧ u.vault = s.vault ∧ u.host = s.host ∧ u.storage = s.storage
      (∀ e d0 d2, s.retire.partsCheck c f false c.parts = .error (e, d0, d2) → fails e d0 d2) ∧
      (∀ stale, s.retire.partsCheck c f false c.parts = .ok stale →
        (stale = false → (∀ p ∈ c.parts, s.retire.partRemote c p = false) →
          (∀ e d0 d2, s.retire.describe c f = some (e, d0, d2) → fails e d0 d2) ∧
          (∀ e, s.retire.describe c f = none → (s.retire.destHere c false).isSome = true → s.retire.copyDestCheck c = some e →
            exec i s = .next (s.retire.fault g f e 0)) ∧
          (s.retire.describe c f = none → s.retire.copyDestCheck c = none →
            ∃ (u : State) (d : Cmd), exec i s = .next u ∧ accepted u d .work ∧ d.parked = none ∧ kept u)) ∧
        (stale = false → (∃ p ∈ c.parts, s.retire.partRemote c p = true) → ((s.retire.destHere c false).isSome = true → s.retire.copyDestCheck c = none) →
          ∃ (u : State) (d : Cmd), exec i s = .next u ∧ accepted u d .owner ∧ d.parked = none ∧ kept u) ∧
        (stale = true → ((s.retire.destHere c false).isSome = true → s.retire.copyDestCheck c = none) → (s.core g.core).heldBack (2, 0) s.ids = false →
          (∀ d ∈ (s.core g.core).cmds, d.id ≠ s.ids) → ∃ (u : State) (d : Cmd), exec i s = .next u ∧ accepted u d .owner ∧ d.parked = some .capStale))

/-- LDG and STG at a capability of the table whose range, permission and alignment fit are accepted, counted in BUSY of its entry, and make no access yet
(R255, R260, R289); XLATE on scalars and CAPCUT.CUT of a part of a range are accepted likewise; CAPCUT.FREE is a command that waits for its entry to be free of uses; and PUBLISH.GLB on two
good capabilities asks the publish agent (R264, R285). LDG beyond the range gives a null with NULLPAD, else CAP_RANGE with the address. XLATE on
scalars is accepted; PUBLISH.TILE of a good tile of the own vault sets PUBLISHED and emits the handle, and of another vault is a command for that core
(R265, R285). OWNSET (R368, R378). SET on a valid entry with U whose pages a core's own vault or module HBM backs adds a range of the named virtual
core to the context's owned ranges, unless the core lies outside the region (REGION_RANGE), a range there overlaps (OWN_OVERLAP) or eight stand
(OWN_FULL), and on an entry without U it gives CAP_PERM; CLR takes the range of that base and extent away, whatever the entry's permissions, and answers
OWN_RANGE where none is. -/
def Obligations.CapabilityCommands : Prop :=
  (∀ (s : State) (g : Firing) (f : Fields) (n : Nat) (e : Cap), s.cur = some g → g.plain →
     g.l.kind = .cap → s.capOperand g g.l.value = .ok n e →
     let accepts (i : Instr) (eng : Engine) (cs : List Nat) : Prop := exec i s = .next (s.retire.accept f { Cmd.start 0 g i eng with caps := cs }).1
     let bytes := tyWidth f.ty / 8
     let num (v : Option Val) (d : Nat) : Nat := (v.map (fun x => x.value.toNat)).getD d
     let off := num g.r 0
     let len := num g.t 0
     ((∀ v ∈ g.r.toList ++ g.t.toList, v.kind = .scalar) →
       (∀ i off ok code, (i, off, ok, code) ∈ [(Instr.ldg f, num g.r f.imm.toNat, e.r, Access.read), (.stg f, num g.t f.imm.toNat, e.w, .write)] →
         (off + bytes ≤ e.extent → ok = true → off % bytes = 0 → accepts i .split [n]) ∧
         (off + bytes ≤ e.extent → ok = true → off % bytes ≠ 0 → exec i s = .next (s.retire.accessFault g f .memAlign (e.vbase + off) code)) ∧
         (off + bytes ≤ e.extent → ok = false → exec i s = .next (s.retire.accessFault g f .capPerm (e.vbase + off) code)) ∧
         (e.extent < off + bytes → i = .stg f ∨ f.qual.getLsbD 3 = false →
           exec i s = .next (s.retire.accessFault g f .capRange (e.vbase + off) code))) ∧
       (e.extent < num g.r f.imm.toNat + bytes → f.qual.getLsbD 3 = true →
         exec (.ldg f) s = .next (s.retire.emitBoth g f (Val.null g.l.round provData))) ∧
       (len ≠ 0 → off + len ≤ e.extent → accepts (.capcutCut f) .split [n]) ∧
       (len = 0 ∨ e.extent < off + len → exec (.capcutCut f) s = .next (s.retire.accessFault g f .capRange (e.vbase + off) .read))) ∧
     exec (.capcutFree f) s = .next (s.retire.accept f { Cmd.start 0 g (.capcutFree f) .split with phase := .queued, aux := n }).1 ∧
     (∀ r m e', g.r = some r → r.kind = .cap → s.capOperand g r.value = .ok m e' → accepts (.publishGlb f) .stream [n, m])) ∧
  (∀ (s : State) (g : Firing) (f : Fields), s.cur = some g →
     (g.scalars → exec (.xlate f) s = .next (s.retire.accept f (Cmd.start 0 g (.xlate f) .split)).1) ∧
     (∀ v, g.l.kind = .tile → g.r = none → g.t = none → s.view g.ctx g.l.value false = .ok v →
       let sent (p : Phase) := s.retire.accept f { Cmd.start 0 g (.publishTile f) .stream with phase := p }
       (v.core ≠ g.core → exec (.publishTile f) s = .next (sent .owner).1) ∧
       (v.core = g.core → ∃ h : Val, h.kind = .tile ∧ h.value = g.l.value ∧ h.round = g.l.round ∧ h.prov = 7 ∧
         exec (.publishTile f) s = .next (((sent .work).1.modTile v.core v.index (fun t => { t with published := true })).answer (sent .work).2 f
           [(false, h), (true, h)])))) ∧
  (∀ (s : State) (g : Firing) (f : Fields) (n : Nat) (e : Cap), s.cur = some g → g.l.kind = .cap → s.capOperand g g.l.value = .ok n e → g.t = none →
     (∀ r, g.r = some r → r.kind = .scalar) →
     let t : State := s.retire
     let own := (s.ctx g.ctx).owned
     let v := (g.r.map (fun r => r.value.toNat)).getD 0
     let out (l : List OwnRange) : State := (t.modCtx g.ctx (fun c => { c with owned := l })).emit g f false (Val.scalar 0 g.l.round provData)
     let mine (o : OwnRange) : Bool := o.base == e.vbase && o.extent == e.extent
     let meets (o : OwnRange) : Prop := o.base < e.vbase + e.extent ∧ e.vbase < o.base + o.extent
     (e.u = false → exec (.ownsetSet f) s = .next (t.raise g f.d0 (g.fault .capPerm e.vbase 0 3) false)) ∧
     (e.u = true →
       (4096 ≤ v → exec (.ownsetSet f) s = .next (t.fault g f .operandRange 0)) ∧
       (v < 4096 → (s.ctx g.ctx).phys v = none → exec (.ownsetSet f) s = .next (t.fault g f .regionRange v)) ∧
       (∀ p, v < 4096 → (s.ctx g.ctx).phys v = some p →
         let pages := t.ownPages e.root.toNat (e.extent / 2 ^ 21 + 2) e.vbase e.extent
         (pages = false → exec (.ownsetSet f) s = .next (t.fault g f .ownRange 0)) ∧
         (pages = true → (∃ o ∈ own, meets o) → exec (.ownsetSet f) s = .next (t.fault g f .ownOverlap 0)) ∧
         (pages = true → (∀ o ∈ own, ¬meets o) → 8 ≤ own.length → exec (.ownsetSet f) s = .next (t.fault g f .ownFull 0)) ∧
         (pages = true → (∀ o ∈ own, ¬meets o) → own.length < 8 → exec (.ownsetSet f) s = .next (out (own ++ [{ base := e.vbase, extent := e.extent, owner := BitVec.ofNat 12 v }]))))) ∧
     ((∃ o ∈ own, mine o = true) → exec (.ownsetClr f) s = .next (out (own.filter (fun o => !mine o)))) ∧
     ((∀ o ∈ own, mine o = false) → exec (.ownsetClr f) s = .next (t.fault g f .ownRange 0)))

/-- The work of copies that nothing holds back and whose vaults can be reached (R262, R267, R272, R283, R284, R287, R290). TFILL writes the bits of R or IMM to every
element of its view; TCOPY the rows of its source view, with MX its scales; FETCH of global memory or of an endpoint without VFY the bytes of its runs
into its view or over the range of its capability, and PUT the bytes of its view over its runs, each answered once no replica lacks a write; FETCH.PORT
takes an entry of its port, whose last one completes its last row, and PUT.PORT gives one to its port; LDV moves the bytes at its lanes' offsets into its
row, and STV the other way, in lane order. Each answers with the handle of its destination. A transfer with storage waits for its NVMe completion,
which needs the gate of the storage link and fails it with EP_RANGE or MEM_POISON or lets it be done (R479, R491). A read waits while a replica that
it reads lacks a write that another replica of the page has, and parks where an address does not translate (R255, R258, R434). -/
def Obligations.CopyWork : Prop :=
  ∀ (s : State) (core id : Nat) (c : Cmd) (f : Fields), (s.core core).cmd? id = some c → c.fields = some f → c.phase = .work →
    s.splitMay c = true → s.capStale c = false → s.partsUp c = true →
    let pass (v : Val) : List (Bool × Val) :=
      let h : Val := { v with prov := 7, round := c.fire.l.round, lin := Lineage.none }
      [(false, h), (true, h)]
    let tile (v : Val) : Option View := s.viewFlight c.fire.ctx v.value
    let own : Nat := c.fire.core
    let step : Instr := if s.storageCmd c then .nvmeCompletion core id .success else .copyComplete core id
    (∀ v, c.instr = .tfill f → tile c.fire.l = some v →
      exec (.copyComplete core id) s = .next ((s.setViewRows v (List.replicate v.n (List.replicate v.tile.cols
        (match c.fire.r with
         | some r => r.value.toNat
         | none => f.imm.toNat)))).answer c f (pass c.fire.l))) ∧
    (∀ v w r, c.instr = .tcopy f → c.fire.r = some r → tile c.fire.l = some v → tile r = some w →
      let t := s.setViewRows w (s.viewRows v)
      exec (.copyComplete core id) s = .next ((if f.mx then t.setScales w (s.scaleBytes v) else t).answer c f (pass r))) ∧
    ((s.storageCmd c = true → s.mod.gates.getLsbD 9 = true ∨ id ∈ s.mod.draining) →
      (∀ m r, c.instr = .fetchGlb f ∨ c.instr = .fetchEp f → s.memSide c = some m → c.fire.r = some r → f.qual.getLsbD 2 = false → c.data = [] → c.row = 0 →
        let rs := s.copyRuns c f m
        let read := rs.map (fun x => (x.1, min x.2 ((if c.nullpads f then m.extent else runsEnd rs) - x.1)))
        let u := read.foldl (fun u x => u.sideUse m.side x.1 x.2 .read) s
        let half := read.any (fun x => s.sideHalf m.side x.1 x.2)
        (half = true → exec step s = .next u) ∧
        (∀ e va dev, half = false → u.readRuns m.side read [] = .error (e, va, dev) → exec step s = .next (u.park c e va dev .read (2, 0))) ∧
        (∀ runs, half = false → u.readRuns m.side read [] = .ok runs →
          (∀ v, r.kind = .tile → u.viewFlight c.fire.ctx r.value = some v →
            exec step s = .next ((u.fillView v f (f.qual.getLsbD 0 || f.qual.getLsbD 1) runs).answer c f (pass r))) ∧
          (r.kind = .cap →
            let d : Side := .cap own (r.value.extractLsb' 46 6).toNat
            let x := (dropRuns 0 [(0, runs.flatten.length)]).foldl (fun x y => x.sideUse d y.1 y.2 .write) u
            ∀ w, x.writeRuns d own c.id (x.ownTape c.fire) (dropRuns 0 [(0, runs.flatten.length)]) runs.flatten 0 = .ok w →
              (w.unperformed own c.id = false → exec step s = .next (w.answer c f (pass r))) ∧
              (w.unperformed own c.id = true → exec step s = .next (w.modCmd own c.id (fun c => { c with phase := .propagating })))))) ∧
      (∀ m v r u, c.instr = .putGlb f ∨ c.instr = .putEp f → s.memSide c = some m → c.fire.r = some r → tile c.fire.l = some v → c.data = [] → c.row = 0 →
        let rs := dropRuns 0 (s.copyRuns c f m)
        let w := rs.foldl (fun w x => w.sideUse m.side x.1 x.2 .write) s
        w.writeRuns m.side own c.id (w.ownTape c.fire) rs (s.viewRuns v f.mx) 0 = .ok u →
        (u.unperformed own c.id = false → exec step s = .next (u.answer c f (pass r))) ∧
        (u.unperformed own c.id = true → exec step s = .next (u.modCmd own c.id (fun c => { c with phase := .propagating }))))) ∧
    (∀ p v r e rest u, c.instr = .fetchPort f → portRef c.fire.l.value = some p → c.fire.r = some r → tile r = some v →
      (s.core own).portTurn pullsFrom p c.id = true → ((s.core own).port p).fifo = e :: rest → s.portPop own p = some (e, u) → e.mark = false →
      let lb := lineBytes v.tile.etype v.tile.cols
      let data := c.data ++ e.data
      (e.eor = false → exec (.copyComplete core id) s = .next (u.modCmd own c.id (fun c => { c with data := data }))) ∧
      (e.eor = true → f.mx = false → c.row < v.n →
        (data.length ≠ (lb + 63) / 64 * 64 → exec (.copyComplete core id) s = .next (u.failWith c f .streamShape 0 0 0)) ∧
        (data.length = (lb + 63) / 64 * 64 →
          let w := u.setViewRow v c.row (unpackRow v.tile.etype v.tile.cols (data.take lb))
          (c.row + 1 = v.n → exec (.copyComplete core id) s = .next (w.answer c f (pass r))) ∧
          (c.row + 1 ≠ v.n → exec (.copyComplete core id) s = .next (w.modCmd own c.id (fun c => { c with row := c.row + 1, data := [] })))))) ∧
    (∀ p v r e, c.instr = .putPort f → c.fire.r = some r → portRef r.value = some p → tile c.fire.l = some v → f.mx = false →
      let ne := (lineBytes v.tile.etype v.tile.cols + 63) / 64
      (s.core own).portTurn pushesTo p c.id = true → s.portRoom own p ≠ 0 → c.row < v.n * ne →
      (rowEntries (packRow v.tile.etype (s.viewRow v (c.row / ne))) c.fire.l.round ne)[c.row % ne]? = some e →
      (c.row + 1 = v.n * ne → exec (.copyComplete core id) s = .next (((s.portPush own p e).answer c f (pass r)).settle own p)) ∧
      (c.row + 1 ≠ v.n * ne → exec (.copyComplete core id) s = .next ((s.portPush own p e).modCmd own c.id (fun c => { c with row := c.row + 1 })))) ∧
    (∀ offs v w r, c.instr = .ldv f ∨ c.instr = .stv f → c.fire.r = some r → tile c.fire.l = some v → tile r = some w → s.laneTurn c = true →
      s.laneOffsets c f = .ok offs →
      let b := laneWidth f
      let u := s.modCore ((s.laneTile c).getD v).core (fun k => { k with perf := Table.put k.perf 5 (Table.look 0 k.perf 5 + BitVec.ofNat 64 (lanePasses b offs)) })
      (c.instr = .ldv f →
        let row := (offs.map (fun o => (o.1 * b, u.vaultBytes v.core o.2 b))).foldl (fun l p => l.take p.1 ++ p.2 ++ l.drop (p.1 + b))
          (packRow w.tile.etype (u.viewRow w 0) ++ List.replicate (32 * b) 0)
        exec (.copyComplete core id) s = .next ((u.setViewRow w 0 (unpackRow w.tile.etype w.tile.cols (row.take (lineBytes w.tile.etype w.tile.cols)))).answer c f (pass r))) ∧
      (c.instr = .stv f →
        let row := packRow v.tile.etype (u.viewRow v 0) ++ List.replicate (32 * b) 0
        exec (.copyComplete core id) s = .next ((offs.foldl (fun t o => t.setVaultBytes w.core o.2 ((row.drop (o.1 * b)).take b)) u).answer c f (pass r)))) ∧
    (s.storageCmd c = true → isCopy c.instr = true → exec (.copyComplete core id) s = .next s ∧
      (s.mod.gates.getLsbD 9 = true ∨ id ∈ s.mod.draining →
        exec (.nvmeCompletion core id .lbaOutOfRange) s = .next (s.failWith c f .epRange 0 0 0) ∧
        exec (.nvmeCompletion core id .otherError) s = .next (s.failWith c f .memPoison 0 0 0)) ∧
      (s.mod.gates.getLsbD 9 = false → id ∉ s.mod.draining → ∀ x, exec (.nvmeCompletion core id x) s = .next s))

/-- SPLIT_PHASE_COMPLETE makes the access of LDG and STG: LDG emits the bytes that its address translates to, little-endian and extended from TY, STG
writes TY's bytes of R there and emits 0 to dest0, after every replica has them (R247, R248, R255, R258, R289); an access that does not translate
parks. XLATE and CAPCUT.CUT answer with a capability in the lowest free entry of the core's table (R252, R285). CAP_ENTRY_FREE, PUBLISH_SWAP,
PAGE_SET_BUMP, BUMP_DONE, TRANSLATION_WINDOW_FILL and REPLICA_PROPAGATE: an entry that a CAPCUT.FREE not held by an SBAR waits for and that nothing
uses becomes invalid with the next GEN, its window entries go, and each waiting CAPCUT.FREE answers 0 (R285); the publish agent swaps every page pair at once, or refuses with PUBLISH_SHAPE (R264); a bump advances GEN of every entry of
the page set and ends when no old access is left (R256); a window takes the leaf that the walk finds (R257); and one stack gets the bytes of the
oldest write it lacks (R258). -/
def Obligations.SplitPhaseWork : Prop :=
  (∀ (s : State) (core id : Nat) (c : Cmd) (f : Fields) (n : Nat) (e : Cap), (s.core core).cmd? id = some c → c.phase = .work → c.aux = 0 →
     s.splitMay c = true →
     let bytes := tyWidth f.ty / 8
     let num (v : Option Val) : Nat := (v.map (fun x => x.value.toNat)).getD f.imm.toNat
     (s.capOperand c.fire c.fire.l.value = .ok n e →
       (c.instr = .ldg f → num c.fire.r + bytes ≤ e.extent → e.r = true → num c.fire.r % bytes = 0 →
         let half := s.sideHalf (.cap c.fire.core n) (num c.fire.r) bytes
         let u := s.sideUse (.cap c.fire.core n) (num c.fire.r) bytes .read
         (half = true → exec (.splitPhaseComplete core id) s = .next u) ∧
         (∀ bs, half = false → u.sideRead (.cap c.fire.core n) (num c.fire.r) bytes = .ok bs → ∃ x : Nat, x = bs.foldr (fun b k => b.toNat + 256 * k) 0 ∧
           exec (.splitPhaseComplete core id) s = .next (u.answer c f [(false, Val.scalar (extend f.ty x) c.fire.l.round 7),
             (true, Val.scalar (extend f.ty x) c.fire.l.round 7)])) ∧
         (∀ x va dev, half = false → u.sideRead (.cap c.fire.core n) (num c.fire.r) bytes = .park x va dev →
           exec (.splitPhaseComplete core id) s = .next (u.park c x va dev .read (2, 0)))) ∧
       (∀ r, c.instr = .stg f → c.fire.r = some r → num c.fire.t + bytes ≤ e.extent → e.w = true → num c.fire.t % bytes = 0 →
         let w := s.sideUse (.cap c.fire.core n) (num c.fire.t) bytes .write
         (∀ u, w.sideWrite (.cap c.fire.core n) (num c.fire.t) ((List.range bytes).map (fun k => BitVec.ofNat 8 (r.value.toNat / 256 ^ k)))
             c.fire.core c.id (w.ownTape c.fire) = .ok u →
           (u.unperformed c.fire.core c.id = false →
             exec (.splitPhaseComplete core id) s = .next (u.answer c f [(false, Val.scalar 0 c.fire.l.round 7)])) ∧
           (u.unperformed c.fire.core c.id = true →
             exec (.splitPhaseComplete core id) s = .next (u.modCmd c.fire.core c.id (fun c => { c with phase := .propagating })))))) ∧
     (∀ m pset, c.instr = .xlate f → num c.fire.r ≠ 0 → c.fire.l.value.toNat + num c.fire.r ≤ 2 ^ 48 →
       s.rangePset (s.ctx c.fire.ctx).ctxroot.toNat c.fire.l.value.toNat (num c.fire.r) = some pset →
       s.ownedArea c.fire.l.value.toNat (num c.fire.r) = false → (s.core c.fire.core).freeCap = some m →
       ∃ (x : Cap) (v : Val), x.vbase = c.fire.l.value.toNat ∧ x.extent = num c.fire.r ∧ x.root = (s.ctx c.fire.ctx).ctxroot ∧
         x.pset = BitVec.ofNat 16 pset ∧ x.gen = ((s.core c.fire.core).cap m).gen ∧ x.valid = true ∧ x.busy = 0 ∧ x.taint = [] ∧
         (x.r, x.w, x.u) = (f.qual.getLsbD 0, f.qual.getLsbD 1, f.qual.getLsbD 2) ∧ v.kind = .cap ∧ v.round = c.fire.l.round ∧
         v.value = (s.core c.fire.core).vcore ++ BitVec.ofNat 6 m ++ x.gen ++ (0 : BitVec 38) ∧
         exec (.splitPhaseComplete core id) s = .next ((s.modCore c.fire.core (fun k => { k with caps := Table.put k.caps m x })).answer c f
           [(false, v), (true, v)])) ∧
     (∀ r t m, c.instr = .capcutCut f → c.fire.r = some r → c.fire.t = some t → (s.core c.fire.core).freeCap = some m →
       let p := (s.core c.fire.core).cap (c.fire.l.value.extractLsb' 46 6).toNat
       ∃ (x : Cap) (v : Val), x.vbase = p.vbase + r.value.toNat ∧ x.extent = t.value.toNat ∧ x.root = p.root ∧ x.pset = p.pset ∧ x.valid = true ∧
         (x.r, x.w, x.u) = (p.r && f.qual.getLsbD 0, p.w && f.qual.getLsbD 1, p.u && f.qual.getLsbD 2) ∧ v.kind = .cap ∧
         v.value = (s.core c.fire.core).vcore ++ BitVec.ofNat 6 m ++ x.gen ++ (0 : BitVec 38) ∧
         exec (.splitPhaseComplete core id) s = .next ((s.modCore c.fire.core (fun k => { k with caps := Table.put k.caps m x })).answer c f
           [(false, v)]))) ∧
  (∀ (s : State),
     (∀ core n, let e := (s.core core).cap n
       let frees := (s.core core).freeing n
       ((∃ c ∈ frees, (s.core core).barred 16 c.id = false) → s.capInUse core n = false →
         ∃ u : State, exec (.capEntryFree core n) s = .next (frees.foldl (fun t c => match c.fields with
             | some f => t.answer c f [(false, Val.scalar 0 c.fire.l.round 7)]
             | none => t) u) ∧
           (u.core core).cap n = { e with valid := false, gen := e.gen + 1, taint := [] } ∧
           (∀ w ∈ (u.core core).win, w.cap ≠ n) ∧ u.hbm = s.hbm ∧ u.vault = s.vault) ∧
       ((∀ c ∈ frees, (s.core core).barred 16 c.id = true) ∨ s.capInUse core n = true → exec (.capEntryFree core n) s = .next s)) ∧
     (∀ core id c f, (s.core core).cmd? id = some c → c.instr = .publishGlb f →
       let a := (s.core core).cap (c.fire.l.value.extractLsb' 46 6).toNat
       let b := (s.core core).cap (((c.fire.r.getD Val.zero).value).extractLsb' 46 6).toNat
       (s.publishShape a b = false → exec (.publishSwap core id) s = .next (s.failWith c f .publishShape 0 0 0)) ∧
       (s.publishShape a b = true → (∀ x ∈ (s.core core).caps, x.2.taint = []) →
         exec (.publishSwap core id) s = .next ((((List.range (a.extent / 2 ^ 21)).foldl (fun t k => t.swapPage a b k) s).clearWindows c.fire.ctx
           (fun _ w => w.meets a.vbase a.extent || w.meets b.vbase b.extent)).answer c f
             [(false, Val.scalar (BitVec.ofNat 64 (a.extent / 2 ^ 21)) c.fire.l.round 7)]))) ∧
     (∀ ctx, (s.ctx ctx).bump = 1 → ∃ u : State, exec (.pageSetBump ctx) s = .next u ∧ (u.ctx ctx).bump = 2 ∧
       (∀ core k, (core, k) ∈ s.cores → k.ctx = some ctx → ∃ k', (core, k') ∈ u.cores ∧ k'.caps = k.caps.map (fun x =>
         if x.2.pset = (s.ctx ctx).pset then (x.1, { x.2 with gen := x.2.gen + 1 }) else x)) ∧
       (∀ core k, (core, k) ∈ s.cores → k.ctx ≠ some ctx → (core, k) ∈ u.cores)) ∧
     (∀ ctx, (s.ctx ctx).bump = 2 →
       ((∀ e ∈ s.cores, e.2.ctx = some ctx → s.oldAccess e.1 (s.ctx ctx).pset = false) →
         exec (.bumpDone ctx) s = .next (s.modCtx ctx (fun c => { c with bump := 0 }))) ∧
       (∀ e ∈ s.cores, e.2.ctx = some ctx → s.oldAccess e.1 (s.ctx ctx).pset = true → exec (.bumpDone ctx) s = .next s)) ∧
     (∀ core cap va leaf log pset, let e := (s.core core).cap cap
       e.valid = true → e.vbase ≤ va.toNat → va.toNat < e.vbase + e.extent → s.wantsPage core 16 cap va.toNat = true →
       walk s.hbm e.root.toNat va.toNat = .ok leaf log pset →
       exec (.translationWindowFill core 16 cap va) s = .next (s.modCore core (fun k => { k with
         win := winInsert k.win 16 { cap := cap, page := va.toNat / 2 ^ log, log := log, leaf := BitVec.ofNat 64 leaf } }))) ∧
     (∀ stack p rest, takeProp stack s.props = some (p, rest) →
       exec (.replicaPropagate stack) s = .next { s with hbm := s.hbm.writeBytes (stack * 2 ^ 36 + p.off) p.bytes, props := rest }))

/-- AGSET, AGRUN and AGSTOP on a plain value (R270, R271, R291). AGSET with eight sticky slots that are well formed and a capability that grants the
direction loads the generator with the fields of R270, at row 0, and emits its number; a running one raises AG_BUSY. AGRUN starts a loaded generator
bound in its direction; one not loaded or bound raises AG_UNBOUND. AGSTOP of an idle one emits 0, and of a running one is noted. AG_ROW of a running
generator between rows, in an active context and not held by an SBAR (R255, R270, R271, R291): a stop that waits ends the run with the rows moved and
bit 63; after its last row the run ends with the rows moved; where its context is being saved it ends as by a stop; else a read generator reads the ROWB bytes at its row's offset, OFFSET plus the sum of
its digits times their strides, through its capability and moves them into its ports; out of range ends the run with CAP_RANGE, and what does not
translate parks. -/
def Obligations.GeneratorResults : Prop :=
  (∀ (s : State) (g : Firing) (f : Fields), s.cur = some g → g.plain →
     let n := f.imm.toNat % 16
     let old := (s.core g.core).gen n
     (∀ c o p d0 d1 d2 d3 t a i e, s.retire.stickies g f.slot.toNat 8 = .ok [c, o, p, d0, d1, d2, d3, t] → c.kind = .cap →
       agParse [c, o, p, d0, d1, d2, d3, t] = some a → s.capAccess g c.value 0 0 (if a.write then .write else .read) = .ok i e →
       (old.running = true → exec (.agset f) s = .next (s.retire.fault g f .agBusy 0)) ∧
       (old.running = false → exec (.agset f) s = .next ((s.retire.modGen g.core n (fun x =>
         { a with port := x.port, mcast := x.mcast, released := x.released })).emit g f false (Val.scalar (BitVec.ofNat 64 n) g.l.round 7))) ∧
       a.loaded = true ∧ a.cap = c ∧ a.offset = o.value.toNat ∧ a.rowb = p.value.toNat % 2 ^ 17 ∧ a.write = p.value.getLsbD 20 ∧ a.next = 0 ∧
       a.strides = ([d0, d1, d2, d3].take (p.value.toNat / 2 ^ 17 % 8)).map (fun d => (d.value.extractLsb' 0 32).toInt) ∧
       a.extm1 = ([d0, d1, d2, d3].take (p.value.toNat / 2 ^ 17 % 8)).map (fun d => d.value.toNat / 2 ^ 32) ∧
       a.trows = t.value.toNat % 2 ^ 16 ∧ a.pwin = t.value.toNat / 2 ^ 16 % 16) ∧
     (old.loaded = false ∨ (old.port = none ∧ old.mcast = []) → exec (.agrun f) s = .next (s.retire.fault g f .agUnbound 0)) ∧
     (∀ p, old.loaded = true → old.port = some p → (decide (8 ≤ p) ≠ old.write → exec (.agrun f) s = .next (s.retire.fault g f .portDir 0)) ∧
       (decide (8 ≤ p) = old.write → exec (.agrun f) s = .next (s.retire.modGen g.core n (fun a => { a with running := true, run := some g, moved := 0 })))) ∧
     (old.running = true → exec (.agstop f) s = .next (s.retire.modGen g.core n (fun a => { a with stopReq := a.stopReq ++ [g] }))) ∧
     (old.running = false → exec (.agstop f) s = .next (s.retire.emit g f false (Val.scalar 0 g.l.round 7)))) ∧
  (∀ (s : State) (core n : Nat) (g : Firing) (opc : Nat) (f : Fields), s.formOf g = some (opc, f) →
     let a := (s.core core).gen n
     let done (w : Nat) (next : Nat) : State := (s.emit g f false (Val.scalar (BitVec.ofNat 64 w) g.l.round 7)).agIdle core n next
     a.run = some g → a.running = true → a.parked = none → a.again = false → a.data = [] → a.entry = 0 → (a.write = true → s.genPending core n = false) →
     (a.stopReq ≠ [] → exec (.agRow core n) s = .next (done (a.moved % 2 ^ 32 + 2 ^ 63) a.next)) ∧
     (a.stopReq = [] → (a.extm1.map (· + 1)).prod ≤ a.next → f.qual.getLsbD 0 = false →
       exec (.agRow core n) s = .next (done (a.moved % 2 ^ 32) 0)) ∧
     (∀ id, a.stopReq = [] → a.next < (a.extm1.map (· + 1)).prod → (s.ctx g.ctx).phase = .saving id →
       exec (.agRow core n) s = .next (done (a.moved % 2 ^ 32 + 2 ^ 63) a.next)) ∧
     (a.stopReq = [] → a.next < (a.extm1.map (· + 1)).prod → a.write = false → a.trows = 0 → (s.core core).barred n s.ids = false →
       (s.ctx g.ctx).phase = .active →
       let i := (a.cap.value.extractLsb' 46 6).toNat
       let c := (s.core core).cap i
       let off := a.rowOffset a.next
       c.valid = true → c.gen = a.cap.value.extractLsb' 38 8 →
       (off < 0 ∨ (c.extent : Int) < off + a.rowb → exec (.agRow core n) s = .next ((s.raise g f.d0
         (g.fault .capRange ((c.vbase : Int) + off).toNat 0 (1 + 256 * n)) false).agIdle core n 0)) ∧
       (0 ≤ off → off + a.rowb ≤ c.extent → c.r = true →
         let x := s.xlate c.root.toNat a.win i .read (c.vbase + off.toNat) a.rowb
         let u := s.modGen core n (fun a => { a with win := winUse a.win 8 i x })
         (∀ cs, x = .ok cs → cs.any (u.readWaits (core / 256)) = false →
           exec (.agRow core n) s = .next ((u.modGen core n (fun x => { x with data := u.readChunks (core / 256) cs, entry := 0, again := false })).agPush
             core n g.l.round 1024)) ∧
         (∀ cs, x = .ok cs → cs.any (u.readWaits (core / 256)) = true → exec (.agRow core n) s = .next u) ∧
         (∀ cs va e dev, x = .err cs va e dev → exec (.agRow core n) s = .next (u.agPark core n g e va dev .read)))) ∧
     (∀ e0 e1 s0 s1 (i j : Nat), a.extm1 = [e0, e1] → a.strides = [s0, s1] → i ≤ e0 → j ≤ e1 → a.rowOffset (i + (e0 + 1) * j) = a.offset + i * s0 + j * s1))

/-- The SBIND operators on scalars that name a free port p of the firing core (R259, R272, R288): each binds it, to a loaded generator of its direction
that is not bound, to a bridge queue with a good descriptor that is not bound on that side, to a free input port of a core of the same stack, or to an
endpoint range that passes R259, and emits 0; a bound port raises PORT_BUSY, a core of another stack BRIDGE_REQUIRED, a reference that names no port
PORT_DIR. SBIND.UNBIND waits in its port until that is empty and its producer has finished. EPBIND and EPDROP on scalars (R259, R293): only a
supervisor context may run them, another takes PRIVILEGE. EPBIND of an unbound endpoint with a descriptor that passes binds the endpoint of the
context and index that L names with the fields of its four sticky slots, and emits 0; a bound one raises EP_BUSY. EPDROP of a bound one with no
transfer in flight unbinds it and emits 0; an unbound one raises EP_UNBOUND. -/
def Obligations.PortBindingResults : Prop :=
  (∀ (s : State) (g : Firing) (f : Fields), s.cur = some g → g.scalars →
     let p := g.l.value.toNat
     let w := ((g.r.map Val.value).getD 0).toNat
     let free := ((s.core g.core).port p).bound = none
     let binds (t : State) (b : Binding) : State := ((t.modPort g.core p (fun x => { x with bound := some b, seen := 0, obj := g.obj })).pump g.core p 16).emit
       g f false (Val.scalar 0 g.l.round 7)
     (16 ≤ p → ∀ i ∈ [Instr.sbindAg f, .sbindBq f, .sbindPeer f, .sbindEp f, .sbindUnbind f], exec i s = .next (s.retire.fault g f .portDir 0)) ∧
     (p < 16 →
       (let n := f.imm.toNat % 16
        let a := (s.core g.core).gen n
        a.loaded = true → decide (8 ≤ p) = a.write →
         (free → a.port = none → a.mcast = [] → exec (.sbindAg f) s = .next (binds (s.retire.modGen g.core n (fun a => { a with port := some p })) (.gen n))) ∧
         (¬free → exec (.sbindAg f) s = .next (s.retire.fault g f .portBusy 0))) ∧
       (free → (s.bridge g.ctx (f.imm.toNat % 256)).isSome = true → (f.imm.toNat % 256, decide (8 ≤ p)) ∉ (s.ctx g.ctx).bridges →
         exec (.sbindBq f) s = .next (binds (s.retire.modCtx g.ctx (fun c =>
           { c with bridges := c.bridges ++ [(f.imm.toNat % 256, decide (8 ≤ p))] })) (.bridge (f.imm.toNat % 256)))) ∧
       (∀ c, (s.ctx g.ctx).phys (w % 4096) = some c → 8 ≤ p →
         (c / 256 ≠ g.core / 256 → exec (.sbindPeer f) s = .next (s.retire.fault g f .bridgeRequired 0)) ∧
         (c / 256 = g.core / 256 → free → ((s.core c).port (w / 4096 % 8)).bound = none → exec (.sbindPeer f) s = .next (binds (s.retire.modPort c (w / 4096 % 8)
           (fun x => { x with bound := some (.peer g.core p), seen := 0, obj := g.obj })) (.peer c (w / 4096 % 8))))) ∧
       (∀ e, free → s.epCheck g.ctx (w % 256) (w / 256) (64 * f.imm.toNat) (decide (8 ≤ p)) = .ok e →
         exec (.sbindEp f) s = .next (binds s.retire (.endpoint (w % 256) (w / 256) f.imm.toNat g.l.round))) ∧
       (¬free → ∀ i ∈ [Instr.sbindBq f, .sbindEp f], exec i s = .next (s.retire.fault g f .portBusy 0)) ∧
       (((s.core g.core).port p).unbind = none →
         exec (.sbindUnbind f) s = .next ((s.retire.modPort g.core p (fun x => { x with unbind := some g })).settle g.core p)) ∧
       (((s.core g.core).port p).unbind ≠ none → exec (.sbindUnbind f) s = .next (s.retire.fault g f .portBusy 0)))) ∧
  (∀ (s : State) (g : Firing) (f : Fields), s.cur = some g → g.scalars →
     let ctx := (g.l.value.extractLsb' 8 12).toNat
     let ep := (g.l.value.extractLsb' 0 8).toNat
     let a := s.retire.accept f (Cmd.start 0 g (.epdrop f) .stream)
     ((s.ctx g.ctx).sup = false → ∀ i ∈ [Instr.epbind f, .epdrop f], exec i s = .next (s.retire.fault g f .privilege 0)) ∧
     ((s.ctx g.ctx).sup = true →
       (∀ lo k n p, s.retire.stickies g f.slot.toNat 4 = .ok [lo, k, n, p] →
         (((s.ctx ctx).ep ep).kind ≠ 0 → exec (.epbind f) s = .next (s.retire.fault g f .epBusy 0)) ∧
         (((s.ctx ctx).ep ep).kind = 0 → s.epBindable ctx [lo, k, n, p] (epParse [lo, k, n, p]) = true → ∃ e : Endpoint,
           e.pointer = p.value.toNat ∧ e.extent = n.value.toNat ∧ e.kind = (k.value.extractLsb' 60 4).toNat ∧ e.w = k.value.getLsbD 59 ∧ e.r = k.value.getLsbD 58 ∧
           e.win = (k.value.extractLsb' 48 8).toNat ∧ e.nsid = k.value.extractLsb' 16 32 ∧ e.rid = k.value.extractLsb' 0 16 ∧ e.qp = lo.value.extractLsb' 48 16 ∧
           exec (.epbind f) s = .next ((s.retire.modCtx ctx (fun c => { c with eps := Table.put c.eps ep e })).emit g f false (Val.scalar 0 g.l.round 7)))) ∧
       (((s.ctx ctx).ep ep).kind = 0 → exec (.epdrop f) s = .next (s.retire.fault g f .epUnbound 0)) ∧
       (((s.ctx ctx).ep ep).kind ≠ 0 → a.1.epInFlight ctx ep = false →
         exec (.epdrop f) s = .next ((a.1.modCtx ctx (fun c => { c with eps := Table.del c.eps ep })).answer a.2 f [(false, Val.scalar 0 g.l.round 7)]))))

/-- BRIDGE_PRODUCE moves the first entry of an output port bound to a bridge queue into slot WCNT modulo the size of the ring, writes its sideband after
the ring and, once every replica of the ring has both writes, counts it in WCNT; BRIDGE_CONSUME takes slot RCNT into its input port and counts it in
RCNT (an entry whose sideband has a reserved bit set it leaves, the model's choice, log 119); neither moves where the ring is full or empty (R173,
R174, R273). SBAR with nothing issued before it answers L at once, and else waits for it (R275). MCAST binds a loaded tagged read
generator to free ports of its stack and emits 0 (R276, R292). PERMIT counts a space token of its source in the slot of its sequence number, and when
the first of eight counts reaches B emits one permit with the number T for it, tells the generator, and moves on; a number eight or more ahead, or of
another source, raises PERMIT_RANGE (R277). -/
def Obligations.StreamControlResults : Prop :=
  (∀ (s : State) (core p ctx b : Nat) (q : Bridge), ((s.core core).port p).bound = some (.bridge b) → (s.core core).ctx = some ctx → s.bridge ctx b = some q →
     (8 ≤ p → ∀ e rest, ((s.core core).port p).fifo = e :: rest →
       let cover := 2 ^ 41 + p
       let wrote (x : Bool) (u : State) : State := u.modPort core p (fun y => { y with wrote := x })
       let counts (u : State) : Prop :=
         (u.unperformed core cover = true → exec (.bridgeProduce core p) s = .next (wrote true u)) ∧
         (∀ x v, u.unperformed core cover = false → u.portPop core p = some (x, v) → exec (.bridgeProduce core p) s =
           .next ((wrote false v).ctxPut ctx ((s.ctx ctx).bqbase.toNat * 4096 + 64 * b + 16) (natLe 8 (q.wcnt + 1))))
       (q.size ≤ q.wcnt - q.rcnt → exec (.bridgeProduce core p) s = .next s) ∧
       (q.wcnt - q.rcnt < q.size → ((s.core core).port p).wrote = true → counts s) ∧
       (q.wcnt - q.rcnt < q.size → ((s.core core).port p).wrote = false → ∀ t u,
         s.ctxWriteFor ctx (q.ring + 64 * (q.wcnt % q.size)) e.data core cover = .ok t →
         t.ctxWriteFor ctx (q.ring + 64 * q.size + 2 * (q.wcnt % q.size)) (natLe 2 (e.round.toNat + (if e.mark then 256 else 0) +
           (if e.eor then 512 else 0) + (if e.eot then 1024 else 0))) core cover = .ok u → counts u)) ∧
     (p < 8 →
       (q.wcnt = q.rcnt ∨ ((s.core core).port p).fifo.length = 16 → exec (.bridgeConsume core p) s = .next s) ∧
       (q.wcnt ≠ q.rcnt → ((s.core core).port p).fifo.length < 16 → ∀ bs w, s.ctxRead ctx (core / 256) (q.ring + 64 * (q.rcnt % q.size)) 64 = .ok bs →
         s.ctxRead ctx (core / 256) (q.ring + 64 * q.size + 2 * (q.rcnt % q.size)) 2 = .ok w →
         (2 ^ 11 ≤ leNat w → exec (.bridgeConsume core p) s = .next s) ∧
         (leNat w < 2 ^ 11 → ∃ e : Entry, e.data = bs ∧ e.round = BitVec.ofNat 8 (leNat w) ∧
         e.mark = (leNat w).testBit 8 ∧ e.eor = (leNat w).testBit 9 ∧ e.eot = (leNat w).testBit 10 ∧
         exec (.bridgeConsume core p) s = .next ((s.portPush core p e).ctxPut ctx ((s.ctx ctx).bqbase.toNat * 4096 + 64 * b + 24) (natLe 8 (q.rcnt + 1))))))) ∧
  (∀ (s : State) (g : Firing) (f : Fields), s.cur = some g → g.plain →
     (let c : Cmd := { Cmd.start 0 g (.sbar f) .stream with phase := .covered, covers := s.issued g.core (f.imm.toNat % 2 ^ 17) }
      let h : Val := { g.l with prov := 7, lin := Lineage.none }
      (s.issued g.core (f.imm.toNat % 2 ^ 17) = [] → exec (.sbar f) s = .next ((s.retire.accept f c).1.answer (s.retire.accept f c).2 f [(false, h), (true, h)])) ∧
      (s.issued g.core (f.imm.toNat % 2 ^ 17) ≠ [] → exec (.sbar f) s = .next (s.retire.accept f c).1)) ∧
     (let n := f.imm.toNat % 16
      let b := f.imm.toNat / 16 % 16
      let a := (s.core g.core).gen n
      ∀ (vs : List Val) (bs ports : List (Nat × Nat)), s.retire.stickies g f.slot.toNat ((b + 3) / 4) = .ok vs → mcastBranches vs b = some bs →
       bs.map (fun x => ((s.ctx g.ctx).phys x.1, x.2)) = ports.map (fun x => (some x.1, x.2)) → ports.Nodup →
       (∀ x ∈ ports, x.1 / 256 = g.core / 256 ∧ ((s.core x.1).port x.2).bound = none) → a.port = none → a.mcast = [] →
       a.loaded = true → a.write = false → a.trows ≠ 0 →
       exec (.mcast f) s = .next (((ports.foldl (fun t x => t.modPort x.1 x.2 (fun p =>
         { p with bound := some (.branch g.core n g), seen := 0, obj := g.obj })) s.retire).modGen g.core n (fun a =>
           { a with mcast := ports, released := 0 })).emit g f false (Val.scalar 0 g.l.round 7))) ∧
     (∀ (w k : Val) (frame : Frame), g.replay = none → s.retire.frameOf g = some frame → f.slot.toNat + 1 < 2 ^ (frame.cls + 4) → g.l.kind = .permit → g.l.value.getLsbD 63 = false →
       frame.slot f.slot.toNat = .parked false w → frame.slot (f.slot.toNat + 1) = .parked false k →
       let t := w.value.toNat / 2 ^ 32
       let src := (g.l.value.extractLsb' 40 16).toNat
       let count (i : Nat) : Nat := w.value.toNat / 2 ^ (4 * i) % 16
       let put (x : Nat) : State := (s.retire.modFrameOf g (fun fr => fr.setSlot f.slot.toNat (stateSlot (BitVec.ofNat 64 x) g.l.round 7 []))).modFrameOf g
         (fun fr => fr.setSlot (f.slot.toNat + 1) (stateSlot (BitVec.ofNat 64 src) g.l.round 7 []))
       (k.value.toNat ≠ src → exec (.permit f) s = .next (s.retire.fault g f .permitRange 0)) ∧
       (∀ d, k.value.toNat = src → (g.l.value.extractLsb' 0 32).toNat = (t + d) % 2 ^ 32 →
         (8 ≤ d → d < 2 ^ 32 → exec (.permit f) s = .next (s.retire.fault g f .permitRange 0)) ∧
         (1 ≤ d → d < 8 → count 0 ≠ f.imm.toNat % 16 → count d < 15 → exec (.permit f) s = .next (put (w.value.toNat + 2 ^ (4 * d)))) ∧
         (d = 0 → count 0 < 15 → count 0 + 1 = f.imm.toNat % 16 → count 1 ≠ f.imm.toNat % 16 → t + 1 < 2 ^ 32 → ∃ v : Val, v.kind = .permit ∧ v.round = g.l.round ∧
           v.value.getLsbD 63 = true ∧ (v.value.extractLsb' 40 16).toNat = src ∧ (v.value.extractLsb' 36 4).toNat = f.imm.toNat % 16 ∧ (v.value.extractLsb' 0 32).toNat = t ∧
           exec (.permit f) s = .next (match (s.ctx g.ctx).phys (src % 2 ^ 12) with
             | some c => ((put ((t + 1) * 2 ^ 32 + w.value.toNat % 2 ^ 32 / 16)).emit g f false v).modGen c (src / 2 ^ 12) (fun a => { a with released := t + 1 })
             | none => (put ((t + 1) * 2 ^ 32 + w.value.toNat % 2 ^ 32 / 16)).emit g f false v)))))

/-- A vector operator on operands of its KINDs whose tiles, types, shapes, ports and destination pass their checks joins the end of its core's vector
queue, changes no memory and emits nothing yet; each distinct tile that it names counts one more in BUSY, and its destination is in shadow, for VRSUM
and VRMAX with the first firing of a round, whose reduction then counts D as well (R52, R294, R296, R317, R495). A failed check is that fault and
nothing else. -/
def Obligations.VectorAcceptance : Prop :=
  ∀ (s : State) (g : Firing) (f : Fields) (i : Instr) (opc : Nat), s.cur = some g → g.plain →
    (opc, i) ∈ [(0x80, Instr.vadd f), (0x81, .vsub f), (0x82, .vmul f), (0x83, .vfma f), (0x84, .vdiv f), (0x85, .vmin f), (0x86, .vmax f), (0x87, .vabs f),
      (0x88, .vneg f), (0x89, .vexp2 f), (0x8A, .vlog2 f), (0x8B, .vrcp f), (0x8C, .vrsq f), (0x8D, .vsqrt f), (0x8E, .vtanh f), (0x8F, .vsigm f), (0x90, .vcvt f),
      (0x91, .vqmx f), (0x92, .vdqmx f), (0x93, .vcmp f), (0x94, .vsel f), (0x95, .vrsum f), (0x96, .vrmax f), (0x97, .vcsum f), (0x98, .vbcast f), (0x99, .vrbc f),
      (0x9A, .vtrans f), (0x9B, .viota f), (0x9C, .vcomp f), (0x9D, .vlogic f), (0x9E, .vshift f)] →
    kindsOk (vecNeed opc f) g.l g.r g.t = true → (vecReduces opc = true → s.redClosed g = none) →
    (∀ e d, s.vecCheck opc f g = .error (e, d) → exec i s = .next (s.retire.fault g f e d)) ∧
    (∀ xs, s.vecCheck opc f g = .ok xs → ∃ (u : State) (c : Cmd), exec i s = .next u ∧ (u.core g.core).vecQueue = (s.core g.core).vecQueue ++ [c] ∧
      c.instr = i ∧ c.fire = g ∧ c.id = s.ids ∧ u.hbm = s.hbm ∧ u.vault = s.vault ∧ u.host = s.host ∧ u.storage = s.storage ∧
      (vecReduces opc = false →
        (∀ k n, ((u.core k).tile n).busy = ((s.core k).tile n).busy + (if (k, n) ∈ xs.map (fun p => (p.2.core, p.2.index)) then 1 else 0)) ∧
        (∀ d v, vecDestNo opc f = some d → viewNo xs d = some v → ((u.core v.core).tile v.index).shadow = true)) ∧
      (vecReduces opc = true → ∀ d v, vecDestNo opc f = some d → viewNo xs d = some v → (∀ r ∈ (s.core g.core).redsOf g.fp g.ip, r.round ≠ g.l.round) →
        ((u.core v.core).tile v.index).shadow = true ∧ ∃ r ∈ (u.core g.core).redsOf g.fp g.ip, r.round = g.l.round ∧ r.pend = 1 ∧ r.marker = none))

/-- VECTOR_COMPLETE of an integer VADD, VSUB, VMUL, VMIN or VMAX in place, of a tile view L and a scalar R, without SAT and SR: every element of the view
becomes the element whose integer is the exact result wrapped to the type, every row is read before any is written, no flag is set, and the command
ends (R84, R299, R302, R304). VECTOR_COMMAND_START moves the head of a core's vector queue to work when none is at work there and it may start;
VECTOR_COMPLETE of VTRANS writes the transposed rows of L into R (R313); and REDUCTION_RELEASE, when a round of a reduction is complete, emits D's
handle, clears its shadow, and then the marker, and the round is over (R317). -/
def Obligations.VectorResults : Prop :=
  (∀ (s : State) (core : Nat) (c : Cmd) (f : Fields) (v : View) (r : Val), (s.core core).vecRun = some c → c.fire.core = core →
     c.fire.r = some r → c.fire.t = none → c.fire.l.kind = .tile → r.kind = .scalar → s.view c.fire.ctx c.fire.l.value true = .ok v →
     tyFloat f.ty = false → f.sat = false → f.rm ≠ .sr → f.qual.getLsbD 7 = false → f.qual.getLsbD 6 = false →
     ∀ (opc : Nat) (i : Instr) (e : Int → Int → Int), (opc, i, e) ∈ [(0x80, Instr.vadd f, fun x y => x + y), (0x81, .vsub f, fun x y => x - y), (0x82, .vmul f, fun x y => x * y),
         (0x85, .vmin f, fun x y => min x y), (0x86, .vmax f, fun x y => max x y)] → c.instr = i →
       ∃ out : Nat → Nat → Nat,
         (∀ a b, b < v.tile.cols → (out a b : Int) % 2 ^ tyWidth f.ty =
           e (decodeInt f.ty (s.elem v.core v.tile (v.row0 + a) b)) (decodeInt f.ty r.value.toNat) % 2 ^ tyWidth f.ty) ∧
         exec (.vectorComplete core) s = .next (((List.range v.n).foldl (fun t a =>
           t.setViewRow v a ((List.range v.tile.cols).map (out a))) s).vecDone opc f c 0 0)) ∧
  (∀ (s : State) (core : Nat),
     (∀ c rest, (s.core core).vecRun = none → (s.core core).vecQueue = c :: rest →
       (∀ opc, c.instr.form.map Prod.fst = some opc → (s.core core).vecMayStart c opc = true → vecReduces opc = false →
         exec (.vectorCommandStart core) s = .next (s.modCore core (fun k => { k with vecQueue := rest, vecRun := some c })))) ∧
     (∀ c f v w, (s.core core).vecRun = some c → c.instr = .vtrans f → f.qual.getLsbD 7 = false → f.qual.getLsbD 6 = false →
       c.fire.l.kind = .tile → s.view c.fire.ctx c.fire.l.value true = .ok v → (∀ r, c.fire.r = some r → r.kind = .tile ∧ s.view c.fire.ctx r.value true = .ok w) → c.fire.r ≠ none →
       exec (.vectorComplete core) s = .next ((s.setViewRows w ((List.range w.n).map (fun i => (List.range w.tile.cols).map (fun j =>
         ((s.viewRows v)[j]?.getD [])[i]?.getD 0)))).vecDone 0x9A f c 0 0)) ∧
     (∀ fp ip r g opc f d tc ti, ((s.core core).redsOf fp ip).find? (s.core core).redFree = some r → r.marker = some g → s.formOf g = some (opc, f) →
       r.dest = some (d, tc, ti) → g.obj ∉ (s.core core).quar →
       ∃ u : State, (∀ x ∈ (u.core core).redsOf fp ip, x.round ≠ r.round) ∧ ((u.core tc).tile ti).shadow = false ∧ u.vault = s.vault ∧ u.hbm = s.hbm ∧
         exec (.reductionRelease core fp ip) s = .next ((u.emitBoth g f { d with prov := 7, round := r.round, lin := Lineage.none }).emitBoth g f (Val.marker r.round 7))))

/-- A matrix operator on plain operands of its KINDs that pass the checks of R332: MROW, MMA, MSCL, MRD, MOUT, MCLR and MRESC join the end of the queue of
the selected accumulator, with BUSY of their tile one more, MRD's destination in shadow, and the open binding captured by MROW and MMA; MMAG joins the
requests to the arbiter of its mesh row; MACC selects an accumulator, MBIND binds its tile as B with BUSY one more, both emit L; MUNBIND marks the
binding as closing; MDRAIN waits for the items before it; none changes memory. A failed check is that fault (R320, R322, R324, R331, R332, R336, R337,
R345). A firing of a matrix operator with a marker in L puts a marker item into the queue of the selected accumulator, with no check (R323);
MARKER_ITEM at the head of the queue, with no result of its round held, takes it out and emits the marker (R323, R341). -/
def Obligations.MatrixAcceptance : Prop :=
  (∀ (s : State) (g : Firing) (f : Fields) (i : Instr) (opc : Nat), s.cur = some g → g.plain →
     (opc, i) ∈ [(0xA0, Instr.mbind f), (0xA1, .munbind f), (0xA2, .macc f), (0xA3, .mrowAcc f), (0xA3, .mrowOut f), (0xA4, .mma f), (0xA5, .mmag f), (0xA6, .msclSet f), (0xA6, .msclClr f),
       (0xA7, .mrd f), (0xA8, .moutKeep f), (0xA8, .moutClr f), (0xA9, .mclr f), (0xAA, .mresc f), (0xAB, .mdrainCur f), (0xAB, .mdrainAll f)] →
     kindsOk (matNeed opc f) g.l g.r g.t = true →
     let k := s.core g.core
     let h : Val := { g.l with prov := 7, lin := Lineage.none }
     (∀ e d, s.matCheck opc f g = .error (e, d) → exec i s = .next (s.retire.fault g f e d)) ∧
     (∀ v, s.matCheck opc f g = .ok v → ∃ u : State, exec i s = .next u ∧
       (0xA3 ≤ opc → opc ≤ 0xAA → opc ≠ 0xA5 → ∃ it : MatItem, ((u.core g.core).acc k.sel).queue = (k.acc k.sel).queue ++ [it] ∧ it.id = s.ids ∧ it.fire = g ∧ it.instr = i ∧
         it.marker = false ∧ it.started = false ∧ it.row = 0 ∧ it.binding = (if opc = 0xA3 ∨ opc = 0xA4 then k.openB else none) ∧
         u.vault = s.vault ∧ u.hbm = s.hbm ∧ (∀ x, v = some x → ((u.core x.core).tile x.index).busy = ((s.core x.core).tile x.index).busy + 1 ∧
           (opc = 0xA7 → ((u.core x.core).tile x.index).shadow = true))) ∧
       (opc = 0xA5 → ∃ c : Cmd, u.gangs = s.gangs ++ [c] ∧ c.fire = g ∧ c.instr = i ∧ c.aux = (if k.sel then 1 else 0)) ∧
       (opc = 0xA2 → u = (s.retire.modCore g.core (fun k => { k with sel := f.fn == 1 })).emitBoth g f h) ∧
       (opc = 0xA1 → u = s.retire.modCore g.core (fun k => { k with mat := k.mat.map (fun b => { b with closing := some g }) })) ∧
       (∀ x, opc = 0xA0 → v = some x → u = ((s.retire.modTile x.core x.index (fun t => { t with busy := t.busy + 1 })).modCore g.core (fun k =>
         { k with mat := some { handle := g.l, core := x.core, index := x.index, etype := x.tile.etype, kb := x.tile.rows, nb := x.tile.cols, mx := f.mx, closing := none } })).emitBoth
           g f h) ∧
       (opc = 0xAB → ∃ c : Cmd, c.fire = g ∧ c.instr = i ∧ c.id = s.ids ∧
         (f.fn = 0 → ∀ n, n ∈ c.covers ↔ (∃ x ∈ (k.acc k.sel).queue, x.id = n) ∨ ∃ x ∈ s.gangs, x.id = n ∧ x.fire.core = g.core ∧ x.aux = (if k.sel then 1 else 0)) ∧
         u = ({ s.retire with ids := s.ids + 1 }.modCore g.core (fun k => { k with cmds := k.cmds ++ [c] })).matSettle g.core))) ∧
  ((∀ (s : State) (g : Firing) (f : Fields), s.cur = some g → g.l.kind = .marker → (∀ v ∈ g.vals, v.kind ≠ .fault) →
     ∀ i ∈ [Instr.mbind f, .munbind f, .macc f, .mrowAcc f, .mrowOut f, .mma f, .mmag f, .msclSet f, .msclClr f, .mrd f, .moutKeep f, .moutClr f, .mclr f, .mresc f, .mdrainCur f, .mdrainAll f],
       ∃ it : MatItem, it.marker = true ∧ it.fire = g ∧ it.instr = i ∧ it.tiles = [] ∧
         exec i s = .next ({ s.retire with ids := s.ids + 1 }.modAcc g.core (s.core g.core).sel (fun x => { x with queue := x.queue ++ [it] }))) ∧
   (∀ (s : State) (core n : Nat) (it : MatItem) (opc : Nat) (fn : Option Nat) (f : Fields), s.matHead core (decide (n % 2 = 1)) = some it → it.marker = true →
     it.instr.form = some (opc, fn, f) → it.fire.obj ∉ (s.core core).quar → it.fire.core = core → (∀ h ∈ ((s.core core).acc (decide (n % 2 = 1))).held, h.fire.l.round ≠ it.fire.l.round) →
     ∃ u : State, ((u.core core).acc (decide (n % 2 = 1))).queue = ((s.core core).acc (decide (n % 2 = 1))).queue.filter (fun x => x.id != it.id) ∧ u.vault = s.vault ∧
       exec (.markerItem core n) s = .next ((u.emitBoth it.fire f (Val.marker it.fire.l.round 7)).matSettle core)))

/-- ROW_FIRING of a started MMA of I8 whose K is at most one chunk: each element j below N of row AROW + row becomes the sum of the products of the row of
A with column j of B, added under ACC to what the element held, brought to the nearest I32, with ISAT noted exactly when that changes a value; every
other element of the accumulator, and all memory, stays (R97, R98, R327, R330); where both heads have a row ready, the accumulator whose turn it is
not does nothing (R322). MATRIX_ITEM_START starts the item at the head of a queue in an active
context, or ends an MMA or MRESC whose accumulator holds the other kind of number with MAT_ATYPE (R322, R332). MATRIX_ITEM_FINISH of MCLR clears every
element and sets the kind of TY, of MSCL.CLR clears every factor, and each emits L; of MRD writes its window to its view and holds the handle (R321,
R340, R341, R343). BINDING_RELEASE ends a closing binding that no item has captured (R320). GANG_GRANT gives each member's queue its item of the
oldest gang of the row (R331). -/
def Obligations.MatrixResults : Prop :=
  (∀ (s : State) (core : Nat) (sel : Bool) (it : MatItem) (f : Fields) (w : ShapeWord) (b : MatBinding) (v : View),
     s.matHead core sel = some it → it.instr = .mma f → f.ty = .i8 → it.marker = false → it.started = true → it.binding = some b → b.etype = .i8 →
     (s.ctx it.fire.ctx).phase = .active → shapeWord ((it.fire.r.map Val.value).getD 0) true true false = some w → s.view it.fire.ctx it.fire.l.value true = .ok v →
     it.row < w.m → 0 < w.n → 0 < w.k → w.k ≤ 32 → w.k ≤ v.tile.cols → s.rowMay core sel = true →
     ∃ u : State, exec (.rowFiring core (if sel then 1 else 0)) s = .next u ∧ u.vault = s.vault ∧ u.hbm = s.hbm ∧
       (let acc := (s.core core).acc sel
        let acc' := (u.core core).acc sel
        let exact (j : Nat) : Int := (if f.qual.getLsbD 0 then decodeInt .i32 (acc.at (w.arow + it.row) j) else 0) +
          ((List.range w.k).map (fun k => decodeInt .i8 (s.elem v.core v.tile (v.row0 + it.row) k) *
            decodeInt .i8 (s.elem b.core ((s.core b.core).tile b.index) k j))).sum
        (∀ j, j < w.n → decodeInt .i32 (acc'.at (w.arow + it.row) j) = max (-2 ^ 31) (min (exact j) (2 ^ 31 - 1))) ∧
        (∀ i j, j < 128 → (i ≠ w.arow + it.row ∨ w.n ≤ j) → acc'.at i j = acc.at i j) ∧
        (∀ x, u.matHead core sel = some x → x.row = it.row + 1 ∧
          (it.flags &&& flagISAT = 0 → (x.flags &&& flagISAT ≠ 0 ↔ ∃ j, j < w.n ∧ (exact j < -2 ^ 31 ∨ 2 ^ 31 ≤ exact j)))))) ∧
  (∀ (s : State) (core : Nat) (sel : Bool),
     let n := if sel then 1 else 0
     (∀ it opc fn f, s.matHead core sel = some it → it.marker = false → it.started = false → it.instr.form = some (opc, fn, f) → (s.ctx it.fire.ctx).phase = .active → opc ≠ 0xA5 →
       let isInt := ((s.core core).acc sel).isInt
       (((opc = 0xA4 ∨ (opc = 0xA3 ∧ f.fn = 0)) ∧ isInt ≠ decide (f.ty = .i8)) ∨ (opc = 0xAA ∧ isInt = true) →
         exec (.matrixItemStart core n) s = .next (s.itemFail core sel it f .matAtype 0)) ∧
       ((opc = 0xA4 ∨ opc = 0xA3 → isInt = decide (f.ty = .i8)) → (opc = 0xAA → isInt = false) →
         (it.seed ≠ 0 → exec (.matrixItemStart core n) s = .next (s.modItem core sel it.id (fun i => { i with started := true }))) ∧
         (it.seed = 0 → exec (.matrixItemStart core n) s = .next ((s.draws core (matDraws opc f it.fire)).1.modItem core sel it.id (fun i =>
           { i with started := true, seed := (s.core core).lfsr }))))) ∧
     (s.rowMay core sel = false → exec (.rowFiring core n) s = .next s) ∧
     (∀ it f, s.matHead core sel = some it → it.marker = false → it.started = true →
       let h : Val := { it.fire.l with prov := 7, lin := Lineage.none }
       (it.instr = .mclr f → exec (.matrixItemFinish core n) s = .next ((s.modAcc core sel (fun x => { x with isInt := decide (f.ty = .i32), elems := [] })).itemEnd core sel it f 0 h)) ∧
       (it.instr = .msclClr f → f.fn ≠ 0 → exec (.matrixItemFinish core n) s = .next ((s.modAcc core sel (fun x => { x with factors := [] })).itemEnd core sel it f 0 h)) ∧
       (∀ v w, it.instr = .mrd f → s.view it.fire.ctx it.fire.l.value true = .ok v → shapeWord ((it.fire.r.map Val.value).getD 0) true false false = some w →
         ∃ fl, exec (.matrixItemFinish core n) s = .next (((((s.setViewRows v ((List.range w.m).map (fun i => (((s.core core).acc sel).outRow f w it.seed i).1))).itemGone core sel it.id).setFlags
           it.fire.ctx fl).modAcc core sel (fun x => { x with held := x.held ++ [it] })).matSettle core))) ∧
     (∀ b g opc f, (s.core core).mat = some b → b.closing = some g → s.formOf g = some (opc, f) → (∀ x ∈ (s.core core).acc0.queue ++ (s.core core).acc1.queue, x.binding = none) →
       ∃ u : State, exec (.bindingRelease core) s = .next u ∧ (u.core core).mat = none ∧ u.vault = s.vault) ∧
     (∀ stack row c f, s.gangs.find? (fun c => c.fire.core / 16 == stack * 16 + row) = some c → c.instr = .mmag f → f.imm.toNat % 8 = 0 →
       (((s.core c.fire.core).acc (c.aux == 1)).queue.length < 8 →
         ∃ it : MatItem, it.id = c.id ∧ it.fire = c.fire ∧ it.instr = c.instr ∧ it.gang = some (c.fire.core, c.id, 0, 1) ∧ it.tiles = c.tiles ∧
           exec (.gangGrant stack row) s = .next ({ s with gangs := s.gangs.filter (fun x => x.id != c.id) }.modAcc c.fire.core (c.aux == 1) (fun x => { x with queue := x.queue ++ [it] }))) ∧
       (8 ≤ ((s.core c.fire.core).acc (c.aux == 1)).queue.length → exec (.gangGrant stack row) s = .next s)))

/-- A synchronisation operator on plain operands of its KINDs that pass its checks enters the unit with the next number, waits for the set that its scope
covers where it has one, changes no memory and emits nothing yet; a RED counts one more in its context until it is performed; COLL puts its view in
shadow (R357, R358, R371, R372, R374 to R383). A target or barrier that fails its checks is that fault, an operand out of range OPERAND_RANGE.
SPLIT_PHASE_COMPLETE of a FENCE emits L once its covered set is performed and nothing before; of an ACQ it emits the TY bytes at its place,
little-endian and extended, and changes no memory (R357, R381, R382). -/
def Obligations.SynchronisationAcceptance : Prop :=
  (∀ (s : State) (g : Firing) (f : Fields), s.cur = some g → g.plain →
     let num (v : Option Val) : Nat := (v.map (fun x => x.value.toNat)).getD 0
     let enters (i : Instr) (covers : List Nat) (aux : Nat) : Prop := ∃ (u : State) (c : Cmd), exec i s = .next u ∧ c ∈ (u.core g.core).cmds ∧ c.id = s.ids ∧ c.fire = g ∧
       c.instr = i ∧ c.phase = .covered ∧ c.covers = covers ∧ c.aux = aux ∧ u.hbm = s.hbm ∧ u.vault = s.vault ∧ u.host = s.host ∧ u.storage = s.storage ∧
       (u.ctx g.ctx).redcnt = (s.ctx g.ctx).redcnt + (if i = .red f then 1 else 0)
     let kinds (kl kr kt : Kind → Bool) : Prop := kl g.l.kind = true ∧ (∀ v, g.r = some v → kr v.kind = true) ∧ (∀ v, g.t = some v → kt v.kind = true)
     let rel := if f.qual.getLsbD 0 then s.coveredSet g f.scope else []
     (∀ i kl kr kt covers, (i, kl, kr, kt, covers) ∈ [(Instr.atom f, isScalar, isScalar, isTarget, rel), (.red f, isScalar, isScalar, isTarget, rel), (.cas f, isScalar, isScalar, isTarget, rel),
         (.lockq f, isScalar, isTarget, anyKind, []), (.acq f, (fun k => k == .tile || k == .cap), isScalar, isScalar, []), (.rel f, isTarget, isScalar, isScalar, s.coveredSet g f.scope)] →
       kinds kl kr kt →
       (s.targetReach (Cmd.start 0 g i .sync) f false = .fine ∨ s.targetReach (Cmd.start 0 g i .sync) f false = .later → enters i covers 0) ∧
       (∀ e d0 d2, s.targetReach (Cmd.start 0 g i .sync) f false = .bad e d0 d2 → (∀ c ∈ (s.core g.core).cmds, c.id ≠ s.ids) →
         exec i s = .next (s.retire.raise g f.d0 (g.fault e d0 0 d2) false))) ∧
     enters (.fence f) (s.coveredSet g f.scope) 0 ∧ enters (.bar f) (s.coveredSet g f.scope) 0 ∧
     (g.scalars → g.l.value.extractLsb' 32 8 = 0 → enters (.lockr f) (s.coveredSet g f.scope) 0) ∧
     (g.scalars → g.l.value.extractLsb' 32 8 ≠ 0 → exec (.lockr f) s = .next (s.retire.fault g f .operandRange 0)) ∧
     (∀ v, kinds isTile isScalar isScalar → s.barrierOf g = .ok v →
       (0 < num g.r % 2 ^ 20 → num g.r < 2 ^ 21 → enters (.tbinit f) [] (num g.r)) ∧
       (num g.r % 2 ^ 20 = 0 ∨ 2 ^ 21 ≤ num g.r → exec (.tbinit f) s = .next (s.retire.fault g f .operandRange 0)) ∧
       (let x := (g.r.map (fun v => v.value.toNat)).getD f.imm.toNat
        (0 < x → x < 2 ^ 31 → enters (.tbexp f) [] x) ∧ (x < 16 → enters (.tbwait f) [] x) ∧
        (16 ≤ x → exec (.tbwait f) s = .next (s.retire.fault g f .operandRange 0))) ∧
       enters (.tbarrArr f) (s.coveredSet g f.scope) 0 ∧ enters (.tbinv f) [] 0 ∧
       (∀ r, g.r = some r → 0 < r.value.toNat → r.value.toNat < 2 ^ 31 → ∀ i ∈ [Instr.tbarrTx f, .tbarrArrtx f], enters i (s.coveredSet g f.scope) r.value.toNat)) ∧
     (∀ v r w, g.l.kind = .tile → s.barrierOf g = .ok v → g.r = some r → r.kind = .tile → s.view g.ctx r.value false = .ok w →
       ∀ i ∈ [Instr.tbarrTx f, .tbarrArrtx f], enters i (s.coveredSet g f.scope) ((w.bytes + 31) / 32)) ∧
     (∀ v, kinds isTile isScalar anyKind → s.view g.ctx g.l.value false = .ok v → v.core = g.core → v.n = 1 → v.tile.etype = f.ty → v.bytes ≤ 65536 →
       num g.r < f.imm.toNat / 16 % 2 ^ 20 → s.destCheck v = none → enters (.coll f) (s.coveredSet g f.scope) 0)) ∧
  (∀ (s : State) (core id : Nat) (c : Cmd) (f : Fields), (s.core core).cmd? id = some c → s.syncMay c = true →
     let h : Val := { c.fire.l with prov := 7, lin := Lineage.none }
     (c.instr = .fence f → s.covered c = true → exec (.splitPhaseComplete core id) s = .next (s.answer c f [(false, h), (true, h)])) ∧
     (c.instr = .fence f → s.covered c = false → exec (.splitPhaseComplete core id) s = .next s) ∧
     (∀ x, c.instr = .acq f → s.targetReach c f true = .fine → (s.targetUse c f).spotOf c f = .ok x →
       let u := s.targetUse c f
       let half := match x with
         | .mem ch => u.halfSeen none ch
         | _ => false
       let v := Val.scalar (extend f.ty (leNat (u.spotRead x (tyWidth f.ty / 8)))) c.fire.l.round 7
       (half = true ∨ u.spotUp c.fire.core x = false → exec (.splitPhaseComplete core id) s = .next u) ∧
       (half = false → u.spotUp c.fire.core x = true → exec (.splitPhaseComplete core id) s = .next (u.answer c f [(false, v), (true, v)]))))

/-- UPDATE_APPLY of an ATOM, a CAS, a REL or a RED that has left its core, whose covered set is performed and whose target has passed its checks and is at
place x: one read of the TY bytes there and one write of them, and of no other byte, then the old element to both destinations for ATOM, with whether
it matched to dest1 for CAS, 0 for REL, and nothing more for RED, which the context no longer counts (R358, R367, R371, R379, R382). A CAS that does
not match writes nothing. -/
def Obligations.UpdateResults : Prop :=
  ∀ (s : State) (core id : Nat) (c : Cmd) (f : Fields) (x : Spot), (s.core core).cmd? id = some c → s.syncMay c = true → c.aborted = false →
    s.covered c = true → s.targetReach c f true = .fine → (s.targetUse c f).spotOf c f = .ok x →
    let u := s.targetUse c f
    let n := tyWidth f.ty / 8
    let w := tyWidth f.ty
    let old := leNat (u.spotRead x n) % 2 ^ w
    let r := ((c.fire.r.map Val.value).getD 0).toNat
    let put (y : Nat) : State := u.spotWrite x (natLe n y) c
    let out (y : Nat) : Val := Val.scalar (extend f.ty y) c.fire.l.round 7
    u.spotUp c.fire.core x = true → u.unperformed c.fire.core c.id = false → (∀ y, (put y).unperformed c.fire.core c.id = false) →
    (c.instr = .rel f → c.phase = .covered → exec (.updateApply core id) s = .next ((put (r % 2 ^ w)).answer c f [(false, Val.scalar 0 c.fire.l.round 7)])) ∧
    (c.instr = .cas f → c.phase = .covered →
      (old = r / 2 ^ 32 % 2 ^ w → exec (.updateApply core id) s = .next ((put (r % 2 ^ w)).answer c f [(false, out old), (true, Val.scalar 1 c.fire.l.round 7)])) ∧
      (old ≠ r / 2 ^ 32 % 2 ^ w → exec (.updateApply core id) s = .next (u.answer c f [(false, out old), (true, Val.scalar 0 c.fire.l.round 7)]))) ∧
    (∀ (fn : Nat) (new : Nat), tyFloat f.ty = false → f.sat = false → f.fn.toNat = fn →
      (let i := decodeInt f.ty old
       let j := decodeInt f.ty r
       (fn = 0 → (new : Int) = (i + j) % 2 ^ w) ∧ (fn = 1 → decodeInt f.ty new = min i j) ∧ (fn = 2 → decodeInt f.ty new = max i j) ∧
       (fn = 3 → ∀ k, new.testBit k = (old.testBit k && (r % 2 ^ w).testBit k)) ∧ (fn = 4 → ∀ k, new.testBit k = (old.testBit k || (r % 2 ^ w).testBit k)) ∧
       (fn = 5 → ∀ k, new.testBit k = (old.testBit k ^^ (r % 2 ^ w).testBit k)) ∧ (fn = 6 → new = r % 2 ^ w)) → fn ≤ 6 → new < 2 ^ w →
      (c.instr = .atom f → c.phase = .covered → exec (.updateApply core id) s = .next ((put new).answer c f [(false, out old), (true, out old)])) ∧
      (c.instr = .red f → c.phase = .owner → exec (.updateApply core id) s = .next (((put new).finish c true).modCtx c.fire.ctx (fun k => { k with redcnt := k.redcnt - 1 })))) ∧
    (∀ a b : Rat, f.fn = 7 → c.instr = .atom f → c.phase = .covered → tyFloat f.ty = true → floatRat f.ty old = some a → floatRat f.ty (r % 2 ^ w) = some b → a + b ≠ 0 →
      ∃ p q : Nat, 0 < p ∧ 0 < q ∧ |a + b| = (p : Rat) / q ∧
        (let y := roundTo f.ty f.rm false 0 (.mag (decide (a + b < 0)) (.ratio p q))
         exec (.updateApply core id) s = .next (((put y.1).setFlags c.fire.ctx y.2).answer c f [(false, out old), (true, out old)])))

/-- Locks (R370, R380). A LOCKQ at its node joins the end of the waiters of the entry that its address and context hash to; LOCK_GRANT of a free entry
with a waiter gives its token, of node, entry and sequence, to both destinations, holds the entry for the context and counts the sequence; LOCKR with
that token, once its covered set is performed, frees the entry and emits 0, and with another raises LOCK_STATE. -/
def Obligations.LockResults : Prop :=
  (∀ (s : State) (core id : Nat) (c : Cmd) (f : Fields) (x : Spot), (s.core core).cmd? id = some c → c.instr = .lockq f → c.phase = .covered → s.syncMay c = true →
    s.targetReach c f true = .fine → (s.targetUse c f).spotOf c f = .ok x →
    let u := (s.targetUse c f).modCmd c.fire.core c.id (fun c => { c with phase := .queued })
    exec (.updateApply core id) s = .next (u.modLock (u.nodeOf c.fire.ctx x) (lockEntry (u.lockAddr c f x) c.fire.ctx) (fun k => { k with waiters := k.waiters ++ [(c.fire.core, c.id)] }))) ∧
  (∀ (s : State) (node entry core id : Nat) (rest : List (Nat × Nat)) (c : Cmd) (f : Fields), (s.lock node entry).held = none → (s.lock node entry).waiters = (core, id) :: rest →
    (s.core core).cmd? id = some c → c.fields = some f →
    let v : Val := Val.scalar (s.nodeId node ++ BitVec.ofNat 8 entry ++ (0 : BitVec 8) ++ (s.lock node entry).seq) c.fire.l.round 7
    exec (.lockGrant node entry) s = .next ((s.modLock node entry (fun k => { seq := k.seq + 1, held := some c.fire.ctx, waiters := rest })).answer c f [(false, v), (true, v)])) ∧
  (∀ (s : State) (core id node : Nat) (c : Cmd) (f : Fields), (s.core core).cmd? id = some c → c.instr = .lockr f → s.syncMay c = true → c.aborted = false → s.covered c = true →
    s.tokenNode c.fire.ctx c.fire.l.value = some node →
    let e := (c.fire.l.value.extractLsb' 40 8).toNat
    let k := s.lock node e
    (k.held ≠ none → k.seq = c.fire.l.value.extractLsb' 0 32 + 1 →
      exec (.updateApply core id) s = .next ((s.modLock node e (fun k => { k with held := none })).answer c f [(false, Val.scalar 0 c.fire.l.round 7)])) ∧
    (k.held = none ∨ k.seq ≠ c.fire.l.value.extractLsb' 0 32 + 1 → exec (.updateApply core id) s = .next (s.failWith c f .lockState 0 0 0)))

/-- UPDATE_APPLY of a transaction barrier command at the barrier's own core, once its covered set is performed (R359 to R363, R374 to R376). TBINIT makes
an inactive barrier active in phase 0 with the arrivals and the STRICT bit of its scalar; TBEXP adds its sectors to PSEC; an arrival takes one from
PARR and sectors are taken from PSEC, and when none is left of either the next phase begins with ARST arrivals and the waiters of the old one are to
be released; TBWAIT for another phase answers at once, and for the phase in progress joins the waiters; TBINV ends the barrier. An inactive one raises
TB_INACTIVE, TBINIT of an active one TB_ACTIVE, an arrival beyond PARR TB_ARRIVAL. TB_WAITER_RELEASE sends the token of the first released waiter of a
pool to the two destinations of its TBWAIT and takes it out; TBWAIT_RETRY tries a TBWAIT that found the pool full again (R363, R376). -/
def Obligations.TransactionBarrierResults : Prop :=
  (∀ (s : State) (core id : Nat) (c : Cmd) (f : Fields) (v : View), (s.core core).cmd? id = some c → c.fire.core = core → c.phase = .covered → s.covered c = true →
     s.view c.fire.ctx c.fire.l.value true = .ok v → v.core = core →
     let off := v.tile.base + 16 * v.row0
     let b := s.txBar core off
     let active := off ∈ v.tile.bars
     let pass (x : Val) : Val := { x with prov := 7, round := c.fire.l.round, lin := Lineage.none }
     let l := pass c.fire.l
     let phase : Val := Val.scalar (BitVec.ofNat 64 b.phase) c.fire.l.round 7
     let next (x : TxBar) : State := if x.parr = 0 ∧ x.psec ≤ 0 then
         (s.setTxBar core off { x with phase := (x.phase + 1) % 16, parr := x.arst, wq := 0xFFFF }).modCore core (fun k => { k with
           waiters := k.waiters.map (fun w => if w.bar = off ∧ w.phase.toNat = x.phase then { w with released := true } else w) })
       else s.setTxBar core off x
     (c.instr = .tbinit f → active → exec (.updateApply core id) s = .next (s.failWith c f .tbActive 0 0 0)) ∧
     (c.instr = .tbinit f → ¬active → exec (.updateApply core id) s = .next (((s.setTxBar core off { phase := 0, parr := c.aux % 2 ^ 20, psec := 0, arst := c.aux % 2 ^ 20, act := true, ovr := false, strict := c.aux.testBit 20, owner := (s.core core).vcore.toNat, wq := 0xFFFF }).modTile core v.index (fun t => { t with bars := t.bars ++ [off] })).answer c f [(false, l), (true, l)])) ∧
     (∀ i ∈ [Instr.tbexp f, .tbwait f, .tbinv f], c.instr = i → ¬active → exec (.updateApply core id) s = .next (s.failWith c f .tbInactive 0 0 0)) ∧
     (active →
       (c.instr = .tbexp f → b.psec + c.aux < 2 ^ 31 → exec (.updateApply core id) s = .next ((s.setTxBar core off { b with psec := b.psec + c.aux }).answer c f [(false, phase), (true, l)])) ∧
       (c.instr = .tbarrArr f → b.parr ≠ 0 → exec (.updateApply core id) s = .next ((next { b with parr := b.parr - 1 }).answer c f [(false, phase), (true, l)])) ∧
       (c.instr = .tbarrArr f → b.parr = 0 → exec (.updateApply core id) s = .next (s.failWith c f .tbArrival c.fire.l.value.toNat 0 0)) ∧
       (∀ r, c.fire.r = some r → c.aux ≤ b.psec →
         (c.instr = .tbarrTx f → exec (.updateApply core id) s = .next ((next { b with psec := b.psec - c.aux }).answer c f [(false, phase), (true, pass r)])) ∧
         (c.instr = .tbarrArrtx f → b.parr ≠ 0 →
           exec (.updateApply core id) s = .next ((next { b with parr := b.parr - 1, psec := b.psec - c.aux }).answer c f [(false, phase), (true, pass r)]))) ∧
       (c.instr = .tbwait f → b.phase ≠ c.aux → exec (.updateApply core id) s = .next (s.answer c f [(false, l), (true, l)])) ∧
       (c.instr = .tbwait f → b.phase = c.aux → (s.core core).waiters.length < 1024 → (∃ w ∈ (s.core core).waiters, w.bar = off ∧ w.released = false) →
         ∃ w : Waiter, w.bar = off ∧ w.phase = BitVec.ofNat 4 b.phase ∧ w.released = false ∧ w.fire = c.fire ∧ w.d0 = f.d0 ∧ w.d1 = f.d1 ∧
           exec (.updateApply core id) s = .next ((s.finish c true).modCore core (fun k => { k with waiters := k.waiters ++ [w] }))) ∧
       (c.instr = .tbinv f → exec (.updateApply core id) s = .next ((s.tbInvalidate core v.index off).answer c f [(false, l), (true, l)])))) ∧
  (∀ (s : State) (core : Nat),
     (∀ w rest, takeReleased (s.core core).waiters = some (w, rest) → w.fire.obj ∉ (s.core w.fire.core).quar →
       exec (.tbWaiterRelease core) s = .next ((s.modCore core (fun k => { k with waiters := rest })).emitBoth w.fire (Fields.ofDests w.d0 w.d1)
         { w.fire.l with prov := 7, lin := Lineage.none })) ∧
     (∀ id c f v, (s.core core).cmd? id = some c → c.instr = .tbwait f → c.phase = .queued → s.covered c = true → c.fire.core = core →
       s.view c.fire.ctx c.fire.l.value true = .ok v → v.core = core → v.tile.base + 16 * v.row0 ∈ v.tile.bars → (s.txBar core (v.tile.base + 16 * v.row0)).phase ≠ c.aux →
       let h : Val := { c.fire.l with prov := 7, lin := Lineage.none }
       exec (.tbwaitRetry core id) s = .next (s.answer c f [(false, h), (true, h)])))

/-- BAR_ARRIVAL and COLL_ARRIVAL of a command whose covered set is performed, at a channel of its scope instance (R364 to R366, R377, R383): another N or
operator than the arrivals before it, or for COLL a rank that has arrived, is BAR_MISMATCH or COLL_MISMATCH; the arrival that does not make N waits in
the channel, with its row for COLL; and the last one ends the generation, which empties the channel and answers every arrival with its own L. The row
that every participant of COLL gets then is that of rank 0 for BCAST, for one participant its own, and for two of an integer type under SUM the
wrapped sums of their elements, under OR and AND the bits of the two. -/
def Obligations.ScopedBarrierResults : Prop :=
  ∀ (s : State) (core id : Nat) (c : Cmd) (f : Fields), (s.core core).cmd? id = some c → c.fire.core = core → c.id = id → c.phase = .covered → s.covered c = true →
    let n := f.imm.toNat / 16 % 2 ^ 20
    let chan := f.imm.toNat % 16
    let h (c : Cmd) : Val := { c.fire.l with prov := 7, lin := Lineage.none }
    let waits (u : State) : State := u.modCmd core id (fun c => { c with phase := .channel })
    (∀ inst ctx, c.instr = .bar f → s.instanceOf c f false = some (inst, ctx) →
      let key (x : ScopeChan) : Bool := x.inst == inst && x.ctx == ctx && x.coll == false && x.chan == chan
      let others := s.chans.filter (fun y => !key y)
      (∀ o, s.chans.find? key = some o →
        (o.n ≠ n ∨ o.sig ≠ 0 → exec (.barArrival core id) s = .next (s.failWith c f .barMismatch 0 0 0)) ∧
        (o.n = n → o.sig = 0 →
          (o.arrivals.length + 1 < n → exec (.barArrival core id) s = .next (waits { s with chans := others ++ [{ o with arrivals := o.arrivals ++ [(core, id, 0, [])] }] })) ∧
          (o.arrivals.length + 1 = n → exec (.barArrival core id) s = .next ((o.arrivals ++ [(core, id, 0, [])]).foldl (fun t a =>
            t.endArrival a none (fun t d x => t.answer d x [(false, h d), (true, h d)])) { s with chans := others })))) ∧
      (s.chans.find? key = none →
        (n = 1 → exec (.barArrival core id) s = .next ({ s with chans := others }.answer c f [(false, h c), (true, h c)])) ∧
        (n ≠ 1 → exec (.barArrival core id) s = .next (waits { s with chans := others ++
          [{ inst := inst, ctx := ctx, coll := false, chan := chan, n := n, sig := 0, arrivals := [(core, id, 0, [])] }] })))) ∧
    (∀ inst ctx v r, c.instr = .coll f → s.instanceOf c f true = some (inst, ctx) → s.view c.fire.ctx c.fire.l.value true = .ok v → c.fire.r = some r →
      let key (x : ScopeChan) : Bool := x.inst == inst && x.ctx == ctx && x.coll && x.chan == chan
      let others := s.chans.filter (fun y => !key y)
      let rank := r.value.toNat
      let mine := packRow f.ty (s.viewRow v 0)
      let row (bs : List Byte) : List Nat := unpackRow f.ty v.tile.cols bs
      let ends (arrivals : List (Nat × Nat × Nat × List Byte)) (out : List Nat) : State := arrivals.foldl (fun t a => t.endArrival a (some (out, 0)) (fun t d x =>
        (match t.collView d with
          | some w => t.setViewRow w 0 out
          | none => t).answer d x [(false, h d), (true, h d)])) { s with chans := others }
      (s.chans.find? key = none →
        (n = 1 → rank = 0 → exec (.collArrival core id) s = .next (({ s with chans := others }.setViewRow v 0 (row mine)).answer c f [(false, h c), (true, h c)])) ∧
        (n ≠ 1 → exec (.collArrival core id) s = .next (waits { s with chans := others ++
          [{ inst := inst, ctx := ctx, coll := true, chan := chan, n := n, sig := collSig f v.tile.cols, arrivals := [(core, id, rank, mine)] }] }))) ∧
      (∀ o, s.chans.find? key = some o →
        (o.n ≠ n ∨ o.sig ≠ collSig f v.tile.cols ∨ (∃ a ∈ o.arrivals, a.2.2.1 = rank) → exec (.collArrival core id) s = .next (s.failWith c f .collMismatch 0 0 0)) ∧
        (o.n = n → o.sig = collSig f v.tile.cols → (∀ a ∈ o.arrivals, a.2.2.1 ≠ rank) →
          let all := o.arrivals ++ [(core, id, rank, mine)]
          (o.arrivals.length + 1 < n → exec (.collArrival core id) s = .next (waits { s with chans := others ++ [{ o with arrivals := all }] })) ∧
          (∀ core0 id0 bs, o.arrivals.length + 1 = n → f.fn = 5 → all.find? (fun a => a.2.2.1 == 0) = some (core0, id0, 0, bs) →
            exec (.collArrival core id) s = .next (ends all (row bs))) ∧
          (∀ core0 id0 rank0 bs, n = 2 → o.arrivals = [(core0, id0, rank0, bs)] → rank0 + rank = 1 → tyFloat f.ty = false → f.sat = false →
            let w := tyWidth f.ty
            ∀ (fn : Nat) (e : Int → Int → Int → Prop), (fn, e) ∈ [(0, fun x y z => z % 2 ^ w = (x + y) % 2 ^ w),
                (3, fun x y z => z.toNat = (x % 2 ^ w).toNat ||| (y % 2 ^ w).toNat), (4, fun x y z => z.toNat = (x % 2 ^ w).toNat &&& (y % 2 ^ w).toNat)] → f.fn.toNat = fn →
              ∃ out : List Nat, out.length = v.tile.cols ∧ (∀ j, j < v.tile.cols → e ((row bs)[j]?.getD 0) ((row mine)[j]?.getD 0) (out[j]?.getD 0)) ∧
                exec (.collArrival core id) s = .next (ends all out)))))

/-- TOKEN_SERVE of a token from a source, for a resident frame of an object that is not quarantined, with its instruction's word on a resident page, and
nothing waiting before it (R37, R38, R42, R43, R182): a monadic instruction is ready at once with L; a dyadic one parks it in an empty slot, and fires
with a token of the other port and the same round parked there, which empties the slot, or with a sticky one, taken at the token's round, which stays
(R187); two tokens of one port are
MATCH_DUP and of two rounds ROUND_SKEW; AR 10 without a sticky value is STICKY_ABSENT. A slot beyond the frame is SLOT_RANGE, a token for no frame is
counted as stale. Ready entries join the end of the class min(3, PRI + CLASS) of their slot. -/
def Obligations.TokenMatching : Prop :=
  ∀ (s : State) (core src ctx : Nat) (m : Mail) (rest : List Mail) (t : Token) (fr : Frame) (w : U128) (opc : Nat) (f : Fields),
    (s.core core).ctx = some ctx → src < 60000 → takeFrom src (s.core core).inbox = some (m, rest) → m.msg = .token t false → (s.core core).blocked = [] →
    (s.core core).dispatchQ = [] →
    let a : State := s.modCore core (fun k => { k with inbox := rest })
    ((s.core core).frame? t.fp = none → (s.core core).spilled? t.fp = none →
      exec (.tokenServe core src) s = .next (a.modCtx ctx (fun c => { c with stalecnt := c.stalecnt + 1 }))) ∧
    ((s.core core).frame? t.fp = some fr → fr.obj ∉ (s.core core).quar → t.ip.toNat < s.ninstr ctx fr.obj → (s.core core).wordAt ctx fr.obj t.ip = some w →
      wordForm w = some (opc, f) → opc ≠ 0x13 → (s.core core).light.length + (s.core core).engine.length < 1024 →
      let n := f.slot.toNat
      let g : Firing := { core := core, fp := t.fp, ip := t.ip, ctx := ctx, obj := fr.obj, task := fr.task, port := t.port, l := t.val, r := none, t := none, replay := none, word := some w, recorded := false }
      let slot (x : Slot) (u : State) : State := u.modCore core (fun k => k.modFrame t.fp (fun y => y.setSlot n x))
      let served (u : State) : State := u.modCore core (fun k => (k.modFrame t.fp (fun y => { y with stamp := u.clock })).count 2)
      let ready (g : Firing) (u : State) : State := u.modCore core (fun k =>
        let cls := min 3 (f.pri.toNat + (s.ctx ctx).cls)
        if opc < 0x50 ∨ (0xC0 ≤ opc ∧ opc < 0xD0) then { k with light := k.light ++ [(cls, g)] } else { k with engine := k.engine ++ [(cls, g)] })
      let pair (v : Val) : Firing := if t.port then { g with l := v, r := some t.val } else { g with r := some v }
      (f.ar = .monadic → exec (.tokenServe core src) s = .next (served (ready g (a.modCore core (fun k => k.modFrame t.fp (fun y => y)))))) ∧
      (f.ar ≠ .monadic → 2 ^ (fr.cls + 4) ≤ n → exec (.tokenServe core src) s = .next (served (a.fault g f .slotRange 0))) ∧
      (f.ar = .dyadic → n < 2 ^ (fr.cls + 4) →
        (fr.slot n = .empty → exec (.tokenServe core src) s = .next (served (slot (.parked t.port t.val) a))) ∧
        (∀ p v, fr.slot n = .sticky p v →
          exec (.tokenServe core src) s = .next (served (ready (pair { v with round := t.val.round }) (slot (.sticky p v) a)))) ∧
        (∀ p v, fr.slot n = .parked p v →
          (p = t.port → exec (.tokenServe core src) s = .next (served ((slot (.parked p v) a).fault g f .matchDup 0))) ∧
          (p ≠ t.port → v.round ≠ t.val.round → exec (.tokenServe core src) s = .next (served ((slot (.parked p v) a).fault g f .roundSkew 0))) ∧
          (p ≠ t.port → v.round = t.val.round → v.kind ≠ .fault → t.val.kind ≠ .fault → v.kind ≠ .marker → t.val.kind ≠ .marker →
            exec (.tokenServe core src) s = .next (served (ready (pair v) (slot .empty a)))))) ∧
      (f.ar = .sticky → n < 2 ^ (fr.cls + 4) →
        (∀ p v, fr.slot n = .sticky p v →
          exec (.tokenServe core src) s = .next (served (ready (pair { v with round := t.val.round }) (slot (.sticky p v) a)))) ∧
        ((∀ p v, fr.slot n ≠ .sticky p v) → exec (.tokenServe core src) s = .next (served ((slot (fr.slot n) a).fault g f .stickyAbsent 0)))))

/-- LIGHT_DISPATCH and ENGINE_DISPATCH on a core that is not stopped, in an active context, with no operator in execution (R182 to R184). The light slot
takes the first entry of the highest class that holds one; the engine slot the first entry, from the highest class down, whose unit accepts it, past
entries for other units that do not; either counts in its PERF counter, leaves every other entry in place and touches no other core. After 64
dispatches from one class while a lower one waits, DISPATCH_TURN makes a lower class due, before which the slot dispatches nothing, and the dispatch
that follows comes from the highest class below. DIVIDER_EMIT sends the oldest result of a divider and sets its flags (R217). -/
def Obligations.DispatchResults : Prop :=
  ∀ (s : State) (core ctx c : Nat) (g : Firing) (pre post : List (Nat × Firing)), s.cur = none → (s.core core).stopped = false →
    (s.core core).ctx = some ctx → (s.ctx ctx).phase = .active → c ≤ 3 →
    let k := s.core core
    let went (i : Instr) (light engine : List (Nat × Firing)) (n : Nat) : Prop := ∃ u : State, exec i s = .next u ∧ u.cur = some g ∧
      (u.core core).light = light ∧ (u.core core).engine = engine ∧ (u.core core).frames = k.frames ∧ (u.core core).inbox = k.inbox ∧
      Table.look 0 (u.core core).perf n = Table.look 0 k.perf n + 1 ∧ (∀ x, x ≠ core → u.core x = s.core x) ∧ u.hbm = s.hbm ∧ u.vault = s.vault
    let able (e : Nat × Firing) : Prop := ∃ opc f, s.formOf e.2 = some (opc, f) ∧ k.accepts e.2 opc f = true
    (k.light = pre ++ (c, g) :: post → (∀ e ∈ pre, e.1 ≠ c) →
      (k.lightTurn < 64 → k.lightDue = false → (∀ e ∈ pre ++ post, e.1 ≤ c) → went (.lightDispatch core) (pre ++ post) k.engine 0) ∧
      (k.lightDue = true → c < k.lightLast → (∀ e ∈ pre ++ post, e.1 < k.lightLast → e.1 ≤ c) → went (.lightDispatch core) (pre ++ post) k.engine 0) ∧
      (64 ≤ k.lightTurn → k.lightDue = false → c < k.lightLast → exec (.lightDispatch core) s = .next s ∧
        exec (.dispatchTurn core false) s = .next (s.modCore core (fun k => { k with lightDue := true })))) ∧
    (∀ opc f w, k.engine = pre ++ (c, g) :: post → s.formOf g = some (opc, f) → g.word = some w → k.accepts g opc f = true → k.engTurn < 64 → k.engDue = false →
      (∀ e ∈ pre ++ post, e.1 ≤ 3 ∧ (c < e.1 → ¬able e)) → (∀ e ∈ pre, e.1 = c → ¬able e ∧ ∀ o h, s.formOf e.2 = some (o, h) → unitOf o h ≠ unitOf opc f) →
      s.recording? core g.task = none → (∀ fr, s.frameOf g = some fr → fr.probe = false) → went (.engineDispatch core) k.light (pre ++ post) 1) ∧
    (∀ d rest, k.divider = d :: rest → exec (.dividerEmit core) s = .next
      (((s.modCore core (fun k => { k with divider := rest })).setFlags d.fire.ctx d.flags).emitBoth d.fire (Fields.ofDests d.d0 d.d1) d.val))

/-- The frame store (R37, R39, R40, R46 to R49, R192). RELEASE_MESSAGE takes one from LIVE of the parent and, at the last one of a frame that waits to be
freed, frees it next; DEFERRED_FREE of such a frame ends it, so that its pointer names nothing and the generation of its units advances. FRAME_SPILL,
for an allocation with no free block, writes the spillable frame served least recently to the lowest free directory entry and records of the
backing area, and the allocation is made once a block is free; FRAME_FILL reads a frame that messages wait for back from its records to its own units,
whose generation is its own again, and the messages into the dispatch queue. Where the backing area has no room, or its pages cannot be accessed, the core's frame port parks with
FRAME_SPILL. -/
def Obligations.FrameStoreResults : Prop :=
  ∀ (s : State) (core ctx : Nat), (s.core core).ctx = some ctx →
    let k := s.core core
    (∀ src m rest fp fr, src < 60000 → takeFrom src k.inbox = some (m, rest) → m.msg = .release fp → k.blocked = [] → k.dispatchQ = [] → k.frame? fp = some fr →
      s.fpCore ctx fp = some core → fr.live ≠ 0 → ∃ u : State, exec (.releaseMessage core src) s = .next u ∧
        (u.core core).frame? fp = some { fr with live := fr.live - 1 } ∧ (u.core core).inbox = rest ∧ u.hbm = s.hbm ∧
        u.due = if fr.freepend = true ∧ fr.live = 1 then s.due ++ [.deferredFree core fp] else s.due) ∧
    (∀ fp fr, k.frame? fp = some fr →
      (fr.freepend = true → fr.live = 0 → ∃ u : State, exec (.deferredFree core fp) s = .next u ∧ (u.core core).frame? fp = none ∧
        (u.core core).unitGen = Table.put k.unitGen fr.base (fr.gen + 1) ∧ (∀ f ∈ (u.core core).frames, f ∈ k.frames ∧ (f.base ≠ fr.base ∨ f.gen ≠ fr.gen))) ∧
      (fr.freepend = false ∨ fr.live ≠ 0 → exec (.deferredFree core fp) s = .next s)) ∧
    (∀ a rest fr, k.framePark = none → s.nextAlloc core k.allocs = some (a, rest) →
      (s.modCore core (fun k => { k with allocs := rest })).tryAlloc core a = none → s.fits a k = false →
      oldest (k.frames.filter (fun f => s.spillable core f)) = some fr →
      let c := s.ctx ctx
      let used := k.spillDir.flatMap Spilled.recs
      let units := classUnits fr.cls
      let recs := ((List.range (min c.spillRecords (used.length + units))).filter (fun r => !used.contains r)).take units
      let ranges (d : Nat) := c.recordRanges k.vcore.toNat d recs
      let put (d : Nat) : State :=
        let e : Spilled := { fp := fr.fp k.vcore, dir := d, recs := recs, frame := fr }
        (((ranges d).zip (e.bytes :: (List.range units).map fr.unitRecord)).foldl (fun (t : State) w => t.ctxPut ctx w.1.1 w.2) (s.setCore core (Core.count
          { k with frames := k.frames.filter (fun f => !(f.base == fr.base && f.gen == fr.gen)), unitGen := Table.put k.unitGen fr.base (fr.gen + 1), spillDir := k.spillDir ++ [e] } 3)))
      let lowest (d : Nat) : Prop := (∀ e ∈ k.spillDir, e.dir ≠ d) ∧ ∀ x, x < d → ∃ e ∈ k.spillDir, e.dir = x
      (∀ d u, d < 4096 → lowest d → recs.length = units → c.fbasz ≠ 0 → s.backingFault c (ranges d) .write = none → s.fits a ((put d).core core) = true →
        ((put d).modCore core (fun k => { k with allocs := rest })).tryAlloc core a = some u → exec (.frameSpill core) s = .next u) ∧
      (recs.length < units ∨ (∀ d, d < 4096 → ∃ e ∈ k.spillDir, e.dir = d) ∨ c.fbasz = 0 ∨ (∃ d, d < 4096 ∧ lowest d ∧ s.backingFault c (ranges d) .write ≠ none) →
        exec (.frameSpill core) s = .next (s.framePort core (fr.fp k.vcore) fr.obj))) ∧
    (∀ fp e, k.spilled? fp = some e → k.framePark = none → (∃ x ∈ k.fillQueue, x.1 = fp) → takeFree fp k.fillQueue = none →
      e.frame.freepend = false ∨ e.frame.live ≠ 0 →
      let b := (e.frame.base, classUnits e.frame.cls)
      let ranges := ((s.ctx ctx).recordRanges k.vcore.toNat 0 e.recs).drop 1
      (∀ f ∈ k.frames, blocksMeet (f.base, classUnits f.cls) b = false) → k.armOn b = none →
      (s.backingFault (s.ctx ctx) ranges .read = none → exec (.frameFill core fp) s = .next (s.setCore core (Core.count { k with frames := k.frames ++ [{ e.frame.ofRecords (ranges.map (s.record core (s.ctx ctx))) with stamp := s.clock }], spillDir := k.spillDir.filter (fun x => x.fp != fp), unitGen := Table.put k.unitGen e.frame.base e.frame.gen, fillQueue := k.fillQueue.filter (fun x => x.1 != fp), dispatchQ := k.dispatchQ ++ (k.fillQueue.filter (fun x => x.1 == fp)).map Prod.snd } 4))) ∧
      (s.backingFault (s.ctx ctx) ranges .read ≠ none → exec (.frameFill core fp) s = .next (s.framePort core fp e.frame.obj)))

/-- LAUNCH, QPUSH, QPRIO, QINFO and QBIND on scalars, and CTXINFO on any plain token. LAUNCH and QPUSH at a queue of the context write the record of eight
sticky slots to the ring's place of TAIL, advance TAIL modulo 2^16 and emit the place; LAUNCH's record has HOSTC 0 and CONT naming dest1, whose frame
counts one more in LIVE; at a full queue the push waits (R117). QPRIO writes PRIO and EFF and emits the old PRIO; QINFO emits what FN names; QBIND
makes a queue resident or not, for a supervisor only, and emits 0, 1 or 2 (R120 to R123). A queue number above 4095, or a queue of another context, is
a fault. RANGE and RGIVE in a range worker's frame. RANGE takes the next grain of the worker's share: it emits its first iteration to dest0 and its
end to dest1, and the share starts there; of an empty share, or of none, it emits nulls (R118). RGIVE of a non-empty rest of the last grain makes it a
new unowned share, or gives it back to the worker's own share where all 256 are in use, and emits its length, after which no rest of that grain is
left to give (the model's choice, log 122); another rest, or a worker with no share, is RANGE_RETURN (R119). In a frame that is no worker RANGE raises
NOT_RANGE. -/
def Obligations.QueueOperatorResults : Prop :=
  (∀ (s : State) (g : Firing) (f : Fields), s.cur = some g →
     let t : State := s.retire
     let q := g.l.value.toNat
     let num : Nat := (g.r.map (fun v => v.value.toNat)).getD f.imm.toNat
     let out (u : State) (x : Nat) : State := u.emit g f false (Val.scalar (BitVec.ofNat 64 x) g.l.round 14)
     let pushed (u : State) (d : QDesc) (bs : List Byte) : State :=
       let v := u.ctxPut d.ctx (d.ring + 64 * (d.tail % 2 ^ d.rlog)) bs
       let w := match v.resident? q with
         | some (k, n, _) => v.modSlot k n (fun r => { r with tail := (d.tail + 1) % 65536 })
         | none => v.ctxPut 0 (v.qaddr q + 18) (natLe 2 ((d.tail + 1) % 65536))
       { w with pushers := Table.put w.pushers (q * 65536 + d.tail) g.core }
     (g.plain → exec (.ctxinfo f) s = .next (out t (t.ctxinfo f.fn.toNat g))) ∧
     (g.scalars →
       (∀ e, t.ownQueue g.ctx g.l.value = .error e → ∀ i ∈ [Instr.launch f, .qpush f, .qprio f, .qinfo f], exec i s = .next (t.fault g f e q)) ∧
       (4096 ≤ q → t.ownQueue g.ctx g.l.value = .error .queueRange) ∧
       (∀ d, t.ownQueue g.ctx g.l.value = .ok d →
         exec (.qinfo f) s = .next (out t (match f.fn.toNat with
           | 0 => (d.tail + 65536 - d.head) % 65536
           | 1 => d.prio + 256 * (match t.resident? q with
             | some (_, _, r) => r.eff
             | none => d.prio)
           | 2 => match t.resident? q with
             | some (k, n, _) => 16 * k + n
             | none => 2 ^ 64 - 1
           | _ => d.ovf)) ∧
         (7 < num → exec (.qprio f) s = .next (t.fault g f .operandRange 0)) ∧
         (num ≤ 7 → exec (.qprio f) s = .next (out (
           let u := t.ctxPut 0 (t.qaddr q + 2) (natLe 1 num)
           match u.resident? q with
           | some (k, n, _) => u.modSlot k n (fun x => { x with prio := num, eff := num, passed := 0 })
           | none => u) d.prio)) ∧
         (∀ ws, t.recSlots g f.slot.toNat = .ok ws →
           (recMalformed ws (s.ctx g.ctx).hcwlen.toNat = true → exec (.qpush f) s = .next (t.fault g f .taskMalformed 0)) ∧
           (recMalformed ws (s.ctx g.ctx).hcwlen.toNat = false →
             (d.full = false → (∀ c ∈ (s.core g.core).cmds, c.engine = .launch → c.phase = .queued → c.fire.l.value ≠ g.l.value) →
               exec (.qpush f) s = .next (out (pushed t d (recBytes ws)) d.tail)) ∧
             (d.full = true → exec (.qpush f) s = .next (t.accept f { Cmd.start 0 g (.qpush f) .launch with phase := .queued, data := recBytes ws }).1)) ∧
           (∀ fp, t.destFp g f.d1 = some fp →
             let ws' := ((ws[0]?.getD 0) &&& 0xBFFFFFFFFFFFFFFF) :: (fp ++ f.d1.ip ++ bit1 f.d1.port ++ ((ws[1]?.getD 0).extractLsb' 0 11)) :: ws.drop 2
             recMalformed ws' (s.ctx g.ctx).hcwlen.toNat = false →
             (d.full = false → (∀ c ∈ (s.core g.core).cmds, c.engine = .launch → c.phase = .queued → c.fire.l.value ≠ g.l.value) →
               exec (.launch f) s = .next (out (pushed (t.liveInc g.ctx fp) d (recBytes ws')) d.tail)) ∧
             (d.full = true → exec (.launch f) s = .next
               ((t.liveInc g.ctx fp).accept f { Cmd.start 0 g (.launch f) .launch with phase := .queued, data := recBytes ws' }).1)))) ∧
       ((s.ctx g.ctx).sup = false → ∀ i ∈ [Instr.qbindBind f, .qbindUnbind f], exec i s = .next (t.fault g f .privilege 0)) ∧
       ((s.ctx g.ctx).sup = true → q < 4096 →
         (∀ d, num < 256 → t.qdesc q = some d →
           (∀ x, t.resident? q = some x → exec (.qbindBind f) s = .next (out t 2)) ∧
           (t.resident? q = none → Table.find (s.stack (num / 16)).slots (num % 16) ≠ none → exec (.qbindBind f) s = .next (out t 1)) ∧
           (t.resident? q = none → Table.find (s.stack (num / 16)).slots (num % 16) = none →
             exec (.qbindBind f) s = .next (out (t.modStack (num / 16) (fun k => { k with
               slots := Table.put k.slots (num % 16) { queue := q, prio := d.prio, eff := d.prio, passed := 0, head := d.head, tail := d.tail, ovf := d.ovf }
               rrp := (List.range 8).map (fun p => (p, num % 16)) })) 0))) ∧
         (t.resident? q = none → exec (.qbindUnbind f) s = .next (out t 2)) ∧
         (∀ k n r, t.resident? q = some (k, n, r) → exec (.qbindUnbind f) s = .next (out ((((t.qwrite q 16 2 r.head).qwrite q 18 2 r.tail).qwrite q 20 4 r.ovf).modStack
           k (fun x => { x with slots := Table.del x.slots n })) 0))))) ∧
  (∀ (s : State) (g : Firing) (f : Fields) (fr : Frame), s.cur = some g → s.retire.frameOf g = some fr →
     let t : State := s.retire
     let out (x : Nat) : Val := Val.scalar (BitVec.ofNat 64 x) g.l.round 14
     (g.plain → (fr.worker = none → exec (.range f) s = .next (t.fault g f .notRange 0)) ∧
       (fr.worker ≠ none → t.ownedShare g.core g.fp = none → exec (.range f) s = .next (t.emitBoth g f (Val.null g.l.round 14))) ∧
       (∀ n x, fr.worker ≠ none → t.ownedShare g.core g.fp = some (n, x) →
         (x.hi ≤ x.lo → exec (.range f) s = .next (t.emitBoth g f (Val.null g.l.round 14))) ∧
         (x.lo < x.hi →
           let hi := min (x.lo + x.grain) x.hi
           exec (.range f) s = .next (((((t.modShare n (fun x => some { x with lo := hi })).modFrameOf g (fun fr => { fr with worker := some (n, x.lo, hi) })).emit
             g f false (out x.lo)).emit g f true (out hi)))))) ∧
     (g.scalars → t.ownedShare g.core g.fp = none → exec (.rgive f) s = .next (t.fault g f .rangeReturn 0)) ∧
     (g.scalars → ∀ r n a b, g.r = some r → fr.worker = some (n, a, b) →
       let lo := g.l.value.toNat
       let hi := r.value.toNat
       (hi ≤ lo ∨ lo < a ∨ hi ≠ b → exec (.rgive f) s = .next (t.fault g f .rangeReturn 0)) ∧
       (lo < hi → a ≤ lo → hi = b → ∀ m x, t.ownedShare g.core g.fp = some (m, x) →
         let u := t.modFrameOf g (fun fr => { fr with worker := some (n, lo, lo) })
         (∀ j, Table.lowestFree (s.stack (n / 2 ^ 20)).shares 256 = some j →
           exec (.rgive f) s = .next ((u.setShare (n / 2 ^ 20) j { task := g.task, grain := x.grain, lo := lo, hi := hi, owner := none, ready := true }).emit
             g f false (out (hi - lo)))) ∧
         (Table.lowestFree (s.stack (n / 2 ^ 20)).shares 256 = none →
           exec (.rgive f) s = .next ((u.modShare m (fun x => some { x with lo := lo })).emit g f false (out (hi - lo)))))))

/-- DISTRIBUTOR_SELECT takes, among the resident queues of active contexts that hold a record, the first of the highest EFF after the slot that this
priority chose last, cyclically: the record leaves its ring, EFF is PRIO again, and a task is made of the record, with the EFF of that moment (R107,
R108); a range record stays where a distributor of its parts has no room for another share (R113); a malformed host record makes no task (R106). PRIORITY_AGING raises EFF of a queue passed over 1024 times by one, to 7 at most. HOST_PUSH of 64
bytes at the start of a queue's push window appends the record, counts OVF where the write has another form or the queue is full, and does nothing for
another function (R104, R473); PUSH_PORT_RELEASE appends a push that waits once there is room (R117). Binding and range tasks. BIND resolves the first
packet of a distributor: a worker's packet binds on its core, and for a record that its object accepts allocates a root frame there (R109); a record
that its object does not accept ends the task with TASK_MALFORMED. ASK_FOR_WORK queues an idle core that holds no worker of the task, ASK_SERVE hands
it an unowned share whole, or else half the grains, rounded up staying, of the largest splittable one (R114). PART_REPORT and RANGE_TASK_COMPLETE end
a range task, with HI − LO or the first fault (R115, R467); TASK_COMPLETION sends an ended task's value to its continuation once its frames are gone
and its work is done (R464). FREE_SLOT_REPORT tells the chooser the free slots (R168). -/
def Obligations.DistributorResults : Prop :=
  (∀ (s : State),
     (∀ stack slot r d bs, (s.stack stack).slots.Pairwise (fun a b => a.1 < b.1) → (slot, r) ∈ s.candidates stack →
       let last := Table.look 0 (s.stack stack).rrp r.eff
       (∀ e ∈ s.candidates stack, e.2.eff ≤ r.eff ∧ (e.2.eff = r.eff → (last < slot ∧ (e.1 ≤ last ∨ slot ≤ e.1)) ∨ (e.1 ≤ last ∧ slot ≤ e.1))) →
       s.qdesc r.queue = some d → s.ctxRead d.ctx stack (d.ring + 64 * (r.head % 2 ^ d.rlog)) 64 = .ok bs →
       let bad : Prop := recMalformed (recWords bs) (s.ctx d.ctx).hcwlen.toNat = true ∧ Table.find s.pushers (r.queue * 65536 + r.head) = none
       (¬bad → s.partsFit d.ctx (Rec.of (recWords bs)) = false → exec (.distributorSelect stack) s = .next s) ∧
       (bad ∨ s.partsFit d.ctx (Rec.of (recWords bs)) = true → ∃ u : State, exec (.distributorSelect stack) s = .next u ∧
         Table.find (u.stack stack).slots slot = some { r with head := (r.head + 1) % 65536, eff := r.prio, passed := 0 } ∧
         Table.look 0 (u.stack stack).rrp r.eff = slot ∧
         (recMalformed (recWords bs) (s.ctx d.ctx).hcwlen.toNat = true → Table.find s.pushers (r.queue * 65536 + r.head) = none → u.tasks = s.tasks) ∧
         (recMalformed (recWords bs) (s.ctx d.ctx).hcwlen.toNat = false → (Rec.of (recWords bs)).rng = false →
           let w := recWords bs
           ∃ t : Task, u.task? s.ids = some t ∧ t.ctx = d.ctx ∧ t.prio = r.eff ∧ t.obj = (w[0]?.getD 0).extractLsb' 0 32 ∧ t.entry = (w[0]?.getD 0).extractLsb' 32 20 ∧
             t.bound = false ∧ t.range = none ∧ (u.stack stack).binds = (s.stack stack).binds ++ [{ task := s.ids, share := none, issuer := Table.find s.pushers (r.queue * 65536 + r.head), quad := none }]))) ∧
     (∀ stack slot r, Table.find (s.stack stack).slots slot = some r → ∃ u : State, exec (.priorityAging stack slot) s = .next u ∧
       Table.find (u.stack stack).slots slot = some (if 1024 ≤ r.passed then { r with eff := min 7 (r.eff + 1), passed := 0 } else r)) ∧
     (∀ func q off data d, q < 4096 → s.queue q = some d →
       (func ≠ s.functionOf d.ctx ∨ 0x40 ≤ off → exec (.hostPush func q off data) s = .next s) ∧
       (func = s.functionOf d.ctx → off < 0x40 → off ≠ 0 ∨ data.length ≠ 64 → exec (.hostPush func q off data) s = .next (s.overflow q d)) ∧
       (func = s.functionOf d.ctx → data.length = 64 →
         (d.depth = 2 ^ d.rlog → exec (.hostPush func q 0 data) s = .next ((s.overflow q d).event (s.homeStack d.ctx) 2 d.ctx 0 (BitVec.ofNat 32 q))) ∧
         (d.depth ≠ 2 ^ d.rlog → exec (.hostPush func q 0 data) s = .next (s.append q d data none).1))) ∧
     (∀ core id c f d, (s.core core).cmd? id = some c → c.id = id → c.engine = .launch → c.phase = .queued → (c.instr = .launch f ∨ c.instr = .qpush f) →
       s.queue c.fire.l.value.toNat = some d →
       (d.depth = 2 ^ d.rlog → exec (.pushPortRelease core id) s = .next s) ∧
       (d.depth ≠ 2 ^ d.rlog → (∀ x ∈ (s.core core).cmds, x.id < id → x.engine ≠ .launch) → exec (.pushPortRelease core id) s = .next
         ((s.append c.fire.l.value.toNat d c.data (some core)).1.answer c f [(false, Val.scalar (BitVec.ofNat 64 d.tail) c.fire.l.round 14)])))) ∧
  (∀ (s : State),
     (∀ stack p rest t n core, s.nextPacket (s.stack stack).binds = some (p, rest) → s.task? p.task = some t → p.share = some (n, core) → core ≠ 4096 → t.tmode = 0 →
       p.issuer = none →
       let u : State := s.modStack stack (fun k => { k with binds := rest })
       ∀ low, ((s.ctx t.ctx).cores stack).head? = some low → (u.part (coreStack core) t.ctx).state t.obj = .enabled → ∀ o, u.objOn core t.ctx t.obj = .usable o →
         (o.binds t = true → exec (.bind stack) s = .next (u.allocate core (.bind t.id (some n) (u.vcoreOf low.2)))) ∧
         (o.binds t = false → exec (.bind stack) s = .next (u.taskFault t core .taskMalformed))) ∧
     (∀ core task t, s.task? task = some t → t.range ≠ none → (s.core core).ctx = some t.ctx → (s.core core).hasWorker task = false → (∃ p ∈ t.parts, p.2 = false) →
       (∀ e ∈ (s.core core).light ++ (s.core core).engine, e.2.ctx ≠ t.ctx) → (core, task) ∉ (s.stack (coreStack core)).asks →
       exec (.askForWork core task) s = .next (s.modStack (coreStack core) (fun k => { k with asks := k.asks ++ [(core, task)] }))) ∧
     (∀ stack core task, (s.stack stack).asks = [(core, task)] →
       let k := s.stack stack
       let bind (t n : Nat) (k : Stack) : Stack := { k with
         binds := k.binds ++ [{ task := t, share := some (stack * 2 ^ 20 + n, core), issuer := none, quad := none }]
         asks := [] }
       (∀ n x, largestShare (k.shares.filter (fun e => e.2.task == task && e.2.owner.isNone)) = some (n, x) →
         exec (.askServe stack) s = .next (s.modStack stack (fun k => bind task n { k with shares := Table.put k.shares n { x with owner := some (core, 0), ready := false } }))) ∧
       ((∀ e ∈ k.shares, e.2.task = task → e.2.owner ≠ none) → k.shares.length < 256 → ∀ m n x, Table.lowestFree k.shares 256 = some m →
         s.splittable stack ((s.core core).ctx.getD 0) = some (n, x) →
         let cut := x.lo + ((x.hi - x.lo + x.grain - 1) / x.grain + 1) / 2 * x.grain
         exec (.askServe stack) s = .next (s.modStack stack (fun k => bind x.task m { k with shares := Table.put (Table.put k.shares n { x with hi := cut }) m { x with lo := cut, owner := some (core, 0), ready := false } })))) ∧
     (∀ stack task t, s.task? task = some t → (s.ctx t.ctx).live = true → (stack, false) ∈ t.parts →
       (∀ e ∈ (s.stack stack).shares, e.2.task = task → e.2.hi ≤ e.2.lo ∧ e.2.owner ≠ none) → (∀ b ∈ (s.stack stack).binds, b.task ≠ task) →
       (∀ c ∈ s.cores, c.2.hasWorker task = false) → exec (.partReport stack task) s = .next
         ((s.modStack stack (fun k => { k with shares := k.shares.filter (fun e => e.2.task != task) })).setTask task
           { t with parts := t.parts.map (fun p => if p.1 = stack then (p.1, true) else p) })) ∧
     (∀ task t lo hi grain, s.task? task = some t → t.range = some (lo, hi, grain) → (s.ctx t.ctx).live = true → t.parts ≠ [] → (∀ p ∈ t.parts, p.2 = true) → t.freed = false →
       exec (.rangeTaskComplete task) s = .next (s.setTask task { t with
         ended := some (t.ended.getD (Val.scalar (BitVec.ofNat 64 (hi - lo)) 0 7))
         freed := true })) ∧
     (∀ task t v, s.task? task = some t → t.ended = some v → (s.ctx t.ctx).live = true → t.range = none →
       (t.freed = false ∨ (∃ g ∈ s.work, g.task = task) → exec (.taskCompletion task) s = .next s) ∧
       (∀ core, t.freed = true → (∀ g ∈ s.work, g.task ≠ task) → s.recordQuad task = none → s.fpCore t.ctx t.rootFp = some core →
         exec (.taskCompletion task) s = .next ((s.deliver t core v).dropTask task))) ∧
     (∀ core, core < 4096 → exec (.freeSlotReport core) s = .next (s.modStack (coreStack core) (fun k => { k with reports := Table.put k.reports core (32768 - 8 * ((s.core core).blocks.map Prod.snd).sum) }))))

/-- The tape instructions on scalars, where nothing is recorded (R157 to R163). TAPEEND emits L with its tag, TAPEGRD its VALUE with PROV NONE, TAPEPAT
its VALUE with the PROV that it claims. TAPEDROP makes the tapes it names invalid, on the quad or on every one, which frees those that no replay uses (R155), and emits how many were valid.
TAPEINFO emits the state, the commands or the last outcome of a tape. TAPEREC and TAPEPLAY make a task of the record in eight sticky slots, with CONT
naming dest1 and TMODE RECORD, or REPLAY unless it is AUTO, and send its bind packet for the firing core's quad; a range record is OPERAND_RANGE. In a
probe frame the guard's own TAPEGRD with the recorded predicate lets its guard pass and emits nothing (R141). -/
def Obligations.TapeOperatorResults : Prop :=
  ∀ (s : State) (g : Firing) (f : Fields), s.cur = some g → g.scalars →
    let t : State := s.retire
    let q := quadOf g.core
    let num (u : State) (x : Nat) : State := u.emit g f false (Val.scalar (BitVec.ofNat 64 x) g.l.round 7)
    let bad (x : Tape) : Bool := x.ctx == g.ctx && (f.imm.getLsbD 16 || x.tmpl == f.imm.toNat % 65536)
    let held (e : TapeEngine) (x : Tape) : Bool := (e.replays ++ e.waiting).any (fun r => r.tape.ctx == x.ctx && r.tape.tmpl == x.tmpl)
    let drop (e : TapeEngine) : TapeEngine := { e with tapes := (e.tapes.map (fun x => if bad x then { x with valid := false } else x)).filter (fun x =>
      x.valid || held e x) }
    (s.recording? g.core g.task = none →
      exec (.tapeend f) s = .next (t.emit g f false g.l) ∧
      (t.probing g = none → exec (.tapegrd f) s = .next (t.emit g f false (Val.scalar g.l.value g.l.round 0)))) ∧
    (∃ v : Val, v.kind = .scalar ∧ v.value = g.l.value ∧ v.round = g.l.round ∧ v.prov = BitVec.ofNat 4 (1 + f.imm.toNat) ∧
      exec (.tapepatArg f) s = .next (t.emit g f false v)) ∧
    (∃ v : Val, v.kind = .scalar ∧ v.value = g.l.value ∧ v.round = g.l.round ∧ v.prov = 0 ∧ exec (.tapepatConst f) s = .next (t.emit g f false v)) ∧
    ((s.engine q).record = none →
      exec (.tapedropQuad f) s = .next (num (t.modEngine q drop) ((s.engine q).tapes.filter (fun x => x.valid && bad x)).length)) ∧
    ((∀ e ∈ s.tapes, e.2.record = none) → s.tapes.Pairwise (fun a b => a.1 < b.1) → ∃ u : State,
      exec (.tapedropAll f) s = .next (num u ((s.tapes.map (fun e => (e.2.tapes.filter (fun x => x.valid && bad x)).length)).sum)) ∧
      (∀ n, u.engine n = drop (s.engine n)) ∧ u.cores = s.cores ∧ u.ctxs = s.ctxs ∧ u.hbm = s.hbm ∧ u.vault = s.vault) ∧
    (∃ x : Nat, exec (.tapeinfo f) s = .next (num t.spend x) ∧
      let mine (r : Nat × Nat) : Prop := r = (g.ctx, f.imm.toNat % 65536)
      let e := s.engine q
      let none_ : Prop := ∀ y ∈ e.tapes, mine (y.ctx, y.tmpl) → y.valid = false
      (f.fn = 0 → (∀ r, e.record = some r → mine (r.ctx, r.tmpl) → x = 1) ∧
        ((∀ r, e.record = some r → ¬mine (r.ctx, r.tmpl)) → (∀ y, e.tape? g.ctx (f.imm.toNat % 65536) = some y → y.valid = true → (t.readTape y).isSome = true → x % 4 = 2) ∧
          (none_ → (∀ r ∈ e.replays ++ e.waiting, mine (r.tape.ctx, r.tape.tmpl) → x % 4 = 3) ∧
            ((∀ r ∈ e.replays ++ e.waiting, ¬mine (r.tape.ctx, r.tape.tmpl)) → x = 0)))) ∧
      (f.fn = 1 → (∀ y, e.tape? g.ctx (f.imm.toNat % 65536) = some y → y.valid = true → (t.readTape y).isSome = true → x = y.entries.length) ∧ (none_ → x = 0)) ∧
      (2 ≤ f.fn.toNat → (∀ y ∈ e.last, mine (y.1, y.2.1) → (∀ z ∈ e.last, mine (z.1, z.2.1) → z = y) → x = y.2.2.toNat) ∧
        ((∀ y ∈ e.last, ¬mine (y.1, y.2.1)) → x = 0))) ∧
    (∀ ws fp tk, t.recSlots g f.slot.toNat = .ok ws → t.destFp g f.d1 = some fp → s.task? g.task = some tk →
      (∀ i ∈ [Instr.taperec f, .tapeplay f], (ws[0]?.getD 0).getLsbD 63 = true → exec i s = .next (t.fault g f .operandRange 0)) ∧
      (∀ i mode, (i, mode) ∈ [(Instr.taperec f, (1 : BitVec 2)), (.tapeplay f, if (ws[0]?.getD 0).extractLsb' 60 2 = 3 then 3 else 2)] →
        (ws[0]?.getD 0).getLsbD 63 = false →
        let ws' := ((0 : BitVec 2) ++ mode ++ (ws[0]?.getD 0).extractLsb' 0 60) :: (fp ++ f.d1.ip ++ bit1 f.d1.port ++ (ws[1]?.getD 0).extractLsb' 0 11) :: ws.drop 2
        (recMalformed ws' (s.ctx g.ctx).hcwlen.toNat = true → exec i s = .next (t.fault g f .taskMalformed 0)) ∧
        (recMalformed ws' (s.ctx g.ctx).hcwlen.toNat = false → ∃ x : Task, x.id = s.ids ∧ x.ctx = g.ctx ∧ x.tmode = mode ∧ x.hostc = false ∧ x.prio = tk.prio ∧
          x.obj = (ws[0]?.getD 0).extractLsb' 0 32 ∧ x.entry = (ws[0]?.getD 0).extractLsb' 32 20 ∧ x.cont = fp ++ f.d1.ip ++ bit1 f.d1.port ∧ x.bound = false ∧
          exec i s = .next ((((t.liveInc g.ctx fp).newId.setTask s.ids x).modStack (coreStack g.core) (fun k => { k with
            binds := k.binds ++ [{ task := s.ids, share := none, issuer := some g.core, quad := some q }] })).emit g f false (Val.scalar 0 g.l.round 0))))) ∧
    (∀ r tk n x, (s.engine q).replay? g.task = some r → s.task? g.task = some tk → r.probe = some (n, g.fp) →
      r.tape.entries[n]? = some (.guard x) → x.gip = g.ip → x.pred = g.l.value → exec (.tapegrd f) s = .next
        ((t.freeProbe tk.ctx r).modReplay q tk.id (fun r => { r with probe := none, passed := r.passed ++ [n] })))

/-- The tape engine of a quad (R126, R133, R135, R140, R141, R143). A waiting replay gets a cursor while fewer than four run. REPLAY_ISSUE issues the
lowest entry that may be: the command joins its core's engine class with operands rebuilt from literals, from the new arguments and from kept values.
With every entry before a guard done PROBE_START asks for its probe frame. With all done and no exit snapshot the task ends with COMPV and outcome
DONE; a fault that stopped the replay goes, once nothing is at work, to the continuation, with outcome FAULT. GUARD_SNAPSHOT of a quiet recording
records the guard with its snapshot, or the exit snapshot, which closes the recording, and TAPEGRD or TAPEEND emits; a snapshot that cannot be made
ends the recording with its reason, and the firings that wait at a recording that has ended emit as well. -/
def Obligations.TapeEventResults : Prop :=
  ∀ (s : State) (quad : Nat),
    (∀ r rest, (s.engine quad).waiting = r :: rest →
      ((s.engine quad).replays.length < 4 → exec (.replayCursorGrant quad) s = .next (s.modEngine quad (fun e => { e with waiting := rest, replays := e.replays ++ [r] }))) ∧
      (4 ≤ (s.engine quad).replays.length → ∃ u : State, exec (.replayCursorGrant quad) s = .next u ∧ ∀ n, u.engine n = s.engine n)) ∧
    (∀ task r t, (s.engine quad).replay? task = some r → s.task? task = some t → t.id = task → r.fault = none →
      (∀ i (c : TapeCmd), (s.ctx t.ctx).phase = .active → i < r.tape.entries.length → (∀ j, j < i → s.entryReady quad r j = false) → s.entryReady quad r i = true →
        r.tape.entries[i]? = some (.cmd c) → ∃ g : Firing,
          g.core = quadCore quad c.pos ∧ g.fp = c.fp ∧ g.ip = c.ip ∧ g.word = some c.word ∧ g.task = task ∧ g.ctx = t.ctx ∧ g.replay = some (quad, task, i) ∧ g.recorded = false ∧
          g.named.map Prod.fst = c.named.map Prod.fst ∧
          (∀ d, c.ops.find? (fun d => d.opix == 0) = some d → g.l.kind = d.kind ∧ (d.src = 0 → g.l.value = d.lit) ∧ (d.src = 1 → g.l.value = t.rargs[d.arg]?.getD 0 + d.lit) ∧
            (∀ v, d.src = 2 → Table.find r.kept (2 * d.cmd) = some v → g.l.value = v.value)) ∧
          exec (.replayIssue quad task) s = .next ((s.modReplay quad task (fun r => { r with issued := r.issued ++ [i] })).modCore g.core (fun k => { k with
            engine := k.engine ++ [((s.ctx t.ctx).cls, g)] }))) ∧
      ((∀ i, i < r.tape.entries.length → s.entryDone r i = true) → r.tape.exit = none → exec (.replayComplete quad task) s = .next
        ((s.endReplay quad r 1).modTask task (fun t => { t with
          ended := some ((r.tape.compv.map (fun d => d.rebuild t.rargs r.kept 0)).getD (Val.scalar 0 0 7))
          freed := true })))) ∧
    (∀ task r i x, (s.engine quad).replay? task = some r → r.fault = none → r.probe = none → (s.ctx r.tape.ctx).phase = .active →
      r.tape.entries[i]? = some (.guard x) → i ∉ r.passed → (∀ j, j < i → s.entryDone r j = true) → exec (.probeStart quad task) s = .next
        ((s.modReplay quad task (fun r => { r with probe := some (i, 0) })).allocate (quadCore quad x.pos) (.probe quad task))) ∧
    (∀ task r t v, (s.engine quad).replay? task = some r → s.task? task = some t → r.fault = some v → r.probe = none →
      (s.replayParked task = true → exec (.replayFault quad task) s = .next (((s.endReplay quad r 5).deliver t (quadCore quad 0) v).dropTask task)) ∧
      (s.replayParked task = false → exec (.replayFault quad task) s = .next s)) ∧
    (∀ x rest, (s.engine quad).freed = x :: rest → exec (.guardSnapshot quad) s = .next ((x :: rest).foldl (fun u y => u.emit y.1 y.2.1 false
      (if y.2.2 then y.1.l else Val.scalar y.1.l.value y.1.l.round 0)) (s.modEngine quad (fun e => { e with freed := [] })))) ∧
    (∀ r t g f isEnd rest n, (s.engine quad).freed = [] → (s.engine quad).record = some r → s.task? r.task = some t → r.atGuard = (g, f, isEnd) :: rest →
      n = r.entries.length →
      (s.recordQuiet quad r.task = false → exec (.guardSnapshot quad) s = .next s) ∧
      (s.recordQuiet quad r.task = true → ∃ (v : Val) (out : Option (U32 × RawTok)), v.value = g.l.value ∧ v.round = g.l.round ∧ (isEnd = true → v = g.l) ∧ (isEnd = false → v.kind = .scalar ∧ v.prov = 0) ∧
        (∀ e, s.snapshot quad t (if isEnd then none else some n) (rest.map Prod.fst) out = .error e →
          exec (.guardSnapshot quad) s = .next (((s.setRecording quad { r with atGuard := rest }).endRecording quad e).emit g f false v)) ∧
        ∀ x m, s.snapshot quad t (if isEnd then none else some n) (rest.map Prod.fst) out = .ok (x, m) → ∃ r' : Recording, r'.atGuard = rest ∧ r'.task = r.task ∧
          (isEnd = true → r'.exit = some x ∧ exec (.guardSnapshot quad) s = .next (((s.setRecording quad r').closeRecording quad r' t).emit g f false v)) ∧
          (isEnd = false → (∃ y : TapeGuard, r'.entries[n]? = some (.guard y) ∧ y.gip = g.ip ∧ y.ip = BitVec.ofNat 20 f.imm.toNat ∧ y.cls = f.imm.toNat / 2 ^ 20 % 8 ∧
              y.pos = quadPos g.core ∧ y.pred = g.l.value ∧ y.snap = x) ∧ r'.entries.length = n + 1 ∧
            (s.recordFull r' = false → exec (.guardSnapshot quad) s = .next (((s.setRecording quad r').streamOut quad r').emit g f false v)))))

/-- The time instructions (R385, R386, R411 to R415). TIMERD.NOW sends TIME of its stack to dest0 and ERR, with the residual of a slew, to dest1;
TIMERD.STAT the fields of TIME_STAT, LOCK among them exactly where ERR is within the bound of the domain (R393). TIMECMP emits 0, 1 or 2 as stamp L with its bound lies before R, after it, or neither. TIMEWAIT takes one of the
256 waits of its core, or queues for one, with R, or TIME + R held at 2^64 − 1, as its deadline. TIMEADJ in a supervisor context, on a reference that
follows none outside, adds L to what is slewed, or steps TIME forward by L and counts EPOCH and ERR of every stack, and emits 0; elsewhere it is
PRIVILEGE or TIME_FOLLOWER, and out of range OPERAND_RANGE. -/
def Obligations.TimeOperatorResults : Prop :=
  ∀ (s : State) (g : Firing) (f : Fields), s.cur = some g →
    let t : State := s.retire
    let k := s.stack (coreStack g.core)
    let out (x : U64) : Val := Val.scalar x g.l.round 7
    (g.plain →
      (∃ a e : U64, a.toNat = k.time % 2 ^ 64 ∧
        e.toNat = (if k.err = 0xFFFFFFFF then 2 ^ 32 - 1 else min (2 ^ 32 - 1) (k.err.toNat + k.residual.natAbs)) ∧
        exec (.timerdNow f) s = .next ((t.emit g f false (out a)).emit g f true (out e))) ∧
      (∃ x : U64, x.extractLsb' 0 3 = k.dom ∧ x.getLsbD 5 = k.hold ∧ x.getLsbD 6 = k.slewing ∧
        (k.dom.toNat ≤ 3 → (x.getLsbD 4 = true ↔ k.hold = false ∧ ∃ p ∈ [((1 : BitVec 3), 15), (2, 320), (3, 3200)], k.dom = p.1 ∧ k.errReg.toNat ≤ p.2)) ∧ x.getLsbD 7 = k.gm ∧
        (x.extractLsb' 12 4).toNat = coreStack g.core ∧ x.extractLsb' 16 4 = k.depth ∧ x.extractLsb' 20 6 = k.uplink ∧ x.extractLsb' 32 16 = k.epoch ∧
        exec (.timerdStat f) s = .next (t.emitBoth g f (out x))) ∧
      (∀ r, g.r = some r → r.kind = .scalar → ∀ i d, (i, d) ∈ [(Instr.timewaitAbs f, r.value.toNat), (.timewaitRel f, k.time % 2 ^ 64 + r.value.toNat)] →
        let w : Wait := { deadline := min (2 ^ 64 - 1) d, sure := f.qual.getLsbD 0, d0 := f.d0, d1 := f.d1, fire := g }
        ((s.core g.core).waits.length < 256 → exec i s = .next (t.modCore g.core (fun k => { k with waits := k.waits ++ [w] }))) ∧
        (256 ≤ (s.core g.core).waits.length → exec i s = .next (t.modCore g.core (fun k => { k with waitRetry := k.waitRetry ++ [w] }))))) ∧
    (g.scalars →
      (∀ r, g.r = some r →
        let e := (g.t.map (fun v => v.value.toNat)).getD f.imm.toNat
        let a := g.l.value.toNat
        let b := r.value.toNat
        ∃ v : Val, v.kind = .scalar ∧ v.round = g.l.round ∧ (a + e < b → v.value = 0) ∧ (b + e < a → v.value = 1) ∧ (b ≤ a + e → a ≤ b + e → v.value = 2) ∧
          exec (.timecmp f) s = .next (t.emitBoth g f v)) ∧
      ((s.ctx g.ctx).sup = false → ∀ i ∈ [Instr.timeadjSlew f, .timeadjStep f], exec i s = .next (t.fault g f .privilege 0)) ∧
      ((s.ctx g.ctx).sup = true →
        (1 < s.mod.ioDom.toNat → s.mod.ioGm = false → ∀ i ∈ [Instr.timeadjSlew f, .timeadjStep f], exec i s = .next (t.fault g f .timeFollower 0)) ∧
        (s.mod.ioDom.toNat ≤ 1 ∨ s.mod.ioGm = true →
          (2 ^ 40 < g.l.value.toInt.natAbs → exec (.timeadjSlew f) s = .next (t.fault g f .operandRange 0)) ∧
          (g.l.value.toInt.natAbs ≤ 2 ^ 40 → exec (.timeadjSlew f) s = .next ((t.modMod (fun m => { m with ioResid := m.ioResid + g.l.value.toInt })).emit g f false (out 0))) ∧
          (g.l.value.toNat = 0 ∨ 2 ^ 56 < g.l.value.toNat → exec (.timeadjStep f) s = .next (t.fault g f .operandRange 0)) ∧
          (0 < g.l.value.toNat → g.l.value.toNat ≤ 2 ^ 56 → ∃ u : State, exec (.timeadjStep f) s = .next (u.emit g f false (out 0)) ∧
            u.mod = { s.mod with io0Time := s.mod.io0Time + g.l.value.toNat, ioEpoch := s.mod.ioEpoch + 1, io1Err := u.mod.io1Err } ∧
            (u.mod.io1Err.toNat = if s.mod.io1Err = 0xFFFFFFFF then 2 ^ 32 - 1 else min (2 ^ 32 - 1) (s.mod.io1Err.toNat + g.l.value.toNat)) ∧ u.cores = s.cores ∧ u.hbm = s.hbm ∧
            (∀ n, n < 16 → (u.stack n).time = (s.stack n).time ∧
              ((u.stack n).err.toNat = if (s.stack n).err = 0xFFFFFFFF then 2 ^ 32 - 1 else min (2 ^ 32 - 1) ((s.stack n).err.toNat + g.l.value.toNat)))))))

/-- What happens to TIME and its bound (R385, R388 to R394, R414). A wait of least deadline among those whose condition holds is released: L goes to both
destinations; a waiting TIMEWAIT takes a free wait. HOLDOVER_ENTER, 4 µs without an exchange, sets HOLD, so that LOCK falls; in holdover ERR grows
by one each 3.125 µs. An exchange starts at the upstream end of a tree link; the three messages stamp it; with the reply the downstream stack slews by
the offset (held to within 3 units of the true one, the model's choice, log 4), or steps 1 ms or more forward, takes the upstream ERR + 3, and leaves
HOLD. POD_SYNC_EXCHANGE and PTP_MESSAGE discipline the module reference
in the domain that asks for them, and SLEW_COMPLETE ends a slew whose whole correction has been applied. Stack clocks (R22, R23, R492). A request outside the configured range is ignored and
logged; another becomes the target where no clamp and no width reduction holds it, and else is pending; the clock settles at its target. A clamp
lowers the clock to no less than 1200 MHz, and its release lets a pending request take effect, or the clock go back to its target. THERMAL_TRIP asks
for power-off, and BOARD_POWER_OFF removes power that was asked to be removed. -/
def Obligations.TimeEventResults : Prop :=
  (∀ (s : State),
     (∀ core ctx w pre post, (s.core core).ctx = some ctx → (s.ctx ctx).phase = .active → (s.core core).waits = pre ++ w :: post →
       let k := s.stack (coreStack core)
       let holds (w : Wait) : Prop := if w.sure then k.errReg ≠ 0xFFFFFFFF ∧ w.deadline + k.errReg.toNat ≤ k.time % 2 ^ 64 else w.deadline ≤ k.time % 2 ^ 64
       (holds w → (∀ x ∈ pre, holds x → w.deadline < x.deadline) → (∀ x ∈ post, holds x → w.deadline ≤ x.deadline) → exec (.timewaitRelease core) s = .next
         ((s.modCore core (fun k => { k with waits := pre ++ post })).emitBoth w.fire (Fields.ofDests w.d0 w.d1) w.fire.l)) ∧
       ((∀ x ∈ (s.core core).waits, ¬holds x) → exec (.timewaitRelease core) s = .next s)) ∧
     (∀ core w rest, (s.core core).waitRetry = w :: rest → (s.core core).waits.length < 256 → exec (.timewaitRetry core) s = .next (s.modCore core (fun k => { k with
       waits := k.waits ++ [w], waitRetry := rest }))) ∧
     (∀ n, let k := s.stack n
       (k.hold = false → k.lastExch + 64000 ≤ k.time → exec (.holdoverEnter n) s = .next (s.modStack n (fun k => { k with hold := true, lastTick := k.time })) ∧
         ∀ u, exec (.holdoverEnter n) s = .next u → (u.stack n).locked = false) ∧
       (k.hold = true ∨ k.time < k.lastExch + 64000 → exec (.holdoverEnter n) s = .next s) ∧
       (k.hold = true → k.lastTick + 50000 ≤ k.time → ∃ u : State, exec (.holdoverTick n) s = .next u ∧ (u.stack n).lastTick = k.lastTick + 50000 ∧
         (u.stack n).err.toNat = min (2 ^ 32 - 1) (k.err.toNat + 1) ∧ (u.stack n).time = k.time ∧ u.mod = s.mod) ∧
       (k.hold = false ∨ k.time < k.lastTick + 50000 → exec (.holdoverTick n) s = .next s) ∧
       (n < 16 → k.slewing = true → k.residual = 0 → ∃ u : State, exec (.slewComplete n) s = .next u ∧ (u.stack n).slewing = false ∧ (u.stack n).residual = 0 ∧
         (u.stack n).time = k.time ∧ (u.stack n).err = k.err) ∧
       (k.slewing = false ∨ k.residual ≠ 0 → exec (.slewComplete n) s = .next s)) ∧
     (∀ l, 12 ≤ l → l < 24 → exec (.syncExchange l) s = .next (s.modLink l 0 (fun e => { e with out := e.out ++ [{ tag := 0, seq := 0, body := .time (.sync 0) }] }))) ∧
     (∀ l side x rest, (s.link l side).wire = x :: rest →
       let node := linkNode l side
       let a : State := s.modLink l side (fun e => { e with wire := rest })
       let reply (u : State) (m : TimeMsg) : State := u.modLink l side (fun e => { e with out := e.out ++ [{ tag := 0, seq := 0, body := .time m }] })
       (∀ t1, x.body = .time (.sync t1) → exec (.timeMessage l side) s = .next (reply (a.modLink l side (fun e => { e with t1 := t1, t2 := s.timeOf node })) .delayReq)) ∧
       (x.body = .time .delayReq → exec (.timeMessage l side) s = .next (reply a (.reply (s.timeOf node) (s.errOf node).toNat))) ∧
       (∀ t4 sent, x.body = .time (.reply t4 sent) → node < 16 →
         let e := s.link l side
         let up := linkNode l (1 - side)
         let real : Int := (s.timeOf node : Int) - s.timeOf up
         let off : Int := max (real - 3) (min (real + 3) ((((e.t2 : Int) - e.t1) - ((t4 : Int) - e.t3)) / 2))
         let err := max sent (s.errOf up).toNat
         let k := s.stack node
         err < 2 ^ 32 - 4 →
         ∃ u : State, exec (.timeMessage l side) s = .next u ∧ (u.stack node).hold = false ∧ (u.stack node).uplink = BitVec.ofNat 6 l ∧
           ((u.stack node).dom ≠ 0 → (u.stack node).err = BitVec.ofNat 32 (err + 3)) ∧ ((u.stack node).dom = 0 → (u.stack node).err = 0xFFFFFFFF ∧ (u.stack node).locked = false) ∧
           (-off < 16000000 → (u.stack node).time = k.time ∧ (u.stack node).residual = -off ∧ (u.stack node).epoch = k.epoch) ∧
           (16000000 ≤ -off → (u.stack node).time = k.time + (-off).toNat ∧ (u.stack node).residual = 0 ∧ (u.stack node).epoch = k.epoch + 1) ∧
           (u.stack node).lastExch = (u.stack node).time)) ∧
     (∀ off : Int, ∀ err tiers : Nat, off > -16000000 → err + 6 < 2 ^ 32 → s.mod.gmReq = false →
       (s.mod.domReq = 2 → s.mod.gates.getLsbD 8 = true → tiers ≤ 2 → ∃ u : State, exec (.podSyncExchange off err tiers) s = .next u ∧
         u.mod.ioResid = -off ∧ u.mod.ioErr = BitVec.ofNat 32 (err + 3 * tiers) ∧ u.mod.io0Time = s.mod.io0Time ∧ u.stackTab = s.stackTab) ∧
       (s.mod.domReq ≠ 2 → exec (.podSyncExchange off err tiers) s = .next s) ∧
       (s.mod.domReq = 3 → s.mod.gates.getLsbD 10 = true → ∃ u : State, exec (.ptpMessage off err) s = .next u ∧
         u.mod.ioResid = -off ∧ u.mod.ioErr = BitVec.ofNat 32 err ∧ u.mod.io0Time = s.mod.io0Time ∧ u.stackTab = s.stackTab) ∧
       (s.mod.domReq ≠ 3 → exec (.ptpMessage off err) s = .next s))) ∧
  (∀ (s : State) (n mhz : Nat),
     let k := s.stack n
     (mhz < k.minMhz ∨ k.maxMhz < mhz → exec (.clockChangeRequest n mhz) s = .next (s.modMod (fun m => { m with clockLog := m.clockLog ++ [(n, mhz)] }))) ∧
     (k.minMhz ≤ mhz → mhz ≤ k.maxMhz →
       (k.clamp = none → s.clockHeld n = false → ∃ u : State, exec (.clockChangeRequest n mhz) s = .next u ∧
         u.stack n = { k with targetMhz := mhz, moving := true, pendMhz := none } ∧ (∀ x, x ≠ n → u.stack x = s.stack x) ∧ u.cores = s.cores ∧ u.mod = s.mod) ∧
       (s.clockHeld n = true ∨ (k.clamp ≠ none ∧ k.curMhz < mhz) → exec (.clockChangeRequest n mhz) s = .next (s.modStack n (fun k => { k with pendMhz := some mhz })))) ∧
     (k.moving = true → exec (.clockSettled n) s = .next (s.modStack n (fun k => { k with curMhz := k.targetMhz, moving := false }))) ∧
     (∀ idle, ∃ u : State, exec (.clampAct n mhz idle) s = .next u ∧ (u.stack n).curMhz = min k.curMhz (max 1200 mhz) ∧ (u.stack n).clamp ≠ none ∧
       (u.stack n).targetMhz = k.targetMhz ∧ u.cores = s.cores) ∧
     (k.clamp = none → exec (.clampRelease n) s = .next s) ∧
     (k.clamp ≠ none → s.clockHeld n = false → ∃ u : State, exec (.clampRelease n) s = .next u ∧ (u.stack n).clamp = none ∧
       (∀ m, k.pendMhz = some m → (u.stack n).targetMhz = m ∧ (u.stack n).pendMhz = none ∧ (u.stack n).moving = true) ∧
       (k.pendMhz = none → (u.stack n).targetMhz = k.targetMhz ∧ (u.stack n).moving = (k.moving || k.curMhz != k.targetMhz))) ∧
     exec .thermalTrip s = .next (s.modMod (fun m => { m with offReq := true })) ∧
     exec .boardPowerOff s = .next (if s.mod.offReq then s.modMod (fun m => { m with powered := false }) else s))

/-- LINKCTL and LINKST on scalars in a supervisor context, at a link end of the firing core's own stack (R403 to R405, R452). PAUSE and RESUME pause or
resume one stream context or all; MAP writes a valid map of a module and refuses another with 1; CLRCNT clears RETRY and CRCERR; CFG writes RTHRESH;
CANCEL withdraws a change that waits at both ends, else 1; each emits its code to dest0; LINKST emits the register of FN to both destinations; SCHED
sends its proposal to the other end and has no result yet, and answers 2 while a change is pending. For another stack's end the request sets out on
the first link of its way. In another context PRIVILEGE is raised, and with bits out of range OPERAND_RANGE. -/
def Obligations.LinkOperatorResults : Prop :=
  ∀ (s : State) (g : Firing) (f : Fields), s.cur = some g → g.scalars →
    let t : State := s.retire
    let r : U64 := (g.r.getD Val.zero).value
    let l := g.l.value.toNat % 32
    let side := g.l.value.toNat / 32 % 2
    let e := s.link l side
    let ops : List (Instr × Nat) := [(.linkctlPause f, 0x1FF), (.linkctlResume f, 0x1FF), (.linkctlMap f, 0x3FFFFFFF), (.linkctlSched f, 0xFF3), (.linkctlCancel f, 2 ^ 64 - 1),
      (.linkctlClrcnt f, 2 ^ 64 - 1), (.linkctlCfg f, 0xFFFF), (.linkst f, 2 ^ 64 - 1)]
    ((s.ctx g.ctx).sup = false → ∀ x ∈ ops, exec x.1 s = .next (t.fault g f .privilege 0)) ∧
    ((s.ctx g.ctx).sup = true →
      (∀ x ∈ ops, 64 ≤ g.l.value.toNat ∨ r.toNat ||| x.2 ≠ x.2 → exec x.1 s = .next (t.fault g f .operandRange 0)) ∧
      (g.l.value.toNat < 64 → (∀ x ∈ s.linkReqs, x.id ≠ s.ids) →
        (∀ x ∈ ops, ∀ m hl hs z, r.toNat ||| x.2 = x.2 → (x.1 = .linkctlPause f ∨ x.1 = .linkctlResume f → r.getLsbD 8 = true ∨ 2 ≤ r.toNat) → linkNode l side = m → m < 16 → m ≠ coreStack g.core →
          nextHop (coreStack g.core) m = some (hl, hs, z) →
          exec x.1 s = .next (({ t.newId with linkReqs := s.linkReqs ++ [{ id := s.ids, fire := g, instr := x.1, link := l, side := side }] } : State).modLink hl hs (fun e => { e with
            out := e.out ++ [{ tag := 1, seq := 0, body := .request s.ids none }] }))) ∧
        (linkNode l side = coreStack g.core → g.obj ∉ (s.core g.core).quar →
          let done (i : Instr) (u : State) (x : U64) : Prop := exec i s = .next (u.emit g f false (Val.scalar x g.l.round 7))
          let put (e : LinkEnd) : State := t.newId.setLink l side e
          (r.toNat ||| 0x1FF = 0x1FF →
            (r.getLsbD 8 = true → done (.linkctlPause f) (put { e with pauseAll := true }) 0 ∧ done (.linkctlResume f) (put { e with pauseAll := false, paused := [] }) 0) ∧
            (r.getLsbD 8 = false → 2 ≤ r.toNat →
              done (.linkctlPause f) (put { e with paused := r.toNat :: e.paused.filter (fun x => x != r.toNat) }) 0 ∧
              done (.linkctlResume f) (put { e with paused := e.paused.filter (fun x => x != r.toNat) }) 0)) ∧
          (r.toNat < 2 ^ 30 →
            (e.pend = true ∨ mapFits (r.extractLsb' 0 28) e.mode (e.half.testBit (r.toNat / 2 ^ 28)) = false → done (.linkctlMap f) t.newId 1) ∧
            (e.pend = false → mapFits (r.extractLsb' 0 28) e.mode (e.half.testBit (r.toNat / 2 ^ 28)) = true →
              done (.linkctlMap f) (put { e with maps := Table.put e.maps (r.toNat / 2 ^ 28) (r.extractLsb' 0 28) }) 0)) ∧
          (r.toNat < 2 ^ 16 → done (.linkctlCfg f) (put { e with rthresh := r.extractLsb' 0 16, retryLog := [], retryHit := false, armed := true }) 0) ∧
          done (.linkctlClrcnt f) (put { e with retry := 0, crcerr := 0, retryLog := [], retryHit := false, armed := true }) 0 ∧
          ((∃ d, d < 2 ∧ ((s.link l d).pend = false ∨ (s.link l d).state ≠ 2)) → done (.linkctlCancel f) t.newId 1) ∧
          ((∀ d, d < 2 → (s.link l d).pend = true ∧ (s.link l d).state = 2) → ∃ u : State, done (.linkctlCancel f) u 0 ∧ (∀ d, d < 2 → (u.link l d).pend = false ∧ (u.link l d).mode = (s.link l d).mode)) ∧
          (r.toNat ||| 0xFF3 = 0xFF3 →
            (e.pend = true ∨ e.proposer ≠ none → done (.linkctlSched f) t.newId 2) ∧
            (e.pend = false → e.proposer = none → ∀ tc, g.t = some tc →
              let mode := r.toNat % 4
              let mask := r.toNat / 16 % 16
              let half := r.toNat / 256 % 16
              exec (.linkctlSched f) s = .next (({ t.newId with linkReqs := s.linkReqs ++ [{ id := s.ids, fire := g, instr := .linkctlSched f, link := l, side := side }] } : State).setLink l side { e with
                proposer := some s.ids, pmode := mode, pmask := mask, phalf := half, tc := tc.value.toNat
                out := e.out ++ [{ tag := 0, seq := 0, body := .change (.propose mode mask half tc.value.toNat) }] }))) ∧
          (∃ x : U64, exec (.linkst f) s = .next (t.newId.emitBoth g f (Val.scalar x g.l.round 7)) ∧
            (f.fn = 0 → (x.extractLsb' 0 3).toNat = e.state % 8 ∧ (x.extractLsb' 4 2).toNat = e.mode % 4 ∧ (x.extractLsb' 8 4).toNat = e.mask % 16 ∧ x.getLsbD 23 = e.pend) ∧
            (f.fn = 1 → x = if e.pend then BitVec.ofNat 64 e.tc else 0) ∧ (f.fn = 2 → x = e.retry ++ e.crcerr) ∧ (f.fn = 3 → x.toNat = e.rthresh.toNat)))))

/-- Flits on a link end that is up (R397 to R401, R404). The first flit that waits goes out: a sequenced one with the next SEQ and the tag of its stream,
and a copy into the replay buffer, up to 16 token positions in one flit; flits to be sent again go first, each counted in RETRY; an idle end sends
IDLE, as one does whose only flit is DATA, OPEN or CLOSE from TC − 100 ns of a pending change on. A sequenced flit with the expected SEQ, fewer than 64 of them unacknowledged, is taken in and SEQ moves on: tokens go to their cores, OPEN and
CLOSE set and clear a stream context, and the entries of a stream land at the addresses of its context, or go on to the next link of their way; an acknowledgement frees the
buffer up to its SEQ, and a NAK has the rest sent again. A flit with a bad CRC, or out of sequence, is discarded with one NAK. RETRY_WINDOW raises
LINK_RETRY once. A coordinated change of a link (R405 to R409). A proposal is refused with 1 where TC is less than 2 µs away, 2 where another change
stands, 3 where the maps do not fit, and else pends at the peer, which accepts; the reply gives SCHED its result, and an acceptance pends the change
at the proposer. At TC − 100 ns an end that is up stops its traffic and sends QUIET; at TC with the peer's QUIET, an empty buffer and nothing owed it
retrains, and after training both ends are up in the new mode and raise LINK_CHANGE, or try the next lower mode. A loss of the link without a change
retrains it in its mode. -/
def Obligations.LinkEventResults : Prop :=
  (∀ (s : State) (l side : Nat), side < 2 →
     let e := s.link l side
     let wire (u : State) (x : Flit) : State := u.modLink l (1 - side) (fun e => { e with wire := e.wire ++ [x] })
     (e.state = 2 →
       (∀ x rest tag, e.resend = [] → e.out = x :: rest → e.buffer.length < 1024 → e.tagOf x = some tag → x.body.sequenced = true →
         (x.body.isData = true → 2 ≤ tag → e.pauseAll = false ∧ tag ∉ e.paused) →
         (x.body.isTraffic = true → e.pend = true → s.timeOf (linkNode l side) + 1600 < e.tc) →
         let sends (y : Flit) (left : List Flit) : Prop := exec (.flitSend l side) s = .next (wire (s.setLink l side { e with
           out := left, buffer := e.buffer ++ [y], txSeq := (e.txSeq + 1) % 4096, tags := match x.body with
             | .opens id _ => Table.put e.tags tag id
             | .close => Table.del e.tags tag
             | _ => e.tags }) y)
         ((∀ ms, x.body ≠ .tokens ms) → sends { x with tag := tag, seq := e.txSeq } rest) ∧
         (∀ ms (ys : List Flit) (bs : List (List (Nat × Mail))) more, x.body = .tokens ms → rest = ys ++ more → ys.map Flit.body = bs.map FlitBody.tokens → ms.length + bs.flatten.length ≤ 16 →
           (∀ z zs cs, more = z :: zs → z.body = .tokens cs → 16 < ms.length + bs.flatten.length + cs.length) →
           sends { x with tag := tag, seq := e.txSeq, body := .tokens (ms ++ bs.flatten) } more)) ∧
       (∀ x, e.resend = [] → e.out = [x] → x.body.isTraffic = true → e.pend = true → e.tc ≤ s.timeOf (linkNode l side) + 1600 →
         exec (.flitSend l side) s = .next (if (s.link l (1 - side)).wire = [] then wire s { tag := 0, seq := 0, body := .idle } else s)) ∧
       (∀ x rest, e.resend = x :: rest → ∃ u : State, exec (.flitSend l side) s = .next (wire u x) ∧ (u.link l side).resend = rest ∧ (u.link l side).retry = satInc e.retry ∧
         (u.link l side).out = e.out ∧ (u.link l side).buffer = e.buffer ∧ (u.link l side).txSeq = e.txSeq ∧ u.cores = s.cores) ∧
       (e.resend = [] → e.out = [] → (s.link l (1 - side)).wire = [] → exec (.flitSend l side) s = .next (wire s { tag := 0, seq := 0, body := .idle }))) ∧
     (∀ x rest, e.wire = x :: rest →
       let taken : State := s.modLink l side (fun e => { e with wire := rest, rxSeq := (e.rxSeq + 1) % 4096, rxCount := e.rxCount + 1, nakked := false })
       (x.seq = e.rxSeq → e.rxCount < 64 →
         (∀ ms, x.body = .tokens ms → exec (.flitData l side) s = .next (ms.foldl (fun u m => u.route (linkNode l side) m.1 m.2) taken)) ∧
         (let onward (c : StreamCtx) (id : Nat) (u there : State) : State := match nextHop (linkNode l side) c.node with
            | some (hl, hs, _) => u.modLink hl hs (fun e => { e with out := e.out ++ [{ tag := 256 + id, seq := 0, body := x.body }] })
            | none => there
          (∀ n es, x.body = .rows n es →
            (∀ id c, Table.find e.rx x.tag = some (id, c) →
              exec (.flitData l side) s = .next (onward c id taken (taken.landEntries c ((s.transit? id).bind Transit.own) n es))) ∧
            (Table.find e.rx x.tag = none → exec (.flitData l side) s = .next taken)) ∧
          (∀ id c, x.body = .opens id c →
            let u := taken.modLink l side (fun e => { e with rx := Table.put e.rx x.tag (id, c) })
            exec (.flitOpen l side) s = .next (onward c id u u)) ∧
          (x.body = .close →
            let u := taken.modLink l side (fun e => { e with rx := Table.del e.rx x.tag })
            (∀ id c, Table.find e.rx x.tag = some (id, c) → exec (.flitClose l side) s = .next (onward c id u (u.landed id))) ∧
            (Table.find e.rx x.tag = none → exec (.flitClose l side) s = .next u)))) ∧
       (x.body.sequenced = true → x.seq ≠ e.rxSeq ∨ 64 ≤ e.rxCount → ∀ i ∈ [Instr.flitData l side, .flitOpen l side, .flitClose l side], exec i s = .next s) ∧
       (x.body = .idle → exec (.flitIdle l side) s = .next (s.modLink l side (fun e => { e with wire := rest }))) ∧
       (∀ next nak, x.body = .ack next nak → e.buffer.length ≤ e.txSeq → e.txSeq - e.buffer.length ≤ next → next ≤ e.txSeq → e.txSeq < 4096 →
         ∃ u : State, exec (.flitAck l side) s = .next u ∧ (u.link l side).wire = rest ∧ (u.link l side).buffer = e.buffer.drop (next - (e.txSeq - e.buffer.length)) ∧
           (nak = true → (u.link l side).resend = (u.link l side).buffer) ∧ u.cores = s.cores) ∧
       (∀ bad, bad = true ∨ (x.body.sequenced = true ∧ x.seq ≠ e.rxSeq) →
         ∃ u : State, exec (.flitDiscard l side bad) s = .next u ∧ (u.link l side).wire = rest ∧ (u.link l side).rxSeq = e.rxSeq ∧
           (u.link l side).crcerr = (if bad then satInc e.crcerr else e.crcerr) ∧
           (e.nakked = false → (u.link l side).out = { tag := 0, seq := 0, body := .ack e.rxSeq true } :: e.out ∧ (u.link l side).nakked = true) ∧
           (e.nakked = true → (u.link l side).out = e.out))) ∧
     (e.rxCount ≠ 0 → ∃ u : State, exec (.ackDue l side) s = .next u ∧ (u.link l side).rxCount = 0 ∧ (u.link l side).out = { tag := 0, seq := 0, body := .ack e.rxSeq false } :: e.out) ∧
     (e.rthresh ≠ 0 → e.retryHit = true → e.armed = true → ∃ u : State, exec (.retryWindow l side) s = .next (u.event (eventStack (linkNode l side)) 11 0xFFF l e.retry) ∧
       (u.link l side).retryHit = false ∧ (u.link l side).armed = false)) ∧
  (∀ (s : State) (l side : Nat), side < 2 →
     let e := s.link l side
     let now := s.timeOf (linkNode l side)
     (∀ x rest, e.wire = x :: rest → x.seq = e.rxSeq → e.rxCount < 64 →
       let taken : State := s.modLink l side (fun e => { e with wire := rest, rxSeq := (e.rxSeq + 1) % 4096, rxCount := e.rxCount + 1, nakked := false })
       let sent (u : State) (m : ChangeMsg) : State := u.modLink l side (fun e => { e with out := e.out ++ [{ tag := 0, seq := 0, body := .change m }] })
       (∀ mode mask half tc, x.body = .change (.propose mode mask half tc) →
         (tc < now + 32000 → exec (.changeProposal l side) s = .next (sent taken (.refuse 1))) ∧
         (now + 32000 ≤ tc → e.pend = true → exec (.changeProposal l side) s = .next (sent taken (.refuse 2))) ∧
         (now + 32000 ≤ tc → e.pend = false → e.proposer = none → e.mapsFit mode mask half = false → exec (.changeProposal l side) s = .next (sent taken (.refuse 3))) ∧
         (now + 32000 ≤ tc → e.pend = false → e.proposer = none → e.mapsFit mode mask half = true → exec (.changeProposal l side) s = .next
           (sent (taken.modLink l side (fun e => { e with pend := true, pmode := mode, pmask := mask, phalf := half, tc := tc })) .accept))) ∧
       (∀ n r f, e.proposer = some n → s.linkReqs.find? (fun r => r.id == n) = some r → r.instr = .linkctlSched f → linkNode l side = coreStack r.fire.core →
         r.fire.obj ∉ (s.core r.fire.core).quar →
         let result (u : State) (v : U64) : State := ({ u with linkReqs := s.linkReqs.filter (fun x => x.id != r.id) } : State).emit r.fire f false (Val.scalar v r.fire.l.round 7)
         (x.body = .change .accept → exec (.changeReply l side) s = .next (result (taken.modLink l side (fun e => { e with pend := true, proposer := none })) 0)) ∧
         (∀ k, x.body = .change (.refuse k) → exec (.changeReply l side) s = .next (result (taken.modLink l side (fun e => { e with proposer := none })) (BitVec.ofNat 64 k)))) ∧
       (x.body = .change .quiet → exec (.changeQuiet l side) s = .next (taken.modLink l side (fun e => { e with gotQuiet := true })))) ∧
     (e.pend = true → e.state = 2 → (e.tc ≤ now + 1600 → exec (.changeQuiesce l side) s = .next (s.setLink l side { e with
         state := 3, out := e.out ++ [{ tag := 0, seq := 0, body := .change .quiet }] })) ∧
       (now + 1600 < e.tc → exec (.changeQuiesce l side) s = .next s)) ∧
     (e.state = 3 → e.gotQuiet = true → e.buffer = [] → e.rxCount = 0 → (∀ x ∈ e.out, x.body.closesDown = false) → e.tc ≤ now →
       exec (.retrainStart l side) s = .next (s.setLink l side { e with state := 4, trying := e.pmode })) ∧
     (e.state ≠ 3 ∨ now < e.tc ∨ e.buffer ≠ [] → exec (.retrainStart l side) s = .next s) ∧
     (e.state = 2 → e.pend = false → exec (.linkLoss l side) s = .next (s.setLink l side { e with state := 4, wire := [], trying := e.mode })) ∧
     ((∀ d, d < 2 → (s.link l d).state = 4) →
       (∃ u : State, exec (.trainingComplete l true) s = .next u ∧ u.cores = s.cores ∧ u.hbm = s.hbm ∧ ∀ d, d < 2 → (u.link l d).state = 2 ∧ (u.link l d).mode = (s.link l d).trying ∧
         (u.link l d).pend = false ∧ (u.link l d).resend = (s.link l d).buffer ∧ (u.link l d).out = (s.link l d).out) ∧
       ((∀ d, d < 2 → (s.link l d).trying < 3) → exec (.trainingComplete l false) s = .next
         ((s.modLink l 0 (fun e => { e with trying := e.trying + 1 })).modLink l 1 (fun e => { e with trying := e.trying + 1 }))) ∧
       ((∃ d, d < 2 ∧ (s.link l d).trying = 3) → ∃ u : State, exec (.trainingComplete l false) s = .next u ∧ ∀ d, d < 2 → (u.link l d).state = 0)))

/-- Traps, host calls and events (R424, R433, R442, R444 to R446, R453). TRAP logs its record, with L and IMM, sends its token to the context's fault
handler and emits L. HCALL queues its event and emits 0 while fewer than 16 wait, and else waits; EVENT_SEND sends the oldest event of a bound channel
as a scalar to the binding's frame, and a waiting HCALL takes its room. EVBIND and CORESTOP, in a supervisor context, bind or unbind a channel of the
own stack and stop or start another core, and emit 0; elsewhere they, RESUME and REPLAYALL raise PRIVILEGE. -/
def Obligations.TrapAndEventResults : Prop :=
  ∀ (s : State) (g : Firing) (f : Fields), s.cur = some g →
    let t : State := s.retire
    let out (u : State) (x : U64) : State := u.emit g f false (Val.scalar x g.l.round 7)
    let st := coreStack g.core
    let n := f.imm.toNat % 64
    let k := (s.stack st).chan n
    let setChan (c : Channel) : State := t.modStack st (fun k => k.setChan n c)
    let vid := (s.core g.core).vcore
    (g.plain → exec (.trap f) s = .next (
      let p := t.logFault { cls := .trap, ctx := g.ctx, core := g.core, obj := g.obj, ip := g.ip, fp := g.fp, precise := true, parked := false, supv := false, token := (s.ctx g.ctx).hasHandler, port := 0, reason := 0, d0 := g.l.value.toNat, d1 := f.imm.toNat, d2 := 0 }
      (p.1.toHandler g.ctx g.core ((0x0E : BitVec 8) ++ vid ++ (0 : BitVec 12) ++ p.2)).emitBoth g f { g.l with prov := 7, lin := Lineage.none })) ∧
    (g.scalars →
      (k.queue.length < 16 → k.calls = [] → exec (.hcall f) s = .next (out (setChan { k with
        queue := k.queue ++ [(0 : BitVec 2) ++ BitVec.ofNat 6 n ++ BitVec.ofNat 12 g.ctx ++ vid ++ g.l.value.extractLsb' 0 32] }) 0)) ∧
      (16 ≤ k.queue.length ∨ k.calls ≠ [] → exec (.hcall f) s = .next (setChan { k with calls := k.calls ++ [g] })) ∧
      ((s.ctx g.ctx).sup = false → ∀ i ∈ [Instr.evbindBind f, .evbindUnbind f, .resumeRetry f, .resumeDiscard f, .replayall f, .corestopStop f, .corestopStart f, .ctxsave f, .ctxload f],
        exec i s = .next (t.fault g f .privilege 0)) ∧
      ((s.ctx g.ctx).sup = true →
        (g.l.value.extractLsb' 0 11 = 0 → exec (.evbindBind f) s = .next (out (setChan { k with
          bind := some { ctx := g.ctx, fp := g.l.value.extractLsb' 32 32, ip := g.l.value.extractLsb' 12 20, port := g.l.value.getLsbD 11 } }) 0)) ∧
        (g.l.value.extractLsb' 0 11 ≠ 0 → exec (.evbindBind f) s = .next (t.fault g f .operandRange 0)) ∧
        exec (.evbindUnbind f) s = .next (out (setChan { k with bind := none }) 0) ∧
        (∀ i stop, (i, stop) ∈ [(Instr.corestopStop f, true), (.corestopStart f, false)] →
          (4096 ≤ g.l.value.toNat ∨ g.l.value.toNat = g.core → exec i s = .next (t.fault g f .operandRange 0)) ∧
          (g.l.value.toNat < 4096 → g.l.value.toNat ≠ g.core → exec i s = .next (out (t.modCore g.l.value.toNat (fun k => { k with stopped := stop })) 0))))) ∧
    (∀ (stack chan : Nat) (b : EvBind) (v : U64) (rest : List U64), ((s.stack stack).chan chan).bind = some b → ((s.stack stack).chan chan).queue = v :: rest →
      let c := (s.stack stack).chan chan
      ((s.ctx b.ctx).phase ≠ .active → exec (.eventSend stack chan) s = .next s) ∧
      (∀ dst, (s.ctx b.ctx).phase = .active → s.fpCore b.ctx b.fp = some dst → c.calls = [] → exec (.eventSend stack chan) s = .next
        (((s.modStack stack (fun k => k.setChan chan { c with queue := rest })).modCtx b.ctx (fun c => { c with quiet := false })).post (4096 + stack) dst
          (.token { fp := b.fp, ip := b.ip, port := b.port, val := Val.scalar v 0 7 } false))))

/-- CSRRD and CSRWR, PERFRD and FLTRD (R93, R384, R390, R426, R433, R441, R447, R450, R451). A context reads its own registers, and a supervisor
another's, at both destinations: the values below are those of the registers by number. A write emits the old value: ones written to FPSTAT clear its
bits, SEED reloads the generators of the region, FLOGRD moves no further than WR, and a register from 0x010 on is the supervisor's. PERFRD emits a
counter of its core. FLTRD emits 8 bytes of a record that is held in the log, and null for one that is not. RESUME and REPLAYALL in a supervisor
context (R434, R435, R448). A reference that R434 refuses is OPERAND_RANGE; a port that is not parked, or of a context that is not active, gives 0; at
a parked port RETRY lets the frame port, the install port, the merge port or the commands parked there try again, with the current GEN of their
capabilities, and gives 1; DISCARD of a command ends it with its fault token. REPLAYALL retries every parked port of the context and emits how many
there were. -/
def Obligations.RegisterResults : Prop :=
  (∀ (s : State) (g : Firing) (f : Fields), s.cur = some g →
     let t : State := s.retire
     let st := coreStack g.core
     let k := s.stack st
     let both (x : U64) : State := t.emitBoth g f (Val.scalar x g.l.round 7)
     let n := f.imm.toNat % 4096
     (g.plain → exec (.perfrd f) s = .next (both (Table.look 0 (s.core g.core).perf f.fn.toNat))) ∧
     (∀ x, (f.imm.getLsbD 12 = false ∧ g.plain ∧ x = g.ctx) ∨ (f.imm.getLsbD 12 = true ∧ g.scalars ∧ x = g.l.value.toNat % 4096) →
       (x ≠ g.ctx → (s.ctx g.ctx).sup = false → exec (.csrrd f) s = .next (t.fault g f .privilege 0)) ∧
       (x = g.ctx ∨ (s.ctx g.ctx).sup = true → ∃ v : U64, exec (.csrrd f) s = .next (both v) ∧
         let c := s.ctx x
         ∀ y ∈ [(0x000, c.fpstat.toNat), (0x001, c.seed.toNat), (0x002, c.stalecnt.toNat), (0x003, c.flogWr.toNat * 2 ^ 32 + c.flogLost.toNat), (0x004, c.flogRd.toNat),
           (0x010, c.ctxroot.toNat * 4096), (0x011, c.pset.toNat + if c.bump = 0 then 0 else 2 ^ 31), (0x012, c.objbase.toNat * 4096 + c.objnm1.toNat), (0x014, c.tapebase.toNat * 2 ^ 21),
           (0x015, c.tapeqsz.toNat), (0x016, c.holdbase.toNat * 2 ^ 21), (0x017, c.bqbase.toNat * 4096), (0x018, c.mspill.toNat * 2 ^ 20), (0x019, c.qrbase.toNat * 4096 + c.qrlog.toNat),
           (0x101, k.time % 2 ^ 64), (0x102, k.errReg.toNat), (0x106, k.evlost.toNat), (0x200, s.mod.timecfg.toNat)], n = y.1 → v.toNat = y.2)) ∧
     (∀ r, g.scalars → g.r = none ∨ g.r = some r →
       let x := if g.r = none then g.ctx else g.l.value.toNat % 4096
       let v := if g.r = none then g.l.value else r.value
       let wrote (u : State) : Prop := ∃ old : U64, old = s.csr st x n ∧ exec (.csrwr f) s = .next (u.emit g f false (Val.scalar old g.l.round 7))
       ((x ≠ g.ctx ∨ 0x010 ≤ n) → (s.ctx g.ctx).sup = false → exec (.csrwr f) s = .next (t.fault g f .privilege 0)) ∧
       ((x = g.ctx ∧ n < 0x010) ∨ (s.ctx g.ctx).sup = true →
         (n = 0x000 → wrote (t.modCtx x (fun c => { c with fpstat := c.fpstat &&& ~~~(v.extractLsb' 0 6) }))) ∧
         (n = 0x001 → ∃ u : State, wrote u ∧ (u.ctx x).seed = v ∧ (∀ core ∈ s.regionCores x, (u.core core).lfsr = if v ^^^ ((s.core core).vcore ++ (0 : BitVec 52)) = 0 then 1 else
           v ^^^ ((s.core core).vcore ++ (0 : BitVec 52))) ∧ (∀ core, core ∉ s.regionCores x → u.core core = s.core core)) ∧
         (n = 0x004 → wrote (t.modCtx x (fun c => if (v.extractLsb' 0 32 - c.flogRd).toNat ≤ (c.flogWr - c.flogRd).toNat then { c with flogRd := v.extractLsb' 0 32 } else c))) ∧
         (n = 0x010 → wrote (t.modCtx x (fun c => { c with ctxroot := v.extractLsb' 12 28 }))) ∧
         (n = 0x200 → ∃ u : State, wrote u ∧ u.mod = { s.mod with timecfg := v.extractLsb' 0 35 } ∧ u.ctxs = s.ctxs ∧ u.cores = s.cores))) ∧
     (g.scalars → ∀ r, g.r = none ∨ (g.r = some r ∧ (s.ctx g.ctx).sup = true) →
       let x := if g.r = none then g.ctx else r.value.toNat % 4096
       let c := s.ctx x
       let i : U32 := g.l.value.extractLsb' 0 32
       let held : Prop := i ≠ 0xFFFFFFFF ∧ (c.flogWr - 1 - i).toNat < (c.flogWr - c.flogRd).toNat
       (¬held → exec (.fltrd f) s = .next (t.emitBoth g f (Val.null g.l.round 7))) ∧
       (∀ bs, held → t.ctxRead x st (c.flog.toNat + 64 * (i.toNat % c.flogn) + 8 * f.fn.toNat) 8 = .ok bs → ∃ v : U64, v.toNat = (bs.foldr (fun b k => b.toNat + 256 * k) 0) % 2 ^ 64 ∧
         exec (.fltrd f) s = .next (both v))) ∧
     (∀ ctx v, (s.ctx ctx).live = true → (∃ u : State, exec (.seedWrite ctx v) s = .next u ∧ (u.ctx ctx).seed = v) ∧
       (∀ w, exec (.flogrdWrite ctx w) s = .next (s.modCtx ctx (fun c => if (w - c.flogRd).toNat ≤ (c.flogWr - c.flogRd).toNat then { c with flogRd := w } else c))))) ∧
  (∀ (s : State) (g : Firing) (f : Fields), s.cur = some g → g.scalars → (s.ctx g.ctx).sup = true →
     let t : State := s.retire
     let out (u : State) (x : Nat) : State := u.emit g f false (Val.scalar (BitVec.ofNat 64 x) g.l.round 7)
     let v := g.l.value.toNat
     let kind := v / 2 ^ 24 % 16
     let index := v / 2 ^ 28
     let vcore := v / 2 ^ 12 % 4096
     let x := v % 4096
     (2 ^ 32 ≤ v ∨ 6 < kind ∨ (if kind < 2 then 7 else 0) < index →
       exec (.resumeRetry f) s = .next (t.fault g f .operandRange 0) ∧ exec (.resumeDiscard f) s = .next (t.fault g f .operandRange 0)) ∧
     (v < 2 ^ 32 → kind ≤ 6 → index ≤ (if kind < 2 then 7 else 0) →
       (3 ≤ kind → kind ≤ 5 → exec (.resumeDiscard f) s = .next (t.fault g f .operandRange 0)) ∧
       ((s.ctx x).live = false ∨ (s.ctx x).phys vcore = none → exec (.resumeRetry f) s = .next (out t 0)) ∧
       (∀ core, (s.ctx x).live = true → (s.ctx x).phys vcore = some core →
         ((s.core core).portParked kind index = false → exec (.resumeRetry f) s = .next (out t 0)) ∧
         (kind = 3 → (s.core core).framePark ≠ none → exec (.resumeRetry f) s = .next (out (t.modCore core (fun k => { k with framePark := none })) 1)) ∧
         (kind = 5 → (s.core core).mergePark ≠ none → exec (.resumeRetry f) s = .next (out (t.modCore core (fun k => { k with mergePark := none })) 1)) ∧
         (kind = 4 → (∃ i ∈ (s.core core).installs, i.parked = true) → ∃ u : State, exec (.resumeRetry f) s = .next (out u 1) ∧ (∀ i ∈ (u.core core).installs, i.parked = false)) ∧
         (∀ c, kind = 2 ∨ kind = 6 → c ∈ (s.core core).cmds → c.parked ≠ none → c.pport = (kind, index) → c.fire.core = core → ∃ u : State, exec (.resumeRetry f) s = .next (out u 1) ∧
           (∀ d ∈ (u.core core).cmds, d.id = c.id → (∀ e ∈ (s.core core).cmds, e.id = c.id → e = c) → d.parked = none ∧ d.fire = c.fire ∧ d.instr = c.instr)) ∧
         (∀ c h cls, kind = 2 → (s.core core).cmds = [c] → c.parked = some cls → c.pport = (2, 0) → index = 0 → c.fire.core = core → (s.core core).gens = [] → c.fields = some h →
           (∀ y, c.instr ≠ .red y) → c.live = false → c.fire.replay = none → c.fire.obj ∉ (s.core core).quar → s.recording? core c.fire.task = none →
           exec (.resumeDiscard f) s = .next (out (((t.abortCovers core c.id).finish c false).faultToken c.fire h.d0 cls c.precord false) 1)))) ∧
     (∃ u : State, exec (.replayall f) s = .next (out u (if (s.ctx x).live then (s.parkedPorts x).length else 0)) ∧ ((s.ctx x).live = false → u = t) ∧
       ((s.ctx x).live = true → ∀ core, (s.ctx x).phys vcore = some core → (core, 3, 0) ∈ s.parkedPorts x → (u.core core).framePark = none)))

/-- Saving and restoring a context (R436, R437, R440, R449), in a supervisor context. CTXSAVE of another active context stops its dispatch and waits as a
command; SAVE_WRITE, once it has drained, writes the save area, takes the context off its region and answers 0, or leaves it active with the fault of
a write that failed. CTXLOAD judges the area and the place, and puts the context back where its R or the header says. The free form of DISP is drawn
in between. -/
def Obligations.SaveAndLoadResults : Prop :=
  (∀ (s : State) (g : Firing) (f : Fields), s.cur = some g → g.scalars → (s.ctx g.ctx).sup = true →
    let t : State := s.retire
    let x := g.l.value.toNat % 4096
    let r := (g.r.getD Val.zero).value
    (x = g.ctx ∨ (s.ctx x).phase ≠ .active → exec (.ctxsave f) s = .next (t.fault g f .ctxState 0)) ∧
    (x ≠ g.ctx → (s.ctx x).phase = .active → (∀ e ∈ s.tapes, ∀ w, e.2.record = some w → w.ctx ≠ x) →
      exec (.ctxsave f) s = .next ((t.newId.modCore g.core (fun k => { k with cmds := k.cmds ++ [{ Cmd.start s.ids g (.ctxsave f) .system with phase := .queued }] })).modCtx x
        (fun c => { c with phase := .saving s.ids }))) ∧
    (2 ^ 13 ≤ r.toNat ∨ (r.getLsbD 12 = true ∧ r.extractLsb' 0 12 ≠ 0) → exec (.ctxload f) s = .next (t.fault g f .operandRange 0)) ∧
    (r.toNat < 2 ^ 13 → (r.getLsbD 12 = true → r.extractLsb' 0 12 = 0) →
      (∀ e, t.loadCheck x (coreStack g.core) r = .bad e →
        exec (.ctxload f) s = .next (t.raise g f.d0 (g.fault e.1 e.2.1 e.2.2 (if e.1.ofAccess then 1 else 0)) false)) ∧
      (∀ sv new l, t.loadCheck x (coreStack g.core) r = .ok sv new l →
        exec (.ctxload f) s = .next ((t.putBack sv x new l).emit g f false (Val.scalar 0 g.l.round 7)) ∧
        (s.ctx x).phase = .inactive ∧ Table.find s.saved x = some sv ∧ new.phase = .active ∧ t.regionFree x new.x0 new.y0 sv.wm1 sv.hm1 = true ∧
        (r.getLsbD 12 = false → new.x0 = (r.extractLsb' 0 6).toNat ∧ new.y0 = (r.extractLsb' 6 6).toNat)))) ∧
  (∀ (s : State) (ctx id : Nat), (s.ctx ctx).phase = .saving id →
    (s.drained ctx = false ∨ s.savedCmd id = true → exec (.saveWrite ctx) s = .next s) ∧
    (∀ c f, s.drained ctx = true → s.savedCmd id = false → s.saver id = some c → c.fields = some f →
      let w := s.spend.writeArea ctx (coreStack c.fire.core) (Config.freeWord s.free)
      (w.2 = none → exec (.saveWrite ctx) s = .next ((w.1.takeOff ctx).answer c f [(false, Val.scalar 0 c.fire.l.round 7)]) ∧
        ((w.1.takeOff ctx).ctx ctx).phase = .inactive ∧ Table.find (w.1.takeOff ctx).saved ctx ≠ none) ∧
      (∀ e, w.2 = some e → exec (.saveWrite ctx) s = .next ((w.1.modCtx ctx (fun y => { y with phase := .active })).failWith c f e.1 e.2.1 e.2.2 (if e.1.ofAccess then 2 else 0)))))

/-- LOAD, UNLOAD and the install of code pages (R176 to R180). LOAD ends with RESULT 1 for an entry that is not asked for or whose id another entry has,
with the result of the checks and their fault record for an object that they refuse, and else holds the object and measures it; UNLOAD refuses an
object in use. An install starts in a free page frame or that of the oldest page; when its bytes are there and match their hash and every word is
good, the page is installed and its tokens are let go; another hash, or a word that R67 refuses, quarantines the object, and bytes that cannot be read
park the install. Quarantine (R181). A core that has the notice dispatches nothing more of the object: its queued firings of the object go, and its
frames have ABORT. An aborted frame is freed at a token boundary: in a context that is being destroyed at once and silently, else with QUARANTINED
reported to its continuation. -/
def Obligations.ObjectResults : Prop :=
  (∀ (s : State) (ctx core : Nat),
     let c := s.ctx ctx
     let i := c.objidx.toNat
     let entry (j : Nat) := s.objTableEntry ctx j
     let ended (u : State) (n : BitVec 3) : Prop := (u.ctx ctx).objbusy = false ∧ (u.ctx ctx).objres = n
     let dup : Prop := ∃ j ≤ c.objnm1.toNat, j ≠ i ∧ numAt (entry j) 4 1 ≠ 0 ∧ numAt (entry j) 0 4 = numAt (entry i) 0 4
     (c.objbusy = true → c.objop = 1 →
       (c.objnm1.toNat < i ∨ numAt (entry i) 4 1 ≠ 1 ∨ dup → exec (.objLoad ctx) s = .next (s.modCtx ctx (fun c => { c with objbusy := false, objres := 1 }))) ∧
       (i ≤ c.objnm1.toNat → numAt (entry i) 4 1 = 1 → ¬dup →
         (∀ n, s.loadObject ctx i (entry i) = .error n → ∃ u : State, exec (.objLoad ctx) s = .next u ∧ ended u (BitVec.ofNat 3 n)) ∧
         (∀ o digest, s.loadObject ctx i (entry i) = .ok (o, digest) → ∃ u : State, exec (.objLoad ctx) s = .next u ∧ ended u 0 ∧ (u.ctx ctx).obj? o.obj = some o ∧
           u.mod.digest = sha512 (s.mod.digest ++ natLe 4 5 ++ natLe 4 0 ++ digest ++ natLe 8 (s.stack 0).timeReg.toNat)))) ∧
     (c.objbusy = true → c.objop = 2 →
       let obj := BitVec.ofNat 32 (numAt (entry i) 0 4)
       (c.objnm1.toNat < i ∨ s.objInUse ctx obj = true → exec (.objUnload ctx) s = .next (s.modCtx ctx (fun c => { c with objbusy := false, objres := 1 }))) ∧
       (i ≤ c.objnm1.toNat → s.objInUse ctx obj = false → ∃ u : State, exec (.objUnload ctx) s = .next u ∧ ended u 0 ∧ (u.ctx ctx).obj? obj = none)) ∧
     (∀ obj page,
       let k := s.core core
       let this (x : Install) : Bool := x.obj == obj && x.page == page
       let started (k : Core) : Core := { k with installs := k.installs.map (fun x => if this x then { x with active := true } else x) }
       (∀ x ∈ k.installs, this x = true → x.active = false →
         (k.pagesUsed < 16 → exec (.installStart core obj page) s = .next (s.setCore core (started k))) ∧
         (∀ p, 16 ≤ k.pagesUsed → oldestPage (k.pages.filter (s.evictable core)) = some p →
           exec (.installStart core obj page) s = .next (s.setCore core (started { k with pages := k.pages.filter (fun y => !(y.obj == p.obj && y.page == p.page)) })) ∧
           (∀ q ∈ k.pages, s.evictable core q = true → p.stamp ≤ q.stamp))) ∧
       (∀ x o, k.installs.find? this = some x → (s.ctx (k.ctx.getD 0)).obj? obj = some o → x.active = true → x.parked = false →
         let cx := k.ctx.getD 0
         let src := s.objBytes cx o.fromEp o.ep o.base (o.codeOff + 4096 * page) 4096
         (∀ e, src = .error e → ∃ u : State, exec (.installComplete core obj page) s = .next u ∧ (∀ y ∈ (u.core core).installs, this y = true → y.parked = true)) ∧
         (∀ bs, src = .ok bs →
           (sha512 (natLe 4 obj.toNat ++ natLe 4 page ++ bs) ≠ o.hashes[page]?.getD [] → exec (.installComplete core obj page) s = .next (s.installFails core cx obj page .codeHash 0 0 1)) ∧
           (sha512 (natLe 4 obj.toNat ++ natLe 4 page ++ bs) = o.hashes[page]?.getD [] →
             (∀ ip n, pageReject o page (pageWords bs) = some (ip, n) → exec (.installComplete core obj page) s = .next (s.installFails core cx obj page .codeIllegal ip n 3)) ∧
             (pageReject o page (pageWords bs) = none → ∃ (u : State) (p : PageFrame), exec (.installComplete core obj page) s = .next u ∧
               (u.core core).pages = k.pages ++ [p] ∧ p.ctx = cx ∧ p.obj = obj ∧ p.page = page ∧ (∀ n < 256, Table.find p.words n = some (wordOfBytes ((bs.drop (16 * n)).take 16))) ∧
               (u.core core).installs = k.installs.filter (fun y => !this y) ∧ (u.core core).dispatchQ = k.dispatchQ ++ x.mail)))))) ∧
  (∀ (s : State) (core : Nat),
     let k := s.core core
     (∀ cx o, k.ctx = some cx → (s.ctx cx).objs.find? (fun o => o.quar && !k.quar.contains o.obj) = some o →
       exec (.quarantineNotice core) s = .next (s.notice core o.obj) ∧
       (k.allocs = [] → (s.engine (quadOf core)).record = none →
         let u := s.notice core o.obj
         (u.core core).quar = o.obj :: k.quar ∧ (u.core core).light = k.light.filter (fun e => e.2.obj != o.obj) ∧ (u.core core).engine = k.engine.filter (fun e => e.2.obj != o.obj) ∧
         (u.core core).frames = k.frames.map (fun r => if r.obj = o.obj then { r with abort := true } else r))) ∧
     (∀ fp fr, k.anyFrame? fp = some fr →
       (fr.abort = false ∨ s.atBoundary core fp = false → exec (.abortFree core fp) s = .next s) ∧
       (fr.abort = true → s.atBoundary core fp = true →
         ((s.ctx fr.ctx.toNat).phase = .destroying → exec (.abortFree core fp) s = .next (s.freeFrame core fp)) ∧
         ((s.ctx fr.ctx.toNat).phase ≠ .destroying → fr.freepend = false →
           let u := s.orphan core fp fr .quarantined
           exec (.abortFree core fp) s = .next (if ((u.core core).frame? fp).isSome then u.freeOrWait core fp else u.freeNow core fp)))))

/-- Memory errors and quiescence (R195, R196, R427, R429, R430). A read error whose retry is clean logs MEM_TRANSIENT to the context of the core and
raises MEM_ERR; a lasting one joins the repair list and reaches its consumer. An active context in which nothing can happen reports QUIESCED once,
with its next sequence number. -/
def Obligations.MemoryErrorAndQuiescence : Prop :=
  (∀ (s : State) (m : MemError),
    let ctx := (s.core m.core).ctx
    let code : MemKind → Nat := fun | .hbm => 0 | .secondTier => 1 | .vault => 2 | .frameStore => 3 | .tapeStore => 4 | .instrStore => 5
    (∀ x, ctx = some x → m.lasting = false → ∃ obj : BitVec 32,
      let u := (s.logFault { cls := .memTransient, ctx := x, core := m.core, obj := obj, ip := 0, fp := m.fp, precise := false, parked := false, supv := false, token := false, port := 0, reason := 0, d0 := m.addr, d1 := code m.kind, d2 := 0 }).1
      let index : BitVec 31 := if (u.ctx x).flogWr = (s.ctx x).flogWr then BitVec.allOnes 31 else (s.ctx x).flogWr.extractLsb' 0 31
      exec (.memoryError m) s = .next (u.event m.stack 9 x (s.vcoreOf m.core).toNat (index ++ (0 : BitVec 1)))) ∧
    (m.lasting = true → ∃ u : State, exec (.memoryError m) s = .next u ∧ u.mod.repair = (s.poison m).mod.repair ++ [(m.kind, m.stack, m.addr)])) ∧
  (∀ (s : State) (ctx : Nat),
    ((s.ctx ctx).phase ≠ .active ∨ (s.ctx ctx).quiet = true ∨ s.quiet ctx = false → exec (.quiesced ctx) s = .next s) ∧
    ((s.ctx ctx).phase = .active → (s.ctx ctx).quiet = false → s.quiet ctx = true → ∃ u : State, exec (.quiesced ctx) s = .next u ∧
      ((s.ctx ctx).qrbase = 0 → u = (s.modCtx ctx (fun c => { c with quiet := true, qrseq := c.qrseq + 1 })).event (s.homeStack ctx) 0 ctx 0 ((s.ctx ctx).qrseq + 1)) ∧
      (u.ctx ctx).quiet = true ∧ (u.ctx ctx).qrseq = (s.ctx ctx).qrseq + 1))

/-- The control page, the aperture and the link policy (R470, R472, R474, R488 to R491). With the module ready, the host writes CTXTAB, QTAB, PODCFG, a
command while none is under way, FUNCMAP and MBOX; a reserved bit is not kept. The aperture writes and reads the first 64 MiB of stack 0 while it is
open, and reads 0 when it is closed. The owner's key is set once and measured; signers are set and measured; a mailbox command answers with the log,
or with a quote over nonce, digest, log length and TIME; a link policy is accepted with a rising number and the owner's signature. -/
def Obligations.ControlPageResults : Prop :=
  ∀ (s : State),
    let up : Prop := s.mod.stage = 7
    let set (f : Module → Module) : Host.Outcome State Fault Refusal := .next { s with mod := f s.mod }
    let measured (u : State) (type : Nat) (h : List Byte) : Prop := u.mod.digest = sha512 (s.mod.digest ++ natLe 4 type ++ natLe 4 0 ++ h ++ natLe 8 (s.stack 0).timeReg.toNat)
    (∀ (off : Nat) (v : U64),
      (¬up → exec (.registerWrite off v) s = .next s) ∧
      (up →
        exec (.registerWrite 0x0008 v) s = set (fun m => { m with ctxtab := v &&& 0x0000_FFFF_FFFF_F000 }) ∧
        exec (.registerWrite 0x0010 v) s = set (fun m => { m with qtab := v &&& 0x0000_FFFF_FFFF_F000 }) ∧
        exec (.registerWrite 0x0020 v) s = set (fun m => { m with podcfg := v.extractLsb' 0 11 }) ∧
        (s.mod.cmdBusy = true → exec (.registerWrite 0x0018 v) s = .next s) ∧
        (s.mod.cmdBusy = false → exec (.registerWrite 0x0018 v) s = set (fun m => { m with cmdOp := v.extractLsb' 16 4, cmdCtx := v.extractLsb' 0 12, cmdBusy := decide (v.extractLsb' 16 4 = 1 ∨ v.extractLsb' 16 4 = 2) })) ∧
        (∀ n < 64, exec (.registerWrite (0x2000 + 8 * n) v) s = set (fun m => { m with funcmap := Table.put m.funcmap n (v.extractLsb' 0 13) })) ∧
        exec (.registerWrite 0x0000 v) s = .next s)) ∧
    (∀ (off : Nat) (bs : List Byte), off + bs.length ≤ 2 ^ 26 → off < 2 ^ 26 →
      (s.mod.aperture = true → exec (.apertureAccess off bs.length (some bs)) s = .next (s.hbmWrite off bs none) ∧
        exec (.apertureAccess off bs.length none) s = set (fun m => { m with hostRead := (List.range bs.length).map (fun j => s.hbm.read (off + j)) })) ∧
      (s.mod.aperture = false → exec (.apertureAccess off bs.length (some bs)) s = .next s ∧ exec (.apertureAccess off bs.length none) s = set (fun m => { m with hostRead := List.replicate bs.length 0 }))) ∧
    (∀ (n : Nat) (v : BitVec 128), up → n < 256 → (∀ e ∈ s.cores, e.2.cmds.any (s.throughWindow n) = false) → exec (.windowWrite n v) s = set (fun m => { m with
      windows := Table.put m.windows n { base := v.extractLsb' 76 52, pages := v.extractLsb' 48 28, rid := v.extractLsb' 32 16, w := v.getLsbD 2, r := v.getLsbD 1, v := v.getLsbD 0 } })) ∧
    (∀ (key : List Byte), up → key.length = 32 →
      (s.mod.ownerkey ≠ none → exec (.ownerkeyWrite key) s = .next s) ∧
      (s.mod.ownerkey = none → ∃ u : State, exec (.ownerkeyWrite key) s = .next u ∧ u.mod.ownerkey = some key ∧ measured u 3 (sha512 key)) ∧
      (∀ n < 16, ∃ u : State, exec (.signersWrite n key) s = .next u ∧ Table.find u.mod.signers n = (if key.all (fun b => b == 0) then none else some key) ∧ measured u 4 (sha512 u.mod.signerBytes))) ∧
    (s.mod.mboxStat = 1 →
      (s.mod.mboxCmd = 2 → exec .mboxLog s = set (fun m => { m with mboxResp := m.mlog.flatten, mboxStat := 2 })) ∧
      (s.mod.mboxCmd = 1 → ∃ q : List Byte, exec .mboxQuote s = set (fun m => { m with mboxResp := Config.certChain ++ q ++ edSign Config.identitySeed (sha512 q), mboxStat := 2 }) ∧
        q = (s.mod.mboxNonce ++ List.replicate 32 0).take 32 ++ s.mod.digest ++ natLe 4 (s.mod.mlog.length + if s.mod.mlogFull then 2 ^ 31 else 0) ++ natLe 8 (s.stack 0).timeReg.toNat ++ natLe 4 0)) ∧
    (∀ p : List Byte, up →
      (s.policyOk p = false → exec (.linkPolicy p) s = .next s) ∧
      (s.policyOk p = true → ∃ u : State, exec (.linkPolicy p) s = .next u ∧
        u.mod.gates = BitVec.ofNat 16 (numAt p 8 2) ∧ u.mod.policySeq = some (BitVec.ofNat 64 (numAt p 0 8)) ∧ measured u 6 (sha512 p)))

/-- Activation, destruction, boot and reset (R99, R100, R469, R471, R472, R487). ACTIVATE reads the descriptor and answers 1 for a live context or an odd
region, 2 for a malformed descriptor, 3 for a region that another context meets, and else 0 with the context active on its region and the aperture
closed unless the context is 0. DESTROY marks every frame of an active context ABORT and drops its tasks; it ends, with the context inactive, once
every frame is freed and every access done. A stage of boot is passed or stops the module; the aperture opens with stage 7. A reset gives every
register its reset value. -/
def Obligations.LifecycleResults : Prop :=
  ∀ (s : State) (x : Nat),
    let res (u : State) (n : BitVec 3) : State := u.modMod (fun m => { m with cmdBusy := false, cmdRes := n })
    (s.mod.cmdBusy = true → s.mod.cmdCtx.toNat = x →
      (s.mod.cmdOp = 1 →
        ((s.ctx x).live = true → exec (.ctxActivate x) s = .next (res s 1)) ∧
        ((s.ctx x).live = false → x ≠ 0 →
          let d := s.ctxRead 0 0 (s.mod.ctxtab.toNat + 128 * x) 128
          (∀ e, d = .error e → exec (.ctxActivate x) s = .next (res s 2)) ∧
          (∀ bs, d = .ok bs →
            let c := (s.ctx x).ofDescriptor bs
            (descriptorBad x bs = true → exec (.ctxActivate x) s = .next (res s 2)) ∧
            (descriptorBad x bs = false →
              (c.x0 % 2 = 1 ∨ c.y0 % 2 = 1 ∨ c.wm1 % 2 = 0 ∨ c.hm1 % 2 = 0 → exec (.ctxActivate x) s = .next (res s 1)) ∧
              (c.x0 % 2 = 0 → c.y0 % 2 = 0 → c.wm1 % 2 = 1 → c.hm1 % 2 = 1 →
                (s.regionFree x c.x0 c.y0 c.wm1 c.hm1 = false → exec (.ctxActivate x) s = .next (res s 3)) ∧
                (s.regionFree x c.x0 c.y0 c.wm1 c.hm1 = true → ∃ u : State, exec (.ctxActivate x) s = .next (res u 0) ∧ (u.ctx x).phase = .active ∧ u.mod = { s.mod with aperture := false } ∧
                  (u.ctx x).region = c.region ∧ (∀ p ∈ c.region, (u.core p.2).ctx = some x ∧ (u.core p.2).frames = [] ∧ (u.core p.2).caps = [] ∧ (u.core p.2).tiles = [] ∧
                    (u.core p.2).stopped = (s.core p.2).stopped))))))) ∧
      (s.mod.cmdOp = 2 →
        ((s.ctx x).phase = .inactive → exec (.ctxDestroy x) s = .next (res s 1)) ∧
        ((s.ctx x).phase = .active → ∃ u : State, exec (.ctxDestroy x) s = .next u ∧ (u.ctx x).phase = .destroying ∧ (∀ e ∈ u.tasks, e.2.ctx ≠ x) ∧
          (∀ core ∈ s.regionCores x, (u.core core).frames = (s.core core).frames.map (fun r => { r with abort := true }))) ∧
        ((s.ctx x).phase = .destroying → s.frameless x = false ∨ s.drained x = false → exec (.ctxDestroy x) s = .next s) ∧
        ((s.ctx x).phase = .destroying → s.frameless x = true → s.drained x = true → ∃ u : State, exec (.ctxDestroy x) s = .next (res u 0) ∧ (u.ctx x).phase = .inactive ∧
          (u.ctx x).eps = [] ∧ (u.ctx x).owned = []))) ∧
    (s.mod.halted = false → s.mod.stage < 7 →
      exec (.bootStage false) s = .next (s.modMod (fun m => { m with halted := true })) ∧
      (s.mod.stage ∉ [1, 2, 4] → exec (.bootStage true) s = .next (s.modMod (fun m => { m with stage := m.stage + 1, aperture := decide (m.stage = 6) }))) ∧
      (s.mod.stage = 4 → s.timeUp = true → exec (.bootStage true) s = .next (s.modMod (fun m => { m with stage := 5, aperture := false }))) ∧
      (∀ n ∈ [1, 2], s.mod.stage = n → ∃ u : State, exec (.bootStage true) s = .next u ∧ u.mod.stage = n + 1 ∧
        u.mod.digest = sha512 (s.mod.digest ++ natLe 4 n ++ natLe 4 0 ++ Config.flashDigest n ++ natLe 8 (s.stack 0).timeReg.toNat))) ∧
    (∃ u : State, exec .moduleReset s = .next u ∧ u.cores = State.reset.cores ∧ u.ctxs = State.reset.ctxs ∧ u.stackTab = State.reset.stackTab ∧ u.links = State.reset.links ∧ u.vault = State.reset.vault ∧
      u.tapes = State.reset.tapes ∧ u.mod.stage = Module.reset.stage ∧ u.mod.ownerkey = none ∧ u.mod.repair = s.mod.repair ∧ u.host = s.host ∧ u.storage = s.storage)
end

