-- ==== Sys2Proof/Tests/Slice0.lean ====
section
/-! SUPPORT. Tests of the model against the words, tables and worked numbers of the spec, and a witness for the hypotheses
of each statement of Certificates/Slice0/Obligations. The expected values come from the spec or from its rules by hand. -/

namespace Sys2Proof.Tests

open Sys2Proof.Machine

/-! ## Helpers -/

/-- A scalar of round 0. -/
def num (v : U64) : Val := Val.scalar v 0 0

/-- A value of a kind. -/
def item (k : Kind) (v : U64) : Val := { num v with kind := k }

/-- A destination in the same frame. -/
def here (ip : BitVec 20) : Dest := { mode := .same, port := false, ip := ip }

/-- No destination. -/
def noDest : Dest := { mode := .discard, port := false, ip := 0 }

/-- The fields of an instruction whose bits are 0. -/
def zero : Fields :=
  { fn := 0, ty := .i64, ar := .monadic, np := .absorb, slot := 0, d0 := noDest, d1 := noDest, pri := 0, rm := .rne, sat := false, scope := .core, mx := false, qual := 0, imm := 0 }

/-- A firing on core 0 in context 0, from frame 0. -/
def fire (l : Val) (r t : Option Val) : Firing :=
  { core := 0, fp := 0, ip := 0, ctx := 0, obj := 0, task := 0, port := false, l := l, r := r, t := t, replay := none, word := none, recorded := false }

/-- A firing of two scalars 3 and 5. -/
def pair : Firing := fire (num 3) (some (num 5)) none

/-- A state with a firing in execution on core 0 of context 0, whose region is 2 by 2 cores, where that core holds frame 0. -/
def firing (g : Firing) : State := { State.reset.place0 0 with cur := some g }

/-- That state with a change to core 0. -/
def firingOn (g : Firing) (h : Core → Core) : State := (firing g).modCore 0 h

/-- That state with a change to frame 0. -/
def firingIn (g : Firing) (h : Frame → Frame) : State := (firing g).modFrameOf g h

/-- Object 0, with one page and no tables. -/
def object : ObjRec :=
  { obj := 0, index := 0, fromEp := false, ep := 0, base := 0, codeOff := 0, npages := 1, ninstr := 256, entries := [], shapes := [], taped := false, tmpls := [], hashes := [], quar := false }

/-- That state with object 0 loaded in context 0. -/
def loaded (g : Firing) : State := (firing g).modCtx 0 (fun c => { c with objs := [object] })

/-- An 8 by 8 tile of I64 rows at the start of its vault. -/
def tile8 : Tile := { Tile.reset with rows := 8, cols := 8, etype := .i64, pitch := 64, refcnt := 1, valid := true, size := 7 }

/-- The handle of tile 1 of core 0. -/
def tile1 : Val := item .tile (mkHandle 0 1 0 0 0)

/-- A firing whose L is the handle of tile 0 of core 0. -/
def onTile (r : Option Val) : Firing := fire (item .tile 0) r none

/-- That state where tile 0 of core 0 is `t`. -/
def tiled (g : Firing) (t : Tile) : State := firingOn g (fun k => { k with tiles := [(0, t)] })

/-- The tile shape word of 8 by 8 of I64 in ROW layout, as slot 4 of the frame holds it. -/
def withSlot (s : State) (g : Firing) (n : Nat) (v : Val) : State := s.modFrameOf g (fun fr => fr.setSlot n (.sticky false v))

/-- A capability of the first 2 MiB with all permissions. -/
def cap0 : Cap := { Cap.reset with extent := 2 ^ 21, valid := true, r := true, w := true, u := true }

/-- The window entry that maps its page to device address 0, readable and writable. -/
def page0 : WinEntry := { cap := 0, page := 0, log := 21, leaf := 0x0F }

/-- A firing whose L is the capability in entry 0 of core 0's table. -/
def onCap (r t : Option Val) : Firing := fire (item .cap 0) r t

/-- A core with that capability, its page and tile 0. -/
def equipped (k : Core) : Core := { k with caps := [(0, cap0)], win := [page0], tiles := [(0, tile8), (1, tile8)] }

/-- A command of a firing on an equipped core, at work. -/
def command (g : Firing) (i : Instr) (p : Phase) : Cmd := { Cmd.start 1 g i .split with phase := p }

/-- A state in which core 0 is equipped and holds a command. -/
def working (c : Cmd) : State :=
  { (firingOn c.fire (fun k => { equipped k with cmds := [c] })) with cur := none, ids := 2 }

/-- Context 0 with a page table at device address 0x1000 that maps the first GiB on itself, and a bridge queue descriptor at
0x3000 of a ring of 64 entries at 0x10000. -/
def mapped (s : State) : State :=
  { s.modCtx 0 (fun c => { c with ctxroot := 1, bqbase := 3 }) with
    hbm := [(0x1000, 0x01), (0x1001, 0x20), (0x2000, 0x1F), (0x3002, 0x01), (0x3008, 12), (0x3009, 1)] }

/-- An address generator that reads rows of 64 bytes of capability 0, 4 rows of 2 by 2, at its first row. -/
def gen0 : AddrGen :=
  { AddrGen.reset with loaded := true, cap := item .cap 0, rowb := 64, strides := [64, 128], extm1 := [1, 1] }

/-- Slot `n` of the firing's frame holds `v`, sticky. -/
def stickies (g : Firing) (vs : List Val) (h : Core → Core) : State :=
  ((firingOn g h).modFrameOf g (fun fr => { fr with slots := (List.range vs.length).zipWith (fun k v => (k + 4, Slot.sticky false v)) vs }))

/-- Those tables with two pages of 2 MiB in place of the GiB. -/
def twoPages (s : State) : State :=
  { s with hbm := [(0x1000, 0x01), (0x1001, 0x20), (0x2000, 0x01), (0x2001, 0x40), (0x4000, 0x1F), (0x4008, 0x1F), (0x400A, 0x20)] }

/-- A result that is there. -/
theorem of_toBool {ε α : Type} {x : Except ε α} (h : x.toBool = true) : ∃ t, x = .ok t := by
  cases x with
  | ok t => exact ⟨t, rfl⟩
  | error e => cases h

/-! ## Decoding -/

/-- FADD F32 slot 12 => IP 0x43, R of IP 0x50 of the parent, RM 1, PRI 2 (R55, R64). -/
theorem test_decode_fadd : decode 0x4009_400C_0000_86C0_0142_2000_0000_0000 = .ok (.fadd { zero with
    ty := .f32, ar := .dyadic, slot := 12, d0 := here 0x43, d1 := { mode := .parent, port := true, ip := 0x50 },
    pri := 2, rm := .rtz }) := by decide

/-- STEER slot 20 (chapter 8). -/
theorem test_decode_steer : decode 0x0200_4014_0000_6200_00E0_0000_0000_0000 = .ok (.steer { zero with
    ar := .dyadic, slot := 20, d0 := here 0x31, d1 := here 0x38 }) := by decide

/-- SHR.N32 #3 (chapter 9). -/
theorem test_decode_shr : decode 0x2C03_0000_0000_A580_0000_0000_0000_0003 = .ok (.shr { zero with
    ty := .n32, d0 := here 0x52, imm := 3 }) := by decide

/-- LAUNCH slot 16 (chapter 5). -/
theorem test_decode_launch : decode 0xD000_0010_0000_4240_00C0_0000_0000_0000 = .ok (.launch { zero with
    slot := 16, d0 := here 0x21, d1 := { here 0x30 with port := true } }) := by decide

/-- HCALL #40 (chapter 18). -/
theorem test_decode_hcall : decode 0xE100_0000_C000_0180_0000_0000_0000_0028 =
    .ok (.hcall { zero with imm := 40 }) := by decide

/-- TIMECMP (chapter 16). -/
theorem test_decode_timecmp : decode 0xC900_400C_0000_B180_0000_0000_0000_0020 = .ok (.timecmp { zero with
    ar := .dyadic, slot := 12, d0 := here 0x58, imm := 0x20 }) := by decide

/-- FETCH.GLB.T16 (chapter 10). -/
theorem test_decode_fetch : decode 0x6200_C014_0000_C180_0000_0002_0000_0100 = .ok (.fetchGlb { zero with
    ar := .triadic, slot := 20, d0 := here 0x60, qual := 2, imm := 0x100 }) := by decide

/-- ATOM.MIN.I64 (chapter 15). -/
theorem test_decode_atom : decode 0xB710_C01E_0000_8980_0000_0000_0000_0000 = .ok (.atom { zero with
    fn := 1, ar := .triadic, slot := 30, d0 := here 0x44 }) := by decide

/-- VRBC.SUB.F32 (chapter 12). -/
theorem test_decode_vrbc : decode 0x9919_400C_0000_E380_0000_0000_0000_0000 = .ok (.vrbc { zero with
    fn := 1, ty := .f32, ar := .dyadic, slot := 12, d0 := here 0x71 }) := by decide

/-- MMA.BF16.ACC k 20 (chapter 13), TAPEGRD (chapter 4), RESUME.DISCARD (chapter 18), LDV.STR and LDV.IDX (chapter 11) decode. -/
theorem test_decode_others :
    (decode 0xA40A_8014_0001_2180_0000_0001_0000_0000 = .ok (.mma { zero with
      ty := .bf16, ar := .sticky, slot := 20, d0 := here 0x90, qual := 1 })) ∧
    (decode 0xC300_0000_0000_8B80_0000_0000_0030_0180 = .ok (.tapegrd { zero with d0 := here 0x45, imm := 0x300180 })) ∧
    (decode 0xE410_0000_0000_8B80_0000_0000_0000_0000 = .ok (.resumeDiscard { zero with fn := 1, d0 := here 0x45 })) ∧
    (decode 0x6600_C010_2000_2780_0000_0004_0000_0000 = .ok (.ldv { zero with
      ar := .triadic, slot := 16, d0 := { here 0x13 with port := true }, qual := 4 })) ∧
    (decode 0x6610_C00C_2000_3780_0000_0001_0000_0000 = .ok (.ldv { zero with
      fn := 1, ar := .triadic, slot := 12, d0 := { here 0x1B with port := true }, qual := 1 })) := by decide

/-- An unassigned opcode is refused (R66). -/
theorem test_reject_opcode : decode 0x1800_0000_0000_0000_0000_0000_0000_0000 = .reject .opcode := by decide

/-! ## WellFormed: each check refuses a term (R67) -/

/-- ADD of a pair in slot 4, well-formed; every term below differs from it, or from NOP, in one field. -/
def good : Fields := { zero with ar := .dyadic, slot := 4, d0 := here 1 }

theorem test_wf : (Instr.add good).wf = true ∧ (Instr.nop { zero with d0 := here 1 }).wf = true ∧ (Instr.bind 15).wf = true :=
  ⟨by decide, by decide, by decide⟩
theorem test_ill_function : (Instr.addsatSub good).wf = false ∧ (Instr.cmp { good with fn := 7 }).wf = false := by decide
theorem test_ill_type : (Instr.add { good with ty := .f32 }).wf = false := by decide
theorem test_ill_arity : (Instr.sel good).wf = false := by decide
theorem test_ill_null_policy : (Instr.sync { good with np := .identity }).wf = false := by decide
theorem test_ill_slot : (Instr.add { good with slot := 3 }).wf = false ∧ (Instr.add { good with slot := 256 }).wf = false := by decide
theorem test_ill_destination : (Instr.add { good with d1 := { noDest with port := true } }).wf = false := by decide
theorem test_ill_modifier : (Instr.add { good with rm := .rtz }).wf = false ∧ (Instr.add { good with qual := 1 }).wf = false := by decide
theorem test_ill_immediate : (Instr.add { good with imm := 1 }).wf = false := by decide
theorem test_ill_agent : (Instr.bind 16).wf = false ∧ (Instr.installStart 4096 0 0).wf = false := by decide

/-- The reasons of R67 in the examples of R66: an unaccepted type is reason 3, SLOT 2 under AR 01 reason 6. -/
theorem test_reject_type : decode 0x4005_400C_0000_86C0_0142_2000_0000_0000 = .reject .type := by decide
theorem test_reject_slot : decode 0x2100_4002_0000_86C0_0142_2000_0000_0000 = .reject .slot := by decide

/-! ## Numbers -/

/-- F32 470.0 to E4M3 (R91): 480 overflows to the NaN under RNE, RTZ gives 448, SAT gives MAX. -/
theorem test_convert_e4m3 :
    convertTy .f32 .e4m3 .rne false 0 0x43EB0000 = (0x7F, flagOF ||| flagNX) ∧
    convertTy .f32 .e4m3 .rtz false 0 0x43EB0000 = (0x7E, flagNX) ∧
    convertTy .f32 .e4m3 .rne true 0 0x43EB0000 = (0x7E, flagOF ||| flagNX) := by decide

set_option maxRecDepth 20000 in
/-- The two draws of R92's table. -/
theorem test_draws : lfsrSeed 1 0 = 1 ∧ lfsrDraw 1 = 0x00000001B0000000 ∧ lfsrDraw 0x00000001B0000000 = 0xF500000000000001 := by decide
theorem test_stochastic :
    convertTy .f32 .bf16 .sr false 0xB0000000 0x3F80C000 = (0x3F81, flagNX) ∧
    convertTy .f32 .bf16 .sr false 1 0x3F80C000 = (0x3F80, flagNX) := by decide

/-- FTOI.F32.I8 (R237): 127.5 saturates under RNE with NV alone, and is 127 under RTZ; −128.5, −0.75 and a NaN. -/
theorem test_ftoi :
    convertTy .f32 .i8 .rne false 0 0x42FF0000 = (0x7F, flagNV) ∧ convertTy .f32 .i8 .rtz false 0 0x42FF0000 = (0x7F, flagNX) ∧
    convertTy .f32 .i8 .rne false 0 0xC3008000 = (0x80, flagNX) ∧ convertTy .f32 .i8 .rup false 0 0xBF400000 = (0, flagNX) ∧
    convertTy .f32 .i8 .rne false 0 0x7FC00000 = (0, flagNV) := by decide

/-- The value that DIV or REM leaves in the divider. -/
def quotient (o : Host.Outcome State Machine.Fault Refusal) : List U64 :=
  match o with
  | .next s => (s.core 0).divider.map (fun e => e.val.value)
  | _ => []

/-- −7 / 2 is −3 with remainder −1 (R225), as I32. -/
theorem test_div : quotient (exec (.div { zero with ty := .i32 }) (firing (fire (num 0xFFFFFFF9) (some (num 2)) none))) = [0xFFFFFFFFFFFFFFFD] := by decide
theorem test_rem : quotient (exec (.rem { zero with ty := .i32 }) (firing (fire (num 0xFFFFFFF9) (some (num 2)) none))) = [0xFFFFFFFFFFFFFFFF] := by decide
/-- 5 / 0 is −1 as I32 and 0xFFFF_FFFF as N32; the least I32 over −1 is itself (R225). -/
theorem test_div_corners :
    quotient (exec (.div { zero with ty := .i32 }) (firing (fire (num 5) (some (num 0)) none))) = [0xFFFFFFFFFFFFFFFF] ∧
    quotient (exec (.div { zero with ty := .n32 }) (firing (fire (num 5) (some (num 0)) none))) = [0xFFFFFFFF] ∧
    quotient (exec (.div { zero with ty := .i32 }) (firing (fire (num 0x80000000) (some (num 0xFFFFFFFF)) none))) = [0xFFFFFFFF80000000] := by decide

/-- The values of the tokens on their way to core 0, oldest first. -/
def sent (o : Host.Outcome State Machine.Fault Refusal) : List (BitVec 20 × Bool × U64) :=
  match o with
  | .next s => (s.core 0).inbox.filterMap (fun m => match m.msg with
    | .token t _ => some (t.ip, t.port, t.val.value)
    | _ => none)
  | _ => []

/-- SAR.N32 of 0x8000_0000 by 1 is 0xC000_0000, extended with zeros (R226). -/
theorem test_sar : sent (exec (.sar { zero with ty := .n32, imm := 1, d0 := here 0x52 }) (firing (fire (num 0x80000000) none none))) =
    [(0x52, false, 0xC0000000)] := by decide

/-- A step runs the word at its IP: SHR.N32 #3 of 0 sends 0 to IP 0x52 (chapter 9), and FADD of zeros +0 to IP 0x43. -/
theorem test_step_shr : sent (step (State.reset.withFetchWord 128 0x2C03_0000_0000_A580_0000_0000_0000_0003)) = [(0x52, false, 0)] := by decide
theorem test_step_steer : sent (step (State.reset.withFetchWord 128 0x0200_4014_0000_6200_00E0_0000_0000_0000)) = [(0x38, false, 0)] := by decide

/-- The handle of R45's example, and the token word of R44's: tile 7 of virtual core 0x123, GEN 2, rows 16 to 47. -/
theorem test_handle : mkHandle 0x123 7 2 16 32 = 0x1230_0702_0100_2000 := by decide
/-- The fault codes of R422's example: PAGE_ABSENT 0x57, REL_ABORT 0x8A, MEM_POISON 0x93. -/
theorem test_fault_codes : FaultClass.pageAbsent.code = 0x57 ∧ FaultClass.relAbort.code = 0x8A ∧ FaultClass.memPoison.code = 0x93 := by decide
/-- Virtual core 0x123 of the region of R165's example is physical core 0x223; 0x400 lies outside it. -/
theorem test_region :
    ({ Ctx.reset with x0 := 16, wm1 := 31, hm1 := 15 } : Ctx).phys 0x123 = some 0x223 ∧
    ({ Ctx.reset with x0 := 16, wm1 := 31, hm1 := 15 } : Ctx).phys 0x400 = none ∧
    ({ Ctx.reset with x0 := 32, y0 := 16, wm1 := 31, hm1 := 15 } : Ctx).phys 0x123 = some 0x723 := by decide

/-! ## Witnesses: the hypotheses of each statement can be met -/

theorem test_witness_EncodeDecodeRoundTrip : ∃ i w, Instr.wf i = true ∧ encode i = some w := ⟨.add good, _, by decide, rfl⟩
theorem test_witness_DecodedWordEncodesBack : ∃ w i, decode w = .ok i :=
  ⟨0x2C03_0000_0000_A580_0000_0000_0000_0003, _, rfl⟩
theorem test_witness_StepKeepsMemoryCanonical : ∃ s t, s.memOk ∧ step s = .next t :=
  ⟨State.reset.withFetchWord 128 0x2C03_0000_0000_A580_0000_0000_0000_0003, _, by decide, rfl⟩

/-- Without power; with an operator; with a step that must follow; with an event of the schedule; with nothing. -/
theorem test_witness_StepRunsDecodedInstruction :
    (∃ s : State, s.mod.powered = false) ∧
    (∃ (s : State) (g : Firing) (w : U128) (i : Instr), s.mod.powered = true ∧ s.cur = some g ∧ s.fetch g = some w ∧ decode w = .ok i) ∧
    (∃ (s : State) (i : Instr) (rest : List Instr), s.mod.powered = true ∧ s.cur = none ∧ s.due = i :: rest) ∧
    (∃ (s : State) (n : Nat) (i : Instr) (rest : List (Nat × Instr)), s.mod.powered = true ∧ s.cur = none ∧ s.due = [] ∧ s.agenda = (n, i) :: rest) ∧
    (∃ s : State, s.mod.powered = true ∧ s.cur = none ∧ s.due = [] ∧ s.agenda = []) :=
  ⟨⟨{ State.reset with mod := { Module.reset with powered := false } }, rfl⟩,
    ⟨State.reset.withFetchWord 128 0x2C03_0000_0000_A580_0000_0000_0000_0003, _, _, _, rfl, rfl, rfl, rfl⟩,
    ⟨{ State.reset with due := [.bind 0] }, _, _, rfl, rfl, rfl⟩, ⟨{ State.reset with agenda := [(3, .bind 0)] }, _, _, _, rfl, rfl, rfl, rfl⟩,
    ⟨State.reset, rfl, rfl, rfl, rfl⟩⟩

theorem test_witness_SpecWordsDecode : ∃ w : U128, 0x18 ≤ (w.extractLsb' 120 8).toNat ∧ (w.extractLsb' 120 8).toNat < 0x20 :=
  ⟨0x1800_0000_0000_0000_0000_0000_0000_0000, by decide⟩

theorem test_witness_OperandChecks :
    (∃ (s : State) (g : Firing) (v : Val), s.cur = some g ∧ g.vals.find? (fun v => v.kind = .fault) = some v) ∧
    (∃ (s : State) (g : Firing) (v : Val), s.cur = some g ∧ (∀ v ∈ g.vals, v.kind ≠ .fault) ∧
      (g.l :: g.r.toList).find? (fun v => v.kind = .marker) = some v) ∧
    (∃ (s : State) (g : Firing), s.cur = some g ∧ (∀ v ∈ g.vals, v.kind ≠ .fault) ∧ (∀ v ∈ g.l :: g.r.toList, v.kind ≠ .marker) ∧
      ∃ v ∈ g.vals, v.kind = .null) ∧
    (∃ (s : State) (g : Firing), s.cur = some g ∧ g.plain ∧ ¬g.scalars) :=
  ⟨⟨firing (fire (num 1) (some (item .fault 0)) none), _, _, rfl, rfl⟩, ⟨firing (fire (item .marker 0) none none), _, _, rfl, by decide, rfl⟩,
    ⟨firing (fire (item .null 0) none none), _, rfl, by decide, by decide, _, List.mem_cons_self .., rfl⟩,
    ⟨firing (fire (item .tile 0) none none), _, rfl, by decide, by decide⟩⟩

/-- A log that is full or absent, one with room where the write translates or not, and a firing that no recording knows. -/
theorem test_witness_FaultRecordResults :
    (∃ (s : State) (r : FaultRec), (s.ctx r.ctx).flog = 0) ∧
    (∃ (s : State) (x : Nat), (s.ctx x).flog ≠ 0 ∧ (s.ctx x).flogn ≠ 0 ∧ ((s.ctx x).flogWr - (s.ctx x).flogRd).toNat ≠ (s.ctx x).flogn) ∧
    (∃ (s : State) (g : Firing), g.replay = none ∧ s.recording? g.core g.task = none ∧
      ∃ fp, s.destFp g (here 1) = some fp) :=
  ⟨⟨State.reset, { cls := .kind, ctx := 0, core := 0, obj := 0, ip := 0, fp := 0, precise := true, parked := false, supv := false, token := false, port := 0, reason := 0, d0 := 0, d1 := 0, d2 := 0 }, rfl⟩,
    ⟨State.reset.setCtx 0 { Ctx.reset with flog := 64, flogn := 16 }, 0, by decide, by decide, by decide⟩,
    ⟨firing pair, pair, rfl, rfl, _, rfl⟩⟩

theorem test_witness_ScalarOperatorFrame : ∃ (s : State) (g : Firing), s.cur = some g ∧ g.scalars ∧ s.delivers g zero :=
  ⟨firing pair, pair, rfl, by decide, rfl, by simp [State.reaches, zero, noDest], by simp [State.reaches, zero, noDest]⟩

/-- Two scalars: the hypotheses of the statements of the scalar operators. -/
theorem test_witness_scalars : ∃ (s : State) (g : Firing), s.cur = some g ∧ g.scalars := ⟨firing pair, pair, rfl, by decide⟩
theorem test_witness_IntegerArithmeticResults : ∃ (s : State) (g : Firing), s.cur = some g ∧ g.scalars := test_witness_scalars
theorem test_witness_SaturatingAndCompareResults : ∃ (s : State) (g : Firing) (f : Fields), s.cur = some g ∧ g.scalars ∧ f.fn.toNat ≤ 6 :=
  ⟨firing pair, pair, { zero with fn := 6 }, rfl, by decide, by decide⟩
theorem test_witness_DivisionResults : ∃ (s : State) (g : Firing), s.cur = some g ∧ g.scalars := test_witness_scalars
theorem test_witness_ShiftAndFieldResults : ∃ (s : State) (g : Firing) (f : Fields), s.cur = some g ∧ g.scalars ∧
    f.imm.toNat % 64 + (f.imm.toNat / 256 % 64 + 1) ≤ 64 := ⟨firing pair, pair, { zero with imm := 0x3F00 }, rfl, by decide, by decide⟩

/-- A token and a predicate, or two tokens and a predicate, in a task that is not recorded; and a null alone. -/
theorem test_witness_RoutingResults :
    (∃ (s : State) (g : Firing) (r : Val), s.cur = some g ∧ g.plain ∧ s.recording? g.core g.task = none ∧ g.r = some r ∧ g.t = none ∧ r.kind = .scalar) ∧
    (∃ (s : State) (g : Firing) (r t : Val), s.cur = some g ∧ g.plain ∧ g.r = some r ∧ g.t = some t ∧ t.kind = .scalar) ∧
    (∃ (s : State) (g : Firing), s.cur = some g ∧ g.r = none ∧ g.t = none ∧ g.l.kind ≠ .marker ∧ g.l.kind ≠ .fault) :=
  ⟨⟨firing pair, pair, num 5, rfl, by decide, rfl, rfl, rfl, rfl⟩,
    ⟨firing (fire (num 1) (some (num 2)) (some (num 0))), _, num 2, num 0, rfl, by decide, rfl, rfl, rfl⟩,
    ⟨firing (fire (item .null 0) none none), _, rfl, rfl, rfl, by decide, by decide⟩⟩

/-- A round next to FROUND, and one 128 away; a slot in each state, a header slot, and a slot beyond a frame of class 0. -/
theorem test_witness_RoundAndSlotResults :
    (∃ (s : State) (g : Firing) (fr : Frame), s.cur = some g ∧ g.plain ∧ s.retire.frameOf g = some fr ∧ (g.l.round + 1) - fr.fround = 128) ∧
    (∃ (s : State) (g : Firing), s.cur = some g ∧ g.plain ∧ ∀ fr, s.retire.frameOf g = some fr → (g.l.round + 1) - fr.fround ≠ 128) ∧
    (∃ (s : State) (g : Firing) (f : Fields) (fr : Frame), s.cur = some g ∧ g.plain ∧ s.retire.frameOf g = some fr ∧ 2 ^ (fr.cls + 4) ≤ f.slot.toNat) ∧
    (∃ (s : State) (g : Firing) (fr : Frame), s.cur = some g ∧ g.plain ∧ s.retire.frameOf g = some fr ∧ 15 < 2 ^ (fr.cls + 4) ∧
      fr.slot 15 = .empty ∧ fr.slot 14 = .parked true (num 1) ∧ fr.slot 13 = .sticky false (num 2)) :=
  ⟨⟨firing (fire { num 1 with round := 127 } none none), _, bootFrame, rfl, by decide, by decide, by decide⟩,
    ⟨firing pair, pair, rfl, by decide, by rintro fr h; cases h; decide⟩,
    ⟨firing pair, pair, { zero with slot := 16 }, bootFrame, rfl, by decide, by decide, by decide⟩,
    ⟨firingIn pair (fun fr => { fr with slots := [(13, .sticky false (num 2)), (14, .parked true (num 1))] }), pair, _, rfl, by decide, rfl,
      by decide, rfl, rfl, rfl⟩⟩

/-- A frame that is pending, a root frame, one that is no root, and a frame pointer whose core lies in the region. -/
theorem test_witness_FrameEndResults :
    (∃ (s : State) (g : Firing) (fr : Frame), s.cur = some g ∧ g.plain ∧ g.r = none ∧ g.t = none ∧ s.retire.frameOf g = some fr ∧ fr.freepend = true) ∧
    (∃ (s : State) (g : Firing) (fr : Frame), s.cur = some g ∧ g.plain ∧ g.r = none ∧ g.t = none ∧ s.retire.frameOf g = some fr ∧
      fr.freepend = false ∧ fr.root = true ∧ fr.worker = none ∧ g.l.kind = .scalar ∧
      ∃ dst, s.retire.fpCore g.ctx (g.l.value.extractLsb' 32 32) = some dst) ∧
    (∃ (s : State) (g : Firing) (fr : Frame), s.cur = some g ∧ g.plain ∧ g.r = none ∧ g.t = none ∧ s.retire.frameOf g = some fr ∧
      fr.freepend = false ∧ fr.root = false) :=
  ⟨⟨firingIn (fire (num 1) none none) (fun fr => { fr with freepend := true }), _, _, rfl, by decide, rfl, rfl, rfl, rfl⟩,
    ⟨firing (fire (num 1) none none), _, bootFrame, rfl, by decide, rfl, rfl, rfl, rfl, rfl, rfl, rfl, _, rfl⟩,
    ⟨firingIn (fire (num 1) none none) (fun fr => { fr with root := false }), _, _, rfl, by decide, rfl, rfl, rfl, rfl, rfl⟩⟩

set_option maxRecDepth 10000 in
/-- A child of the host's continuation; a target core where its object is enabled, with a free place and with allocations that wait; a policy with no target; an object that
is disabled, and one that is pending, on the target's partition; CALL.EXT of an object with an entry. -/
theorem test_witness_ChildFrameResults :
    (∃ (s : State) (g : Firing) (f : Fields) (fr : Frame), s.cur = some g ∧ g.plain ∧ g.r = none ∧ g.t = none ∧ s.retire.frameOf g = some fr ∧
      f.qual.toNat % 16 < 4 ∧ f.d1.mode = .parent ∧ fr.hostc = true) ∧
    (∃ (s : State) (g : Firing) (f : Fields) (fr : Frame) (v p : Nat), s.cur = some g ∧ g.plain ∧ g.r = none ∧ g.t = none ∧
      s.retire.frameOf g = some fr ∧ f.qual.toNat % 16 < 4 ∧ ¬(f.d1.mode = .parent ∧ fr.hostc = true) ∧ f.fn = 0 ∧
      s.retire.childTarget g.ctx g.core g.task (f.qual.toNat % 16) g.l.value = some (v, p) ∧ s.retire.allocState g g.obj p = .allowed ∧
      (let u := s.retire.liveInc g.ctx g.fp
       (u.core p).allocs = [] ∧ (u.core p).framePark = none ∧ u.objStatus g.ctx g.obj ≠ .loading ∧ g.obj ∉ (u.core p).quar ∧
         (u.core p).framePlaces (classUnits 0) ≠ [])) ∧
    (∃ (s : State) (g : Firing), s.retire.childTarget g.ctx g.core g.task 0 g.l.value = some (0, 0) ∧ s.retire.allocState g g.obj 0 = .allowed ∧
      (s.core 0).framePark ≠ none) ∧
    (∃ (s : State) (g : Firing), g.l.kind = .scalar ∧ s.retire.childTarget g.ctx g.core g.task 5 g.l.value = none) ∧
    (∃ (s : State) (g : Firing), s.retire.allocState g g.obj 0 = .disabled) ∧ (∃ (s : State) (g : Firing), s.retire.allocState g g.obj 0 = .held) ∧
    (∃ (s : State) (g : Firing) (o : ObjRec) (ip : BitVec 20) (cls : Nat), s.objOn 0 g.ctx 5 = .usable o ∧ o.entries = [(ip, cls)] ∧ ip.toNat < o.ninstr ∧
      s.retire.allocState g 5 0 = .allowed ∧ (s.core 0).framePlaces (classUnits cls) ≠ []) :=
  let g : Firing := fire (num 1) none none
  ⟨⟨firing g, g, { zero with d1 := { here 1 with mode := .parent } }, bootFrame, rfl, by decide, rfl, rfl, by decide, by decide, rfl, rfl⟩,
    ⟨loaded g, g, zero, bootFrame, 0, 0, rfl, by decide, rfl, rfl, by decide, by decide, by decide, rfl, by decide, by decide, by decide, by decide, by decide, by decide, by decide⟩,
    ⟨(loaded g).modCore 0 (fun k => { k with framePark := some .frameSpill }), g, by decide, by decide, by decide⟩,
    ⟨loaded (fire (num 0xFFF) none none), fire (num 0xFFF) none none, rfl, by decide⟩,
    ⟨firing g, g, by decide⟩,
    ⟨(loaded g).setPart 0 { ctx := 0, states := [(0, .pending)], reqs := [], switch := none, hold := [], edge := [] }, g, by decide⟩,
    ⟨(firing g).modCtx 0 (fun c => { c with objs := [{ object with obj := 5, entries := [(16, 1)] }] }), g, _, _, _, rfl, rfl, by decide, by decide, by decide⟩⟩

theorem test_witness_RoundingChoosesNeighbour : tyFloat .f32 = true ∧ 0 < 1 ∧ 0 < 3 := by decide

/-- 0, 1 and −1 as F32 encodings. -/
theorem test_rat_zero : floatRat .f32 0 = some 0 := by
  rw [floatRat, show decodeFloat .f32 0 = .fin false 0 149 from by decide]; simp
theorem test_rat_one : floatRat .f32 0x3F800000 = some 1 := by
  rw [floatRat, show decodeFloat .f32 0x3F800000 = .fin false (2 ^ 149) 149 from by decide]; norm_num
theorem test_rat_minus_one : floatRat .f32 0xBF800000 = some (-1) := by
  rw [floatRat, show decodeFloat .f32 0xBF800000 = .fin true (2 ^ 149) 149 from by decide]; norm_num
theorem test_rat_minus_zero : floatRat .f32 0x80000000 = some 0 := by
  rw [floatRat, show decodeFloat .f32 0x80000000 = .fin true 0 149 from by decide]; simp

/-- Finite operands; a zero divisor, a zero dividend, both zero, neither, and a root of each sign. -/
theorem test_witness_FloatArithmeticResults :
    (∃ (s : State) (g : Firing), s.cur = some g ∧ g.scalars ∧ tyFloat .f32 = true ∧ (floatRat .f32 g.l.value.toNat).isSome = true ∧
      (floatRat .f32 ((g.r.map Val.value).getD 0).toNat).isSome = true ∧ (floatRat .f32 ((g.t.map Val.value).getD 0).toNat).isSome = true) ∧
    floatRat .f32 0 = some 0 ∧ (∃ x, floatRat .f32 0x3F800000 = some x ∧ 0 < x) ∧ (∃ x, floatRat .f32 0xBF800000 = some x ∧ x < 0) :=
  ⟨⟨firing pair, pair, rfl, by decide, by decide, by decide, by decide, by decide⟩, test_rat_zero, ⟨_, test_rat_one, by norm_num⟩, ⟨_, test_rat_minus_one, by norm_num⟩⟩

/-- A NaN, an infinity and a finite number of each conversion and selection. -/
theorem test_witness_FloatConversionResults :
    (∃ (s : State) (g : Firing), s.cur = some g ∧ g.scalars) ∧ decodeFloat .f32 0x7FC00000 = .nan false ∧ decodeFloat .f32 0x7F800001 = .nan true ∧
    decodeFloat .f32 0xFF800000 = .inf true ∧ (floatRat .f32 0x80000000 = some 0 ∧ (0x80000000 : Nat).testBit 31 = true) ∧
    tyFloat (tyOf 3) = false ∧ tyFloat (tyOf 9) = true :=
  ⟨test_witness_scalars, by decide, by decide, by decide, ⟨test_rat_minus_zero, by decide⟩, by decide, by decide⟩

/-- The three slots of RJOIN; a token and a predicate for COMPACT; the slot and arms of ORDMERGE. -/
theorem test_witness_StreamJoinResults :
    (∃ (s : State) (g : Firing) (fr : Frame) (w a b : Val), s.cur = some g ∧ g.r = none ∧ g.t = none ∧ s.retire.frameOf g = some fr ∧
      13 + 2 < 2 ^ (fr.cls + 4) ∧ fr.slot 13 = .parked false w ∧ fr.slot 14 = .parked false a ∧ fr.slot 15 = .parked false b ∧
      g.l.kind = .scalar ∧ g.l.round = (Rjoin.ofWord w.value).cur) ∧
    (∃ (s : State) (g : Firing) (fr : Frame) (r c : Val), s.cur = some g ∧ g.r = some r ∧ g.t = none ∧ g.replay = none ∧ s.recording? g.core g.task = none ∧
      s.retire.frameOf g = some fr ∧ 14 + 1 < 2 ^ (fr.cls + 4) ∧ fr.slot 15 = .parked false c ∧ c.value.toNat < 2 ^ 32 - 1 ∧
      g.l.kind = .scalar ∧ r.kind = .scalar ∧ r.value ≠ 0) ∧
    (∃ (s : State) (g : Firing) (fr : Frame) (w : Val) (arms : Arms), s.cur = some g ∧ g.r = none ∧ g.t = none ∧ g.l.kind ≠ .fault ∧
      g.l.kind ≠ .null ∧ s.retire.frameOf g = some fr ∧ 15 < 2 ^ (fr.cls + 4) ∧ fr.slot 15 = .parked false w ∧
      Table.find fr.arms 15 = some arms ∧ arms.left = [] ∧ g.l.kind ≠ .marker ∧ g.l.round = w.value.extractLsb' 56 8 ∧ g.port = w.value.getLsbD 55) :=
  ⟨⟨firingIn (fire (num 1) none none) (fun fr => { fr with slots := [(13, .parked false (num 0)), (14, .parked false (num 7)), (15, .parked false (num 0))] }),
      _, _, num 0, num 7, num 0, rfl, rfl, rfl, rfl, by decide, rfl, rfl, rfl, rfl, by decide⟩,
    ⟨firingIn pair (fun fr => { fr with slots := [(15, .parked false (num 4))] }), pair, _, num 5, num 4, rfl, rfl, rfl, rfl, rfl, rfl, by decide, rfl, by decide,
      rfl, rfl, by decide⟩,
    ⟨firingIn (fire (num 1) none none) (fun fr => { fr with slots := [(15, .parked false (num 0))], arms := [(15, { lbase := 1, rbase := 2, units := 1, depth := 2, left := [], right := [] })] }),
      _, _, num 0, _, rfl, rfl, rfl, by decide, by decide, rfl, by decide, rfl, rfl, rfl, by decide, by decide, by decide⟩⟩

set_option maxRecDepth 20000 in
/-- SWITCH within the region and beyond it; a request of a partition for an object that is loaded; a switch that drains. -/
theorem test_witness_SwitchResults :
    (∃ (s : State) (g : Firing) (f : Fields) (p : Nat), s.cur = some g ∧ g.scalars ∧ f.qual.getLsbD 0 = false ∧
      (s.ctx g.ctx).phys (f.imm.toNat % 16 * 256) = some p) ∧
    (∃ (s : State) (g : Firing) (f : Fields), s.cur = some g ∧ g.scalars ∧ f.qual.getLsbD 0 = false ∧
      (s.ctx g.ctx).phys (f.imm.toNat % 16 * 256) = none) ∧
    (∃ (s : State) (g : Firing) (x : Nat × Fields) (rest : List Firing), s.formOf g = some x ∧ (s.part 0 0).reqs = g :: rest ∧ (s.part 0 0).ctx = 0 ∧
      s.objStatus 0 0 = .usable object ∧ object.quar = false ∧ (s.part 0 0).state 9 = .enabled ∧ (s.ctx 0).obj? 9 ≠ none) ∧
    (∃ (s : State) (g : Firing) (x : Nat × Fields), s.formOf g = some x ∧ (s.part 0 0).switch = some (9, 0, g) ∧ s.inflight 0 0 9 = false) ∧
    (∃ (s : State) (g : Firing) (opc : Nat) (f : Fields) (r : Val), s.cur = some g ∧ g.scalars ∧ f.qual.getLsbD 0 = true ∧ s.formOf g = some (opc, f) ∧ g.r = some r ∧
      (s.part (g.core / 256) g.ctx).reqs = [] ∧ (s.part (g.core / 256) g.ctx).ctx = g.ctx ∧ (s.part (g.core / 256) g.ctx).switch = none ∧
      s.objStatus g.ctx (r.value.extractLsb' 0 32) = .usable { object with obj := 5 } ∧ (s.ctx g.ctx).obj? (g.l.value.extractLsb' 0 32) = none) :=
  let h : Firing := { pair with word := some 0x1600_4004_0000_0380_0000_0001_0000_0000 }
  let g : Firing := { pair with word := some 0x2C03_0000_0000_A580_0000_0000_0000_0003 }
  ⟨⟨firing pair, pair, zero, 0, rfl, by decide, rfl, by decide⟩, ⟨firing pair, pair, { zero with imm := 1 }, rfl, by decide, rfl, by decide⟩,
    ⟨((loaded pair).modCtx 0 (fun c => { c with objs := [object, { object with obj := 9 }] })).setPart 0 { ctx := 0, states := [], reqs := [g], switch := none, hold := [], edge := [] },
      g, _, [], rfl, rfl, rfl, rfl, rfl, by decide, by decide⟩,
    ⟨State.reset.setPart 0 { ctx := 0, states := [], reqs := [], switch := some (9, 0, g), hold := [], edge := [] }, g, _, rfl, rfl, by decide⟩,
    ⟨(firing h).modCtx 0 (fun c => { c with objs := [{ object with obj := 5 }] }), h, _, _, _, rfl, by decide, by decide, rfl, rfl, rfl, rfl, rfl, rfl, rfl⟩⟩

/-- A handle of a good tile of the firing core, and one of another core of the region; with one reference, with more, with all of them. -/
theorem test_witness_TileReferenceResults :
    (∃ (s : State) (g : Firing) (v : View), s.cur = some g ∧ g.r = none ∧ g.t = none ∧ g.l.kind = .tile ∧ s.view g.ctx g.l.value false = .ok v ∧
      v.core = g.core ∧ (s.core g.core).barred 16 s.ids = false ∧ v.tile.refcnt = 1 ∧ v.tile.bars = [] ∧ v.tile.busy = 0 ∧ v.tile.published = false) ∧
    (∃ (s : State) (g : Firing) (v : View), s.view g.ctx g.l.value false = .ok v ∧ v.core = g.core ∧ v.tile.refcnt = 65535) ∧
    (∃ (s : State) (g : Firing) (v : View), s.cur = some g ∧ s.view g.ctx g.l.value false = .ok v ∧ v.core ≠ g.core) ∧
    (∃ (s : State) (x : Shape), s.shapeOf pair 0 = some x ∧ x.span = some (512, 64)) :=
  ⟨⟨tiled (onTile none) tile8, onTile none, _, rfl, rfl, rfl, rfl, rfl, rfl, rfl, rfl, rfl, rfl, rfl⟩,
    ⟨tiled (onTile none) { tile8 with refcnt := 65535 }, onTile none, _, rfl, rfl, rfl⟩,
    ⟨(firing (fire (item .tile (mkHandle 1 0 0 0 0)) none none)).modCore 1 (fun k => { k with tiles := [(0, tile8)] }), _, _, rfl, rfl, by decide⟩,
    ⟨(loaded pair).modCtx 0 (fun c => { c with objs := [{ object with shapes := [{ rows := 8, cols := 8, etype := .i64, layout := 0, pitch := 64 }] }] }), _, rfl, rfl⟩⟩

set_option maxRecDepth 20000 in
/-- TNEW with room and with none, and a command at the head of the vault's queue. -/
theorem test_witness_NewTileResults :
    (∃ (s : State) (g : Firing) (x : Shape) (size : Nat × Nat × Nat), s.cur = some g ∧ g.scalars ∧ s.shapeOf g 0 = some x ∧
      shapeSize x false = some size ∧ (s.core g.core).barred 16 s.ids = false ∧ (s.ctx g.ctx).phys (s.vcoreOf g.core).toNat = some g.core ∧
      (s.core g.core).tnewQueue = [] ∧ (List.range 4096).find? (fun n => ((s.core g.core).tile n).free) = some 0 ∧
      (s.core g.core).freeSpan size.1 size.2.1 = some 0) ∧
    (∃ (s : State) (c : Cmd), (s.core 0).tnewQueue = [c] ∧ c.fields = some zero) ∧
    (∃ (s : State), ((s.core 0).tile 0).held = true ∧ ((s.core 0).tile 0).busy = 0) :=
  ⟨⟨(loaded pair).modCtx 0 (fun c => { c with objs := [{ object with shapes := [{ rows := 8, cols := 8, etype := .i64, layout := 0, pitch := 64 }] }] }),
      pair, _, _, rfl, by decide, rfl, rfl, rfl, rfl, rfl, rfl, by decide⟩,
    ⟨State.reset.setCore 0 { Core.reset with tnewQueue := [Cmd.start 1 pair (.tnewHere zero) .split] }, _, rfl, rfl⟩,
    ⟨State.reset.setCore 0 { Core.reset with tiles := [(0, { tile8 with held := true })] }, rfl, rfl⟩⟩

/-- FETCH.GLB and TFILL on tiles of the own vault and a good capability; a stale handle; a view beyond its capability; a destination in shadow; a tile of another
core; a stale capability. -/
theorem test_witness_CopyAcceptance :
    (∃ (s : State) (g : Firing) (f : Fields), s.cur = some g ∧ g.plain ∧ g.l.kind = .cap ∧ (∀ v, g.r = some v → v.kind = .tile) ∧
      (∀ v k, g.t = some v → some Kind.scalar = some k → v.kind = k) ∧
      let c : Cmd := { Cmd.start 0 g (.fetchGlb f) .split with caps := (Cmd.start 0 g (.fetchGlb f) .split).capParts }
      s.retire.partsCheck c f false c.parts = .ok false ∧ (∀ p ∈ c.parts, s.retire.partRemote c p = false) ∧
      s.retire.describe c f = none ∧ s.retire.copyDestCheck c = none) ∧
    (∃ (s : State) (g : Firing) (f : Fields), s.cur = some g ∧ g.plain ∧ g.l.kind = .tile ∧ (∀ v, g.r = some v → v.kind = .scalar) ∧
      let c : Cmd := { Cmd.start 0 g (.tfill f) .split with caps := (Cmd.start 0 g (.tfill f) .split).capParts }
      s.retire.partsCheck c f false c.parts = .ok false ∧ (∀ p ∈ c.parts, s.retire.partRemote c p = false) ∧
      s.retire.describe c f = none ∧ s.retire.copyDestCheck c = none) ∧
    (∃ (s : State) (g : Firing) (f : Fields), s.cur = some g ∧ g.plain ∧ let c : Cmd := Cmd.start 0 g (.tfill f) .split
      s.retire.partsCheck c f false c.parts = .error (.staleHandle, 0, 0)) ∧
    (∃ (s : State) (g : Firing) (f : Fields), s.cur = some g ∧ g.plain ∧ let c : Cmd := Cmd.start 0 g (.tcopy f) .split
      s.retire.partsCheck c f false c.parts = .ok false ∧ (s.retire.describe c f).isSome = true) ∧
    (∃ (s : State) (g : Firing) (f : Fields), s.cur = some g ∧ g.plain ∧ let c : Cmd := Cmd.start 0 g (.tfill f) .split
      s.retire.partsCheck c f false c.parts = .ok false ∧ s.retire.describe c f = none ∧ (s.retire.destHere c false).isSome = true ∧ s.retire.copyDestCheck c = some .tilePublished) ∧
    (∃ (s : State) (g : Firing) (f : Fields), s.cur = some g ∧ g.plain ∧ let c : Cmd := Cmd.start 0 g (.tcopy f) .split
      s.retire.partsCheck c f false c.parts = .ok false ∧ (∃ p ∈ c.parts, s.retire.partRemote c p = true)) ∧
    (∃ (s : State) (g : Firing) (f : Fields), s.cur = some g ∧ g.plain ∧ let c : Cmd := Cmd.start 0 g (.fetchGlb f) .split
      s.retire.partsCheck c f false c.parts = .ok true ∧ s.retire.copyDestCheck c = none ∧ (s.core g.core).heldBack (2, 0) s.ids = false ∧
        ∀ d ∈ (s.core g.core).cmds, d.id ≠ s.ids) :=
  let far : Val := item .tile (mkHandle 1 0 0 0 0)
  ⟨⟨firingOn (onCap (some (item .tile 0)) (some (num 0))) equipped, _, { zero with ar := .triadic, slot := 4 }, rfl, by decide, rfl,
      by rintro v ⟨⟩; rfl, by rintro v k ⟨⟩ ⟨⟩; rfl, by decide, by decide, by decide, by decide⟩,
    ⟨firingOn (onTile (some (num 9))) equipped, _, { zero with ar := .dyadic, slot := 4 }, rfl, by decide, rfl, by rintro v ⟨⟩; rfl,
      by decide, by decide, by decide, by decide⟩,
    ⟨firing (onTile (some (num 9))), _, zero, rfl, by decide, by decide⟩,
    ⟨firingOn (onTile (some (item .tile (mkHandle 0 1 0 0 0)))) (fun k => { k with tiles := [(0, tile8), (1, { tile8 with rows := 4 })] }), _, zero, rfl, by decide, by decide, by decide⟩,
    ⟨tiled (onTile (some (num 9))) { tile8 with published := true }, _, zero, rfl, by decide, by decide, by decide, by decide, by decide⟩,
    ⟨firingOn (onTile (some far)) equipped, _, zero, rfl, by decide, by decide, .tile far true, by decide, by decide⟩,
    ⟨firingOn (onCap (some (item .tile 0)) (some (num 0))) (fun k => { equipped k with caps := [(0, { cap0 with gen := 1 })] }), _, zero, rfl, by decide, by decide, by decide, by decide, by decide⟩⟩

/-- A capability with offsets inside, at the end and beyond its 2 MiB, a second one for PUBLISH.GLB, and one whose page the context may own; a tile. -/
theorem test_witness_CapabilityCommands :
    (∃ (s : State) (g : Firing) (n : Nat) (e : Cap), s.cur = some g ∧ g.plain ∧ g.l.kind = .cap ∧ s.capOperand g g.l.value = .ok n e ∧
      (∀ v ∈ g.r.toList ++ g.t.toList, v.kind = .scalar) ∧ (2 ^ 21 - 8) + 8 ≤ e.extent ∧ e.extent < (2 ^ 21 - 7) + 8 ∧ e.r = true ∧ e.w = true ∧
      (2 ^ 21 - 8) % 8 = 0 ∧ (2 ^ 21 - 9) % 8 ≠ 0) ∧
    (∃ (s : State) (g : Firing) (n : Nat) (e : Cap), s.capOperand g g.l.value = .ok n e ∧ e.r = false) ∧
    (∃ (s : State) (g : Firing) (n m : Nat) (e e' : Cap) (r : Val), s.cur = some g ∧ g.plain ∧ s.capOperand g g.l.value = .ok n e ∧
      g.r = some r ∧ r.kind = .cap ∧ s.capOperand g r.value = .ok m e') ∧
    (∃ (s : State) (g : Firing) (v : View), s.cur = some g ∧ g.l.kind = .tile ∧ g.r = none ∧ g.t = none ∧ s.view g.ctx g.l.value false = .ok v ∧
      v.core = g.core) ∧
    (∃ (s : State) (g : Firing) (n p : Nat) (e : Cap), s.cur = some g ∧ g.l.kind = .cap ∧ s.capOperand g g.l.value = .ok n e ∧ g.t = none ∧
      (∀ r, g.r = some r → r.kind = .scalar ∧ r.value = 1) ∧ e.u = true ∧ (s.ctx g.ctx).phys 1 = some p ∧
      s.retire.ownPages e.root.toNat (e.extent / 2 ^ 21 + 2) e.vbase e.extent = true ∧ (s.ctx g.ctx).owned = []) :=
  ⟨⟨firingOn (onCap (some (num 0)) none) equipped, _, 0, cap0, rfl, by decide, rfl, rfl, by decide, by decide, by decide, rfl, rfl, by decide, by decide⟩,
    ⟨firingOn (onCap none none) (fun k => { k with caps := [(0, { cap0 with r := false })] }), onCap none none, 0, _, rfl, rfl⟩,
    ⟨firingOn (onCap (some (item .cap 0)) none) equipped, _, 0, 0, cap0, cap0, item .cap 0, rfl, by decide, rfl, rfl, rfl, rfl⟩,
    ⟨firingOn (onTile none) equipped, _, _, rfl, rfl, rfl, rfl, rfl, rfl⟩,
    ⟨mapped (firingOn (onCap (some (num 1)) none) (fun k => { k with caps := [(0, { cap0 with root := 1 })] })), _, 0, _, _, rfl, rfl, rfl, rfl, by rintro r ⟨⟩; exact ⟨rfl, rfl⟩, rfl, rfl,
      by decide, rfl⟩⟩

/-- A TFILL, a TCOPY, FETCHes into a tile, into a capability and from an unmapped page, a PUT, a storage transfer, a FETCH and a PUT at a port, an LDV and an STV at work. -/
theorem test_witness_CopyWork :
    (∃ (s : State) (c : Cmd) (v : View), (s.core 0).cmd? 1 = some c ∧ c.fields = some zero ∧ c.phase = .work ∧ s.splitMay c = true ∧
      s.capStale c = false ∧ s.partsUp c = true ∧ c.instr = .tfill zero ∧ s.viewFlight c.fire.ctx c.fire.l.value = some v) ∧
    (∃ (s : State) (c : Cmd) (r : Val) (v w : View), (s.core 0).cmd? 1 = some c ∧ c.phase = .work ∧ s.splitMay c = true ∧ s.capStale c = false ∧ s.partsUp c = true ∧
      c.instr = .tcopy zero ∧ c.fire.r = some r ∧ s.viewFlight c.fire.ctx c.fire.l.value = some v ∧ s.viewFlight c.fire.ctx r.value = some w) ∧
    (∃ (s : State) (c : Cmd) (r : Val) (v : View) (m : MemSide), (s.core 0).cmd? 1 = some c ∧ c.phase = .work ∧ s.splitMay c = true ∧ s.capStale c = false ∧ s.partsUp c = true ∧
      s.storageCmd c = false ∧ c.instr = .fetchGlb zero ∧ s.memSide c = some m ∧ c.fire.r = some r ∧ r.kind = .tile ∧ c.data = [] ∧ c.row = 0 ∧ s.viewFlight c.fire.ctx r.value = some v ∧
      let read := (s.copyRuns c zero m).map (fun x => (x.1, min x.2 (runsEnd (s.copyRuns c zero m) - x.1)))
      read.any (fun x => s.sideHalf m.side x.1 x.2) = false ∧ ∃ runs, (read.foldl (fun u x => u.sideUse m.side x.1 x.2 .read) s).readRuns m.side read [] = .ok runs) ∧
    (∃ (s : State) (c : Cmd) (m : MemSide) (e : FaultClass × Nat × Nat), (s.core 0).cmd? 1 = some c ∧ c.instr = .fetchGlb zero ∧ s.memSide c = some m ∧
      s.readRuns m.side [(0, 8)] [] = .error e) ∧
    (∃ (s : State) (c : Cmd) (r : Val) (m : MemSide), (s.core 0).cmd? 1 = some c ∧ c.phase = .work ∧ c.instr = .fetchGlb zero ∧ s.memSide c = some m ∧ c.fire.r = some r ∧ r.kind = .cap ∧
      ∃ runs w, s.readRuns m.side [(0, 8)] [] = .ok runs ∧ s.writeRuns (.cap 0 0) 0 1 (s.ownTape c.fire) (dropRuns 0 [(0, runs.flatten.length)]) runs.flatten 0 = .ok w ∧
        w.unperformed 0 1 = false) ∧
    (∃ (s : State) (c : Cmd) (r : Val) (v : View) (m : MemSide), (s.core 0).cmd? 1 = some c ∧ c.phase = .work ∧ s.splitMay c = true ∧ s.capStale c = false ∧ s.partsUp c = true ∧
      s.storageCmd c = false ∧ c.instr = .putGlb zero ∧ s.memSide c = some m ∧ c.fire.r = some r ∧ s.viewFlight c.fire.ctx c.fire.l.value = some v ∧ c.data = [] ∧ c.row = 0 ∧
      ∃ u, s.writeRuns m.side 0 1 (s.ownTape c.fire) (dropRuns 0 (s.copyRuns c zero m)) (s.viewRuns v false) 0 = .ok u ∧ u.unperformed 0 1 = false) ∧
    (∃ (s : State) (c : Cmd), (s.core 0).cmd? 1 = some c ∧ c.phase = .work ∧ s.splitMay c = true ∧ s.capStale c = false ∧ s.partsUp c = true ∧
      s.storageCmd c = true ∧ isCopy c.instr = true ∧ s.mod.gates.getLsbD 9 = true) ∧
    (∃ (s : State) (c : Cmd), (s.core 0).cmd? 1 = some c ∧ s.storageCmd c = true ∧ s.mod.gates.getLsbD 9 = false ∧ 1 ∉ s.mod.draining) ∧
    (∃ (s : State) (c : Cmd) (p : Nat) (v : View) (r : Val) (e : Entry) (u : State), (s.core 0).cmd? 1 = some c ∧ c.instr = .fetchPort zero ∧ portRef c.fire.l.value = some p ∧
      c.fire.r = some r ∧ s.viewFlight c.fire.ctx r.value = some v ∧ (s.core 0).portTurn pullsFrom p c.id = true ∧ ((s.core 0).port p).fifo = [e] ∧
      s.portPop 0 p = some (e, u) ∧ e.mark = false ∧ e.eor = true ∧ c.row < v.n ∧ (c.data ++ e.data).length = (lineBytes v.tile.etype v.tile.cols + 63) / 64 * 64) ∧
    (∃ (s : State) (c : Cmd) (p : Nat) (v : View) (r : Val) (e : Entry), (s.core 0).cmd? 1 = some c ∧ c.instr = .putPort zero ∧ c.fire.r = some r ∧ portRef r.value = some p ∧
      s.viewFlight c.fire.ctx c.fire.l.value = some v ∧ (s.core 0).portTurn pushesTo p c.id = true ∧ s.portRoom 0 p ≠ 0 ∧
      (rowEntries (packRow v.tile.etype (s.viewRow v 0)) c.fire.l.round 1)[0]? = some e) ∧
    (∀ i ∈ [Instr.ldv zero, .stv zero], ∃ (s : State) (c : Cmd) (v w : View) (r : Val), (s.core 0).cmd? 1 = some c ∧ c.instr = i ∧ s.splitMay c = true ∧ s.partsUp c = true ∧
      c.fire.r = some r ∧ s.viewFlight c.fire.ctx c.fire.l.value = some v ∧ s.viewFlight c.fire.ctx r.value = some w ∧ s.laneTurn c = true ∧ ∃ offs, s.laneOffsets c zero = .ok offs) :=
  let disk (gates : BitVec 16) : State := { (working (command (fire (num 3) (some (item .tile 0)) none) (.fetchEp zero) .work)).setCtx 0
    { (State.reset.place0 0).ctx 0 with phase := .active, eps := [(3, { Endpoint.reset with kind := 2, extent := 4096 })] } with mod := { Module.reset with gates := gates } }
  let lanes (i : Instr) : State := (working (command (fire (item .tile 0) (some tile1) (some (num 0))) i .work)).modCore 0 (fun k => { k with
    tiles := [(0, { tile8 with rows := 1, cols := 32, etype := .i32, pitch := 128 }), (1, { tile8 with rows := 1, cols := 32, etype := .i32, pitch := 128 })] })
  ⟨⟨working (command (onTile (some (num 9))) (.tfill zero) .work), _, _, rfl, rfl, rfl, rfl, rfl, by decide, rfl, rfl⟩,
    ⟨working (command (onTile (some tile1)) (.tcopy zero) .work), _, _, _, _, rfl, rfl, rfl, rfl, by decide, rfl, rfl, rfl, rfl⟩,
    ⟨working (command (onCap (some (item .tile 0)) (some (num 0))) (.fetchGlb zero) .work), _, _, _, _, rfl, rfl, rfl, rfl, by decide, rfl, rfl, rfl, rfl, rfl, rfl, rfl, rfl, rfl, _, rfl⟩,
    ⟨(working (command (onCap (some (item .tile 0)) (some (num 0))) (.fetchGlb zero) .work)).modCore 0 (fun k => { k with win := [] }), _, _, _, rfl, rfl, rfl, rfl⟩,
    ⟨working (command (onCap (some (item .cap 0)) (some (num 0))) (.fetchGlb zero) .work), _, _, _, rfl, rfl, rfl, rfl, rfl, rfl, _, _, rfl, rfl, rfl⟩,
    ⟨working (command (fire (item .tile 0) (some (item .cap 0)) (some (num 0))) (.putGlb zero) .work), _, _, _, _, rfl, rfl, rfl, rfl, by decide, rfl, rfl, rfl, rfl, rfl, rfl, rfl, _, rfl, rfl⟩,
    ⟨disk 512, _, rfl, rfl, rfl, rfl, by decide, rfl, rfl, by decide⟩, ⟨disk 0, _, rfl, rfl, by decide, by decide⟩,
    ⟨(working (command (fire (num 2) (some (item .tile 0)) none) (.fetchPort zero) .work)).modPort 0 2 (fun p => { p with
        fifo := [{ data := List.replicate 64 1, eot := true, eor := true, mark := false, round := 0 }] }), _, 2, _, _, _, _, rfl, rfl, rfl, rfl, rfl, rfl, rfl, rfl, rfl, rfl, by decide, by decide⟩,
    ⟨working (command (onTile (some (num 9))) (.putPort zero) .work), _, 9, _, _, _, rfl, rfl, rfl, rfl, rfl, rfl, by decide, rfl⟩,
    by
      intro i hi
      fin_cases hi
      · exact ⟨lanes (.ldv zero), _, _, _, _, rfl, rfl, rfl, by decide, rfl, rfl, rfl, by decide, of_toBool (by decide)⟩
      · exact ⟨lanes (.stv zero), _, _, _, _, rfl, rfl, rfl, by decide, rfl, rfl, rfl, by decide, of_toBool (by decide)⟩⟩

set_option maxRecDepth 20000 in
/-- LDG, STG, XLATE and CAPCUT at work; and an entry to be freed, a bump of each stage, a window to fill and a write to propagate. -/
theorem test_witness_SplitPhaseWork :
    (∃ (s : State) (c : Cmd) (n : Nat) (e : Cap), (s.core 0).cmd? 1 = some c ∧ c.phase = .work ∧ c.aux = 0 ∧ s.splitMay c = true ∧
      s.capOperand c.fire c.fire.l.value = .ok n e ∧ c.instr = .ldg zero ∧ e.r = true ∧
      s.sideHalf (.cap c.fire.core n) 0 8 = false ∧ ∃ bs, (s.sideUse (.cap c.fire.core n) 0 8 .read).sideRead (.cap c.fire.core n) 0 8 = .ok bs) ∧
    (∃ (s : State) (c : Cmd) (n : Nat) (e : Cap) (r : Val), (s.core 0).cmd? 1 = some c ∧ c.phase = .work ∧ c.aux = 0 ∧ s.splitMay c = true ∧
      s.capOperand c.fire c.fire.l.value = .ok n e ∧ c.instr = .stg zero ∧ c.fire.r = some r ∧ e.w = true ∧
      let w := s.sideUse (.cap c.fire.core n) 0 8 .write
      ∃ u, w.sideWrite (.cap c.fire.core n) 0 (List.replicate 8 1) 0 1 (w.ownTape c.fire) = .ok u ∧ u.unperformed 0 1 = false) ∧
    (∃ (s : State) (c : Cmd) (m pset : Nat), (s.core 0).cmd? 1 = some c ∧ c.phase = .work ∧ c.instr = .xlate zero ∧
      s.rangePset (s.ctx 0).ctxroot.toNat c.fire.l.value.toNat 4096 = some pset ∧ s.ownedArea c.fire.l.value.toNat 4096 = false ∧
      (s.core 0).freeCap = some m) ∧
    (∃ s : State, (∃ c ∈ (s.core 0).freeing 0, (s.core 0).barred 16 c.id = false) ∧ s.capInUse 0 0 = false) ∧ (∃ s : State, ∀ c ∈ (s.core 0).freeing 0, (s.core 0).barred 16 c.id = true) ∧
    (∃ s : State, (s.ctx 0).bump = 1) ∧ (∃ s : State, (s.ctx 0).bump = 2 ∧ ∀ e ∈ s.cores, e.2.ctx = some 0 → s.oldAccess e.1 (s.ctx 0).pset = false) ∧
    (∃ (s : State) (leaf log pset : Nat), let e := (s.core 0).cap 0
      e.valid = true ∧ s.wantsPage 0 16 0 0 = true ∧ walk s.hbm e.root.toNat 0 = .ok leaf log pset) ∧
    (∃ (s : State) (p : Propagation) (rest : List Propagation), takeProp 3 s.props = some (p, rest)) ∧
    (∃ (s : State) (c : Cmd), (s.core 0).cmd? 1 = some c ∧ c.instr = .publishGlb zero ∧ s.publishShape ((s.core 0).cap 0) ((s.core 0).cap 1) = true ∧
      ∀ x ∈ (s.core 0).caps, x.2.taint = []) :=
  ⟨⟨working (command (onCap (some (num 0)) none) (.ldg zero) .work), _, 0, cap0, rfl, rfl, rfl, rfl, rfl, rfl, rfl, rfl, _, rfl⟩,
    ⟨working (command (onCap (some (num 1)) none) (.stg zero) .work), _, 0, cap0, num 1, rfl, rfl, rfl, rfl, rfl, rfl, rfl, rfl, _, rfl, rfl⟩,
    ⟨mapped (working (command pair (.xlate zero) .work)), _, 1, 0, rfl, rfl, rfl, by decide, by decide, by decide⟩,
    ⟨firingOn pair (fun k => { k with caps := [(0, cap0)], cmds := [{ command (onCap none none) (.capcutFree zero) .queued with aux := 0 }] }), ⟨_, .head _, by decide⟩, by decide⟩,
    ⟨State.reset, by decide⟩, ⟨State.reset.setCtx 0 { Ctx.reset with bump := 1 }, rfl⟩,
    ⟨(firingOn pair equipped).setCtx 0 { Ctx.reset with bump := 2 }, rfl, by decide⟩,
    ⟨mapped (firingOn pair (fun k => { k with caps := [(0, { cap0 with root := 1 })], cmds := [{ command (onCap none none) (.ldg zero) .work with caps := [0] }] })), _, _, _, rfl, by decide, rfl⟩,
    ⟨{ State.reset with props := [⟨0, [1], [3], 0, 1⟩] }, _, _, rfl⟩,
    ⟨twoPages ((working (command (onCap (some (item .cap (1 <<< 46))) none) (.publishGlb zero) .work)).modCore 0 (fun k => { k with
        caps := [(0, { cap0 with root := 1 }), (1, { cap0 with vbase := 2 ^ 21, root := 1 })] })),
      _, rfl, rfl, by decide, by decide⟩⟩

set_option maxRecDepth 20000 in
/-- AGSET with eight good slots; AGRUN loaded and bound, and not; AGSTOP running and idle. -/
theorem test_witness_GeneratorResults :
    (∃ (s : State) (g : Firing) (f : Fields) (c o p d0 d1 d2 d3 t : Val) (a : AddrGen) (i : Nat) (e : Cap), s.cur = some g ∧ g.plain ∧
      s.retire.stickies g f.slot.toNat 8 = .ok [c, o, p, d0, d1, d2, d3, t] ∧ c.kind = .cap ∧ agParse [c, o, p, d0, d1, d2, d3, t] = some a ∧
      s.capAccess g c.value 0 0 (if a.write then .write else .read) = .ok i e ∧ ((s.core g.core).gen 0).running = false) ∧
    (∃ (s : State) (g : Firing) (p : Nat), s.cur = some g ∧ g.plain ∧ ((s.core g.core).gen 0).loaded = true ∧ ((s.core g.core).gen 0).port = some p ∧
      decide (8 ≤ p) = ((s.core g.core).gen 0).write) ∧
    (∃ (s : State) (g : Firing), s.cur = some g ∧ g.plain ∧ ((s.core g.core).gen 0).loaded = false) ∧
    (∃ (s : State) (g : Firing), s.cur = some g ∧ g.plain ∧ ((s.core g.core).gen 0).running = true) ∧
    (∃ (s : State) (g : Firing) (x : Nat × Fields), s.formOf g = some x ∧ let a := (s.core 0).gen 0
      a.run = some g ∧ a.running = true ∧ a.parked = none ∧ a.again = false ∧ a.data = [] ∧ a.entry = 0 ∧ a.write = false ∧ a.stopReq = [] ∧
      a.next < (a.extm1.map (· + 1)).prod ∧ a.trows = 0 ∧ (s.core 0).barred 0 s.ids = false ∧ (s.ctx g.ctx).phase = .active ∧
      ((s.core 0).cap 0).valid = true ∧ ((s.core 0).cap 0).gen = a.cap.value.extractLsb' 38 8 ∧ a.rowOffset a.next + a.rowb ≤ ((s.core 0).cap 0).extent ∧
      ((s.core 0).cap 0).r = true ∧ ∃ cs, s.xlate 0 a.win 0 .read 0 a.rowb = .ok cs ∧ cs.any (s.readWaits 0) = false) ∧
    (∃ (s : State) (g : Firing) (x : Nat × Fields), s.formOf g = some x ∧ let a := (s.core 0).gen 0
      a.run = some g ∧ a.stopReq = [] ∧ (a.extm1.map (· + 1)).prod ≤ a.next) ∧
    (∃ (s : State) (g : Firing) (x : Nat × Fields), s.formOf g = some x ∧ let a := (s.core 0).gen 0
      a.run = some g ∧ a.stopReq = [] ∧ a.next < (a.extm1.map (· + 1)).prod ∧ (s.ctx g.ctx).phase = .saving 1) :=
  let g : Firing := { onCap none none with word := some 0x2C03_0000_0000_A580_0000_0000_0000_0003 }
  ⟨⟨stickies pair [item .cap 0, num 0, num (64 + 2 * 2 ^ 17), num (64 + 2 ^ 32), num (128 + 2 ^ 32), num 0, num 0, num 0] equipped, pair, { zero with slot := 4 },
      _, _, _, _, _, _, _, _, _, 0, cap0, rfl, by decide, rfl, rfl, rfl, rfl, rfl⟩,
    ⟨firingOn pair (fun k => { k with gens := [(0, { gen0 with port := some 7 })] }), pair, 7, rfl, by decide, rfl, rfl, rfl⟩,
    ⟨firing pair, pair, rfl, by decide, rfl⟩, ⟨firingOn pair (fun k => { k with gens := [(0, { gen0 with running := true })] }), pair, rfl, by decide, rfl⟩,
    ⟨firingOn g (fun k => { equipped k with gens := [(0, { gen0 with running := true, run := some g, port := some 0, next := 3, win := [page0] })] }), g, _,
      rfl, rfl, rfl, rfl, rfl, rfl, rfl, rfl, rfl, by decide, rfl, by decide, by decide, by decide, by decide, by decide, rfl, _, rfl, by decide⟩,
    ⟨firingOn g (fun k => { k with gens := [(0, { gen0 with running := true, run := some g, next := 4 })] }), g, _, rfl, rfl, rfl, by decide⟩,
    ⟨(firingOn g (fun k => { k with gens := [(0, { gen0 with running := true, run := some g, next := 3 })] })).modCtx 0 (fun c => { c with phase := .saving 1 }), g, _,
      rfl, rfl, rfl, by decide, rfl⟩⟩

set_option maxRecDepth 20000 in
/-- A free port, a bound one and none; each binding; EPBIND with four slots and EPDROP in a supervisor context, and another context. -/
theorem test_witness_PortBindingResults :
    (∃ (s : State) (g : Firing), s.cur = some g ∧ g.scalars ∧ 16 ≤ g.l.value.toNat) ∧
    (∃ (s : State) (g : Firing), s.cur = some g ∧ g.scalars ∧ g.l.value.toNat < 16 ∧ ((s.core g.core).port g.l.value.toNat).bound = none ∧
      ((s.core g.core).port g.l.value.toNat).unbind = none ∧ ((s.core g.core).gen 0).loaded = true ∧
      decide (8 ≤ g.l.value.toNat) = ((s.core g.core).gen 0).write ∧ ((s.core g.core).gen 0).port = none ∧ ((s.core g.core).gen 0).mcast = [] ∧
      (s.bridge g.ctx 0).isSome = true ∧ (0, decide (8 ≤ g.l.value.toNat)) ∉ (s.ctx g.ctx).bridges) ∧
    (∃ (s : State) (g : Firing) (c : Nat), s.cur = some g ∧ g.scalars ∧ 8 ≤ g.l.value.toNat ∧ g.l.value.toNat < 16 ∧
      ((s.core g.core).port g.l.value.toNat).bound = none ∧ (s.ctx g.ctx).phys (((g.r.map Val.value).getD 0).toNat % 4096) = some c ∧
      c / 256 = g.core / 256 ∧ ((s.core c).port (((g.r.map Val.value).getD 0).toNat / 4096 % 8)).bound = none) ∧
    (∃ (s : State) (g : Firing), s.cur = some g ∧ g.scalars ∧ g.l.value.toNat < 16 ∧ ((s.core g.core).port g.l.value.toNat).bound ≠ none) ∧
    (∃ (s : State) (g : Firing) (e : Endpoint), s.cur = some g ∧ g.scalars ∧ s.epCheck g.ctx 3 0 64 false = .ok e) ∧
    (∃ (s : State) (g : Firing), s.cur = some g ∧ g.scalars ∧ (s.ctx g.ctx).sup = false) ∧
    (∃ (s : State) (g : Firing) (lo k n p : Val), s.cur = some g ∧ g.scalars ∧ (s.ctx g.ctx).sup = true ∧
      s.retire.stickies g 4 4 = .ok [lo, k, n, p] ∧ ((s.ctx 0).ep 3).kind = 0 ∧ s.epBindable 0 [lo, k, n, p] (epParse [lo, k, n, p]) = true) ∧
    (∃ (s : State) (g : Firing), s.cur = some g ∧ g.scalars ∧ (s.ctx g.ctx).sup = true ∧ ((s.ctx 0).ep 3).kind ≠ 0 ∧
      (s.retire.accept zero (Cmd.start 0 g (.epdrop zero) .stream)).1.epInFlight 0 3 = false) :=
  let g : Firing := fire (num 3) (some (num 0)) none
  ⟨⟨firing (fire (num 16) none none), _, rfl, by decide, by decide⟩,
    ⟨mapped (firingOn g (fun k => { k with gens := [(0, gen0)] })), g, rfl, by decide, by decide, rfl, rfl, rfl, rfl, rfl, rfl, by decide, by decide⟩,
    ⟨firing (fire (num 15) (some (num 0x7001)) none), _, 1, rfl, by decide, by decide, by decide, rfl, by decide, by decide, rfl⟩,
    ⟨firingOn g (fun k => { k with ports := [(3, { Port.reset with bound := some (.gen 0) })] }), g, rfl, by decide, by decide, by decide⟩,
    ⟨(firing g).modCtx 0 (fun c => { c with eps := [(3, { Endpoint.reset with kind := 2, r := true, extent := 4096 })] }), g, _, rfl, by decide, rfl⟩,
    ⟨firing g, g, rfl, by decide, rfl⟩,
    ⟨(stickies g [num 0, num 0x3C00_0000_0000_0000, num 4096, num 0] (fun k => k)).modCtx 0 (fun c => { c with sup := true }), g, num 0, num 0x3C00_0000_0000_0000, num 4096, num 0, rfl, by decide, rfl, by decide,
      by decide, by decide⟩,
    ⟨(firing g).modCtx 0 (fun c => { c with sup := true, eps := [(3, { Endpoint.reset with kind := 2 })] }), g, rfl, by decide, rfl, by decide, by decide⟩⟩

set_option maxRecDepth 20000 in
/-- An output and an input port on a bridge queue, with entries and room; SBAR with nothing before it; MCAST; PERMIT. -/
theorem test_witness_StreamControlResults :
    (∃ (s : State) (q : Bridge) (e : Entry), ((s.core 0).port 8).bound = some (.bridge 0) ∧ (s.core 0).ctx = some 0 ∧ s.bridge 0 0 = some q ∧
      ((s.core 0).port 8).fifo = [e] ∧ q.wcnt - q.rcnt < q.size ∧ ((s.core 0).port 8).wrote = false ∧
      (match s.ctxWriteFor 0 (q.ring + 64 * (q.wcnt % q.size)) e.data 0 (2 ^ 41 + 8) with
        | .error _ => false
        | .ok t => match t.ctxWriteFor 0 (q.ring + 64 * q.size + 2 * (q.wcnt % q.size)) (natLe 2 512) 0 (2 ^ 41 + 8) with
          | .error _ => false
          | .ok u => !u.unperformed 0 (2 ^ 41 + 8)) = true) ∧
    (∃ (s : State) (q : Bridge), ((s.core 0).port 7).bound = some (.bridge 0) ∧ (s.core 0).ctx = some 0 ∧ s.bridge 0 0 = some q ∧ q.wcnt ≠ q.rcnt ∧
      ((s.core 0).port 7).fifo.length < 16 ∧ (s.ctxRead 0 0 (q.ring + 64 * (q.rcnt % q.size)) 64).toBool = true ∧
      s.ctxRead 0 0 (q.ring + 64 * q.size + 2 * (q.rcnt % q.size)) 2 = .ok [0, 0]) ∧
    (∃ (s : State) (q : Bridge), ((s.core 0).port 7).bound = some (.bridge 0) ∧ (s.core 0).ctx = some 0 ∧ s.bridge 0 0 = some q ∧ q.wcnt = q.rcnt) ∧
    (∃ (s : State) (g : Firing), s.cur = some g ∧ g.plain ∧ s.issued g.core 0 = []) ∧
    (∃ (s : State) (g : Firing) (vs : List Val) (bs ports : List (Nat × Nat)), s.cur = some g ∧ g.plain ∧ s.retire.stickies g 4 ((1 + 3) / 4) = .ok vs ∧
      mcastBranches vs 1 = some bs ∧ bs.map (fun x => ((s.ctx g.ctx).phys x.1, x.2)) = ports.map (fun x => (some x.1, x.2)) ∧ ports.Nodup ∧
      (∀ x ∈ ports, x.1 / 256 = g.core / 256 ∧ ((s.core x.1).port x.2).bound = none) ∧ ((s.core 0).gen 0).port = none ∧ ((s.core 0).gen 0).mcast = [] ∧
      ((s.core 0).gen 0).loaded = true ∧ ((s.core 0).gen 0).write = false ∧ ((s.core 0).gen 0).trows ≠ 0) ∧
    (∃ (s : State) (g : Firing) (w k : Val) (fr : Frame), s.cur = some g ∧ g.plain ∧ g.replay = none ∧ s.retire.frameOf g = some fr ∧ 14 + 1 < 2 ^ (fr.cls + 4) ∧
      g.l.kind = .permit ∧ g.l.value.getLsbD 63 = false ∧ fr.slot 14 = .parked false w ∧ fr.slot 15 = .parked false k ∧
      k.value.toNat = (g.l.value.extractLsb' 40 16).toNat ∧ (g.l.value.extractLsb' 0 32).toNat = w.value.toNat / 2 ^ 32 + 0) :=
  let e : Entry := { data := List.replicate 64 1, eot := false, eor := true, mark := false, round := 0 }
  let q : Bridge := { ring := 0x10000, size := 64, wcnt := 0, rcnt := 0 }
  let g : Firing := fire (item .permit 0) none none
  ⟨⟨mapped (firingOn pair (fun k => { k with ports := [(8, { Port.reset with bound := some (.bridge 0), fifo := [e] })] })), q, e, rfl, rfl, by decide, rfl, by decide, rfl, by decide⟩,
    ⟨{ mapped (firingOn pair (fun k => { k with ports := [(7, { Port.reset with bound := some (.bridge 0) })] })) with
        hbm := [(0x1000, 0x01), (0x1001, 0x20), (0x2000, 0x1F), (0x3002, 0x01), (0x3008, 12), (0x3009, 1), (0x3010, 1)] }, { q with wcnt := 1 }, rfl, rfl, by decide, by decide, by decide, by decide,
      by decide⟩,
    ⟨mapped (firingOn pair (fun k => { k with ports := [(7, { Port.reset with bound := some (.bridge 0) })] })), q, rfl, rfl, by decide, rfl⟩,
    ⟨firing pair, pair, rfl, by decide, by decide⟩,
    ⟨stickies pair [num 0x7001] (fun k => { k with gens := [(0, { gen0 with trows := 1, pwin := 1 })] }), pair, _, _, [(1, 7)], rfl, by decide, rfl, rfl, by decide, by decide,
      by decide, rfl, rfl, rfl, rfl, by decide⟩,
    ⟨firingIn g (fun fr => { fr with slots := [(14, .parked false (num 0)), (15, .parked false (num 0))] }), g, num 0, num 0,
      { bootFrame with slots := [(14, .parked false (num 0)), (15, .parked false (num 0))] }, rfl, by decide, rfl, by decide, by decide, rfl, by decide,
      rfl, rfl, by decide, by decide⟩⟩

set_option maxRecDepth 20000 in
/-- VADD of a tile and a scalar that pass their checks, one with a wrong type, VRSUM, and a queued and a running command. -/
theorem test_witness_VectorAcceptance :
    (∃ (s : State) (g : Firing) (xs : List (Nat × View)), s.cur = some g ∧ g.plain ∧ kindsOk (vecNeed 0x80 zero) g.l g.r g.t = true ∧
      s.vecCheck 0x80 zero g = .ok xs) ∧
    (∃ (s : State) (g : Firing) (e : FaultClass × Nat), s.cur = some g ∧ g.plain ∧ kindsOk (vecNeed 0x80 { zero with ty := .i8 }) g.l g.r g.t = true ∧
      s.vecCheck 0x80 { zero with ty := .i8 } g = .error e) ∧
    (∃ (s : State) (g : Firing) (xs : List (Nat × View)), s.cur = some g ∧ g.plain ∧ kindsOk (vecNeed 0x95 zero) g.l g.r g.t = true ∧
      s.redClosed g = none ∧ s.vecCheck 0x95 zero g = .ok xs) :=
  ⟨⟨firingOn (onTile (some (num 5))) equipped, _, _, rfl, by decide, by decide, rfl⟩,
    ⟨firingOn (onTile (some (num 5))) equipped, _, _, rfl, by decide, by decide, rfl⟩,
    ⟨firingOn (onTile (some (item .tile (mkHandle 0 1 0 0 0)))) (fun k => { equipped k with tiles := [(0, tile8), (1, { tile8 with cols := 1, pitch := 8 })] }),
      _, _, rfl, by decide, by decide, by decide, rfl⟩⟩

set_option maxRecDepth 20000 in
theorem test_witness_VectorResults :
    (∃ (s : State) (c : Cmd) (v : View) (r : Val), (s.core 0).vecRun = some c ∧ c.fire.core = 0 ∧ c.instr = .vadd zero ∧ c.fire.r = some r ∧ c.fire.t = none ∧
      c.fire.l.kind = .tile ∧ r.kind = .scalar ∧ s.view c.fire.ctx c.fire.l.value true = .ok v) ∧
    (∃ (s : State) (c : Cmd), (s.core 0).vecRun = none ∧ (s.core 0).vecQueue = [c] ∧ c.instr.form.map Prod.fst = some 0x80 ∧ (s.core 0).vecMayStart c 0x80 = true) ∧
    (∃ (s : State) (c : Cmd) (v w : View) (r : Val), (s.core 0).vecRun = some c ∧ c.instr = .vtrans zero ∧ c.fire.l.kind = .tile ∧
      s.view c.fire.ctx c.fire.l.value true = .ok v ∧ c.fire.r = some r ∧ r.kind = .tile ∧ s.view c.fire.ctx r.value true = .ok w) ∧
    (∃ (s : State) (r : Reduction) (g : Firing) (x : Nat × Fields), ((s.core 0).redsOf 0 0).find? (s.core 0).redFree = some r ∧ r.marker = some g ∧
      s.formOf g = some x ∧ r.dest.isSome = true ∧ g.obj ∉ (s.core 0).quar) :=
  let g : Firing := { fire (item .marker 0) none none with word := some 0x2C03_0000_0000_A580_0000_0000_0000_0003 }
  ⟨⟨firingOn pair (fun k => { equipped k with vecRun := some (command (onTile (some (num 5))) (.vadd zero) .work) }), _, _, _, rfl, rfl, rfl, rfl, rfl, rfl, rfl, rfl⟩,
    ⟨firingOn pair (fun k => { equipped k with vecQueue := [command (onTile (some (num 5))) (.vadd zero) .work] }), _, rfl, rfl, rfl, by decide⟩,
    ⟨firingOn pair (fun k => { equipped k with vecRun := some (command (onTile (some (item .tile (mkHandle 0 1 0 0 0)))) (.vtrans zero) .work) }), _, _, _, _,
      rfl, rfl, rfl, rfl, rfl, rfl, rfl⟩,
    ⟨firingOn pair (fun k => { k with reds := [⟨0, 0, 0, true, false, some (item .tile 0, 0, 0), 0, some g⟩] }),
      ⟨0, 0, 0, true, false, some (item .tile 0, 0, 0), 0, some g⟩, g, _, by decide, rfl, rfl, rfl, by decide⟩⟩

/-- A tile of 8 by 8 I8. -/
def tileI8 : Tile := { tile8 with etype := .i8, pitch := 8, size := 0 }

/-- B bound to tile 1. -/
def bound : MatBinding := { handle := item .tile 0, core := 0, index := 1, etype := .i8, kb := 8, nb := 8, mx := false, closing := none }

/-- An item of an operator on tile 0. -/
def matItem (i : Instr) (shape : U64) : MatItem :=
  { id := 1, fire := onTile (some (num shape)), instr := i, marker := false, started := true, row := 0, binding := some bound, gang := none,
    tiles := [(0, 0)], seed := 0, data := [], flags := 0 }

/-- Core 0 with the tiles, the binding and a queue of accumulator A0. -/
def matrix (its : List MatItem) : State :=
  firingOn pair (fun k => { k with tiles := [(0, tileI8), (1, tileI8)], mat := some bound, acc0 := { Accum.reset with isInt := true, queue := its } })

set_option maxRecDepth 20000 in
/-- MCLR and MBIND that pass, MMA that is not bound, a marker, and a marker item at the head of its queue. -/
theorem test_witness_MatrixAcceptance :
    (∃ (s : State) (g : Firing) (v : Option View), s.cur = some g ∧ g.plain ∧ kindsOk (matNeed 0xA9 { zero with ty := .i32 }) g.l g.r g.t = true ∧
      s.matCheck 0xA9 { zero with ty := .i32 } g = .ok v) ∧
    (∃ (s : State) (g : Firing) (v : View), s.cur = some g ∧ g.plain ∧ kindsOk (matNeed 0xA0 { zero with ty := .i8 }) g.l g.r g.t = true ∧
      s.matCheck 0xA0 { zero with ty := .i8 } g = .ok (some v)) ∧
    (∃ (s : State) (g : Firing) (e : FaultClass × Nat), s.cur = some g ∧ g.plain ∧ kindsOk (matNeed 0xA4 { zero with ty := .i8 }) g.l g.r g.t = true ∧
      s.matCheck 0xA4 { zero with ty := .i8 } g = .error e) ∧
    (∃ (s : State) (g : Firing), s.cur = some g ∧ g.l.kind = .marker ∧ ∀ v ∈ g.vals, v.kind ≠ .fault) ∧
    (∃ (s : State) (it : MatItem) (x : Nat × Option Nat × Fields), s.matHead 0 false = some it ∧ it.marker = true ∧ it.instr.form = some x ∧
      it.fire.obj ∉ (s.core 0).quar ∧ it.fire.core = 0 ∧ ∀ h ∈ ((s.core 0).acc false).held, h.fire.l.round ≠ it.fire.l.round) :=
  ⟨⟨firing (fire (num 1) none none), _, _, rfl, by decide, by decide, rfl⟩,
    ⟨firingOn (onTile none) (fun k => { k with tiles := [(0, { tileI8 with layout := 2, pitch := 32 })] }), _, _, rfl, by decide, by decide, rfl⟩,
    ⟨firingOn (onTile (some (num 0x808008))) (fun k => { k with tiles := [(0, tileI8)] }), _, _, rfl, by decide, by decide, rfl⟩,
    ⟨firing (fire (item .marker 0) none none), _, rfl, rfl, by decide⟩,
    ⟨matrix [{ matItem (.mclr zero) 0 with marker := true }], _, _, rfl, rfl, rfl, by decide, rfl, by decide⟩⟩

set_option maxRecDepth 20000 in
/-- A started MMA of I8 of one row; items to start and to finish; a closing binding; a gang of one core. -/
theorem test_witness_MatrixResults :
    (∃ (s : State) (it : MatItem) (w : ShapeWord) (b : MatBinding) (v : View), s.matHead 0 false = some it ∧ it.instr = .mma { zero with ty := .i8 } ∧
      it.marker = false ∧ it.started = true ∧ it.binding = some b ∧ b.etype = .i8 ∧ (s.ctx it.fire.ctx).phase = .active ∧
      shapeWord ((it.fire.r.map Val.value).getD 0) true true false = some w ∧ s.view it.fire.ctx it.fire.l.value true = .ok v ∧ it.row < w.m ∧ 0 < w.n ∧
      0 < w.k ∧ w.k ≤ 32 ∧ w.k ≤ v.tile.cols ∧ s.rowMay 0 false = true) ∧
    (∃ (s : State) (it : MatItem) (x : Nat × Option Nat × Fields), s.matHead 0 false = some it ∧ it.marker = false ∧ it.started = false ∧
      it.instr.form = some x ∧ (s.ctx it.fire.ctx).phase = .active ∧ x.1 = 0xA4 ∧ ((s.core 0).acc false).isInt = decide (x.2.2.ty = .i8) ∧ it.seed = 0) ∧
    (∃ (s : State) (it : MatItem) (x : Nat × Option Nat × Fields), s.matHead 0 false = some it ∧ it.marker = false ∧ it.started = false ∧
      it.instr.form = some x ∧ x.1 = 0xAA ∧ ((s.core 0).acc false).isInt = true) ∧
    (∃ (s : State) (it : MatItem), s.matHead 0 false = some it ∧ it.marker = false ∧ it.started = true ∧ it.instr = .mclr zero) ∧
    (∃ (s : State) (it : MatItem) (w : ShapeWord) (v : View), s.matHead 0 false = some it ∧ it.instr = .mrd zero ∧
      s.view it.fire.ctx it.fire.l.value true = .ok v ∧ shapeWord ((it.fire.r.map Val.value).getD 0) true false false = some w) ∧
    (∃ (s : State) (b : MatBinding) (g : Firing) (x : Nat × Fields), (s.core 0).mat = some b ∧ b.closing = some g ∧ s.formOf g = some x ∧
      ∀ x ∈ (s.core 0).acc0.queue ++ (s.core 0).acc1.queue, x.binding = none) ∧
    (∃ (s : State) (c : Cmd), s.gangs.find? (fun c => c.fire.core / 16 == 0 * 16 + 0) = some c ∧ c.instr = .mmag zero ∧
      ((s.core c.fire.core).acc (c.aux == 1)).queue.length < 8) ∧
    (∃ (s : State) (c : Cmd), s.gangs.find? (fun c => c.fire.core / 16 == 0 * 16 + 0) = some c ∧ 8 ≤ ((s.core c.fire.core).acc (c.aux == 1)).queue.length) :=
  let g : Firing := { onTile none with word := some 0x2C03_0000_0000_A580_0000_0000_0000_0003 }
  ⟨⟨matrix [matItem (.mma { zero with ty := .i8 }) 0x108008], _, _, bound, _, rfl, rfl, rfl, rfl, rfl, rfl, rfl, rfl, rfl, by decide, by decide, by decide, by decide, by decide, by decide⟩,
    ⟨matrix [{ matItem (.mma { zero with ty := .i8 }) 0x108008 with started := false }], _, _, rfl, rfl, rfl, rfl, rfl, rfl, rfl, rfl⟩,
    ⟨matrix [{ matItem (.mresc zero) 0 with started := false }], _, _, rfl, rfl, rfl, rfl, rfl, rfl⟩,
    ⟨matrix [matItem (.mclr zero) 0], _, rfl, rfl, rfl, rfl⟩,
    ⟨matrix [matItem (.mrd zero) 0x108000], _, _, _, rfl, rfl, rfl, rfl⟩,
    ⟨(matrix []).modCore 0 (fun k => { k with mat := some { bound with closing := some g } }), _, g, _, rfl, rfl, rfl, by decide⟩,
    ⟨{ matrix [] with gangs := [command (onTile none) (.mmag zero) .work] }, _, rfl, rfl, by decide⟩,
    ⟨{ matrix (List.replicate 8 (matItem (.mclr zero) 0)) with gangs := [command (onTile none) (.mmag zero) .work] }, _, rfl, by decide⟩⟩

/-- A tile of four barriers, and the handle of the first. -/
def barTile : Tile := { tile8 with rows := 4, cols := 2, etype := .n64, pitch := 16, size := 0 }

def onBar (r : Option Val) : Firing := fire (item .tile 0x100) r none

/-- Core 0 with the barrier tile, of which `bars` are active, and a synchronisation command whose covered set is performed. -/
def syncing (g : Firing) (i : Instr) (aux : Nat) (bars : List Nat) : State :=
  { (firingOn g (fun k => { k with tiles := [(0, { barTile with bars := bars })], caps := [(0, cap0)], win := [page0], cmds := [{ command g i .covered with engine := .sync, aux := aux }] })) with cur := none, ids := 2 }

set_option maxRecDepth 20000 in
/-- ATOM on a tile of the own core, one on a bad handle, LOCKR with good and bad tokens, barriers, TBARR with a handle, and COLL on one row. -/
theorem test_witness_SynchronisationAcceptance :
    (∃ (s : State) (g : Firing), s.cur = some g ∧ g.plain ∧ isScalar g.l.kind = true ∧ (∀ v, g.r = some v → isScalar v.kind = true) ∧
      (∀ v, g.t = some v → isTarget v.kind = true) ∧ s.targetReach (Cmd.start 0 g (.atom zero) .sync) zero false = .fine) ∧
    (∃ (s : State) (g : Firing) (x : FaultClass × Nat × Nat), s.cur = some g ∧ g.plain ∧
      s.targetReach (Cmd.start 0 g (.atom zero) .sync) zero false = .bad x.1 x.2.1 x.2.2 ∧ ∀ c ∈ (s.core g.core).cmds, c.id ≠ s.ids) ∧
    (∃ (s : State) (g : Firing), s.cur = some g ∧ g.scalars ∧ g.l.value.extractLsb' 32 8 = 0) ∧
    (∃ (s : State) (g : Firing), s.cur = some g ∧ g.scalars ∧ g.l.value.extractLsb' 32 8 ≠ 0) ∧
    (∃ (s : State) (g : Firing) (v : View), s.cur = some g ∧ g.plain ∧ g.l.kind = .tile ∧ (∀ v, g.r = some v → isScalar v.kind = true) ∧ s.barrierOf g = .ok v) ∧
    (∃ (s : State) (g : Firing) (v w : View) (r : Val), s.cur = some g ∧ g.plain ∧ s.barrierOf g = .ok v ∧ g.r = some r ∧ r.kind = .tile ∧
      s.view g.ctx r.value false = .ok w) ∧
    (∃ (s : State) (g : Firing) (v : View), s.cur = some g ∧ g.plain ∧ s.view g.ctx g.l.value false = .ok v ∧ v.core = g.core ∧ v.n = 1 ∧ v.tile.etype = .n64 ∧
      v.bytes ≤ 65536 ∧ s.destCheck v = none) ∧
    (∃ (s : State) (c : Cmd), (s.core 0).cmd? 1 = some c ∧ s.syncMay c = true ∧ c.instr = .fence zero ∧ s.covered c = true) ∧
    (∃ (s : State) (c : Cmd) (x : Spot), (s.core 0).cmd? 1 = some c ∧ s.syncMay c = true ∧ c.instr = .acq zero ∧ s.targetReach c zero true = .fine ∧
      (s.targetUse c zero).spotOf c zero = .ok x ∧ (s.targetUse c zero).spotUp c.fire.core x = true) :=
  ⟨⟨firingOn (fire (num 0) (some (num 1)) (some (item .tile 0))) equipped, _, rfl, by decide, rfl, by rintro v ⟨⟩; rfl, by rintro v ⟨⟩; rfl, by decide⟩,
    ⟨firingOn (fire (num 0) (some (num 1)) (some (item .tile (mkHandle 9 0 0 0 0)))) equipped, _, (.regionRange, 9, 0), rfl, by decide, by decide, by decide⟩,
    ⟨firing (fire (num 7) none none), _, rfl, by decide, by decide⟩, ⟨firing (fire (num 0x100000000) none none), _, rfl, by decide, by decide⟩,
    ⟨firingOn (onBar (some (num 1))) (fun k => { k with tiles := [(0, barTile)] }), _, _, rfl, by decide, rfl, by rintro v ⟨⟩; rfl, rfl⟩,
    ⟨firingOn (onBar (some (item .tile 0))) (fun k => { k with tiles := [(0, barTile)] }), _, _, _, _, rfl, by decide, rfl, rfl, rfl, rfl⟩,
    ⟨firingOn (onBar none) (fun k => { k with tiles := [(0, barTile)] }), _, _, rfl, by decide, rfl, rfl, rfl, rfl, by decide, by decide⟩,
    ⟨syncing (fire (num 0) none none) (.fence zero) 0 [], _, rfl, by decide, rfl, by decide⟩,
    ⟨syncing (fire (item .tile 0) (some (num 0)) none) (.acq zero) 0 [], _, .vault 0 0, rfl, by decide, rfl, by decide, by rfl, by decide⟩⟩

set_option maxRecDepth 20000 in
theorem test_witness_UpdateResults : ∃ (s : State) (c : Cmd) (x : Spot), (s.core 0).cmd? 1 = some c ∧ s.syncMay c = true ∧ c.aborted = false ∧ s.covered c = true ∧
    s.targetReach c zero true = .fine ∧ (s.targetUse c zero).spotOf c zero = .ok x ∧ (s.targetUse c zero).spotUp c.fire.core x = true ∧
    (s.targetUse c zero).unperformed c.fire.core c.id = false ∧ (∀ y, ((s.targetUse c zero).spotWrite x y c).unperformed c.fire.core c.id = false) ∧
    c.instr = .atom zero ∧ c.phase = .covered :=
  ⟨syncing (fire (num 0) (some (num 1)) (some (item .tile 0))) (.atom zero) 0 [], _, .vault 0 0, rfl, by decide, rfl, by decide, by decide, by rfl, by decide, by decide,
    fun _ => rfl, rfl, rfl⟩

set_option maxRecDepth 20000 in
theorem test_witness_LockResults :
    (∃ (s : State) (c : Cmd) (x : Spot), (s.core 0).cmd? 1 = some c ∧ c.instr = .lockq zero ∧ c.phase = .covered ∧ s.syncMay c = true ∧
      s.targetReach c zero true = .fine ∧ (s.targetUse c zero).spotOf c zero = .ok x) ∧
    (∃ (s : State) (c : Cmd), (s.lock 3 5).held = none ∧ (s.lock 3 5).waiters = [(0, 1)] ∧ (s.core 0).cmd? 1 = some c ∧ c.fields = some zero) ∧
    (∃ (s : State) (c : Cmd) (node : Nat), (s.core 0).cmd? 1 = some c ∧ c.instr = .lockr zero ∧ s.syncMay c = true ∧ c.aborted = false ∧ s.covered c = true ∧
      s.tokenNode c.fire.ctx c.fire.l.value = some node ∧ (s.lock node 0).held = none) ∧
    (∃ (s : State) (c : Cmd) (node : Nat), (s.core 0).cmd? 1 = some c ∧ s.tokenNode c.fire.ctx c.fire.l.value = some node ∧ (s.lock node 0).held ≠ none ∧
      (s.lock node 0).seq = c.fire.l.value.extractLsb' 0 32 + 1) :=
  ⟨⟨syncing (fire (num 0) (some (item .tile 0)) none) (.lockq zero) 0 [], _, .vault 0 0, rfl, rfl, rfl, by decide, by decide, by rfl⟩,
    ⟨{ syncing pair (.lockq zero) 0 [] with locks := [(3 * 256 + 5, { Lock.reset with waiters := [(0, 1)] })] }, _, by decide, by decide, rfl, rfl⟩,
    ⟨syncing (fire (num 0) none none) (.lockr zero) 0 [], _, 0, rfl, rfl, by decide, rfl, by decide, by decide, by decide⟩,
    ⟨{ syncing (fire (num 0) none none) (.lockr zero) 0 [] with locks := [(0, { seq := 1, held := some 0, waiters := [] })] }, _, 0, rfl, by decide, by decide, by decide⟩⟩

set_option maxRecDepth 20000 in
/-- An inactive barrier and an active one; a released waiter; a TBWAIT that tries again. -/
theorem test_witness_TransactionBarrierResults :
    (∃ (s : State) (c : Cmd) (v : View), (s.core 0).cmd? 1 = some c ∧ c.fire.core = 0 ∧ c.phase = .covered ∧ s.covered c = true ∧
      s.view c.fire.ctx c.fire.l.value true = .ok v ∧ v.core = 0 ∧ c.instr = .tbinit zero ∧ v.tile.base + 16 * v.row0 ∉ v.tile.bars) ∧
    (∃ (s : State) (c : Cmd) (v : View), (s.core 0).cmd? 1 = some c ∧ s.covered c = true ∧ s.view c.fire.ctx c.fire.l.value true = .ok v ∧
      c.instr = .tbarrArr zero ∧ v.tile.base + 16 * v.row0 ∈ v.tile.bars ∧ (s.txBar 0 0).parr = 0) ∧
    (∃ (s : State) (w : Waiter) (rest : List Waiter), takeReleased (s.core 0).waiters = some (w, rest) ∧ w.fire.obj ∉ (s.core w.fire.core).quar) ∧
    (∃ (s : State) (c : Cmd) (v : View), (s.core 0).cmd? 1 = some c ∧ c.instr = .tbwait zero ∧ c.phase = .queued ∧ s.covered c = true ∧ c.fire.core = 0 ∧
      s.view c.fire.ctx c.fire.l.value true = .ok v ∧ v.core = 0 ∧ v.tile.base + 16 * v.row0 ∈ v.tile.bars ∧ (s.txBar 0 (v.tile.base + 16 * v.row0)).phase ≠ c.aux) :=
  ⟨⟨syncing (onBar (some (num 1))) (.tbinit zero) 1 [], _, _, rfl, rfl, rfl, by decide, rfl, rfl, rfl, by decide⟩,
    ⟨syncing (onBar (some (num 1))) (.tbarrArr zero) 1 [0], _, _, rfl, by decide, rfl, rfl, by decide, by decide⟩,
    ⟨firingOn pair (fun k => { k with waiters := [{ bar := 0, phase := 0, released := true, d0 := here 1, d1 := noDest, fire := pair }] }), _, _, rfl, by decide⟩,
    ⟨(syncing (onBar (some (num 1))) (.tbwait zero) 1 [0]).modCmd 0 1 (fun c => { c with phase := .queued }), _, _, rfl, rfl, rfl, by decide, rfl, rfl, rfl,
      by decide, by decide⟩⟩

set_option maxRecDepth 20000 in
/-- BAR and COLL of one arrival, and the last of two. -/
theorem test_witness_ScopedBarrierResults :
    (∃ (s : State) (c : Cmd) (x : Nat × Nat), (s.core 0).cmd? 1 = some c ∧ c.fire.core = 0 ∧ c.id = 1 ∧ c.phase = .covered ∧ s.covered c = true ∧
      c.instr = .bar { zero with imm := 16 } ∧ s.instanceOf c { zero with imm := 16 } false = some x ∧ s.chans = []) ∧
    (∃ (s : State) (c : Cmd) (x : Nat × Nat) (o : ScopeChan), (s.core 0).cmd? 1 = some c ∧ c.instr = .bar { zero with imm := 32 } ∧ s.covered c = true ∧
      s.instanceOf c { zero with imm := 32 } false = some x ∧ s.chans = [o] ∧ o.inst = x.1 ∧ o.ctx = x.2 ∧ o.coll = false ∧ o.chan = 0 ∧ o.n = 2 ∧ o.sig = 0 ∧
      o.arrivals.length + 1 = 2) ∧
    (∃ (s : State) (c : Cmd) (x : Nat × Nat) (v : View) (o : ScopeChan), (s.core 0).cmd? 1 = some c ∧ c.instr = .coll { zero with imm := 32 } ∧ s.covered c = true ∧
      s.instanceOf c { zero with imm := 32 } true = some x ∧ s.view c.fire.ctx c.fire.l.value true = .ok v ∧ c.fire.r = some Val.zero ∧ s.chans = [o] ∧ o.inst = x.1 ∧
      o.ctx = x.2 ∧ o.coll = true ∧ o.chan = 0 ∧ o.n = 2 ∧ o.sig = collSig { zero with imm := 32 } v.tile.cols ∧ o.arrivals = [(7, 9, 1, [])]) ∧
    (∃ (s : State) (c : Cmd) (x : Nat × Nat) (v : View), (s.core 0).cmd? 1 = some c ∧ c.instr = .coll { zero with imm := 16 } ∧ s.covered c = true ∧
      s.instanceOf c { zero with imm := 16 } true = some x ∧ s.view c.fire.ctx c.fire.l.value true = .ok v ∧ c.fire.r = some Val.zero ∧ s.chans = []) :=
  ⟨⟨syncing pair (.bar { zero with imm := 16 }) 0 [], _, _, rfl, rfl, rfl, rfl, by decide, rfl, rfl, rfl⟩,
    ⟨{ syncing pair (.bar { zero with imm := 32 }) 0 [] with chans := [⟨0, 0, false, 0, 2, 0, [(7, 9, 0, [])]⟩] }, _, (0, 0), _, rfl, rfl, by decide, by decide, rfl, rfl, rfl,
      rfl, rfl, rfl, rfl, by decide⟩,
    ⟨{ syncing (onBar (some Val.zero)) (.coll { zero with imm := 32 }) 0 [] with chans := [⟨0, 0, true, 0, 2, collSig { zero with imm := 32 } 2, [(7, 9, 1, [])]⟩] }, _, (0, 0), _, _,
      rfl, rfl, by decide, rfl, rfl, rfl, rfl, rfl, rfl, rfl, rfl, rfl, rfl, rfl⟩,
    ⟨syncing (onBar (some Val.zero)) (.coll { zero with imm := 16 }) 0 [], _, _, _, rfl, rfl, by decide, rfl, rfl, rfl, rfl⟩⟩

/-- A state in which a token from source 0 waits at core 0, whose page holds the word of an operator at IP 0. -/
def serving (i : Instr) (t : Val) (port : Bool) (slots : Table Slot) : State :=
  { (loaded pair).modCore 0 (fun k => { k with pages := [bootPage ((encode i).getD 0)], inbox := [⟨0, .token { fp := 0, ip := 0, port := port, val := t } false⟩], frames := [{ bootFrame with slots := slots }] }) with cur := none }

/-- A dyadic and a sticky addition whose slot is 4. -/
def addFour : Instr := .add { zero with ar := .dyadic, slot := 4 }
def addSticky : Instr := .add { zero with ar := .sticky, slot := 4 }

/-- The premises of TokenMatching for a resident frame. -/
def Served (s : State) : Prop :=
  ∃ (m : Mail) (rest : List Mail) (t : Token) (fr : Frame) (w : U128) (x : Nat × Fields), (s.core 0).ctx = some 0 ∧ takeFrom 0 (s.core 0).inbox = some (m, rest) ∧
    m.msg = .token t false ∧ (s.core 0).blocked = [] ∧ (s.core 0).dispatchQ = [] ∧ (s.core 0).frame? t.fp = some fr ∧ fr.obj ∉ (s.core 0).quar ∧
    t.ip.toNat < s.ninstr 0 fr.obj ∧ (s.core 0).wordAt 0 fr.obj t.ip = some w ∧ wordForm w = some x ∧ x.1 ≠ 0x13 ∧ x.2.ar ≠ .monadic ∧ x.2.slot = 4 ∧
    (s.core 0).light.length + (s.core 0).engine.length < 1024

set_option maxRecDepth 20000 in
/-- A token for no frame, and tokens of a dyadic operator at an empty slot, a sticky one, one of the same port, one of the other port, and a sticky operator. -/
theorem test_witness_TokenMatching :
    (∃ (s : State) (m : Mail) (rest : List Mail) (t : Token), (s.core 0).ctx = some 0 ∧ takeFrom 0 (s.core 0).inbox = some (m, rest) ∧ m.msg = .token t false ∧
      (s.core 0).blocked = [] ∧ (s.core 0).dispatchQ = [] ∧ (s.core 0).frame? t.fp = none ∧ (s.core 0).spilled? t.fp = none) ∧
    Served (serving addFour (num 5) true []) ∧ Served (serving addFour (num 5) true [(4, .sticky true (num 3))]) ∧
    Served (serving addFour (num 5) true [(4, .parked true (num 3))]) ∧ Served (serving addFour (num 5) true [(4, .parked false (num 3))]) ∧
    Served (serving addSticky (num 5) false [(4, .sticky true (num 3))]) :=
  ⟨⟨{ serving addFour (num 5) true [] with cores := [(0, { (serving addFour (num 5) true []).core 0 with frames := [] })] }, _, _, _, rfl, rfl, rfl, rfl, rfl, by decide, by decide⟩,
    ⟨_, _, _, _, _, _, rfl, rfl, rfl, rfl, rfl, rfl, by decide, by decide, rfl, rfl, by decide, by decide, by decide, by decide⟩,
    ⟨_, _, _, _, _, _, rfl, rfl, rfl, rfl, rfl, rfl, by decide, by decide, rfl, rfl, by decide, by decide, by decide, by decide⟩,
    ⟨_, _, _, _, _, _, rfl, rfl, rfl, rfl, rfl, rfl, by decide, by decide, rfl, rfl, by decide, by decide, by decide, by decide⟩,
    ⟨_, _, _, _, _, _, rfl, rfl, rfl, rfl, rfl, rfl, by decide, by decide, rfl, rfl, by decide, by decide, by decide, by decide⟩,
    ⟨_, _, _, _, _, _, rfl, rfl, rfl, rfl, rfl, rfl, by decide, by decide, rfl, rfl, by decide, by decide, by decide, by decide⟩⟩

/-- Two ready firings of an addition and, in the engine class, of a vector one. -/
def readyAdd : Firing := { pair with word := encode addFour }
def readyVec : Firing := { pair with word := encode (.vadd { zero with ar := .dyadic, slot := 4 }) }

set_option maxRecDepth 20000 in
/-- A light entry of class 2 before one of class 1, one with a turn due, an engine entry, and a division that waits. -/
theorem test_witness_DispatchResults :
    (∃ (s : State) (g : Firing) (post : List (Nat × Firing)), s.cur = none ∧ (s.core 0).stopped = false ∧ (s.core 0).ctx = some 0 ∧ (s.ctx 0).phase = .active ∧
      (s.core 0).light = (2, g) :: post ∧ (s.core 0).lightTurn < 64 ∧ (s.core 0).lightDue = false ∧ (∀ e ∈ post, e.1 ≤ 2) ∧ post ≠ []) ∧
    (∃ (s : State) (g : Firing) (pre : List (Nat × Firing)), s.cur = none ∧ (s.core 0).stopped = false ∧ (s.core 0).ctx = some 0 ∧ (s.ctx 0).phase = .active ∧
      (s.core 0).light = pre ++ [(1, g)] ∧ (s.core 0).lightDue = true ∧ 1 < (s.core 0).lightLast ∧ (∀ e ∈ pre, e.1 ≠ 1 ∧ (e.1 < (s.core 0).lightLast → e.1 ≤ 1)) ∧ pre ≠ []) ∧
    (∃ (s : State) (g : Firing) (x : Nat × Fields) (w : U128), s.cur = none ∧ (s.core 0).ctx = some 0 ∧ (s.ctx 0).phase = .active ∧ (s.core 0).engine = [(2, g)] ∧
      s.formOf g = some x ∧ g.word = some w ∧ (s.core 0).accepts g x.1 x.2 = true ∧ (s.core 0).engTurn < 64 ∧ (s.core 0).engDue = false ∧
      s.recording? 0 g.task = none ∧ (∀ fr, s.frameOf g = some fr → fr.probe = false)) ∧
    (∃ (s : State) (d : DivResult), (s.core 0).divider = [d]) :=
  ⟨⟨{ firingOn pair (fun k => { k with light := [(2, readyAdd), (1, readyAdd)] }) with cur := none }, _, _, rfl, rfl, rfl, rfl, rfl, by decide, rfl, by decide, by decide⟩,
    ⟨{ firingOn pair (fun k => { k with light := [(2, readyAdd), (1, readyAdd)], lightDue := true, lightLast := 2 }) with cur := none }, _, [(2, readyAdd)],
      rfl, rfl, rfl, rfl, rfl, rfl, by decide, by decide, by decide⟩,
    ⟨{ firingOn pair (fun k => { k with engine := [(2, readyVec)] }) with cur := none }, _, _, _, rfl, rfl, rfl, rfl, rfl, rfl, by decide, by decide, rfl, by decide,
      fun fr h => by cases h; rfl⟩,
    ⟨firingOn pair (fun k => { k with divider := [{ fire := pair, d0 := here 1, d1 := noDest, val := num 0, flags := 0 }] }), _, rfl⟩⟩

/-- A task of id 1 in context 0 whose root frame has class 0. -/
def task1 : Task := ⟨1, 0, 0, 0, 0, 0, 0, true, 0, [], 0, 0, 0, 0, none, [], 0, false, .none, none, false⟩

/-- A binding for which a frame has a place is made. -/
theorem tryAlloc_bind (s : State) (core task : Nat) (anchor : BitVec 12) (share : Option Nat) (t : Task) (ht : s.task? task = some t)
    (hp : (s.core core).framePlaces (classUnits (t.rootFrame share anchor).cls) ≠ []) : ∃ u, s.tryAlloc core (.bind task share anchor) = some u := by
  have hl : s.choice ((s.core core).framePlaces (classUnits (t.rootFrame share anchor).cls)).length <
      ((s.core core).framePlaces (classUnits (t.rootFrame share anchor).cls)).length := Nat.mod_lt _ (List.length_pos_of_ne_nil hp)
  cases share <;> simp [State.tryAlloc, ht, State.allocFrame, List.getElem?_eq_getElem hl]

/-- Context 0 with a backing area of 70000 bytes a core, and two frames of class 0 on core 0, neither named by the firing. -/
def stored (h : Core → Core) : State :=
  let s := mapped (loaded pair)
  { (s.modCtx 0 (fun c => { c with fbasz := 70000 })).modCore 0 h with cur := none, tasks := [(1, { task1 with cls := 11 })] }

/-- That state after the spill of a frame of two units to entry 0 and records 0 and 1 of the backing area. -/
def spilled (s : State) (fr : Frame) : State :=
  let k := s.core 0
  let e : Spilled := { fp := fr.fp k.vcore, dir := 0, recs := [0, 1], frame := fr }
  ((((s.ctx 0).recordRanges k.vcore.toNat 0 [0, 1]).zip (e.bytes :: (List.range 2).map fr.unitRecord)).foldl (fun (t : State) w => t.ctxPut 0 w.1.1 w.2) (s.setCore 0 (Core.count
    { k with frames := [], unitGen := Table.put k.unitGen fr.base (fr.gen + 1), spillDir := [e] } 3)))

set_option maxRecDepth 20000 in
/-- A release, a frame that waits to be freed, an allocation that meets a resident frame, and a spilled frame that a message waits for. -/
theorem test_witness_FrameStoreResults :
    (∃ (s : State) (m : Mail) (fr : Frame), (s.core 0).ctx = some 0 ∧ takeFrom 0 (s.core 0).inbox = some (m, []) ∧ m.msg = .release 0 ∧ (s.core 0).blocked = [] ∧
      (s.core 0).dispatchQ = [] ∧ (s.core 0).frame? 0 = some fr ∧ s.fpCore 0 0 = some 0 ∧ fr.live = 1 ∧ fr.freepend = true) ∧
    (∃ (s : State) (fr : Frame), (s.core 0).ctx = some 0 ∧ (s.core 0).frame? 0 = some fr ∧ fr.freepend = true ∧ fr.live = 0) ∧
    (∃ (s : State) (fr : Frame), (s.core 0).ctx = some 0 ∧ (s.core 0).frame? 0 = some fr ∧ fr.freepend = false) ∧
    (∃ (s : State) (a : AllocFor) (fr : Frame), (s.core 0).ctx = some 0 ∧ (s.core 0).framePark = none ∧ s.nextAlloc 0 (s.core 0).allocs = some (a, []) ∧
      ((s.modCore 0 (fun k => { k with allocs := [] })).tryAlloc 0 a).isNone = true ∧ s.fits a (s.core 0) = false ∧
      oldest ((s.core 0).frames.filter (fun f => s.spillable 0 f)) = some fr ∧ classUnits fr.cls = 2 ∧ 2 ≤ (s.ctx 0).spillRecords ∧ (s.ctx 0).fbasz ≠ 0 ∧
      (s.core 0).spillDir = [] ∧ s.backingFault (s.ctx 0) ((s.ctx 0).recordRanges 0 0 [0, 1]) .write = none ∧ s.fits a ((spilled s fr).core 0) = true ∧
      ∃ u, ((spilled s fr).modCore 0 (fun k => { k with allocs := [] })).tryAlloc 0 a = some u) ∧
    (∃ (s : State) (a : AllocFor) (fr : Frame), (s.core 0).ctx = some 0 ∧ (s.core 0).framePark = none ∧ s.nextAlloc 0 (s.core 0).allocs = some (a, []) ∧
      ((s.modCore 0 (fun k => { k with allocs := [] })).tryAlloc 0 a).isNone = true ∧ s.fits a (s.core 0) = false ∧
      oldest ((s.core 0).frames.filter (fun f => s.spillable 0 f)) = some fr ∧ (s.ctx 0).fbasz = 0) ∧
    (∃ (s : State) (e : Spilled), (s.core 0).ctx = some 0 ∧ (s.core 0).spilled? 0 = some e ∧ (s.core 0).framePark = none ∧ (∃ x ∈ (s.core 0).fillQueue, x.1 = 0) ∧
      (s.core 0).frames = [] ∧ (s.core 0).armOn (e.frame.base, classUnits e.frame.cls) = none ∧
      takeFree 0 (s.core 0).fillQueue = none ∧ e.frame.freepend = false ∧
      s.backingFault (s.ctx 0) (((s.ctx 0).recordRanges (s.core 0).vcore.toNat 0 e.recs).drop 1) .read = none) :=
  ⟨⟨stored (fun k => { k with inbox := [⟨0, .release 0⟩], frames := [{ bootFrame with live := 1, freepend := true }] }), _, _, rfl, rfl, rfl, rfl, rfl, rfl, rfl, rfl, rfl⟩,
    ⟨stored (fun k => { k with frames := [{ bootFrame with freepend := true }] }), _, rfl, rfl, rfl, rfl⟩,
    ⟨stored id, _, rfl, rfl, rfl⟩,
    ⟨stored (fun k => { k with allocs := [.bind 1 none 0] }), _, _, rfl, rfl, rfl, by decide, by decide, rfl, rfl, by decide, by decide, rfl, by decide, by decide, tryAlloc_bind _ 0 1 0 none { task1 with cls := 11 } rfl (by decide)⟩,
    ⟨(stored (fun k => { k with allocs := [.bind 1 none 0] })).modCtx 0 (fun c => { c with fbasz := 0 }), _, _, rfl, rfl, rfl, by decide, by decide, rfl, rfl⟩,
    ⟨stored (fun k => { k with frames := [], spillDir := [⟨0, 0, [0, 1], bootFrame⟩], fillQueue := [(0, ⟨0, .token { fp := 0, ip := 0, port := false, val := num 1 } false⟩)] }), _,
      rfl, rfl, rfl, by decide, rfl, rfl, rfl, rfl, by decide⟩⟩

/-- Context 0 with its map, whose queue 0 has a ring of 64 records at 0x40000, and eight sticky slots of 0 from slot 4 of the frame. -/
def queued (g : Firing) (h : Core → Core) : State :=
  let s := mapped (stickies g (List.replicate 8 (num 0)) h)
  { s with hbm := [(1, 0x80), (3, 6), (10, 4)] ++ s.hbm }

/-- That queue with 64 records. -/
def queuedFull (g : Firing) : State :=
  let s := queued g id
  { s with hbm := [(1, 0x80), (3, 6), (10, 4), (18, 64)] ++ s.hbm.drop 3 }

/-- A resident slot 3 of stack 0 for queue 0, at HEAD 0. -/
def slot3 (tail passed : Nat) (s : State) : State :=
  s.modStack 0 (fun k => { k with slots := [(3, { queue := 0, prio := 2, eff := 2, passed := passed, head := 0, tail := tail, ovf := 0 })] })

/-- A frame that is a worker of share 0, of task 0, whose last grain was 4 to 8, beside the share 8 to 20. -/
def worker (g : Firing) : State :=
  ((firingIn g (fun fr => { fr with worker := some (0, 4, 8) })).modStack 0 (fun k => { k with shares := [(0, { task := 0, grain := 4, lo := 8, hi := 20, owner := some (0, 0), ready := true })] }))

set_option maxRecDepth 20000 in
/-- A queue of the context, one beyond the range, one that is full, one that is not resident, is resident, and finds its slot occupied; workers. -/
theorem test_witness_QueueOperatorResults :
    (∃ (s : State) (g : Firing) (d : QDesc) (ws : List U64), s.cur = some g ∧ g.scalars ∧ s.retire.ownQueue g.ctx g.l.value = .ok d ∧
      s.retire.recSlots g 4 = .ok ws ∧ recMalformed ws (s.ctx g.ctx).hcwlen.toNat = false ∧ d.full = false ∧ (s.core g.core).cmds = [] ∧
      s.retire.resident? 0 = none) ∧
    (∃ (s : State) (g : Firing) (d : QDesc) (ws : List U64), s.cur = some g ∧ g.scalars ∧ s.retire.ownQueue g.ctx g.l.value = .ok d ∧ s.retire.recSlots g 4 = .ok ws ∧
      recMalformed ws (s.ctx g.ctx).hcwlen.toNat = false ∧ d.full = true) ∧
    (∃ (s : State) (g : Firing), s.cur = some g ∧ g.scalars ∧ g.l.value.toNat = 4096 ∧ s.retire.ownQueue g.ctx g.l.value = .error .queueRange) ∧
    (∃ (s : State) (g : Firing) (d : QDesc), s.cur = some g ∧ g.scalars ∧ (s.ctx g.ctx).sup = true ∧ s.retire.qdesc 0 = some d ∧ s.retire.resident? 0 = none ∧
      Table.find (s.retire.stack 0).slots 5 = none) ∧
    (∃ (s : State) (g : Firing) (d : QDesc) (x : Nat × Nat × Resident), s.cur = some g ∧ g.scalars ∧ (s.ctx g.ctx).sup = true ∧ s.retire.qdesc 0 = some d ∧
      s.retire.resident? 0 = some x) ∧
    (∃ (s : State) (g : Firing) (fr : Frame) (x : Nat × Share), s.cur = some g ∧ g.scalars ∧ s.retire.frameOf g = some fr ∧ fr.worker = some (0, 4, 8) ∧
      s.retire.ownedShare g.core g.fp = some x ∧ x.2.lo < x.2.hi ∧ 4 ≤ g.l.value.toNat ∧ (∃ r, g.r = some r ∧ g.l.value.toNat < r.value.toNat ∧ r.value.toNat = 8) ∧
      Table.lowestFree (s.retire.stack 0).shares 256 = some 1) ∧
    (∃ (s : State) (g : Firing) (fr : Frame), s.cur = some g ∧ g.scalars ∧ s.retire.frameOf g = some fr ∧ fr.worker = none) :=
  ⟨⟨queued (fire (num 0) none none) id, _, _, _, rfl, by decide, rfl, rfl, by decide, by decide, rfl, by decide⟩,
    ⟨queuedFull (fire (num 0) none none), _, _, _, rfl, by decide, rfl, rfl, by decide, by decide⟩,
    ⟨queued (fire (num 4096) none none) id, _, rfl, by decide, by decide, rfl⟩,
    ⟨slot3 0 0 ((queued (fire (num 0) none none) id).modCtx 0 (fun c => { c with sup := true })) |>.modStack 0 (fun k => { k with slots := [] }), _, _,
      rfl, by decide, rfl, rfl, by decide, by decide⟩,
    ⟨slot3 0 0 ((queued (fire (num 0) none none) id).modCtx 0 (fun c => { c with sup := true })), _, _, _, rfl, by decide, rfl, rfl, rfl⟩,
    ⟨worker (fire (num 5) (some (num 8)) none), _, _, _, rfl, by decide, rfl, rfl, rfl, by decide, by decide, ⟨_, rfl, by decide, by decide⟩, by decide⟩,
    ⟨firing pair, _, _, rfl, by decide, rfl, rfl⟩⟩

/-- A range task over 0 to 20 in grains of 4, with one part on stack 0. -/
def task2 : Task := { task1 with range := some (0, 20, 4), parts := [(0, false)] }

/-- Object 0 with the entry of the tasks, and a task. -/
def tasked (t : Task) (h : Stack → Stack) : State :=
  { (((queued pair id).modCtx 0 (fun c => { c with objs := [{ object with entries := [(0, 0)] }] })).modStack 0 h) with cur := none, tasks := [(1, t)], ids := 2 }

def bind1 (k : Stack) : Stack := { k with binds := [⟨1, some (0, 0), none, none⟩] }
def push1 (k : Core) : Core := { k with cmds := [{ Cmd.start 1 (fire (num 0) none none) (.launch zero) .launch with phase := .queued }] }

set_option maxRecDepth 20000 in
/-- A resident queue of one record; a slot passed over 1024 times; a queue; a push that waits at a full one and at one with room. -/
theorem test_witness_DistributorResults :
    (∃ (s : State) (r : Resident) (d : QDesc) (bs : List Byte), (3, r) ∈ s.candidates 0 ∧ (s.stack 0).slots = [(3, r)] ∧ s.qdesc r.queue = some d ∧
      s.ctxRead d.ctx 0 (d.ring + 64 * (r.head % 2 ^ d.rlog)) 64 = .ok bs ∧ recMalformed (recWords bs) (s.ctx d.ctx).hcwlen.toNat = false ∧
      s.partsFit d.ctx (Rec.of (recWords bs)) = true ∧ (Rec.of (recWords bs)).rng = false) ∧
    (∃ (s : State) (r : Resident), Table.find (s.stack 0).slots 3 = some r ∧ r.passed = 1024) ∧
    (∃ (s : State) (d : QDesc), s.queue 0 = some d ∧ d.depth ≠ 2 ^ d.rlog) ∧
    (∃ (s : State) (d : QDesc) (c : Cmd), s.queue 0 = some d ∧ d.depth = 2 ^ d.rlog ∧ (s.core 0).cmd? 1 = some c ∧ c.id = 1 ∧ c.engine = .launch ∧ c.phase = .queued ∧
      c.instr = .launch zero ∧ c.fire.l.value = 0) ∧
    (∃ (s : State) (d : QDesc) (c : Cmd), s.queue 0 = some d ∧ d.depth ≠ 2 ^ d.rlog ∧ (s.core 0).cmd? 1 = some c ∧ c.id = 1 ∧ c.engine = .launch ∧ c.phase = .queued ∧
      c.instr = .launch zero ∧ c.fire.l.value = 0 ∧ ∀ x ∈ (s.core 0).cmds, x.id < 1 → x.engine ≠ .launch) ∧
    (∃ (s : State) (t : Task) (o : ObjRec) (low : Nat × Nat), s.nextPacket (s.stack 0).binds = some (⟨1, some (0, 0), none, none⟩, []) ∧ s.task? 1 = some t ∧ t.tmode = 0 ∧
      ((s.ctx t.ctx).cores 0).head? = some low ∧ (s.part 0 t.ctx).state t.obj = .enabled ∧ s.objOn 0 t.ctx t.obj = .usable o ∧ o.binds t = true) ∧
    (∃ (s : State) (t : Task) (o : ObjRec), s.nextPacket (s.stack 0).binds = some (⟨1, some (0, 0), none, none⟩, []) ∧ s.task? 1 = some t ∧ t.tmode = 0 ∧
      s.objOn 0 t.ctx t.obj = .usable o ∧ o.binds t = false) ∧
    (∃ (s : State) (t : Task), s.task? 1 = some t ∧ t.range ≠ none ∧ (s.core 0).ctx = some t.ctx ∧ (s.core 0).hasWorker 1 = false ∧ (∃ p ∈ t.parts, p.2 = false) ∧
      (s.core 0).light = [] ∧ (s.core 0).engine = [] ∧ (s.stack 0).asks = []) ∧
    (∃ (s : State) (n : Nat) (x : Share), (s.stack 0).asks = [(0, 1)] ∧
      largestShare ((s.stack 0).shares.filter (fun e => e.2.task == 1 && e.2.owner.isNone)) = some (n, x)) ∧
    (∃ (s : State) (m n : Nat) (x : Share), (s.stack 0).asks = [(0, 1)] ∧ (∀ e ∈ (s.stack 0).shares, e.2.task = 1 → e.2.owner ≠ none) ∧ (s.stack 0).shares.length < 256 ∧
      Table.lowestFree (s.stack 0).shares 256 = some m ∧ s.splittable 0 ((s.core 0).ctx.getD 0) = some (n, x)) ∧
    (∃ (s : State) (t : Task), s.task? 1 = some t ∧ (s.ctx t.ctx).live = true ∧ (0, false) ∈ t.parts ∧ (s.stack 0).shares = [] ∧ (s.stack 0).binds = [] ∧
      ∀ c ∈ s.cores, c.2.hasWorker 1 = false) ∧
    (∃ (s : State) (t : Task), s.task? 1 = some t ∧ t.range = some (0, 20, 4) ∧ (s.ctx t.ctx).live = true ∧ t.parts ≠ [] ∧ (∀ p ∈ t.parts, p.2 = true) ∧ t.freed = false) ∧
    (∃ (s : State) (t : Task) (v : Val), s.task? 1 = some t ∧ t.ended = some v ∧ (s.ctx t.ctx).live = true ∧ t.range = none ∧ t.freed = true ∧ (∀ g ∈ s.work, g.task ≠ 1) ∧
      s.recordQuad 1 = none ∧ s.fpCore t.ctx t.rootFp = some 0) ∧
    (∃ (s : State) (t : Task) (v : Val), s.task? 1 = some t ∧ t.ended = some v ∧ (s.ctx t.ctx).live = true ∧ t.range = none ∧ t.freed = false) :=
  ⟨⟨slot3 1 0 (tasked task1 id), _, _, _, by decide, rfl, rfl, rfl, by decide, by decide, by decide⟩, ⟨slot3 1 1024 (tasked task1 id), _, rfl, rfl⟩,
    ⟨tasked task1 id, _, rfl, by decide⟩, ⟨slot3 64 0 (queued pair push1), _, _, rfl, by decide, rfl, rfl, rfl, rfl, rfl, rfl⟩,
    ⟨slot3 63 0 (queued pair push1), _, _, rfl, by decide, rfl, rfl, rfl, rfl, rfl, rfl, by decide⟩,
    ⟨tasked task2 bind1, _, _, (0, 0), rfl, rfl, rfl, rfl, rfl, rfl, by decide⟩, ⟨tasked { task2 with entry := 7 } bind1, _, _, rfl, rfl, rfl, rfl, by decide⟩,
    ⟨tasked task2 id, _, rfl, by decide, rfl, by decide, by decide, rfl, rfl, rfl⟩,
    ⟨tasked task2 (fun k => { k with asks := [(0, 1)], shares := [(0, ⟨1, 4, 0, 20, none, true⟩)] }), _, _, rfl, rfl⟩,
    ⟨tasked task2 (fun k => { k with asks := [(0, 1)], shares := [(0, ⟨1, 4, 0, 20, some (1, 0), true⟩)] }), _, _, _, rfl, by decide, by decide, rfl, rfl⟩,
    ⟨tasked task2 id, _, rfl, rfl, by decide, rfl, rfl, by decide⟩,
    ⟨tasked { task2 with parts := [(0, true)] } id, _, rfl, rfl, rfl, by decide, by decide, rfl⟩,
    ⟨tasked { task1 with ended := some (num 7), freed := true } id, _, _, rfl, rfl, rfl, rfl, rfl, by decide, by decide, rfl⟩,
    ⟨tasked { task1 with ended := some (num 7) } id, _, _, rfl, rfl, rfl, rfl, rfl⟩⟩

/-- Slots of a task's record whose dest1 is in the same frame, and that task. -/
def recorder (f : Option Recording) (probe : Bool) (rs : List Replay) : State :=
  { (stickies pair (List.replicate 8 (num 0)) id).modFrameOf pair (fun fr => { fr with probe := probe }) with tasks := [(0, { task1 with id := 0 })], tapes := [(0, ⟨f, rs, [], [], [], []⟩)] }

/-- A tape of a vector command without operands, then a guard. -/
def guardEntry (n : Nat) (pred : U64) : TapeEntry := .guard ⟨n, 0, 0, 0, 0, pred, ⟨some n, [], []⟩⟩
def tape1 (es : List TapeEntry) : Tape := ⟨0, 0, 0, 0, 0, 0, 0, true, 0, 0, 0, [], es, none, none, [], [], 0, 0⟩
def vecEntry : TapeEntry := .cmd ⟨(encode (.vadd zero)).getD 0, 0, 0, 0, false, 0, [], [], [], false, false, false⟩
def replay1 (es : List TapeEntry) : Replay := ⟨0, tape1 es, [], [], [], none, none⟩

/-- The engine of quad 0 with replays at work and waiting. -/
def replaying (rs ws : List Replay) : State := { firing pair with cur := none, tasks := [(0, { task1 with id := 0 })], tapes := [(0, ⟨none, rs, ws, [tape1 []], [], []⟩)] }

set_option maxRecDepth 20000 in
/-- No recording, a record in eight slots, TAPEPLAY's dest1, and a probe frame at its guard. -/
theorem test_witness_TapeOperatorResults :
    (∃ (s : State) (g : Firing) (ws : List U64) (fp : U32) (tk : Task), s.cur = some g ∧ g.scalars ∧ s.recording? g.core g.task = none ∧
      (∀ fr, s.retire.frameOf g = some fr → fr.probe = false) ∧ (s.engine (quadOf g.core)).record = none ∧ (∀ e ∈ s.tapes, e.2.record = none) ∧
      s.tapes.Pairwise (fun a b => a.1 < b.1) ∧ s.retire.recSlots g 4 = .ok ws ∧ s.retire.destFp g (here 1) = some fp ∧ s.task? g.task = some tk ∧
      (ws[0]?.getD 0).getLsbD 63 = false) ∧
    (∃ (s : State) (g : Firing) (fr : Frame) (r : Replay) (tk : Task) (x : TapeGuard), s.cur = some g ∧ g.scalars ∧ s.retire.frameOf g = some fr ∧ fr.probe = true ∧
      (s.engine (quadOf g.core)).replay? g.task = some r ∧ s.task? g.task = some tk ∧ r.probe = some (0, g.fp) ∧ r.tape.entries[0]? = some (.guard x) ∧
      x.gip = g.ip ∧ x.pred = g.l.value) ∧
    (∃ (s : State) (g : Firing) (y : Tape), s.cur = some g ∧ g.scalars ∧ (s.engine (quadOf g.core)).record = none ∧ (s.engine (quadOf g.core)).tape? g.ctx 0 = some y ∧
      y.valid = true ∧ (s.retire.readTape y).isSome = true) :=
  ⟨⟨recorder none false [], _, _, _, _, rfl, by decide, rfl, fun fr h => by cases h; rfl, rfl, by decide, by decide, rfl, rfl, rfl, by decide⟩,
    ⟨recorder none true [{ replay1 [guardEntry 0 3] with probe := some (0, 0) }], _, _, _, _, _, rfl, by decide, rfl, rfl, rfl, rfl, rfl, rfl, rfl, rfl⟩,
    ⟨{ recorder none false [] with tapes := [(0, ⟨none, [], [], [tape1 []], [], []⟩)] }, _, _, rfl, by decide, rfl, rfl, rfl, rfl⟩⟩

set_option maxRecDepth 20000 in
/-- A waiting replay with room and without; one whose first entry may be issued; one that is done; one at a guard; one with a fault; a recording at its guard. -/
theorem test_witness_TapeEventResults :
    (∃ (s : State) (r : Replay), (s.engine 0).waiting = [r] ∧ (s.engine 0).replays.length = 3) ∧
    (∃ (s : State) (r : Replay), (s.engine 0).waiting = [r] ∧ (s.engine 0).replays.length = 4) ∧
    (∃ (s : State) (r : Replay) (t : Task), (s.engine 0).replay? 0 = some r ∧ s.task? 0 = some t ∧ t.id = 0 ∧ r.fault = none ∧ (s.ctx t.ctx).phase = .active ∧
      0 < r.tape.entries.length ∧ s.entryReady 0 r 0 = true ∧ r.tape.entries[0]? = some vecEntry) ∧
    (∃ (s : State) (r : Replay) (t : Task), (s.engine 0).replay? 0 = some r ∧ s.task? 0 = some t ∧ t.id = 0 ∧ r.fault = none ∧
      (∀ i, i < r.tape.entries.length → s.entryDone r i = true) ∧ r.tape.exit = none) ∧
    (∃ (s : State) (r : Replay), (s.engine 0).replay? 0 = some r ∧ r.fault = none ∧ r.probe = none ∧ (s.ctx r.tape.ctx).phase = .active ∧
      r.tape.entries[0]? = some (guardEntry 0 3) ∧ 0 ∉ r.passed) ∧
    (∃ (s : State) (r : Replay) (t : Task) (v : Val), (s.engine 0).replay? 0 = some r ∧ s.task? 0 = some t ∧ r.fault = some v ∧ r.probe = none ∧ s.replayParked 0 = true) ∧
    (∃ s : State, (s.engine 0).freed = [(pair, zero, false)]) ∧
    (∃ (s : State) (r : Recording) (t : Task) (g : Firing) (f : Fields), (s.engine 0).freed = [] ∧ (s.engine 0).record = some r ∧ s.task? r.task = some t ∧ r.atGuard = [(g, f, false)] ∧
      s.recordQuiet 0 r.task = true ∧ (s.snapshot 0 t (some r.entries.length) [] none).toBool = true) :=
  ⟨⟨replaying [replay1 [], replay1 [], replay1 []] [replay1 []], _, rfl, rfl⟩, ⟨replaying [replay1 [], replay1 [], replay1 [], replay1 []] [replay1 []], _, rfl, rfl⟩,
    ⟨replaying [replay1 [vecEntry]] [], _, _, rfl, rfl, rfl, rfl, rfl, by decide, by decide, rfl⟩,
    ⟨replaying [replay1 []] [], _, _, rfl, rfl, rfl, rfl, fun _ h => absurd h (Nat.not_lt_zero _), rfl⟩,
    ⟨replaying [replay1 [guardEntry 0 3]] [], _, rfl, rfl, rfl, rfl, rfl, by decide⟩,
    ⟨replaying [{ replay1 [] with fault := some (num 0) }] [], _, _, _, rfl, rfl, rfl, rfl, by decide⟩,
    ⟨{ replaying [] [] with tapes := [(0, ⟨none, [], [], [], [], [(pair, zero, false)]⟩)] }, rfl⟩,
    ⟨{ replaying [] [] with tapes := [(0, ⟨some ⟨0, 0, 0, [], 0, true, none, [(pair, zero, false)]⟩, [], [], [], [], []⟩)] }, _, _, _, _, rfl, rfl, rfl, rfl, by decide, by decide⟩⟩

set_option maxRecDepth 20000 in
/-- Scalars in a context that may adjust TIME, in one that may not, and a full table of waits. -/
theorem test_witness_TimeOperatorResults :
    (∃ (s : State) (g : Firing), s.cur = some g ∧ g.scalars ∧ (∃ r, g.r = some r ∧ r.kind = .scalar) ∧ (s.core g.core).waits.length = 255 ∧ (s.ctx g.ctx).sup = false) ∧
    (∃ (s : State) (g : Firing), s.cur = some g ∧ g.plain ∧ (∃ r, g.r = some r ∧ r.kind = .scalar) ∧ (s.core g.core).waits.length = 256) ∧
    (∃ (s : State) (g : Firing), s.cur = some g ∧ g.scalars ∧ (s.ctx g.ctx).sup = true ∧ s.mod.ioDom.toNat = 2 ∧ s.mod.ioGm = false) ∧
    (∃ (s : State) (g : Firing), s.cur = some g ∧ g.scalars ∧ (s.ctx g.ctx).sup = true ∧ s.mod.ioDom.toNat ≤ 1 ∧ g.l.value.toInt.natAbs ≤ 2 ^ 40 ∧ 0 < g.l.value.toNat) :=
  let w : Wait := { deadline := 0, sure := false, d0 := noDest, d1 := noDest, fire := pair }
  ⟨⟨firingOn pair (fun k => { k with waits := List.replicate 255 w }), _, rfl, by decide, ⟨_, rfl, rfl⟩, by decide, rfl⟩,
    ⟨firingOn pair (fun k => { k with waits := List.replicate 256 w }), _, rfl, by decide, ⟨_, rfl, rfl⟩, by decide⟩,
    ⟨((firing pair).modCtx 0 (fun c => { c with sup := true })).modMod (fun m => { m with ioDom := 2, ioGm := false }), _, rfl, by decide, rfl, rfl, rfl⟩,
    ⟨(firing pair).modCtx 0 (fun c => { c with sup := true }), _, rfl, by decide, rfl, by decide, by decide, by decide⟩⟩

/-- A wait for a deadline. -/
def waitFor (d : Nat) (sure : Bool) : Wait := { deadline := d, sure := sure, d0 := here 1, d1 := noDest, fire := pair }

/-- A link end with flits that have come in. -/
def arrived (l side : Nat) (x : FlitBody) (s : State) : State := s.modLink l side (fun e => { e with state := 2, wire := [{ tag := 0, seq := 0, body := x }] })

set_option maxRecDepth 20000 in
/-- A wait at its deadline and one before it, holdover at its two limits, the three messages of an exchange, and clocks. -/
theorem test_witness_TimeEventResults :
    (∃ (s : State) (w : Wait), (s.core 0).ctx = some 0 ∧ (s.ctx 0).phase = .active ∧ (s.core 0).waits = [] ++ w :: [waitFor 9 false] ∧ w.sure = false ∧
      w.deadline ≤ (s.stack (coreStack 0)).time % 2 ^ 64 ∧ ¬9 ≤ (s.stack (coreStack 0)).time % 2 ^ 64) ∧
    (∃ (s : State) (w : Wait), (s.core 0).waits = [w] ∧ w.sure = true ∧ (s.stack 0).errReg ≠ 0xFFFFFFFF ∧ w.deadline + (s.stack 0).errReg.toNat = (s.stack 0).time % 2 ^ 64) ∧
    (∃ s : State, (s.core 0).waitRetry = [waitFor 0 false] ∧ (s.core 0).waits.length = 255) ∧
    (∃ s : State, (s.stack 0).hold = false ∧ (s.stack 0).lastExch + 64000 = (s.stack 0).time) ∧
    (∃ s : State, (s.stack 0).hold = true ∧ (s.stack 0).lastTick + 50000 = (s.stack 0).time) ∧
    (∃ s : State, (s.link 12 1).wire = [{ tag := 0, seq := 0, body := .time (.sync 7) }]) ∧
    (∃ s : State, (s.link 12 0).wire = [{ tag := 0, seq := 0, body := .time .delayReq }]) ∧
    (∃ s : State, (s.link 12 1).wire = [{ tag := 0, seq := 0, body := .time (.reply 9 5) }] ∧ linkNode 12 1 = 4 ∧ (s.stack 4).dom ≠ 0) ∧
    (∃ s : State, s.mod.gmReq = false ∧ s.mod.domReq = 2 ∧ s.mod.gates.getLsbD 8 = true) ∧ (∃ s : State, s.mod.gmReq = false ∧ s.mod.domReq = 3 ∧ s.mod.gates.getLsbD 10 = true) ∧
    (∃ (s : State) (m : Nat), (s.stack 0).minMhz ≤ m ∧ m ≤ (s.stack 0).maxMhz ∧ (s.stack 0).clamp = none ∧ s.clockHeld 0 = false ∧ (s.stack 0).moving = true) ∧
    (∃ s : State, (s.stack 0).clamp ≠ none ∧ s.clockHeld 0 = false ∧ (s.stack 0).pendMhz = some 1500) ∧ (∃ s : State, s.clockHeld 0 = true) :=
  let at_ (t : Nat) (h : Core → Core) : State := { (firingOn pair h).modStack 0 (fun k => { k with time := t, err := 2 }) with cur := none }
  ⟨⟨at_ 8 (fun k => { k with waits := [waitFor 8 false, waitFor 9 false] }), waitFor 8 false, rfl, rfl, rfl, rfl, by decide, by decide⟩,
    ⟨at_ 8 (fun k => { k with waits := [waitFor 6 true] }), waitFor 6 true, rfl, rfl, by decide, by decide⟩,
    ⟨at_ 8 (fun k => { k with waitRetry := [waitFor 0 false], waits := List.replicate 255 (waitFor 9 false) }), rfl, by decide⟩,
    ⟨(at_ 0 id).modStack 0 (fun k => { k with hold := false, lastExch := 0, time := 64000 }), rfl, rfl⟩,
    ⟨(at_ 0 id).modStack 0 (fun k => { k with hold := true, lastTick := 0, time := 50000 }), rfl, rfl⟩,
    ⟨arrived 12 1 (.time (.sync 7)) (firing pair), rfl⟩, ⟨arrived 12 0 (.time .delayReq) (firing pair), rfl⟩,
    ⟨(arrived 12 1 (.time (.reply 9 5)) (firing pair)).modStack 4 (fun k => { k with dom := 1 }), rfl, rfl, by decide⟩,
    ⟨(firing pair).modMod (fun m => { m with timecfg := 0x400000000, gates := 0x100 }), rfl, rfl, by decide⟩,
    ⟨(firing pair).modMod (fun m => { m with timecfg := 0x600000000, gates := 0x400 }), rfl, rfl, by decide⟩,
    ⟨(firing pair).modStack 0 (fun k => { k with moving := true, minMhz := 1200, maxMhz := 1400 }), 1400, by decide, by decide, by decide, by decide, rfl⟩,
    ⟨(firing pair).modStack 0 (fun k => { k with clamp := some (1200, false), pendMhz := some 1500 }), by decide, by decide, rfl⟩,
    ⟨(firing pair).modLink 0 0 (fun e => { e with pend := true, pmode := 1 }), by decide⟩⟩

/-- A supervisor context on core 0 with a scalar link index and a second operand. -/
def linking (l r : U64) (t : Option Val) : State := (firing (fire (num l) (some (num r)) t)).modCtx 0 (fun c => { c with sup := true })

set_option maxRecDepth 20000 in
/-- Another context; bits out of range; an end of another stack; an end of the own stack, idle, with a change at both ends, and with a proposal under way. -/
theorem test_witness_LinkOperatorResults :
    (∃ (s : State) (g : Firing), s.cur = some g ∧ g.scalars ∧ (s.ctx g.ctx).sup = false) ∧
    (∃ (s : State) (g : Firing), s.cur = some g ∧ g.scalars ∧ (s.ctx g.ctx).sup = true ∧ g.l.value.toNat = 64) ∧
    (∃ (s : State) (g : Firing) (x : Nat × Nat × Nat), s.cur = some g ∧ g.scalars ∧ (s.ctx g.ctx).sup = true ∧ g.l.value.toNat < 64 ∧ (∀ x ∈ s.linkReqs, x.id ≠ s.ids) ∧
      (g.r.getD Val.zero).value = 2 ∧ linkNode (g.l.value.toNat % 32) (g.l.value.toNat / 32 % 2) = 1 ∧ coreStack g.core = 0 ∧ nextHop 0 1 = some x) ∧
    (∃ (s : State) (g : Firing), s.cur = some g ∧ g.scalars ∧ (s.ctx g.ctx).sup = true ∧ g.l.value = 0 ∧ s.linkReqs = [] ∧ (g.r.getD Val.zero).value = 2 ∧
      linkNode 0 0 = coreStack g.core ∧ g.obj ∉ (s.core g.core).quar ∧ (s.link 0 0).pend = false ∧ (s.link 0 0).proposer = none ∧ g.t = some (num 99)) ∧
    (∃ (s : State) (g : Firing), s.cur = some g ∧ g.scalars ∧ (s.ctx g.ctx).sup = true ∧ g.l.value = 0 ∧ (g.r.getD Val.zero).value = 0x100 ∧ (s.link 0 0).proposer = some 7) ∧
    (∃ (s : State) (g : Firing), s.cur = some g ∧ g.scalars ∧ (s.ctx g.ctx).sup = true ∧ g.l.value = 0 ∧ (∀ d, d < 2 → (s.link 0 d).pend = true ∧ (s.link 0 d).state = 2)) ∧
    mapFits 0x0608080 0 false = true ∧ mapFits 0 0 false = false :=
  ⟨⟨firing pair, _, rfl, by decide, rfl⟩, ⟨linking 64 0 none, _, rfl, by decide, rfl, by decide⟩,
    ⟨linking 32 2 none, _, _, rfl, by decide, rfl, by decide, by decide, rfl, by decide, by decide, rfl⟩,
    ⟨linking 0 2 (some (num 99)), _, rfl, by decide, rfl, rfl, rfl, rfl, by decide, by decide, rfl, rfl, rfl⟩,
    ⟨(linking 0 0x100 none).modLink 0 0 (fun e => { e with proposer := some 7 }), _, rfl, by decide, rfl, rfl, rfl, rfl⟩,
    ⟨((linking 0 0 none).modLink 0 0 (fun e => { e with pend := true, state := 2 })).modLink 0 1 (fun e => { e with pend := true, state := 2 }), _,
      rfl, by decide, rfl, rfl, by decide⟩, by decide, by decide⟩

/-- Link 0 whose ends are in a state, with a change of mode under way at end 0. -/
def changing (st : Nat) (h : LinkEnd → LinkEnd) : State :=
  ((firing pair).modLink 0 0 (fun e => h { e with state := st, pend := true, tc := 40000 })).modLink 0 1 (fun e => { e with state := st })

/-- A SCHED of the firing that waits for its result. -/
def sched : LinkReq := { id := 7, fire := pair, instr := .linkctlSched zero, link := 0, side := 0 }

set_option maxRecDepth 20000 in
/-- A flit to send, one to send again, an idle end; each kind of flit that comes in; a proposal and its answers at their limits; and retraining. -/
theorem test_witness_LinkEventResults :
    (∃ (s : State) (x : Flit), (s.link 0 0).state = 2 ∧ (s.link 0 0).resend = [] ∧ (s.link 0 0).out = [x] ∧ (s.link 0 0).buffer.length < 1024 ∧ (s.link 0 0).pauseAll = false ∧
      (s.link 0 0).paused = [] ∧ (s.link 0 0).tagOf x = some 0 ∧ x.body.sequenced = true ∧ ∀ ms, x.body ≠ .tokens ms) ∧
    (∃ (s : State) (x : Flit), (s.link 0 0).state = 2 ∧ (s.link 0 0).resend = [] ∧ (s.link 0 0).out = [x] ∧ (s.link 0 0).buffer.length < 1024 ∧
      (s.link 0 0).tagOf x = some 0 ∧ x.body = .tokens [] ∧ (s.link 0 0).pend = false) ∧
    (∃ (s : State) (x : Flit), (s.link 0 0).state = 2 ∧ (s.link 0 0).resend = [] ∧ (s.link 0 0).out = [x] ∧ x.body.isTraffic = true ∧ (s.link 0 0).pend = true ∧
      (s.link 0 0).tc = s.timeOf 0 + 1600) ∧
    (∃ (s : State) (x : Flit) (c : StreamCtx), (s.link 0 0).wire = [x] ∧ x.body = .rows 0 [] ∧ x.seq = (s.link 0 0).rxSeq ∧ (s.link 0 0).rxCount < 64 ∧
      Table.find (s.link 0 0).rx x.tag = some (7, c)) ∧
    (∃ (s : State) (x : Flit), (s.link 0 0).state = 2 ∧ (s.link 0 0).resend = [x]) ∧
    (∃ s : State, (s.link 0 0).state = 2 ∧ (s.link 0 0).resend = [] ∧ (s.link 0 0).out = [] ∧ (s.link 0 1).wire = []) ∧
    (∀ b ∈ [FlitBody.tokens [], .opens 5 ⟨0, 0, 0, 0, 0, 0, 0, 0, 0, 0⟩, .close, .change (.propose 0 15 0 32000), .change (.propose 0 15 0 31999), .change .accept, .change (.refuse 2), .change .quiet],
      ∃ (s : State) (x : Flit), (s.link 0 0).wire = [x] ∧ x.body = b ∧ x.seq = (s.link 0 0).rxSeq ∧ (s.link 0 0).rxCount < 64) ∧
    (∃ (s : State) (x : Flit), (s.link 0 0).wire = [x] ∧ x.body.sequenced = true ∧ x.seq ≠ (s.link 0 0).rxSeq) ∧
    (∃ (s : State) (x : Flit), (s.link 0 0).wire = [x] ∧ x.body = .idle) ∧
    (∃ (s : State) (x : Flit), (s.link 0 0).wire = [x] ∧ x.body = .ack 3 true ∧ (s.link 0 0).buffer.length = 1 ∧ (s.link 0 0).txSeq = 3) ∧
    (∃ s : State, (s.link 0 0).rxCount ≠ 0) ∧ (∃ s : State, (s.link 0 0).rthresh ≠ 0 ∧ (s.link 0 0).retryHit = true ∧ (s.link 0 0).armed = true) ∧
    (((firing pair).link 0 0).mapsFit 0 15 0 = true ∧ ((firing pair).link 0 0).mapsFit 2 1 0 = false) ∧
    (∃ (s : State) (r : LinkReq), (s.link 0 0).proposer = some 7 ∧ s.linkReqs.find? (fun r => r.id == 7) = some r ∧ r.instr = .linkctlSched zero ∧
      linkNode 0 0 = coreStack r.fire.core ∧ r.fire.obj ∉ (s.core r.fire.core).quar) ∧
    (∃ s : State, (s.link 0 0).pend = true ∧ (s.link 0 0).state = 2 ∧ (s.link 0 0).tc = s.timeOf 0 + 1600) ∧
    (∃ s : State, (s.link 0 0).state = 3 ∧ (s.link 0 0).gotQuiet = true ∧ (s.link 0 0).buffer = [] ∧ (s.link 0 0).rxCount = 0 ∧ (s.link 0 0).out = [] ∧ (s.link 0 0).tc = s.timeOf 0) ∧
    (∃ s : State, (s.link 0 0).state = 2 ∧ (s.link 0 0).pend = false) ∧
    (∃ s : State, (∀ d, d < 2 → (s.link 0 d).state = 4 ∧ (s.link 0 d).trying < 3)) ∧ (∃ s : State, (∀ d, d < 2 → (s.link 0 d).state = 4) ∧ (s.link 0 0).trying = 3) :=
  let idle : Flit := { tag := 0, seq := 0, body := .idle }
  let data : Flit := { tag := 0, seq := 0, body := .tokens [] }
  let with_ (h : LinkEnd → LinkEnd) : State := changing 2 (fun e => h { e with pend := false })
  ⟨⟨with_ (fun e => { e with out := [{ data with body := .change .accept }] }), { data with body := .change .accept }, rfl, rfl, rfl, by decide, rfl, rfl, rfl, rfl, by intro ms h; cases h⟩,
    ⟨with_ (fun e => { e with out := [data] }), data, rfl, rfl, rfl, by decide, rfl, rfl, rfl⟩,
    ⟨(changing 2 (fun e => { e with out := [data] })).modStack 0 (fun k => { k with time := 38400 }), data, rfl, rfl, rfl, rfl, rfl, rfl⟩,
    ⟨with_ (fun e => { e with wire := [{ data with body := .rows 0 [] }], rx := [(0, 7, ⟨0, 0, 0, 0, 0, 0, 0, 0, 0, 0⟩)] }), { data with body := .rows 0 [] }, _, rfl, rfl, rfl, by decide, rfl⟩, ⟨with_ (fun e => { e with resend := [data] }), data, rfl, rfl⟩,
    ⟨with_ id, rfl, rfl, rfl, rfl⟩,
    fun b _ => ⟨arrived 0 0 b (firing pair), { tag := 0, seq := 0, body := b }, rfl, rfl, rfl, Nat.zero_lt_succ _⟩,
    ⟨with_ (fun e => { e with wire := [{ data with seq := 1 }] }), { data with seq := 1 }, rfl, rfl, by decide⟩,
    ⟨with_ (fun e => { e with wire := [idle] }), idle, rfl, rfl⟩,
    ⟨with_ (fun e => { e with wire := [{ idle with body := .ack 3 true }], buffer := [data], txSeq := 3 }), { idle with body := .ack 3 true }, rfl, rfl, rfl, rfl⟩,
    ⟨with_ (fun e => { e with rxCount := 1 }), by decide⟩, ⟨with_ (fun e => { e with rthresh := 1, retryHit := true }), by decide, rfl, rfl⟩, by decide,
    ⟨{ with_ (fun e => { e with proposer := some 7 }) with linkReqs := [sched] }, sched, rfl, rfl, rfl, by decide, by decide⟩,
    ⟨(changing 2 id).modStack 0 (fun k => { k with time := 38400 }), rfl, rfl, rfl⟩,
    ⟨(changing 3 (fun e => { e with gotQuiet := true })).modStack 0 (fun k => { k with time := 40000 }), rfl, rfl, rfl, rfl, rfl, rfl⟩,
    ⟨with_ id, rfl, rfl⟩, ⟨changing 4 id, by decide⟩, ⟨changing 4 (fun e => { e with trying := 3 }), by decide, rfl⟩⟩

/-- A supervisor context. -/
def ruling (g : Firing) (h : Core → Core) : State := (firingOn g h).modCtx 0 (fun c => { c with sup := true })

/-- Channel `n` of stack 0. -/
def channel (n : Nat) (c : Channel) (s : State) : State := s.modStack 0 (fun k => k.setChan n c)

set_option maxRecDepth 20000 in
/-- A channel with 15 events and one with 16, for an ordinary context and a supervisor, with a well-formed and an odd binding; and an event to send. -/
theorem test_witness_TrapAndEventResults :
    (∃ (s : State) (g : Firing), s.cur = some g ∧ g.scalars ∧ ((s.stack (coreStack g.core)).chan 32).queue.length = 15 ∧ ((s.stack (coreStack g.core)).chan 32).calls = [] ∧
      (s.ctx g.ctx).sup = false) ∧
    (∃ (s : State) (g : Firing), s.cur = some g ∧ g.scalars ∧ ((s.stack (coreStack g.core)).chan 32).queue.length = 16) ∧
    (∃ (s : State) (g : Firing), s.cur = some g ∧ g.plain ∧ g.scalars ∧ (s.ctx g.ctx).sup = true ∧ g.l.value.extractLsb' 0 11 = 0 ∧ g.l.value.toNat = 4096) ∧
    (∃ (s : State) (g : Firing), s.cur = some g ∧ g.scalars ∧ (s.ctx g.ctx).sup = true ∧ g.l.value.extractLsb' 0 11 ≠ 0 ∧ g.l.value.toNat < 4096 ∧ g.l.value.toNat ≠ g.core) ∧
    (∃ (s : State) (b : EvBind), ((s.stack 0).chan 32).bind = some b ∧ ((s.stack 0).chan 32).queue = [5] ∧ ((s.stack 0).chan 32).calls = [] ∧ (s.ctx b.ctx).phase = .active ∧
      s.fpCore b.ctx b.fp = some 0) ∧
    (∃ (s : State) (b : EvBind), ((s.stack 0).chan 32).bind = some b ∧ ((s.stack 0).chan 32).queue = [5] ∧ (s.ctx b.ctx).phase ≠ .active) :=
  ⟨⟨channel 32 ⟨none, List.replicate 15 0, []⟩ (firing pair), _, rfl, by decide, by decide, rfl, rfl⟩,
    ⟨channel 32 ⟨none, List.replicate 16 0, []⟩ (firing pair), _, rfl, by decide, by decide⟩,
    ⟨ruling (fire (num 4096) none none) id, _, rfl, by decide, by decide, rfl, by decide, by decide⟩,
    ⟨ruling (fire (num 4095) none none) id, _, rfl, by decide, rfl, by decide, by decide, by decide⟩,
    ⟨channel 32 ⟨some ⟨0, 0, 1, false⟩, [5], []⟩ (firing pair), _, rfl, rfl, rfl, rfl, rfl⟩, ⟨channel 32 ⟨some ⟨9, 0, 1, false⟩, [5], []⟩ (firing pair), _, rfl, rfl, by decide⟩⟩

/-- The reference of R434 of a port of core 0 of context 0. -/
def portRef (kind index : Nat) : U64 := BitVec.ofNat 64 (kind * 2 ^ 24 + index * 2 ^ 28)

/-- A command that is parked at the split-phase port. -/
def stuck : Cmd := { command (onCap none none) (.ldg zero) .work with parked := some .mergeSpill, pport := (2, 0) }

set_option maxRecDepth 20000 in
/-- Own registers and another's, a record that is held and one that is not; and a port of each kind, parked, with references beyond its limits. -/
theorem test_witness_RegisterResults :
    (∃ (s : State) (g : Firing), s.cur = some g ∧ g.plain ∧ g.scalars ∧ g.r = none ∧ (s.ctx g.ctx).sup = false) ∧
    (∃ (s : State) (g : Firing) (r : Val), s.cur = some g ∧ g.scalars ∧ g.r = some r ∧ r.value.toNat % 4096 ≠ g.ctx ∧ g.l.value.toNat % 4096 ≠ g.ctx ∧ (s.ctx g.ctx).sup = true) ∧
    (∃ (s : State) (g : Firing) (i : U32), s.cur = some g ∧ g.scalars ∧ g.r = none ∧ i = g.l.value.extractLsb' 0 32 ∧ i ≠ 0xFFFFFFFF ∧
      ((s.ctx g.ctx).flogWr - 1 - i).toNat < ((s.ctx g.ctx).flogWr - (s.ctx g.ctx).flogRd).toNat ∧
      (s.retire.ctxRead g.ctx 0 ((s.ctx g.ctx).flog.toNat + 64 * (i.toNat % (s.ctx g.ctx).flogn)) 8).toBool = true) ∧
    (∃ (s : State) (g : Firing), s.cur = some g ∧ g.scalars ∧ g.r = none ∧ (s.ctx g.ctx).flogWr = 0 ∧ (s.ctx g.ctx).flogRd = 0) ∧
    (∃ (s : State) (g : Firing), s.cur = some g ∧ g.scalars ∧ (s.ctx g.ctx).sup = true ∧ 2 ^ 32 ≤ g.l.value.toNat) ∧
    (∃ (s : State) (g : Firing), s.cur = some g ∧ g.scalars ∧ (s.ctx g.ctx).sup = true ∧ g.l.value = portRef 7 0) ∧
    (∃ (s : State) (g : Firing), s.cur = some g ∧ g.scalars ∧ (s.ctx g.ctx).sup = true ∧ g.l.value = portRef 2 1) ∧
    (∃ (s : State) (g : Firing), s.cur = some g ∧ g.scalars ∧ (s.ctx g.ctx).sup = true ∧ g.l.value = portRef 1 7 ∧ (s.ctx 0).live = true ∧ (s.ctx 0).phys 0 = some 0 ∧
      (s.core 0).portParked 1 7 = false) ∧
    (∃ (s : State) (g : Firing), s.cur = some g ∧ g.scalars ∧ (s.ctx g.ctx).sup = true ∧ g.l.value = portRef 3 0 ∧ (s.ctx 0).phys 0 = some 0 ∧ (s.core 0).framePark ≠ none ∧
      (0, 3, 0) ∈ s.parkedPorts 0) ∧
    (∃ (s : State) (g : Firing), s.cur = some g ∧ g.scalars ∧ (s.ctx g.ctx).sup = true ∧ g.l.value = portRef 5 0 ∧ (s.core 0).mergePark ≠ none) ∧
    (∃ (s : State) (g : Firing), s.cur = some g ∧ g.scalars ∧ (s.ctx g.ctx).sup = true ∧ g.l.value = portRef 4 0 ∧ ∃ i ∈ (s.core 0).installs, i.parked = true) ∧
    (∃ (s : State) (g : Firing) (c : Cmd) (h : Fields), s.cur = some g ∧ g.scalars ∧ (s.ctx g.ctx).sup = true ∧ g.l.value = portRef 2 0 ∧ (s.core 0).cmds = [c] ∧
      c.parked = some .mergeSpill ∧ c.pport = (2, 0) ∧ c.fire.core = 0 ∧ (s.core 0).gens = [] ∧ c.fields = some h ∧ c.live = false ∧ c.fire.replay = none ∧
      s.recording? 0 c.fire.task = none) ∧
    (∃ (s : State) (g : Firing), s.cur = some g ∧ g.scalars ∧ (s.ctx g.ctx).sup = true ∧ (s.ctx (g.l.value.toNat % 4096)).live = false) :=
  ⟨⟨firing (fire (num 5) none none), _, rfl, by decide, by decide, rfl, rfl⟩, ⟨ruling pair id, _, _, rfl, by decide, rfl, by decide, by decide, rfl⟩,
    ⟨mapped ((firing (fire (num 5) none none)).modCtx 0 (fun c => { c with flog := 0x40000, flogn := 64, flogWr := 6, flogRd := 5 })), _, _, rfl, by decide, rfl, rfl, by decide,
      by decide, by decide⟩,
    ⟨firing (fire (num 5) none none), _, rfl, by decide, rfl, rfl, rfl⟩, ⟨ruling (fire (num (2 ^ 32)) none none) id, _, rfl, by decide, rfl, by decide⟩,
    ⟨ruling (fire (num (portRef 7 0)) none none) id, _, rfl, by decide, rfl, rfl⟩, ⟨ruling (fire (num (portRef 2 1)) none none) id, _, rfl, by decide, rfl, rfl⟩,
    ⟨ruling (fire (num (portRef 1 7)) none none) id, _, rfl, by decide, rfl, rfl, rfl, rfl, by decide⟩,
    ⟨ruling (fire (num (portRef 3 0)) none none) (fun k => { k with framePark := some .frameSpill }), _, rfl, by decide, rfl, rfl, rfl, by decide, by decide⟩,
    ⟨ruling (fire (num (portRef 5 0)) none none) (fun k => { k with mergePark := some .mergeSpill }), _, rfl, by decide, rfl, rfl, by decide⟩,
    ⟨ruling (fire (num (portRef 4 0)) none none) (fun k => { k with installs := [⟨0, 0, true, true, []⟩] }), _, rfl, by decide, rfl, rfl, by decide⟩,
    ⟨ruling (fire (num (portRef 2 0)) none none) (fun k => { k with cmds := [stuck] }), _, _, _, rfl, by decide, rfl, rfl, rfl, rfl, rfl, rfl, rfl, rfl, rfl, rfl, rfl⟩,
    ⟨ruling (fire (num 9) none none) id, _, rfl, by decide, rfl, by decide⟩⟩

/-- Context 1 saved from cores (0, 0) to (1, 1), with its header in memory at 0x100000. -/
def savedOne : Ctx := { Ctx.reset with ctxroot := 1, save := 0x100000, wm1 := 1, hm1 := 1 }
def saved1 : Saved := ⟨1, 0, 0, 1, 1, savedOne, [], [], [], [], [], [], [], [], [], [], [], []⟩
def saveArea : State :=
  let s := (mapped (ruling (fire (num 1) (some (num 0x104)) none) id)).setCtx 1 savedOne
  let h := s.saveHeader 1 true 0 0
  { s with hbm := s.hbm ++ ((h.zipIdx.filter (fun e => e.1 != 0)).map (fun e => (0x100000 + e.2, e.1))), saved := [(1, saved1)] }

/-- Context 1 in a save by a CTXSAVE of core 0. -/
def savingOne (h : Ctx → Ctx) : State :=
  { (mapped (ruling (fire (num 1) none none) (fun k => { k with cmds := [{ Cmd.start 1 (fire (num 1) none none) (.ctxsave zero) .system with phase := .queued }] }))).setCtx 1
    (h { savedOne with phase := .saving 1, x0 := 4, y0 := 4 }) with cur := none, ids := 2 }

set_option maxRecDepth 40000 in
/-- The own context and another active one; R beyond its bits; an area without its bytes, and one that is good; and a save that has drained. -/
theorem test_witness_SaveAndLoadResults :
    (∃ (s : State) (g : Firing), s.cur = some g ∧ g.scalars ∧ (s.ctx g.ctx).sup = true ∧ g.l.value.toNat % 4096 = g.ctx) ∧
    (∃ (s : State) (g : Firing), s.cur = some g ∧ g.scalars ∧ (s.ctx g.ctx).sup = true ∧ g.l.value.toNat % 4096 ≠ g.ctx ∧ (s.ctx (g.l.value.toNat % 4096)).phase = .active ∧
      s.tapes = []) ∧
    (∃ (s : State) (g : Firing), s.cur = some g ∧ g.scalars ∧ (s.ctx g.ctx).sup = true ∧ (g.r.getD Val.zero).value.toNat = 2 ^ 13) ∧
    (∃ (s : State) (g : Firing) (e : AccessStop), s.cur = some g ∧ g.scalars ∧ (s.ctx g.ctx).sup = true ∧ (g.r.getD Val.zero).value.toNat < 2 ^ 12 ∧
      s.retire.loadCheck 1 (coreStack g.core) (g.r.getD Val.zero).value = .bad e) ∧
    (∃ (s : State) (g : Firing) (sv : Saved) (new : Ctx) (l : List (Nat × Core × List Byte)), s.cur = some g ∧ g.scalars ∧ (s.ctx g.ctx).sup = true ∧
      (g.r.getD Val.zero).value.toNat < 2 ^ 12 ∧ s.retire.loadCheck 1 (coreStack g.core) (g.r.getD Val.zero).value = .ok sv new l) ∧
    (∃ (s : State) (c : Cmd) (f : Fields), (s.ctx 1).phase = .saving 1 ∧ s.drained 1 = true ∧ s.savedCmd 1 = false ∧ s.saver 1 = some c ∧ c.fields = some f) ∧
    (∃ s : State, (s.ctx 1).phase = .saving 1 ∧ s.drained 1 = false) :=
  ⟨⟨ruling (fire (num 0) none none) id, _, rfl, by decide, rfl, rfl⟩,
    ⟨(ruling (fire (num 1) none none) id).setCtx 1 { savedOne with phase := .active, x0 := 4, y0 := 4 }, _, rfl, by decide, rfl, by decide, rfl, rfl⟩,
    ⟨ruling (fire (num 1) (some (num 8192)) none) id, _, rfl, by decide, rfl, by decide⟩,
    ⟨ruling (fire (num 1) (some (num 0)) none) id, _, _, rfl, by decide, rfl, by decide, rfl⟩,
    ⟨saveArea, _, _, _, _, rfl, by decide, rfl, by decide, rfl⟩,
    ⟨savingOne id, _, _, rfl, by decide, by decide, rfl, rfl⟩, ⟨savingOne (fun c => { c with bump := 1 }), rfl, by decide⟩⟩

/-- Core 0 with an install of page 0 of object 0, whose bytes are at 0x40000 and have a hash. -/
def installing (active : Bool) (hs : List (List Byte)) (n : Nat) : State :=
  let s := (mapped (firing pair)).modCtx 0 (fun c => { c with objs := [{ object with base := 0x40000, hashes := hs }] })
  { s.modCore 0 (fun k => { k with pages := (List.range n).map (fun i => { bootPage 0 with page := i + 1, stamp := i }), installs := [⟨0, 0, active, false, []⟩] }) with cur := none }

/-- Context 0 at a LOAD or UNLOAD of entry 0, whose table entry asks for id 0. -/
def atEntry (op : BitVec 2) (h : Ctx → Ctx) : State :=
  let s := (mapped (firing pair)).modCtx 0 (fun c => h { c with objbase := 0x50, objbusy := true, objop := op })
  { s with cur := none, hbm := s.hbm ++ [(0x50004, 1)] }

set_option maxRecDepth 40000 in
/-- LOAD of an entry beyond the table and of one that is asked for; UNLOAD in use and not; installs at 15 and 16 pages, and at their bytes; quarantine. -/
theorem test_witness_ObjectResults :
    (∃ s : State, (s.ctx 0).objbusy = true ∧ (s.ctx 0).objop = 1 ∧ (s.ctx 0).objidx.toNat = 1 ∧ (s.ctx 0).objnm1.toNat = 0) ∧
    (∃ (s : State) (n : Nat), (s.ctx 0).objbusy = true ∧ (s.ctx 0).objop = 1 ∧ (s.ctx 0).objidx.toNat = 0 ∧ (s.ctx 0).objnm1.toNat = 0 ∧ numAt (s.objTableEntry 0 0) 4 1 = 1 ∧
      s.loadObject 0 0 (s.objTableEntry 0 0) = .error n) ∧
    (∃ s : State, (s.ctx 0).objbusy = true ∧ (s.ctx 0).objop = 2 ∧ s.objInUse 0 (BitVec.ofNat 32 (numAt (s.objTableEntry 0 0) 0 4)) = true) ∧
    (∃ s : State, (s.ctx 0).objbusy = true ∧ (s.ctx 0).objop = 2 ∧ s.objInUse 0 (BitVec.ofNat 32 (numAt (s.objTableEntry 0 0) 0 4)) = false) ∧
    (∃ (s : State) (x : Install), (s.core 0).installs = [x] ∧ x.obj = 0 ∧ x.page = 0 ∧ x.active = false ∧ (s.core 0).pagesUsed = 15) ∧
    (∃ (s : State) (x : Install) (p : PageFrame), (s.core 0).installs = [x] ∧ x.obj = 0 ∧ x.page = 0 ∧ x.active = false ∧ (s.core 0).pagesUsed = 16 ∧
      oldestPage ((s.core 0).pages.filter (s.evictable 0)) = some p) ∧
    (∃ (s : State) (x : Install) (o : ObjRec) (bs : List Byte), (s.core 0).installs = [x] ∧ x.obj = 0 ∧ x.page = 0 ∧ (s.ctx ((s.core 0).ctx.getD 0)).obj? 0 = some o ∧ x.active = true ∧
      x.parked = false ∧ s.objBytes 0 o.fromEp o.ep o.base o.codeOff 4096 = .ok bs ∧ sha512 (natLe 4 0 ++ natLe 4 0 ++ bs) = o.hashes[0]?.getD []) ∧
    (∃ (s : State) (o : ObjRec), (s.core 0).ctx = some 0 ∧ (s.ctx 0).objs.find? (fun o => o.quar && !(s.core 0).quar.contains o.obj) = some o ∧ (s.core 0).allocs = [] ∧
      (s.engine (quadOf 0)).record = none) ∧
    (∃ (s : State) (fr : Frame), (s.core 0).anyFrame? 0 = some fr ∧ fr.abort = true ∧ s.atBoundary 0 0 = true ∧ (s.ctx fr.ctx.toNat).phase = .active ∧ fr.freepend = false) ∧
    (∃ (s : State) (fr : Frame), (s.core 0).anyFrame? 0 = some fr ∧ fr.abort = true ∧ s.atBoundary 0 0 = true ∧ (s.ctx fr.ctx.toNat).phase = .destroying) :=
  ⟨⟨atEntry 1 (fun c => { c with objidx := 1 }), rfl, rfl, rfl, rfl⟩, ⟨atEntry 1 id, 2, rfl, rfl, rfl, rfl, by decide, by rfl⟩,
    ⟨atEntry 2 id, rfl, rfl, by decide⟩, ⟨(atEntry 2 id).modCore 0 (fun k => { k with frames := [] }), rfl, rfl, by decide⟩,
    ⟨installing false [] 15, _, rfl, rfl, rfl, rfl, by decide⟩, ⟨installing false [] 16, _, _, rfl, rfl, rfl, rfl, by decide, rfl⟩,
    ⟨installing true [sha512 (natLe 4 0 ++ natLe 4 0 ++ List.replicate 4096 0)] 0, _, _, List.replicate 4096 0, rfl, rfl, rfl, rfl, rfl, rfl, by rfl, rfl⟩,
    ⟨(firing pair).modCtx 0 (fun c => { c with objs := [{ object with quar := true }] }), _, rfl, rfl, rfl, rfl⟩,
    ⟨{ firingIn pair (fun fr => { fr with abort := true }) with cur := none }, _, rfl, rfl, rfl, rfl, rfl⟩,
    ⟨({ firingIn pair (fun fr => { fr with abort := true }) with cur := none } : State).modCtx 0 (fun c => { c with phase := .destroying }), _, rfl, rfl, rfl, rfl⟩⟩

/-- An error of the memory of stack 0. -/
def error1 (lasting : Bool) : MemError := { kind := .hbm, stack := 0, addr := 0x1000, lasting := lasting, core := 0, cmd := none, fp := 0 }

set_option maxRecDepth 20000 in
/-- A core of a context; a quiet context without a record of its report; one that has reported; one with a token under way. -/
theorem test_witness_MemoryErrorAndQuiescence :
    (∃ (s : State) (m : MemError), (s.core m.core).ctx = some 0 ∧ m.lasting = false) ∧
    (∃ s : State, (s.ctx 0).phase = .active ∧ (s.ctx 0).quiet = false ∧ s.quiet 0 = true ∧ (s.ctx 0).qrbase = 0) ∧
    (∃ s : State, (s.ctx 0).phase = .active ∧ (s.ctx 0).quiet = true) ∧ (∃ s : State, s.quiet 0 = false) :=
  ⟨⟨firing pair, error1 false, rfl, rfl⟩, ⟨{ firing pair with cur := none }, rfl, rfl, by decide, rfl⟩, ⟨(firing pair).modCtx 0 (fun c => { c with quiet := true }), rfl, rfl⟩,
    ⟨serving addFour (num 5) true [], by decide⟩⟩

/-- The module at a stage. -/
def staged (n : Nat) (h : Module → Module) : State := (firing pair).modMod (fun m => h { m with stage := n })

set_option maxRecDepth 20000 in
/-- The module ready and not, a command under way and not, an open and a closed aperture, an owner's key set and not, and mailbox commands. -/
theorem test_witness_ControlPageResults :
    (∃ s : State, s.mod.stage = 7 ∧ s.mod.cmdBusy = false ∧ s.mod.aperture = true ∧ s.mod.ownerkey = none ∧ (∀ e ∈ s.cores, e.2.cmds.any (s.throughWindow 255) = false)) ∧
    (∃ s : State, s.mod.stage = 7 ∧ s.mod.cmdBusy = true ∧ s.mod.aperture = false ∧ s.mod.ownerkey ≠ none) ∧ (∃ s : State, s.mod.stage = 6) ∧
    (∃ s : State, s.mod.mboxStat = 1 ∧ s.mod.mboxCmd = 1) ∧ (∃ s : State, s.mod.mboxStat = 1 ∧ s.mod.mboxCmd = 2) ∧
    (∃ (s : State) (p : List Byte), s.mod.stage = 7 ∧ s.policyOk p = false) :=
  ⟨⟨staged 7 (fun m => { m with aperture := true }), rfl, rfl, rfl, rfl, by decide⟩,
    ⟨staged 7 (fun m => { m with cmdBusy := true, aperture := false, ownerkey := some [] }), rfl, rfl, rfl, by decide⟩, ⟨staged 6 id, rfl⟩,
    ⟨staged 7 (fun m => { m with mboxStat := 1, mboxCmd := 1 }), rfl, rfl⟩, ⟨staged 7 (fun m => { m with mboxStat := 1, mboxCmd := 2 }), rfl, rfl⟩, ⟨staged 7 id, [], rfl, rfl⟩⟩

/-- A control command on context 1, whose descriptor is at 0x1000_0080 in context 0's map. -/
def commanded (op : BitVec 4) (d : List (Nat × Byte)) (h : State → State) : State :=
  let s := mapped ((firing pair).modMod (fun m => { m with cmdBusy := true, cmdCtx := 1, cmdOp := op, ctxtab := 0x40000 }))
  h { s with cur := none, hbm := s.hbm ++ d }

/-- Descriptor 1: FLOGN 64 and a region of 2 by 2 cores from (4, 4), or from (4, 5). -/
def descriptor (low : Byte) : List (Nat × Byte) := [(0x40080, 1), (0x40084, low), (0x40085, 0x11), (0x40086, 0x04), (0x40098, 64)]

/-- ACTIVATE of context 1 whose descriptor is well formed. -/
def Activating (s : State) (c : Ctx) : Prop :=
  s.mod.cmdBusy = true ∧ s.mod.cmdCtx.toNat = 1 ∧ s.mod.cmdOp = 1 ∧ (s.ctx 1).live = false ∧
    ∃ bs : List Byte, s.ctxRead 0 0 (s.mod.ctxtab.toNat + 128) 128 = .ok bs ∧ descriptorBad 1 bs = false ∧ (s.ctx 1).ofDescriptor bs = c

set_option maxRecDepth 40000 in
/-- ACTIVATE of a live context, without a map, and of bad, free and taken regions; DESTROY in its phases; and stages of boot. -/
theorem test_witness_LifecycleResults :
    (∃ s : State, s.mod.cmdBusy = true ∧ s.mod.cmdCtx.toNat = 1 ∧ s.mod.cmdOp = 1 ∧ (s.ctx 1).live = true) ∧
    (∃ (s : State) (e : AccessStop), s.mod.cmdBusy = true ∧ s.mod.cmdCtx.toNat = 1 ∧ s.mod.cmdOp = 1 ∧ (s.ctx 1).live = false ∧ s.ctxRead 0 0 (s.mod.ctxtab.toNat + 128) 128 = .error e) ∧
    (∃ (s : State) (bs : List Byte), s.mod.cmdBusy = true ∧ s.mod.cmdCtx.toNat = 1 ∧ s.mod.cmdOp = 1 ∧ (s.ctx 1).live = false ∧
      s.ctxRead 0 0 (s.mod.ctxtab.toNat + 128) 128 = .ok bs ∧ descriptorBad 1 bs = true) ∧
    (∃ (s : State) (c : Ctx), Activating s c ∧ c.x0 = 4 ∧ c.y0 = 4 ∧ c.wm1 = 1 ∧ c.hm1 = 1 ∧ s.regionFree 1 4 4 1 1 = true) ∧
    (∃ (s : State) (c : Ctx), Activating s c ∧ c.x0 = 4 ∧ c.y0 = 4 ∧ c.wm1 = 1 ∧ c.hm1 = 1 ∧ s.regionFree 1 4 4 1 1 = false) ∧
    (∃ (s : State) (c : Ctx), Activating s c ∧ c.y0 = 5) ∧
    (∃ (s : State) (c : Ctx), s.mod.cmdBusy = true ∧ s.mod.cmdCtx.toNat = 1 ∧ s.mod.cmdOp = 2 ∧ s.ctx 1 = c ∧ c.phase = .inactive) ∧
    (∃ s : State, s.mod.cmdOp = 2 ∧ (s.ctx 1).phase = .active) ∧
    (∃ s : State, s.mod.cmdOp = 2 ∧ (s.ctx 1).phase = .destroying ∧ s.frameless 1 = true ∧ s.drained 1 = true) ∧
    (∃ s : State, s.mod.cmdOp = 2 ∧ (s.ctx 1).phase = .destroying ∧ s.drained 1 = false) ∧
    (∀ n < 7, ∃ s : State, s.mod.halted = false ∧ s.mod.stage = n) :=
  let one (p : CtxPhase) (s : State) : State := s.setCtx 1 { savedOne with phase := p, x0 := 4, y0 := 4 }
  ⟨⟨commanded 1 [] (one .active), rfl, rfl, rfl, rfl⟩, ⟨(commanded 1 [] id).modCtx 0 (fun c => { c with ctxroot := 0 }), _, rfl, rfl, rfl, rfl, rfl⟩,
    ⟨commanded 1 [] id, List.replicate 128 0, rfl, rfl, rfl, rfl, by rfl, by decide⟩,
    ⟨commanded 1 (descriptor 0x04) id, _, ⟨rfl, rfl, rfl, rfl, _, rfl, by decide, rfl⟩, rfl, rfl, rfl, rfl, by decide⟩,
    ⟨commanded 1 (descriptor 0x04) (fun s => s.setCtx 2 { savedOne with phase := .active, x0 := 4, y0 := 4 }), _, ⟨rfl, rfl, rfl, rfl, _, rfl, by decide, rfl⟩, rfl, rfl, rfl, rfl, by decide⟩,
    ⟨commanded 1 (descriptor 0x44) id, _, ⟨rfl, rfl, rfl, rfl, _, rfl, by decide, rfl⟩, rfl⟩,
    ⟨commanded 2 [] id, _, rfl, rfl, rfl, rfl, rfl⟩,
    ⟨commanded 2 [] (one .active), rfl, rfl⟩, ⟨commanded 2 [] (one .destroying), rfl, rfl, by decide, by decide⟩,
    ⟨(commanded 2 [] (one .destroying)).modCtx 1 (fun c => { c with bump := 1 }), rfl, rfl, by decide⟩, fun n _ => ⟨staged n id, rfl, rfl⟩⟩

set_option maxRecDepth 20000 in
/-- A store through capability 0 to one chunk. -/
theorem test_witness_StoresChangeOnlyTheirBytes : ∃ (s : State) (c : Chunk), s.xlate ((s.core 0).cap 0).root.toNat (s.core 0).win 0 .write (((s.core 0).cap 0).vbase + 8) 2 = .ok [c] ∧
    c.len = 2 ∧ s.memOk :=
  ⟨firingOn pair equipped, _, rfl, rfl, by decide⟩

end Sys2Proof.Tests
end

/-! SUPPORT. Every operation of the machine keeps the memories in their canonical form (R7): one fact per operation, in the order of the model. -/

namespace Sys2Proof.Machine

/-- `State.memOk` kept folded: a lemma about it is found by the operation that made the state, not by the four memories. -/
def State.Canonical (s : State) : Prop := s.memOk

/-- A step that goes on does so in a state whose memories are canonical. -/
def NextCanonical : Host.Outcome State Fault Refusal → Prop
  | .next t => t.Canonical
  | .fault _ => True
  | .refused _ => True

/-- The state that a write of memory leaves, whole or parked. -/
def Put.state : Put → State
  | .ok s => s
  | .park s _ _ _ _ => s

/-- The state that R126 and R139 leave, whatever binding does next. -/
def TapeStart.state : TapeStart → State
  | .bind s => s
  | .replay s => s
  | .stale s => s

/-- `State.writeSegments` with the segment of a core as a variable: the kernel would compute the bytes of `State.segment` to unfold it. -/
def State.writeSegmentsOf (s : State) (segment : State → Nat → List (Nat × List Byte)) (x : Nat) :
    List (Nat × Nat) → State × Option AccessStop
  | [] => (s, none)
  | (v, p) :: t =>
    if 10240 < (s.core p).tokRecs.length then (s, some (.saveOverflow, 0, 0))
    else
      match s.writeParts x (segBase (s.ctx x).save.toNat v) (segment s p) with
      | (s, some e) => (s, some e)
      | (s, none) => s.writeSegmentsOf segment x t

theorem State.writeSegments_eq (s : State) (x : Nat) (l : List (Nat × Nat)) :
    s.writeSegments x l = s.writeSegmentsOf State.segment x l := by
  delta State.writeSegments State.writeSegmentsOf
  rfl

/-! ## Results that hold a state -/

theorem State.Canonical.ite {c : Prop} [Decidable c] {s t : State} (hs : s.Canonical) (ht : t.Canonical) :
    (if c then s else t).Canonical := by
  split
  · exact hs
  · exact ht

theorem nextCanonical_ite {c : Prop} [Decidable c] {a b : Host.Outcome State Fault Refusal} (ha : NextCanonical a) (hb : NextCanonical b) :
    NextCanonical (if c then a else b) := by
  split
  · exact ha
  · exact hb

theorem State.Canonical.fst {α : Type} {p q : State × α} (h : p.1.Canonical) (e : p = q) : q.1.Canonical := e ▸ h

theorem State.Canonical.snd {α : Type} {p q : α × State} (h : p.2.Canonical) (e : p = q) : q.2.Canonical := e ▸ h

theorem State.Canonical.put {p q : Put} (h : p.state.Canonical) (e : p = q) : q.state.Canonical := e ▸ h

theorem State.Canonical.start {p q : TapeStart} (h : p.state.Canonical) (e : p = q) : q.state.Canonical := e ▸ h

theorem canonical_of_mem_none {α : Type} {π : α → State} : ∀ x ∈ (none : Option α), (π x).Canonical := fun _ h => nomatch h

theorem canonical_of_mem_some {α : Type} {π : α → State} {a : α} (h : (π a).Canonical) : ∀ x ∈ some a, (π x).Canonical :=
  fun _ e => Option.mem_some.mp e ▸ h

theorem canonical_getD {o : Option State} {s : State} (ho : ∀ t ∈ o, State.Canonical t) (h : s.Canonical) : (o.getD s).Canonical := by
  cases o with
  | none => exact h
  | some t => exact ho t rfl

theorem canonical_of_mem_map {o : Option State} {k : State → State} (ho : ∀ t ∈ o, State.Canonical t)
    (hk : ∀ t : State, t.Canonical → (k t).Canonical) : ∀ t ∈ o.map k, State.Canonical t := by
  cases o with
  | none => exact canonical_of_mem_none (π := id)
  | some u => exact canonical_of_mem_some (π := id) (hk u (ho u rfl))

theorem canonical_of_ok {ε : Type} {s : State} (h : s.Canonical) : ∀ t, (.ok s : Except ε State) = .ok t → t.Canonical :=
  fun _ e => Except.ok.inj e ▸ h

theorem canonical_of_error {ε : Type} {x : ε} : ∀ t, (.error x : Except ε State) = .ok t → t.Canonical := fun _ e => nomatch e

theorem keeps_of_mem_none : ∀ k ∈ (none : Option (State → State)), ∀ t : State, t.Canonical → (k t).Canonical := fun _ h => nomatch h

theorem keeps_of_mem_some {k : State → State} (hk : ∀ t : State, t.Canonical → (k t).Canonical) :
    ∀ j ∈ some k, ∀ t : State, t.Canonical → (j t).Canonical :=
  fun _ e => Option.mem_some.mp e ▸ hk

/-! ## Folds -/

/-- A fold keeps the state that it carries canonical, whatever else it carries. -/
theorem canonical_foldl {α β : Type} (π : β → State) {k : β → α → β} (l : List α) {b : β} (h : (π b).Canonical)
    (hk : ∀ b a, (π b).Canonical → (π (k b a)).Canonical) : (π (l.foldl k b)).Canonical := by
  induction l generalizing b with
  | nil => exact h
  | cons a l ih => exact ih (hk b a h)

theorem State.Canonical.foldl {α : Type} {k : State → α → State} {l : List α} {s : State} (h : s.Canonical)
    (hk : ∀ t a, State.Canonical t → (k t a).Canonical) : (l.foldl k s).Canonical := canonical_foldl id l h hk

theorem State.Canonical.foldl_fst {α β : Type} {k : State × β → α → State × β} {l : List α} {p : State × β} (h : p.1.Canonical)
    (hk : ∀ p a, p.1.Canonical → (k p a).1.Canonical) : (l.foldl k p).1.Canonical := canonical_foldl Prod.fst l h hk

theorem State.Canonical.foldl_row {α : Type} {k : RowWork → α → RowWork} {l : List α} {w : RowWork} (h : w.s.Canonical)
    (hk : ∀ w a, w.s.Canonical → (k w a).s.Canonical) : (l.foldl k w).s.Canonical := canonical_foldl RowWork.s l h hk

/-! ## Memories -/

/-- An update of anything but the memories keeps the canonical form. It is stated of the constructor, so that the state updated is found. -/
theorem State.Canonical.update {s : State} (h :
    s.Canonical) {cur due agenda clock free ids cores stackTab ctxs tapes tasks pushers links chans
    locks props streams gangs linkReqs saved mod} :
    State.Canonical ⟨cur, due, agenda, clock, free, ids, cores, stackTab, ctxs, tapes, tasks, pushers, links, chans, locks, props,
      streams, gangs,
      linkReqs, saved, mod, s.hbm, s.vault, s.host, s.storage⟩ := h

section
variable {s : State} (h : s.Canonical)
include h

theorem State.Canonical.hbm_wf : s.hbm.wf := h.1

theorem State.Canonical.vault_wf : s.vault.wf := h.2.1

theorem State.Canonical.host_wf : s.host.wf := h.2.2.1

theorem State.Canonical.storage_wf : s.storage.wf := h.2.2.2

theorem State.Canonical.withHbm {m : Memory} (hm : m.wf) : ({ s with hbm := m } : State).Canonical :=
  ⟨hm, h.vault_wf, h.host_wf, h.storage_wf⟩

theorem State.Canonical.withVault {m : Memory} (hm : m.wf) : ({ s with vault := m } : State).Canonical :=
  ⟨h.hbm_wf, hm, h.host_wf, h.storage_wf⟩

theorem State.Canonical.withHost {m : Memory} (hm : m.wf) : ({ s with host := m } : State).Canonical :=
  ⟨h.hbm_wf, h.vault_wf, hm, h.storage_wf⟩

theorem State.Canonical.withStorage {m : Memory} (hm : m.wf) : ({ s with storage := m } : State).Canonical :=
  ⟨h.hbm_wf, h.vault_wf, h.host_wf, hm⟩

end

/-! # Every operation of the machine -/

section
variable {s : State} (h : s.Canonical)
include h

/-! ## Memory -/

theorem State.Canonical.setCore {c k} : (s.setCore c k).Canonical := h.update
theorem State.Canonical.modCore {c f} : (s.modCore c f).Canonical := h.setCore
theorem State.Canonical.setStack {n k} : (s.setStack n k).Canonical := h.update
theorem State.Canonical.modStack {n f} : (s.modStack n f).Canonical := h.setStack
theorem State.Canonical.setCtx {n k} : (s.setCtx n k).Canonical := h.update
theorem State.Canonical.modCtx {n f} : (s.modCtx n f).Canonical := h.setCtx
theorem State.Canonical.setEngine {q k} : (s.setEngine q k).Canonical := h.update
theorem State.Canonical.modEngine {q f} : (s.modEngine q f).Canonical := h.setEngine
theorem State.Canonical.setTask {n t} : (s.setTask n t).Canonical := h.update

theorem State.Canonical.modTask {n f} : (s.modTask n f).Canonical := by
  unfold State.modTask
  split
  · exact h.setTask
  · exact h

theorem State.Canonical.setLink {l side k} : (s.setLink l side k).Canonical := h.update
theorem State.Canonical.modLink {l side f} : (s.modLink l side f).Canonical := h.setLink
theorem State.Canonical.modMod {f} : (s.modMod f).Canonical := h.update
theorem State.Canonical.spend : s.spend.Canonical := h.update
theorem State.Canonical.watchHit {a n own} : (s.watchHit a n own).Canonical := h.update

theorem State.Canonical.hbmWrite {a bs own} : (s.hbmWrite a bs own).Canonical :=
  have hw := h.withHbm (Memory.writeBytes_wf h.hbm_wf a bs)
  .ite hw hw.watchHit

theorem State.Canonical.writeChunk {c bs core cmd own} : (s.writeChunk c bs core cmd own).Canonical := by
  unfold State.writeChunk
  dsimp only
  split
  · exact h.hbmWrite
  · exact h.hbmWrite.update

theorem State.Canonical.writeRow {c bs core cmd own} : (s.writeRow c bs core cmd own).Canonical := by
  unfold State.writeRow
  dsimp only
  split
  · exact h.writeChunk
  · exact h.update.modLink

theorem State.Canonical.writeChunks {cs bs core cmd own} : (s.writeChunks cs bs core cmd own).Canonical :=
  h.foldl_fst fun _ _ h => h.writeRow

theorem State.Canonical.ctxWriteFor {ctx va bs core cmd} : ∀ out, s.ctxWriteFor ctx va bs core cmd = .ok out → out.Canonical := by
  unfold State.ctxWriteFor
  split
  · exact canonical_of_ok h.writeChunks
  · exact canonical_of_error

theorem State.Canonical.ctxWrite {ctx va bs} : ∀ out, s.ctxWrite ctx va bs = .ok out → out.Canonical := h.ctxWriteFor

theorem State.Canonical.ctxPut {ctx va bs} : (s.ctxPut ctx va bs).Canonical := by
  unfold State.ctxPut
  split
  next e1 => exact h.ctxWrite _ e1
  · exact h

/-! ## Ops -/

theorem State.Canonical.modFrameOf {g fn} : (s.modFrameOf g fn).Canonical := h.modCore

theorem State.Canonical.route {stack dst m} : (s.route stack dst m).Canonical := by
  unfold State.route
  split
  · exact h.modCore
  · exact h.modLink

theorem State.Canonical.post {src dst m} : (s.post src dst m).Canonical := h.route
theorem State.Canonical.event {stack chan ctx src arg} : (s.event stack chan ctx src arg).Canonical := h.modStack

theorem State.Canonical.logFault {r} : (s.logFault r).1.Canonical := by
  unfold State.logFault
  dsimp only
  split
  · exact h.modCtx.event
  · split
    · exact h.modCtx.event
    next e1 => exact (h.ctxWrite _ e1).modCtx

theorem State.Canonical.toHandler {ctx core v} : (s.toHandler ctx core v).Canonical := by
  unfold State.toHandler
  dsimp only
  refine .ite h ?_
  split
  · exact h
  · exact h.modCtx.post

theorem State.Canonical.faultHandler {r} : (s.faultHandler r).Canonical := h.logFault.toHandler

theorem State.Canonical.send {src ctx t reply} : (s.send src ctx t reply).Canonical := by
  unfold State.send
  split
  · exact h.modCtx.post
  · exact h.faultHandler

theorem State.Canonical.liveInc {ctx fp} : (s.liveInc ctx fp).Canonical := by
  unfold State.liveInc
  split
  · exact h
  · exact h.modCore

theorem State.Canonical.liveDec {ctx fp} : (s.liveDec ctx fp).Canonical := by
  unfold State.liveDec
  dsimp only
  split
  · exact h
  · split
    · exact h
    · exact .ite h (.ite h.modCore.update h.modCore)

theorem State.Canonical.endRecording {quad reason} : (s.endRecording quad reason).Canonical := by
  unfold State.endRecording
  dsimp only
  split
  · exact h
  · split
    · exact h.modEngine.modTask
    · exact h.modEngine.modTask.logFault

theorem State.Canonical.sendAt {g fp d v reply} : (s.sendAt g fp d v reply).Canonical := h.send
theorem State.Canonical.replayOut {q t e second v} : (s.replayOut q t e second v).Canonical := h.modEngine

theorem State.Canonical.faultToken {g d cls n reply} : (s.faultToken g d cls n reply).Canonical := by
  unfold State.faultToken
  dsimp only
  split
  · exact h.replayOut
  · split
    · exact h
    · exact h.sendAt

theorem State.Canonical.raise {g d r reply} : (s.raise g d r reply).Canonical := by
  unfold State.raise
  dsimp only
  split
  · exact h.logFault.faultToken.endRecording
  · exact h.logFault.faultToken

theorem State.Canonical.fault {g f cls detail} : (s.fault g f cls detail).Canonical := h.raise

theorem State.Canonical.emitTo {g f second v reply} : (s.emitTo g f second v reply).Canonical := by
  unfold State.emitTo
  dsimp only
  split
  · exact h
  · exact h.sendAt
  · split
    · exact h.sendAt
    · exact h
  · split
    · exact h
    · exact .ite h.fault h.sendAt

theorem State.Canonical.emit {g f second v reply} : (s.emit g f second v reply).Canonical := by
  unfold State.emit
  dsimp only
  split
  · exact h.emitTo
  · split
    · exact h.replayOut
    · exact h.emitTo

theorem State.Canonical.emitBoth {g f v} : (s.emitBoth g f v).Canonical := h.emit.emit
theorem State.Canonical.faultLogged {r} : (s.faultLogged r).Canonical := h.logFault
theorem State.Canonical.faultSupervisor {r chan} : (s.faultSupervisor r chan).Canonical := h.logFault.event
theorem State.Canonical.faultParked {r} : (s.faultParked r).1.Canonical := h.logFault.toHandler.event
theorem State.Canonical.soon {i} : (s.soon i).Canonical := h.update
theorem State.Canonical.newId : s.newId.Canonical := h.update
theorem State.Canonical.retire : s.retire.Canonical := h.update

/-! ## Operands -/

theorem State.Canonical.checked {n f g k} (hk : ∀ (t : State) b c d, t.Canonical → (k t b c d).Canonical) :
    (s.checked n f g k).Canonical := by
  unfold State.checked
  split
  · exact h.emit
  · exact h.emitBoth
  · exact h
  · exact h.emitBoth
  · exact h.fault
  · exact hk _ _ _ _ h

theorem State.Canonical.execute {k} (hk : ∀ (t : State) b, t.Canonical → (k t b).Canonical) : (s.execute k).Canonical := by
  unfold State.execute
  split
  · exact h
  · exact hk _ _ h.retire

theorem State.Canonical.operate {n f k} (hk : ∀ (t : State) b c d e, t.Canonical → (k t b c d e).Canonical) : (s.operate n f k).Canonical :=
  h.execute fun _ _ h => h.checked fun _ _ _ _ h => hk _ _ _ _ _ h

/-! ## Frames -/

theorem State.Canonical.allocFrame {core fr} : ∀ out ∈ s.allocFrame core fr, out.1.Canonical := by
  unfold State.allocFrame
  dsimp only
  split
  · exact canonical_of_mem_none
  · exact canonical_of_mem_some h.spend.setCore

theorem State.Canonical.release {core ctx fr} : (s.release core ctx fr).Canonical := by
  unfold State.release
  refine .ite ?_ h
  split
  · exact h.post
  · exact h

theorem State.Canonical.rootFreed {fr} : (s.rootFreed fr).Canonical := .ite h.modTask h

theorem State.Canonical.freeFrame {core fp} : (s.freeFrame core fp).Canonical := by
  unfold State.freeFrame
  dsimp only
  split
  · exact h.setCore.release.rootFreed
  · split
    · exact h.setCore.release.rootFreed
    · exact h

theorem State.Canonical.freeOrWait {core fp} : (s.freeOrWait core fp).Canonical := by
  unfold State.freeOrWait
  split
  · exact h
  · exact .ite h.freeFrame h.modCore

theorem State.Canonical.stale {ctx} : (s.stale ctx).Canonical := h.modCtx
theorem State.Canonical.framePort {core fp obj} : (s.framePort core fp obj).Canonical := h.faultSupervisor.modCore

theorem State.Canonical.spillFrame {core fr} : (s.spillFrame core fr).1.Canonical := by
  unfold State.spillFrame
  dsimp only
  split
  · exact h.framePort
  · exact h.setCore.foldl fun _ _ h => h.ctxPut

theorem State.Canonical.makeRoom {core fits n} : (s.makeRoom core fits n).1.Canonical := by
  induction n generalizing s with
  | zero => exact h
  | succ n ih =>
    unfold State.makeRoom
    split
    · exact h
    · split
      · exact h
      · split
        next e => exact ih (h.spillFrame.fst e)
        next e => exact h.spillFrame.fst e

theorem State.Canonical.clearUnits {core b n} : (s.clearUnits core b n).1.Canonical := by
  induction n generalizing s with
  | zero => exact h
  | succ n ih =>
    unfold State.clearUnits
    split
    · exact h
    · split
      · split
        next e => exact ih (h.spillFrame.fst e)
        next e => exact h.spillFrame.fst e
      · exact h

theorem State.Canonical.moveArms {core b n} : (s.moveArms core b n).1.Canonical := by
  induction n generalizing s with
  | zero => exact h
  | succ n ih =>
    unfold State.moveArms
    dsimp only
    split
    · exact h
    · split
      · exact h.makeRoom
      · exact ih h.makeRoom.spend.modCore

theorem State.Canonical.freeSpilled {core e} : (s.freeSpilled core e).Canonical :=
  .ite h.modCore (.ite h.framePort.modCore (.ite h.freeFrame h.modCore))

theorem State.Canonical.freeRequest {core m fp x4} : (s.freeRequest core m fp x4).Canonical := by
  unfold State.freeRequest
  dsimp only
  split
  · exact .ite h.raise h.freeOrWait
  · split
    · exact h.stale
    · exact .ite h.modCore (.ite h.framePort.modCore (.ite h.raise h.freeSpilled))

theorem State.Canonical.leaveFill {core fp} : (s.leaveFill core fp).Canonical := h.modCore

theorem State.Canonical.fill {core fp} : (s.fill core fp).Canonical := by
  unfold State.fill
  dsimp only
  split
  · exact h.setCore.freeRequest.modCore.leaveFill
  · refine .ite h (.ite h.freeSpilled.leaveFill ?_)
    split
    next e1 => exact h.clearUnits.fst e1
    next e1 =>
      have hs1 := h.clearUnits.fst e1
      split
      next e2 => exact hs1.moveArms.fst e2
      next e2 =>
        have hs2 := hs1.moveArms.fst e2
        exact .ite hs2.framePort hs2.setCore
  · exact h

theorem State.Canonical.allocArms {core fp n depth} : ∀ out ∈ s.allocArms core fp n depth, State.Canonical out := by
  unfold State.allocArms
  dsimp only
  split
  · exact canonical_of_mem_none
  · split
    · exact canonical_of_mem_none
    · exact canonical_of_mem_some h.spend.spend.modCore

theorem State.Canonical.ready {core g opc f} : (s.ready core g opc f).Canonical := h.modCore
theorem State.Canonical.delivered {ctx fp reply} : (s.delivered ctx fp reply).Canonical := .ite h.liveDec h

theorem State.Canonical.atSlot {core m t reply fr w opc f} : (s.atSlot core m t reply fr w opc f).Canonical := by
  unfold State.atSlot
  dsimp only
  refine .ite h.fault.modCore.delivered (.ite h.setCore (.ite h.faultSupervisor.modCore (.ite h.setCore ?_)))
  split
  · refine State.Canonical.delivered (State.Canonical.modCore (State.Canonical.modCore (.ite (canonical_getD ?_ h) h)))
    split
    · exact canonical_of_mem_none
    · exact h.allocArms
  · refine State.Canonical.delivered (State.Canonical.modCore (State.Canonical.fault (State.Canonical.modCore
      (.ite (canonical_getD ?_ h) h))))
    split
    · exact canonical_of_mem_none
    · exact h.allocArms
  · refine .ite (State.Canonical.modCore (.ite (canonical_getD ?_ h) h)) (State.Canonical.delivered (State.Canonical.modCore
      (State.Canonical.ready (State.Canonical.modCore (.ite (canonical_getD ?_ h) h)))))
    · split
      · exact canonical_of_mem_none
      · exact h.allocArms
    · split
      · exact canonical_of_mem_none
      · exact h.allocArms

theorem State.Canonical.serveToken {core m t reply} : (s.serveToken core m t reply).Canonical := by
  unfold State.serveToken
  dsimp only
  split
  · exact h
  · split
    · split
      · exact h.setCore
      · exact h.stale
    · refine .ite h.delivered (.ite h.faultHandler.delivered ?_)
      split
      · exact h.setCore
      · split
        · exact h
        · exact h.atSlot

theorem State.Canonical.serve {core m} : (s.serve core m).Canonical := by
  unfold State.serve
  dsimp only
  split
  · exact h.serveToken
  · exact h.freeRequest
  · split
    · exact h.liveDec
    · exact h.setCore
    · exact h.stale

theorem State.Canonical.arrive {core m} : (s.arrive core m).Canonical := .ite h.setCore h.serve
theorem State.Canonical.serveQueued {core m rest} : (s.serveQueued core m rest).Canonical := .ite h.modCore.serve.modCore h

theorem State.Canonical.tryBlocked {core m rest} : ∀ out ∈ s.tryBlocked core m rest, State.Canonical out := by
  unfold State.tryBlocked
  dsimp only
  split
  · exact canonical_of_mem_none
  · exact canonical_of_mem_some h.modCore.arrive

theorem State.Canonical.serveBlocked {core m rest} : (s.serveBlocked core m rest).Canonical := canonical_getD h.tryBlocked h

theorem State.Canonical.takeMail {core src releases} : (s.takeMail core src releases).Canonical := by
  unfold State.takeMail
  dsimp only
  refine .ite ?_ (.ite ?_ ?_)
  · split
    · exact h
    · exact .ite h h.serveQueued
  · split
    · exact h
    · exact .ite h h.serveBlocked
  · split
    · exact h
    · exact .ite h (.ite h.setCore.modCore h.setCore.arrive)

/-! ## Place -/

theorem State.Canonical.setPart {stack p} : (s.setPart stack p).Canonical := h.modStack
theorem State.Canonical.hold {stack ctx fn} : (s.hold stack ctx fn).Canonical := .ite h.setPart (.ite h.setPart.event h.setPart)
theorem State.Canonical.modShare {n fn} : (s.modShare n fn).Canonical := h.modStack
theorem State.Canonical.ownShare {core n fp} : (s.ownShare core n fp).Canonical := h.modShare

theorem State.Canonical.tryAlloc {core a} : ∀ out ∈ s.tryAlloc core a, State.Canonical out := by
  unfold State.tryAlloc
  dsimp only
  split
  · split
    · exact canonical_of_mem_some h
    · split
      · exact canonical_of_mem_none
      next e1 =>
        have hs1 := h.allocFrame _ e1
        refine canonical_of_mem_some (State.Canonical.send ?_)
        split
        · exact hs1.ownShare.modTask
        · exact hs1.modTask
  · split
    · split
      · exact canonical_of_mem_some h
      · split
        · exact canonical_of_mem_none
        next e1 => exact canonical_of_mem_some (h.allocFrame _ e1).modEngine.send
    · exact canonical_of_mem_some h
  · split
    · exact canonical_of_mem_some h.modCore
    · split
      · exact canonical_of_mem_some h.modCore
      · exact canonical_of_mem_map h.allocArms fun _ h => h.modCore
  · split
    · split
      · exact canonical_of_mem_some h.liveDec.fault
      · exact canonical_of_mem_some h
    · split
      · split
        · exact canonical_of_mem_none
        next e1 => exact canonical_of_mem_some (h.allocFrame _ e1).emit
      · split
        · split
          · exact canonical_of_mem_none
          next e1 => exact canonical_of_mem_some (h.allocFrame _ e1).sendAt
        · split
          · exact canonical_of_mem_none
          · exact canonical_of_mem_some h.liveDec.fault
          · split
            · exact canonical_of_mem_some h.liveDec.fault
            · split
              · exact canonical_of_mem_some h.liveDec.fault
              · split
                · exact canonical_of_mem_none
                next e1 => exact canonical_of_mem_some (h.allocFrame _ e1).send
      · exact canonical_of_mem_some h

theorem State.Canonical.allocate {core a} : (s.allocate core a).Canonical := by
  unfold State.allocate
  refine .ite h.modCore ?_
  split
  next e1 => exact h.tryAlloc _ e1
  · exact h.modCore

theorem State.Canonical.serveAlloc {core} : (s.serveAlloc core).Canonical := by
  unfold State.serveAlloc
  dsimp only
  split
  · split
    next e1 => exact h.modCore.tryAlloc _ e1
    · split
      next e1 => exact h.makeRoom.fst e1
      next e1 =>
        have hs1 := h.makeRoom.fst e1
        exact canonical_getD hs1.modCore.tryAlloc hs1
  · exact h

/-! ## Control -/

theorem passBoth_canonical {f g l} : (passBoth f s g l).Canonical := h.emitBoth

theorem State.Canonical.selects {g v} : (s.selects g v).Canonical := by
  unfold State.selects
  dsimp only
  split
  · exact .ite h.endRecording h.modEngine
  · exact h

theorem State.Canonical.selecting {n f k} (hk : ∀ (t : State) b c d, t.Canonical → (k t b c d).Canonical) : (s.selecting n f k).Canonical :=
  h.execute fun _ _ h => State.Canonical.checked (.ite h h.selects) fun _ _ _ _ h => hk _ _ _ _ h

theorem State.Canonical.writeSlot {g n x} : (s.writeSlot g n x).Canonical := h.modFrameOf
theorem execNop_canonical {f} : NextCanonical (execNop f s) := h.operate fun _ _ _ _ _ h => passBoth_canonical h
theorem forkCopies_canonical {f g v n} : (forkCopies f g v n s).Canonical := h.foldl fun _ _ h => h.emit

theorem execFork_canonical {f} : NextCanonical (execFork f s) := by
  unfold execFork
  dsimp only
  refine h.operate fun _ _ _ _ _ h => .ite ?_ (forkCopies_canonical h).emit
  split
  · exact h
  · exact h.fault
  · exact (forkCopies_canonical h).emit

theorem execSteer_canonical {f} : NextCanonical (execSteer f s) := h.selecting fun _ _ _ _ h => h.emit
theorem execGate_canonical {f} : NextCanonical (execGate f s) := h.selecting fun _ _ _ _ h => .ite h.emitBoth h
theorem execFilter_canonical {f} : NextCanonical (execFilter f s) := h.selecting fun _ _ _ _ h => h.emitBoth
theorem execSync_canonical {f} : NextCanonical (execSync f s) := h.operate fun _ _ _ _ _ h => passBoth_canonical h
theorem execDrop_canonical {f} : NextCanonical (execDrop f s) := h.execute fun _ _ h => .ite h.fault h

theorem State.Canonical.allocChild {g f i obj} : (s.allocChild g f i obj).Canonical := by
  unfold State.allocChild
  dsimp only
  split
  · exact h
  · split
    · exact h.fault
    · split
      · exact h.fault
      · split
        · exact h.fault
        · exact .ite h.modCore.liveInc.hold h.modCore.liveInc.allocate

theorem execFalloc_canonical {f} : NextCanonical (execFalloc f s) := h.operate fun _ _ _ _ _ h => h.allocChild
theorem execCall_canonical {f} : NextCanonical (execCall f s) := h.operate fun _ _ _ _ _ h => h.allocChild
theorem execCallExt_canonical {f} : NextCanonical (execCallExt f s) := h.operate fun _ _ _ _ _ h => h.allocChild

theorem execFfreeFp_canonical {f} : NextCanonical (execFfreeFp f s) := by
  unfold execFfreeFp
  dsimp only
  refine h.operate fun _ _ _ _ _ h => .ite h.fault ?_
  split
  · exact h.post
  · exact h.faultHandler

theorem execFfreeSelf_canonical {f} : NextCanonical (execFfreeSelf f s) := by
  unfold execFfreeSelf
  refine h.operate fun _ _ _ _ _ h => ?_
  split
  · exact h
  · exact .ite h.fault (.ite h.fault h.freeOrWait)

theorem execRet_canonical {f} : NextCanonical (execRet f s) := by
  unfold execRet
  dsimp only
  refine h.operate fun _ _ _ _ _ h => ?_
  split
  · exact h
  · exact .ite h.fault (.ite h.fault (.ite h.send h.send.modFrameOf.freeOrWait))

theorem execFstore_canonical {f} : NextCanonical (execFstore f s) :=
  h.operate fun _ _ _ _ _ h => .ite h.fault (.ite h.writeSlot.emitBoth h.fault)

theorem execFstick_canonical {f} : NextCanonical (execFstick f s) := by
  unfold execFstick
  dsimp only
  refine h.operate fun _ _ _ _ _ h => .ite h.fault ?_
  split
  · exact h.fault
  · exact h.writeSlot.emitBoth

theorem execFreadSlot_canonical {f} : NextCanonical (execFreadSlot f s) := by
  unfold execFreadSlot
  dsimp only
  refine h.operate fun _ _ _ _ _ h => ?_
  split
  · exact h
  · exact .ite h.fault h.emitBoth

theorem execFreadSelf_canonical {f} : NextCanonical (execFreadSelf f s) := h.operate fun _ _ _ _ _ h => h.emitBoth

theorem execSendto_canonical {f} : NextCanonical (execSendto f s) := by
  unfold execSendto
  dsimp only
  refine h.operate fun _ _ _ _ _ h => ?_
  split
  · exact .ite h h.emit
  · split
    · exact h.emitBoth
    · exact h

theorem State.Canonical.advancing {g f r k} (hk : ∀ (t : State), t.Canonical → (k t).Canonical) : (s.advancing g f r k).Canonical := by
  unfold State.advancing
  split
  · exact h.fault
  · exact hk _ h.modFrameOf

theorem iterTo_canonical {f g l r} : (iterTo f s g l r).Canonical := .ite h.emitBoth (h.advancing fun _ h => h.emitBoth)
theorem execIterNext_canonical {f} : NextCanonical (execIterNext f s) := h.operate fun _ _ _ _ _ h => iterTo_canonical h
theorem execIterSet_canonical {f} : NextCanonical (execIterSet f s) := h.operate fun _ _ _ _ _ h => iterTo_canonical h
theorem execPunctMark_canonical {f} : NextCanonical (execPunctMark f s) := h.operate fun _ _ _ _ _ h => h.advancing fun _ h => h.emitBoth

theorem execPunctAfter_canonical {f} : NextCanonical (execPunctAfter f s) :=
  h.operate fun _ _ _ _ _ h => h.advancing fun _ h => h.emit.emit.emit.emit

theorem rjoinEnds_canonical {f g a marks cur} : (rjoinEnds f g a marks cur s).Canonical := h.emit.emit.emit.emit

theorem rjoinStep_canonical {f g l} : (rjoinStep f s g l).Canonical := by
  unfold rjoinStep
  dsimp only
  split
  · exact h
  · split
    · exact h.modFrameOf.fault
    · exact h.modFrameOf
    · exact h.modFrameOf
    · exact .ite (.ite (rjoinEnds_canonical (rjoinEnds_canonical h.modFrameOf)) (rjoinEnds_canonical h.modFrameOf)) h.modFrameOf

theorem execRjoin_canonical {f} : NextCanonical (execRjoin f s) := h.operate fun _ _ _ _ _ h => .ite h.fault (rjoinStep_canonical h)

theorem execCompact_canonical {f} : NextCanonical (execCompact f s) := by
  unfold execCompact
  dsimp only
  refine h.selecting fun _ _ _ _ h => .ite h.fault ?_
  split
  · exact .ite h.writeSlot.emit h.writeSlot
  · exact h.writeSlot.emit.emitBoth

theorem execOrdmerge_canonical {f} : NextCanonical (execOrdmerge f s) := by
  unfold execOrdmerge
  dsimp only
  refine h.operate fun _ _ _ _ _ h => ?_
  split
  · exact h
  · exact .ite h.fault ((h.modFrameOf.foldl fun _ _ h => h.emitBoth).foldl fun _ _ h => h.fault)

theorem execNullsetAll_canonical {f} : NextCanonical (execNullsetAll f s) := h.operate fun _ _ _ _ _ h => h.emitBoth
theorem execNullsetIfz_canonical {f} : NextCanonical (execNullsetIfz f s) := h.operate fun _ _ _ _ _ h => .ite h.emitBoth h.emitBoth
theorem execIsnullNull_canonical {f} : NextCanonical (execIsnullNull f s) := h.operate fun _ _ _ _ _ h => h.emitBoth
theorem execIsnullKind_canonical {f} : NextCanonical (execIsnullKind f s) := h.operate fun _ _ _ _ _ h => h.emitBoth

theorem execSwitch_canonical {f} : NextCanonical (execSwitch f s) := by
  unfold execSwitch
  dsimp only
  refine h.operate fun _ _ _ _ _ h => .ite h.setPart ?_
  split
  · exact h.setPart
  · exact h.fault

theorem State.Canonical.disown {core fp} : (s.disown core fp).Canonical := by
  unfold State.disown
  split
  · exact h
  · exact h.modShare

theorem execEndOp_canonical {f} : NextCanonical (execEndOp f s) := by
  unfold execEndOp
  dsimp only
  refine h.operate fun _ _ _ _ _ h => ?_
  split
  · exact h
  · refine .ite h (.ite h.fault (.ite h.fault (State.Canonical.freeOrWait ?_)))
    split
    · exact h.modTask.disown
    · exact h.modTask

/-! ## Flags -/

theorem State.Canonical.setFlags {ctx fl} : (s.setFlags ctx fl).Canonical := .ite h h.modCtx
theorem State.Canonical.draws {core n} : (s.draws core n).1.Canonical := h.modCore

theorem State.Canonical.drawFor {core rm} : (s.drawFor core rm).1.Canonical := by
  unfold State.drawFor
  dsimp only
  split
  · exact h.modCore
  · exact h

/-! ## Tiles -/

theorem State.Canonical.modTile {core i fn} : (s.modTile core i fn).Canonical := h.modCore

theorem State.Canonical.setVaultByte {core off b} : (s.setVaultByte core off b).Canonical :=
  h.withVault (Memory.write_wf h.vault_wf _ _)

theorem State.Canonical.setVaultBytes {core off bs} : (s.setVaultBytes core off bs).Canonical :=
  h.withVault (Memory.writeBytes_wf h.vault_wf _ _)

theorem State.Canonical.setElem {core t i j bits} : (s.setElem core t i j bits).Canonical :=
  .ite (.ite h.setVaultByte (.ite h.setVaultByte h.setVaultByte)) h.setVaultBytes

theorem State.Canonical.setViewRow {v i xs} : (s.setViewRow v i xs).Canonical := h.foldl fun _ _ h => h.setElem
theorem State.Canonical.setViewRows {v rows} : (s.setViewRows v rows).Canonical := h.foldl fun _ _ h => h.setViewRow
theorem State.Canonical.tilesUse {ts} : (s.tilesUse ts).Canonical := h.foldl fun _ _ h => h.modTile
theorem State.Canonical.tilesDrop {ts} : (s.tilesDrop ts).Canonical := h.foldl fun _ _ h => .ite h.modTile.soon h.modTile
theorem State.Canonical.tileReturn {core i} : (s.tileReturn core i).Canonical := .ite h.modTile h

/-! ## Engine -/

theorem State.Canonical.modCmd {core id fn} : (s.modCmd core id fn).Canonical := h.modCore
theorem State.Canonical.liveIncs {ctx fps} : (s.liveIncs ctx fps).Canonical := h.foldl fun _ _ h => h.liveInc
theorem State.Canonical.liveDecs {ctx fps} : (s.liveDecs ctx fps).Canonical := h.foldl fun _ _ h => h.liveDec
theorem State.Canonical.capsBusy {core cs fn} : (s.capsBusy core cs fn).Canonical := h.foldl fun _ _ h => h.modCore

theorem State.Canonical.engage {c ts shadow} : (s.engage c ts shadow).Canonical := by
  unfold State.engage
  dsimp only
  refine State.Canonical.modCmd ?_
  split
  · exact h.tilesUse.modTile
  · exact h.tilesUse

theorem State.Canonical.accept {f c} : (s.accept f c).1.Canonical :=
  State.Canonical.modCore (.ite h.newId.capsBusy.liveIncs h.newId.capsBusy)

theorem State.Canonical.release_ {c clear} : (s.release_ c clear).Canonical := by
  unfold State.release_
  dsimp only
  split
  · exact .ite h.tilesDrop.capsBusy.modTile h.tilesDrop.capsBusy
  · exact h.tilesDrop.capsBusy

theorem State.Canonical.finish {c clear} : (s.finish c clear).Canonical := h.release_.modCore

theorem State.Canonical.replies {c f outs} : (s.replies c f outs).Canonical := by
  unfold State.replies
  dsimp only
  refine State.Canonical.liveDecs (h.foldl_fst fun _ _ h => ?_)
  split <;> exact h.emit

theorem State.Canonical.answer {c f outs} : (s.answer c f outs).Canonical := h.finish.replies

theorem State.Canonical.failReply {c f k} (hk : ∀ (t : State) b c, t.Canonical → (k t b c).Canonical) : (s.failReply c f k).Canonical := by
  unfold State.failReply
  dsimp only
  split <;> exact (hk _ _ _ h).liveDecs

theorem State.Canonical.fail {c f r clear} : (s.fail c f r clear).Canonical := h.finish.failReply fun _ _ _ h => h.raise
theorem State.Canonical.failWith {c f cls d0 d1 d2} : (s.failWith c f cls d0 d1 d2).Canonical := h.fail
theorem State.Canonical.accessFault {g f cls va k} : (s.accessFault g f cls va k).Canonical := h.raise
theorem State.Canonical.park {c cls va dev k port} : (s.park c cls va dev k port).Canonical := .ite h h.faultParked.modCmd

theorem State.Canonical.putChunks {x bs core cmd own} : (s.putChunks x bs core cmd own).state.Canonical := by
  unfold State.putChunks
  dsimp only
  split <;> exact h.writeChunks

theorem State.Canonical.sideWrite {x off bs core cmd own} : (s.sideWrite x off bs core cmd own).state.Canonical := by
  unfold State.sideWrite
  dsimp only
  split
  · exact h.putChunks
  · split
    · exact h.withHost (Memory.writeBytes_wf h.host_wf _ _)
    · exact h.withStorage (Memory.writeBytes_wf h.storage_wf _ _)
    · exact h.putChunks

theorem State.Canonical.sideUse {x off n k} : (s.sideUse x off n k).Canonical := by
  unfold State.sideUse
  dsimp only
  split
  · exact h.modCore
  · exact h

/-! ## TileOps -/

theorem State.Canonical.tbInvalidate {core idx off} : (s.tbInvalidate core idx off).Canonical :=
  h.modTile.setVaultBytes.modCore.foldl fun _ _ h => h.emitBoth

theorem State.Canonical.tileGone {core i} : (s.tileGone core i).Canonical := (h.foldl fun _ _ h => h.tbInvalidate).modTile

theorem State.Canonical.newTile {core x size} : ∀ out ∈ s.newTile core x size, out.1.Canonical := by
  unfold State.newTile
  dsimp only
  split
  · exact canonical_of_mem_some h.modTile
  · exact canonical_of_mem_none

theorem State.Canonical.tnewAtVault {core c f} : (s.tnewAtVault core c f).Canonical := by
  unfold State.tnewAtVault
  dsimp only
  split
  · exact h.failWith
  · split
    · exact h.failWith
    · split
      next e =>
        split at e
        · exact (h.newTile _ e).answer
        · exact nomatch e
      · exact .ite h.answer h.modCore.modCore

theorem State.Canonical.vaultWork {c} : (s.vaultWork c).Canonical := by
  unfold State.vaultWork
  dsimp only
  split
  · exact h.tnewAtVault
  · split
    · exact h.failWith
    · exact h.tnewAtVault
  · split
    · exact h.failWith
    · exact .ite h.modTile.answer h.tileGone.answer
  · split
    · exact h.failWith
    · exact .ite h.failWith h.modTile.answer
  · split
    · exact h.failWith
    · split
      · exact h.failWith
      · exact h.answer
  · split
    · exact h.failWith
    · exact h.answer
  · split
    · exact h.failWith
    · exact h.failWith
    · split
      · exact h.failWith
      · exact h.modTile.answer
  · exact h

theorem State.Canonical.vaultCmd {g f i vcore} : (s.vaultCmd g f i vcore).Canonical := by
  unfold State.vaultCmd
  dsimp only
  split
  · exact h.fault
  · exact .ite h.accept.vaultWork h.accept

theorem execTnewHere_canonical {f} : NextCanonical (execTnewHere f s) := h.operate fun _ _ _ _ _ h => h.vaultCmd
theorem execTnewAt_canonical {f} : NextCanonical (execTnewAt f s) := h.operate fun _ _ _ _ _ h => h.vaultCmd
theorem execTrel_canonical {f} : NextCanonical (execTrel f s) := h.operate fun _ _ _ _ _ h => h.vaultCmd
theorem execTdup_canonical {f} : NextCanonical (execTdup f s) := h.operate fun _ _ _ _ _ h => h.vaultCmd
theorem execTview_canonical {f} : NextCanonical (execTview f s) := h.operate fun _ _ _ _ _ h => h.vaultCmd
theorem execTinfo_canonical {f} : NextCanonical (execTinfo f s) := h.operate fun _ _ _ _ _ h => h.vaultCmd
theorem execTlayout_canonical {f} : NextCanonical (execTlayout f s) := h.operate fun _ _ _ _ _ h => h.vaultCmd

theorem execTnewGrant_canonical {core} : NextCanonical (execTnewGrant core s) := by
  unfold execTnewGrant
  dsimp only
  split
  · exact h
  · split
    · exact h
    · split
      · exact h
      · split
        · exact h
        · split
          · exact h
          next e1 => exact (h.newTile _ e1).modCore.answer

theorem execTileSpaceReturn_canonical {core index} : NextCanonical (execTileSpaceReturn core index s) := h.tileReturn

/-! ## Ports -/

theorem State.Canonical.modPort {core p fn} : (s.modPort core p fn).Canonical := h.modCore

theorem State.Canonical.epMove {core p} : ∀ out ∈ s.epMove core p, State.Canonical out := by
  unfold State.epMove
  dsimp only
  split
  · split
    · split
      · exact canonical_of_mem_none
      · split
        · exact canonical_of_mem_some h.modPort
        · split
          · exact canonical_of_mem_none
          · split
            next e1 => exact canonical_of_mem_some (h.sideWrite.put e1).modPort
            next e1 => exact canonical_of_mem_none
    · split
      · exact canonical_of_mem_none
      · split
        · exact canonical_of_mem_some h.modPort
        · exact canonical_of_mem_none
  · exact canonical_of_mem_none

theorem State.Canonical.pump {core p n} : (s.pump core p n).Canonical := by
  induction n generalizing s with
  | zero => exact h
  | succ n ih =>
    unfold State.pump
    dsimp only
    split
    · split
      next e => exact ih (h.epMove _ e)
      · exact h
    · exact .ite h (ih h.modPort.modPort)
    · exact h

theorem State.Canonical.portPush {core p e} : (s.portPush core p e).Canonical := h.modPort.pump

theorem State.Canonical.unbindPort {core p} : (s.unbindPort core p).Canonical := by
  unfold State.unbindPort
  dsimp only
  split
  · exact h.modPort.modCore
  · exact h.modPort.modPort
  · exact h.modPort.modCore
  · exact h.modPort.modCtx
  · exact h.modPort

theorem State.Canonical.settle {core p} : (s.settle core p).Canonical := by
  unfold State.settle
  dsimp only
  split
  · refine .ite ?_ h
    split
    · exact h.unbindPort.emit
    · exact h.unbindPort
  · exact h

theorem State.Canonical.settleAll {core} : (s.settleAll core).Canonical := h.foldl fun _ _ h => h.settle

theorem State.Canonical.portPop {core p} : ∀ out ∈ s.portPop core p, out.2.Canonical := by
  unfold State.portPop
  dsimp only
  split
  · exact canonical_of_mem_none
  · refine canonical_of_mem_some (State.Canonical.settle ?_)
    split
    · refine .ite (.ite (State.Canonical.unbindPort ?_) ?_) h.modPort
      · split
        · exact h.modPort.emit
        · exact h.modPort
      · split
        · exact h.modPort.emit
        · exact h.modPort
    · exact .ite h.modPort h.modPort.pump
    · exact h.modPort.pump
    · exact h.modPort

/-! ## Transfer -/

theorem State.Canonical.parkStale {c} : (s.parkStale c).Canonical := h.park

theorem State.Canonical.copyCmd {g f i} : (s.copyCmd g f i).Canonical := by
  unfold State.copyCmd
  dsimp only
  split
  · exact h.raise
  · split
    · exact h.raise
    · split
      · exact h.fault
      · exact .ite h.accept.engage.parkStale h.accept.engage

theorem State.Canonical.copyArrive {c f} : (s.copyArrive c f).Canonical := by
  unfold State.copyArrive
  dsimp only
  split
  · exact h.failWith
  · exact h.parkStale
  · split
    · exact h.failWith
    · split
      · exact h.failWith
      · exact (State.Canonical.modCmd (.ite h.newId.modCmd h)).engage

theorem State.Canonical.setScales {v bs} : (s.setScales v bs).Canonical := h.foldl fun _ _ h => h.setVaultByte

theorem State.Canonical.fillView {v f tr runs} : (s.fillView v f tr runs).Canonical :=
  .ite (State.Canonical.modTile (.ite h.setViewRows.setScales h.setViewRows)) (.ite h.setViewRows.setScales h.setViewRows)

theorem State.Canonical.writeRuns {x core cmd own rs bs done} : (s.writeRuns x core cmd own rs bs done).state.Canonical := by
  induction rs generalizing s bs done with
  | nil => exact h
  | cons r rs ih =>
    unfold State.writeRuns
    split
    next e => exact ih (h.sideWrite.put e)
    next e =>
      have hp := h.sideWrite.put e
      exact hp

theorem State.Canonical.copyDone {c f v} : (s.copyDone c f v).Canonical := .ite h.modCmd h.answer

theorem State.Canonical.copyWrite {c f x rs bs v} : (s.copyWrite c f x rs bs v).Canonical := by
  unfold State.copyWrite
  dsimp only
  split
  next e1 => exact ((h.foldl fun _ _ h => h.sideUse).writeRuns.put e1).copyDone
  next e1 => exact ((h.foldl fun _ _ h => h.sideUse).writeRuns.put e1).modCmd.park

theorem State.Canonical.vfyFail {c f m rs runs k} : (s.vfyFail c f m rs runs k).Canonical := by
  unfold State.vfyFail
  dsimp only
  refine State.Canonical.fail (.ite (State.Canonical.modCore ?_) ?_)
  · split
    next e1 => exact h.writeRuns.put e1
    next e1 => exact h.writeRuns.put e1
  · split
    · exact h
    · exact h.foldl fun _ _ h => .ite h.setElem h

theorem State.Canonical.fetchWork {c f} : (s.fetchWork c f).Canonical := by
  unfold State.fetchWork
  dsimp only
  split
  · exact h
  · split
    · exact h.copyWrite
    · refine .ite (h.foldl fun _ _ h => h.sideUse) ?_
      split
      · exact (h.foldl fun _ _ h => h.sideUse).park
      · split
        · exact (h.foldl fun _ _ h => h.sideUse).vfyFail
        · split
          · exact (h.foldl fun _ _ h => h.sideUse).copyWrite
          · split
            · exact h.foldl fun _ _ h => h.sideUse
            · exact (h.foldl fun _ _ h => h.sideUse).fillView.answer

theorem State.Canonical.putWork {c f} : (s.putWork c f).Canonical := by
  unfold State.putWork
  dsimp only
  split
  · exact h.copyWrite
  · exact h

theorem State.Canonical.fetchPortWork {c f} : (s.fetchPortWork c f).Canonical := by
  unfold State.fetchPortWork
  dsimp only
  split
  · refine .ite h ?_
    split
    · exact h
    · refine .ite h.failWith ?_
      split
      · exact h
      next e1 =>
        have hs1 := h.portPop _ e1
        exact .ite (State.Canonical.emitBoth (.ite (State.Canonical.modTile
          (.ite (hs1.foldl fun _ _ h => h.setViewRow).setScales (hs1.foldl fun _ _ h => h.setViewRow))).answer hs1.failWith))
            (.ite hs1.modCmd (.ite hs1.failWith (.ite (State.Canonical.answer
              (.ite hs1.setViewRow hs1.setScales)) (State.Canonical.modCmd (.ite hs1.setViewRow hs1.setScales)))))
  · exact h

theorem State.Canonical.putPortWork {c f} : (s.putPortWork c f).Canonical := by
  unfold State.putPortWork
  dsimp only
  split
  · refine .ite h ?_
    split
    · exact h
    · exact .ite h.portPush.answer.settle h.portPush.modCmd
  · exact h

theorem State.Canonical.laneWork {c f} : (s.laneWork c f).Canonical := by
  unfold State.laneWork
  dsimp only
  split
  · refine State.Canonical.answer ?_
    split
    · exact h.modCore.setViewRow
    · exact h.modCore.foldl fun _ _ h => h.setVaultBytes
  · exact h.failWith
  · exact h

theorem State.Canonical.copyWork {c f} : (s.copyWork c f).Canonical := by
  unfold State.copyWork
  dsimp only
  split
  · split
    · exact h
    · exact h.setViewRows.answer
  · split
    · exact State.Canonical.answer (.ite h.setViewRows.setScales h.setViewRows)
    · exact h
  · exact h.fetchWork
  · exact h.fetchWork
  · exact h.fetchPortWork
  · exact h.putWork
  · exact h.putWork
  · exact h.putPortWork
  · exact .ite h.laneWork h
  · exact .ite h.laneWork h
  · exact h

theorem State.Canonical.copyStep {c f nvme} : (s.copyStep c f nvme).Canonical := by
  unfold State.copyStep
  split
  · exact .ite h.copyArrive h
  · exact .ite h h.answer
  · exact .ite h (.ite h.parkStale h.copyWork)

theorem execTfill_canonical {f} : NextCanonical (execTfill f s) := h.operate fun _ _ _ _ _ h => h.copyCmd
theorem execTcopy_canonical {f} : NextCanonical (execTcopy f s) := h.operate fun _ _ _ _ _ h => h.copyCmd
theorem execFetchGlb_canonical {f} : NextCanonical (execFetchGlb f s) := h.operate fun _ _ _ _ _ h => h.copyCmd
theorem execFetchEp_canonical {f} : NextCanonical (execFetchEp f s) := h.operate fun _ _ _ _ _ h => h.copyCmd
theorem execFetchPort_canonical {f} : NextCanonical (execFetchPort f s) := h.operate fun _ _ _ _ _ h => h.copyCmd
theorem execPutGlb_canonical {f} : NextCanonical (execPutGlb f s) := h.operate fun _ _ _ _ _ h => h.copyCmd
theorem execPutEp_canonical {f} : NextCanonical (execPutEp f s) := h.operate fun _ _ _ _ _ h => h.copyCmd
theorem execPutPort_canonical {f} : NextCanonical (execPutPort f s) := h.operate fun _ _ _ _ _ h => h.copyCmd
theorem execLdv_canonical {f} : NextCanonical (execLdv f s) := h.operate fun _ _ _ _ _ h => h.copyCmd
theorem execStv_canonical {f} : NextCanonical (execStv f s) := h.operate fun _ _ _ _ _ h => h.copyCmd

theorem execCopyComplete_canonical {core cmd} : NextCanonical (execCopyComplete core cmd s) := by
  unfold execCopyComplete
  split
  · exact h
  · split
    · exact h
    · exact .ite h.copyStep h

theorem execNvmeCompletion_canonical {core cmd status} : NextCanonical (execNvmeCompletion core cmd status s) := by
  unfold execNvmeCompletion
  split
  · exact h
  · split
    · exact h
    · refine .ite h ?_
      split
      · exact h.copyStep
      · exact h.failWith
      · exact h.failWith

/-! ## Split -/

theorem State.Canonical.scalarCmd {g f i load} : (s.scalarCmd g f i load).Canonical := by
  unfold State.scalarCmd
  dsimp only
  split
  · exact h.accessFault
  · exact h.emitBoth
  · exact h.accept.park
  · exact h.accept

theorem State.Canonical.scalarWork {c f load} : (s.scalarWork c f load).Canonical := by
  unfold State.scalarWork
  dsimp only
  split
  · exact h.failWith
  · exact h.answer
  · exact h.park
  · refine .ite h.sideUse (.ite ?_ ?_)
    · split
      · exact h.sideUse.park
      · exact h.sideUse.answer
    · split
      next e1 => exact (h.sideUse.sideWrite.put e1).park
      next e1 =>
        have hs1 := h.sideUse.sideWrite.put e1
        exact .ite hs1.modCmd hs1.answer

theorem execLdg_canonical {f} : NextCanonical (execLdg f s) := h.operate fun _ _ _ _ _ h => h.scalarCmd
theorem execStg_canonical {f} : NextCanonical (execStg f s) := h.operate fun _ _ _ _ _ h => h.scalarCmd
theorem State.Canonical.newCap {core i c} : (s.newCap core i c).1.Canonical := h.modCore

theorem State.Canonical.xlateWork {c f} : (s.xlateWork c f).Canonical := by
  unfold State.xlateWork
  dsimp only
  refine .ite h.failWith ?_
  split
  · exact h.failWith
  · refine .ite h.failWith ?_
    split
    · exact h.failWith
    · exact h.newCap.answer

theorem State.Canonical.capcutWork {c f} : (s.capcutWork c f).Canonical := by
  unfold State.capcutWork
  dsimp only
  split
  · exact h.failWith
  · exact h.newCap.answer

theorem execXlate_canonical {f} : NextCanonical (execXlate f s) := h.operate fun _ _ _ _ _ h => h.accept

theorem execCapcutCut_canonical {f} : NextCanonical (execCapcutCut f s) := by
  unfold execCapcutCut
  dsimp only
  refine h.operate fun _ _ _ _ _ h => ?_
  split
  · exact h.fault
  · exact h.fault
  · exact .ite h.fault h.accept

theorem execCapcutFree_canonical {f} : NextCanonical (execCapcutFree f s) := by
  unfold execCapcutFree
  dsimp only
  refine h.operate fun _ _ _ _ _ h => ?_
  split
  · exact h.fault
  · exact h.fault
  · exact h.accept

theorem execCapEntryFree_canonical {core index} : NextCanonical (execCapEntryFree core index s) := by
  unfold execCapEntryFree
  dsimp only
  refine .ite h (h.modCore.foldl fun _ _ h => ?_)
  split
  · exact h.answer
  · exact h

theorem State.Canonical.publishTileWork {c f} : (s.publishTileWork c f).Canonical := by
  unfold State.publishTileWork
  split
  · exact h.failWith
  · exact h.modTile.answer

theorem execPublishTile_canonical {f} : NextCanonical (execPublishTile f s) := by
  unfold execPublishTile
  dsimp only
  refine h.operate fun _ _ _ _ _ h => ?_
  split
  · exact h.fault
  · exact .ite h.accept.publishTileWork h.accept

theorem execPublishGlb_canonical {f} : NextCanonical (execPublishGlb f s) := by
  unfold execPublishGlb
  dsimp only
  refine h.operate fun _ _ _ _ _ h => ?_
  split
  · exact h.fault
  · exact h.fault
  · exact h.accept

theorem State.Canonical.swapPage {a b k} : (s.swapPage a b k).Canonical := by
  unfold State.swapPage
  split
  · exact h.hbmWrite.hbmWrite
  · exact h

theorem State.Canonical.clearWindows {ctx bad} : (s.clearWindows ctx bad).Canonical := h.update

theorem execPublishSwap_canonical {core cmd} : NextCanonical (execPublishSwap core cmd s) := by
  unfold execPublishSwap
  dsimp only
  split
  · split
    · exact .ite h.failWith (.ite h.failWith (h.foldl fun _ _ h => h.swapPage).clearWindows.answer)
    · exact h
  · exact h

theorem execPageSetBump_canonical {ctx} : NextCanonical (execPageSetBump ctx s) := .ite h h.clearWindows.update.modCtx
theorem execBumpDone_canonical {ctx} : NextCanonical (execBumpDone ctx s) := .ite h (.ite h h.modCtx)

theorem execTranslationWindowFill_canonical {core unit cap va} : NextCanonical (execTranslationWindowFill core unit cap va s) := by
  unfold execTranslationWindowFill
  dsimp only
  refine .ite h ?_
  split
  · exact h
  · exact .ite h.setCore h.setCore

theorem execReplicaPropagate_canonical {stack} : NextCanonical (execReplicaPropagate stack s) := by
  unfold execReplicaPropagate
  split
  · exact h
  · exact h.withHbm (Memory.writeBytes_wf h.hbm_wf _ _)

/-! ## Streams -/

theorem State.Canonical.modGen {core g fn} : (s.modGen core g fn).Canonical := h.modCore

theorem execAgset_canonical {f} : NextCanonical (execAgset f s) := by
  unfold execAgset
  dsimp only
  refine h.operate fun _ _ _ _ _ h => ?_
  split
  · exact h.fault
  · refine .ite h.fault ?_
    split
    · exact h.fault
    · split
      · exact h.accessFault
      · exact h.fault
      · exact .ite h.fault h.modGen.emit

theorem execAgrun_canonical {f} : NextCanonical (execAgrun f s) := h.operate fun _ _ _ _ _ h => .ite h.fault (.ite h.fault h.modGen)
theorem execAgstop_canonical {f} : NextCanonical (execAgstop f s) := h.operate fun _ _ _ _ _ h => .ite h.modGen h.emit

theorem State.Canonical.agIdle {core n next} : (s.agIdle core n next).Canonical := by
  unfold State.agIdle
  dsimp only
  refine State.Canonical.settleAll (h.modGen.foldl fun _ _ h => ?_)
  split
  · exact h.emit
  · exact h

theorem State.Canonical.agEnd {core n g f stopped} : (s.agEnd core n g f stopped).Canonical := h.emit.agIdle
theorem State.Canonical.agFail {core n g f e d0 d2} : (s.agFail core n g f e d0 d2).Canonical := h.raise.agIdle
theorem State.Canonical.agPark {core n g e va dev k} : (s.agPark core n g e va dev k).Canonical := h.faultParked.modGen

theorem State.Canonical.agPush {core g round n} : (s.agPush core g round n).Canonical := by
  induction n generalizing s with
  | zero => exact h
  | succ n ih =>
    unfold State.agPush
    dsimp only
    split
    · exact h
    · have hp {l : List (Nat × Nat)} {e} : (l.foldl (fun s t => s.portPush t.1 t.2 e) s).Canonical := h.foldl fun _ _ h => h.portPush
      exact .ite h (.ite hp.modGen (ih hp.modGen))

theorem State.Canonical.agRead {core n g f} : (s.agRead core n g f).Canonical := by
  unfold State.agRead
  dsimp only
  split
  · exact h.agFail
  · exact h.agPark
  · split
    · exact h.modGen.agPark
    · exact .ite h.modGen h.modGen.modGen.agPush

theorem State.Canonical.agWrite {core n g f} : (s.agWrite core n g f).Canonical := by
  unfold State.agWrite
  dsimp only
  split
  · exact h.agFail
  · exact h.agPark
  · split
    next e1 => exact (h.modGen.putChunks.put e1).modGen
    next e1 => exact (h.modGen.putChunks.put e1).modGen.agPark

theorem State.Canonical.agTake {core n g f} : (s.agTake core n g f).Canonical := by
  unfold State.agTake
  dsimp only
  split
  · exact h
  · split
    · exact h
    · refine .ite h.agFail ?_
      split
      · exact h
      next e1 =>
        have hs1 := h.portPop _ e1
        exact .ite hs1.agEnd.emit (.ite hs1.agFail (.ite hs1.modGen.agWrite hs1.modGen))

theorem execAgRow_canonical {core gen} : NextCanonical (execAgRow core gen s) := by
  unfold execAgRow
  dsimp only
  split
  · exact h
  · split
    · exact h
    · exact .ite h (.ite (.ite h.agWrite h.agRead) (.ite h.agPush (.ite (.ite h.agTake (.ite h h.agWrite)) (.ite h.agEnd (.ite h
        (.ite (.ite (.ite h (h.foldl fun _ _ h => h.portPush).agEnd) h.agEnd) (.ite h.agEnd (.ite h (.ite h.agTake h.agRead)))))))))

theorem State.Canonical.bindPort {g f p b} : (s.bindPort g f p b).Canonical := h.modPort.pump.emit

theorem State.Canonical.withPort {g f k} (hk : ∀ a, (k a).Canonical) : (s.withPort g f k).Canonical := by
  unfold State.withPort
  split
  · exact h.fault
  · exact hk _

theorem execSbindAg_canonical {f} : NextCanonical (execSbindAg f s) :=
  h.operate fun _ _ _ _ _ h => h.withPort fun _ => .ite h.fault (.ite h.fault (.ite h.fault h.modGen.bindPort))

theorem execSbindBq_canonical {f} : NextCanonical (execSbindBq f s) :=
  h.operate fun _ _ _ _ _ h => h.withPort fun _ => .ite h.fault (.ite h.fault (.ite h.fault h.modCtx.bindPort))

theorem execSbindPeer_canonical {f} : NextCanonical (execSbindPeer f s) := by
  unfold execSbindPeer
  dsimp only
  refine h.operate fun _ _ _ _ _ h => h.withPort fun _ => ?_
  split
  · exact h.fault
  · exact .ite h.fault (.ite h.fault (.ite h.fault h.modPort.bindPort))

theorem execSbindEp_canonical {f} : NextCanonical (execSbindEp f s) := by
  unfold execSbindEp
  dsimp only
  refine h.operate fun _ _ _ _ _ h => h.withPort fun _ => .ite h.fault ?_
  split
  · exact h.fault
  · exact h.bindPort

theorem execSbindUnbind_canonical {f} : NextCanonical (execSbindUnbind f s) :=
  h.operate fun _ _ _ _ _ h => h.withPort fun _ => .ite h.fault h.modPort.settle

theorem State.Canonical.bridgeWrite {core port ctx q e} : ∀ out, s.bridgeWrite core port ctx q e = .ok out → out.Canonical := by
  unfold State.bridgeWrite
  split
  · exact canonical_of_error
  next e1 => exact (h.ctxWriteFor _ e1).ctxWriteFor

theorem execBridgeProduce_canonical {core port} : NextCanonical (execBridgeProduce core port s) := by
  unfold execBridgeProduce
  dsimp only
  split
  · split
    · exact h
    · refine .ite h (.ite (.ite h.modPort ?_) ?_)
      · split
        · exact h
        next e1 => exact (h.portPop _ e1).modPort.ctxPut
      · split
        · exact h
        next e1 =>
          have hs1 := h.bridgeWrite _ e1
          refine .ite hs1.modPort ?_
          split
          · exact h.bridgeWrite _ e1
          next e2 => exact (hs1.portPop _ e2).modPort.ctxPut
  · exact h.pump.settle
  · exact h

theorem execBridgeConsume_canonical {core port} : NextCanonical (execBridgeConsume core port s) := by
  unfold execBridgeConsume
  dsimp only
  split
  · split
    · exact h
    · refine .ite h ?_
      split
      · split
        · exact h.portPush.ctxPut
        · exact h
      · exact h
  · exact h.pump
  · exact h

theorem execSbar_canonical {f} : NextCanonical (execSbar f s) := h.operate fun _ _ _ _ _ h => .ite h.accept.answer h.accept

theorem execMcast_canonical {f} : NextCanonical (execMcast f s) := by
  unfold execMcast
  dsimp only
  refine h.operate fun _ _ _ _ _ h => ?_
  split
  · exact h.fault
  · split
    · exact h.fault
    · exact .ite h.fault (.ite h.fault (.ite h.fault (.ite h.fault (h.foldl fun _ _ h => h.modPort).modGen.emit)))

theorem execPermit_canonical {f} : NextCanonical (execPermit f s) := by
  unfold execPermit
  dsimp only
  refine h.operate fun _ _ _ _ _ h => .ite h.fault (.ite h.fault (.ite h.fault (h.writeSlot.writeSlot.foldl fun _ _ h => ?_)))
  split
  · exact h.emit.modGen
  · exact h.emit

theorem execEpbind_canonical {f} : NextCanonical (execEpbind f s) := by
  unfold execEpbind
  dsimp only
  refine h.operate fun _ _ _ _ _ h => .ite h.fault ?_
  split
  · exact h.fault
  · exact .ite h.fault (.ite h.fault h.modCtx.emit)

theorem State.Canonical.epDropWork {c f} : (s.epDropWork c f).Canonical := .ite h h.modCtx.answer

theorem execEpdrop_canonical {f} : NextCanonical (execEpdrop f s) :=
  h.operate fun _ _ _ _ _ h => .ite h.fault (.ite h.fault h.accept.epDropWork)

/-! ## Sync -/

theorem State.Canonical.spotWrite {x bs c} : (s.spotWrite x bs c).Canonical := by
  unfold State.spotWrite
  split
  · exact h.setVaultBytes
  · exact h.writeChunk
  · exact h.withHost (Memory.writeBytes_wf h.host_wf _ _)
  · exact h.withStorage (Memory.writeBytes_wf h.storage_wf _ _)

theorem State.Canonical.syncAccept {f g i sc} : (s.syncAccept f g i sc).1.Canonical := h.accept.engage

theorem State.Canonical.targetCmd {g f i sc parks} : (s.targetCmd g f i sc parks).Canonical := by
  unfold State.targetCmd
  dsimp only
  split
  · exact h.raise
  · exact .ite h.syncAccept.park h.accessFault
  · exact h.syncAccept

theorem execAtom_canonical {f} : NextCanonical (execAtom f s) := h.operate fun _ _ _ _ _ h => h.targetCmd
theorem execRed_canonical {f} : NextCanonical (execRed f s) := h.operate fun _ _ _ _ _ h => .ite h.targetCmd.modCtx h.targetCmd
theorem execCas_canonical {f} : NextCanonical (execCas f s) := h.operate fun _ _ _ _ _ h => h.targetCmd
theorem execLockq_canonical {f} : NextCanonical (execLockq f s) := h.operate fun _ _ _ _ _ h => h.targetCmd
theorem execLockr_canonical {f} : NextCanonical (execLockr f s) := h.operate fun _ _ _ _ _ h => .ite h.fault h.syncAccept
theorem execFence_canonical {f} : NextCanonical (execFence f s) := h.operate fun _ _ _ _ _ h => h.syncAccept
theorem execAcq_canonical {f} : NextCanonical (execAcq f s) := h.operate fun _ _ _ _ _ h => h.targetCmd
theorem execRel_canonical {f} : NextCanonical (execRel f s) := h.operate fun _ _ _ _ _ h => h.targetCmd

theorem execOwnsetSet_canonical {f} : NextCanonical (execOwnsetSet f s) := by
  unfold execOwnsetSet
  dsimp only
  refine h.operate fun _ _ _ _ _ h => ?_
  split
  · exact h.raise
  · exact .ite h.fault (.ite h.fault (.ite h.fault (.ite h.fault (.ite h.fault h.modCtx.emit))))

theorem execOwnsetClr_canonical {f} : NextCanonical (execOwnsetClr f s) := by
  unfold execOwnsetClr
  dsimp only
  refine h.operate fun _ _ _ _ _ h => ?_
  split
  · exact h.raise
  · exact .ite h.fault h.modCtx.emit

theorem State.Canonical.updateDone {c f old} : (s.updateDone c f old).Canonical := by
  unfold State.updateDone
  split
  · exact h.finish.modCtx
  · exact h.answer

theorem State.Canonical.reachFail {c f parks r} : (s.reachFail c f parks r).Canonical := by
  unfold State.reachFail
  dsimp only
  split
  · refine State.Canonical.failWith ?_
    split
    · split
      · exact h.modCtx
      · exact h
    · exact h
  · refine .ite (State.Canonical.park ?_) (State.Canonical.failWith ?_)
    · split
      · split
        · exact h.modCtx
        · exact h
      · exact h
    · split
      · split
        · exact h.modCtx
        · exact h
      · exact h
  · refine .ite (State.Canonical.park ?_) (State.Canonical.failWith ?_)
    · split
      · split
        · exact h.modCtx
        · exact h
      · exact h
    · split
      · split
        · exact h.modCtx
        · exact h
      · exact h
  · split
    · split
      · exact h.modCtx
      · exact h
    · exact h

theorem State.Canonical.targetUse {c f} : (s.targetUse c f).Canonical := .ite h.sideUse h

theorem State.Canonical.updateWork {c f} : (s.updateWork c f).Canonical := by
  unfold State.updateWork
  dsimp only
  split
  · split
    · exact h.targetUse.reachFail
    · exact .ite (.ite h.targetUse.modCmd h.targetUse.modCmd.emit) (.ite h.targetUse (.ite (State.Canonical.setFlags
        (.ite h.targetUse.spotWrite h.targetUse)).modCmd (State.Canonical.setFlags (.ite h.targetUse.spotWrite h.targetUse)).updateDone))
  · exact h.reachFail

theorem State.Canonical.acqWork {c f} : (s.acqWork c f).Canonical := by
  unfold State.acqWork
  dsimp only
  split
  · split
    · exact h.targetUse.reachFail
    · exact .ite h.targetUse h.targetUse.answer
  · exact h.reachFail

theorem State.Canonical.modLock {node fn k} : (s.modLock node fn k).Canonical := h.update

theorem State.Canonical.lockqWork {c f} : (s.lockqWork c f).Canonical := by
  unfold State.lockqWork
  dsimp only
  split
  · split
    · exact h.targetUse.reachFail
    · exact h.targetUse.modCmd.modLock
  · exact h.reachFail

theorem execLockGrant_canonical {node entry} : NextCanonical (execLockGrant node entry s) := by
  unfold execLockGrant
  dsimp only
  split
  · split
    · split
      · exact h.modLock.answer
      · exact h
    · exact .ite h h.modLock
  · exact h

theorem State.Canonical.lockrWork {c f} : (s.lockrWork c f).Canonical := by
  unfold State.lockrWork
  dsimp only
  split
  · exact h.failWith
  · exact .ite h.failWith (.ite h (.ite h.failWith h.modLock.answer))

theorem State.Canonical.updateStep {c f} : (s.updateStep c f).Canonical := by
  unfold State.updateStep
  split
  · exact .ite h h.updateDone
  · exact .ite h (.ite h.reachFail h.updateWork)

theorem State.Canonical.nodeStep {c f} : (s.nodeStep c f).Canonical := by
  unfold State.nodeStep
  refine .ite h ?_
  split
  · exact h.updateStep
  · exact h.updateStep
  · exact h.updateStep
  · exact h.updateStep
  · exact .ite h h.lockqWork
  · exact h.lockrWork
  · exact h

theorem State.Canonical.fenceStep {c f} : (s.fenceStep c f).Canonical := by
  unfold State.fenceStep
  refine .ite h ?_
  split
  · exact .ite h.answer h
  · exact h.acqWork
  · exact h

/-! ## Barrier -/

theorem State.Canonical.setTxBar {core off b} : (s.setTxBar core off b).Canonical := h.setVaultBytes

theorem State.Canonical.barrierCmd {g f i sc x} : (s.barrierCmd g f i sc x).Canonical := by
  unfold State.barrierCmd
  dsimp only
  split
  · exact h.fault
  · split
    · exact h.fault
    · exact h.syncAccept.modCmd

theorem execTbinit_canonical {f} : NextCanonical (execTbinit f s) := h.operate fun _ _ _ _ _ h => .ite h.fault h.barrierCmd
theorem execTbexp_canonical {f} : NextCanonical (execTbexp f s) := h.operate fun _ _ _ _ _ h => .ite h.fault h.barrierCmd

theorem State.Canonical.tbarrTx {f i} : (s.tbarrTx f i).Canonical := by
  unfold State.tbarrTx
  dsimp only
  refine h.operate fun _ _ _ _ _ h => ?_
  split
  · exact h.fault
  · exact h.barrierCmd

theorem execTbarrArr_canonical {f} : NextCanonical (execTbarrArr f s) := h.operate fun _ _ _ _ _ h => h.barrierCmd
theorem execTbarrTx_canonical {f} : NextCanonical (execTbarrTx f s) := h.tbarrTx
theorem execTbarrArrtx_canonical {f} : NextCanonical (execTbarrArrtx f s) := h.tbarrTx
theorem execTbwait_canonical {f} : NextCanonical (execTbwait f s) := h.operate fun _ _ _ _ _ h => .ite h.fault h.barrierCmd
theorem execTbinv_canonical {f} : NextCanonical (execTbinv f s) := h.operate fun _ _ _ _ _ h => h.barrierCmd
theorem State.Canonical.phaseDone {core off b} : (s.phaseDone core off b).Canonical := .ite h.setTxBar.modCore h.setTxBar

theorem State.Canonical.tbarrWork {c f core off b arrives sectors} : (s.tbarrWork c f core off b arrives sectors).Canonical := by
  unfold State.tbarrWork
  dsimp only
  refine .ite h.failWith ?_
  split
  · exact (State.Canonical.phaseDone (.ite h.faultLogged h)).failWith
  · exact (State.Canonical.phaseDone (.ite h.faultLogged h)).answer

theorem State.Canonical.tbwaitWork {c f core off b} : (s.tbwaitWork c f core off b).Canonical :=
  .ite h.answer (.ite h.modCmd (State.Canonical.finish (.ite h.setTxBar.spend h)).modCore)

theorem State.Canonical.barrierWork {c f v} : (s.barrierWork c f v).Canonical := by
  unfold State.barrierWork
  dsimp only
  split
  · exact .ite h.failWith h.setTxBar.modTile.answer
  · exact .ite h.failWith (.ite h.failWith h.setTxBar.answer)
  · exact .ite h.failWith h.tbwaitWork
  · exact .ite h.failWith h.tbInvalidate.answer
  · refine .ite h.failWith ?_
    split
    · exact h.tbarrWork
    · exact h.tbarrWork
    · exact h.tbarrWork
    · exact h

theorem State.Canonical.barrierStep {c f} : (s.barrierStep c f).Canonical := by
  unfold State.barrierStep
  refine .ite h ?_
  split
  · exact h
  · refine .ite ?_ ?_
    · split
      · exact h.barrierWork
      · exact h
    · split
      · exact h.barrierWork
      · exact h.failWith

theorem execUpdateApply_canonical {core cmd} : NextCanonical (execUpdateApply core cmd s) := by
  unfold execUpdateApply
  split
  · exact h
  · split
    · exact h
    · exact .ite (.ite h h.barrierStep) h.nodeStep

theorem execTbwaitRetry_canonical {core cmd} : NextCanonical (execTbwaitRetry core cmd s) := by
  unfold execTbwaitRetry
  split
  · exact h
  · split
    · exact .ite h.barrierStep h
    · exact h

theorem execTbWaiterRelease_canonical {core} : NextCanonical (execTbWaiterRelease core s) := by
  unfold execTbWaiterRelease
  dsimp only
  split
  · exact h
  · exact .ite h.modCore h.modCore.emitBoth

theorem State.Canonical.joinChan {inst ctx coll chan n sig me} : ∀ out ∈ s.joinChan inst ctx coll chan n sig me, out.1.Canonical := by
  unfold State.joinChan
  dsimp only
  split
  · exact canonical_of_mem_none
  · split <;> exact canonical_of_mem_some h.update

theorem State.Canonical.arriveAt {c f coll sig rank bs} : ∀ out ∈ s.arriveAt c f coll sig rank bs, out.1.Canonical := by
  unfold State.arriveAt
  split
  · exact canonical_of_mem_none
  · exact h.joinChan

theorem State.Canonical.farArrival {c f coll sig bytes} : ∀ out ∈ s.farArrival c f coll sig bytes, out.1.Canonical := by
  unfold State.farArrival
  dsimp only
  split
  · exact canonical_of_mem_none
  · split
    · exact canonical_of_mem_none
    · exact h.spend.spend.joinChan

theorem execBar_canonical {f} : NextCanonical (execBar f s) := h.operate fun _ _ _ _ _ h => h.syncAccept

theorem State.Canonical.endArrival {a e k} (hk : ∀ (t : State) b c, t.Canonical → (k t b c).Canonical) :
    (s.endArrival a e k).Canonical := by
  unfold State.endArrival
  dsimp only
  split
  · exact h.update
  · split
    · exact hk _ _ _ h
    · exact h

theorem State.Canonical.barEnd {x} : (s.barEnd x).Canonical := h.foldl fun _ _ h => h.endArrival fun _ _ _ h => h.answer

theorem execBarArrival_canonical {core cmd} : NextCanonical (execBarArrival core cmd s) := by
  unfold execBarArrival
  split
  · exact h
  · split
    · refine .ite ?_ (.ite h ?_)
      · split
        · exact h
        next e1 => exact h.farArrival _ e1
        next e1 => exact (h.farArrival _ e1).barEnd
      · split
        · exact h.failWith
        next e1 => exact (h.arriveAt _ e1).modCmd
        next e1 => exact (h.arriveAt _ e1).barEnd
    · exact h

theorem execColl_canonical {f} : NextCanonical (execColl f s) := by
  unfold execColl
  dsimp only
  refine h.operate fun _ _ _ _ _ h => ?_
  split
  · exact h.fault
  · refine .ite h.fault (.ite h.fault ?_)
    split
    · exact h.fault
    · exact h.accept.engage

theorem State.Canonical.collEnd {f cols x} : (s.collEnd f cols x).Canonical := by
  unfold State.collEnd
  dsimp only
  refine h.foldl fun _ _ h => h.endArrival fun _ _ _ h => State.Canonical.answer ?_
  split
  · exact h.setViewRow.setFlags
  · exact h

theorem execCollArrival_canonical {core cmd} : NextCanonical (execCollArrival core cmd s) := by
  unfold execCollArrival
  split
  · exact h
  · split
    · refine .ite ?_ (.ite h ?_)
      · split
        · exact h
        · split
          · exact h
          next e1 => exact h.farArrival _ e1
          next e1 => exact (h.farArrival _ e1).collEnd
      · split
        · exact h
        · split
          · exact h.failWith
          next e1 => exact (h.arriveAt _ e1).modCmd
          next e1 => exact (h.arriveAt _ e1).collEnd
    · exact h

theorem State.Canonical.sbarStep {c f} : (s.sbarStep c f).Canonical := .ite h.answer h
theorem State.Canonical.stgStep {c f} : (s.stgStep c f).Canonical := .ite (.ite h h.answer) h.scalarWork

theorem execSplitPhaseComplete_canonical {core cmd} : NextCanonical (execSplitPhaseComplete core cmd s) := by
  unfold execSplitPhaseComplete
  split
  · exact h
  · split
    · exact h.sbarStep
    · exact h.epDropWork
    · exact .ite h.publishTileWork h
    · exact h.fenceStep
    · exact h.fenceStep
    · refine .ite h ?_
      split
      · exact h.scalarWork
      · exact h.stgStep
      · exact h.xlateWork
      · exact h.capcutWork
      · exact .ite h.vaultWork h
      · exact .ite h.vaultWork h
      · exact .ite h.vaultWork h
      · exact .ite h.vaultWork h
      · exact .ite h.vaultWork h
      · exact .ite h.vaultWork h
      · exact .ite h.vaultWork h
      · exact h

/-! ## Launch -/

theorem State.Canonical.qwrite {q off n v} : (s.qwrite q off n v).Canonical := h.ctxPut
theorem State.Canonical.modSlot {stack slot fn} : (s.modSlot stack slot fn).Canonical := h.modStack

theorem State.Canonical.append {q d bs pusher} : (s.append q d bs pusher).1.Canonical := by
  unfold State.append
  dsimp only
  refine State.Canonical.update ?_
  split
  · exact h.ctxPut.modSlot
  · exact h.ctxPut.qwrite

theorem State.Canonical.overflow {q d} : (s.overflow q d).Canonical := by
  unfold State.overflow
  split
  · exact h.modSlot
  · exact h.qwrite

theorem execHostPush_canonical {func queue offset data} : NextCanonical (execHostPush func queue offset data s) := by
  unfold execHostPush
  split
  · exact h
  · exact .ite h (.ite h.overflow (.ite h.overflow.event h.append))

theorem State.Canonical.writeStatus {ctx off v} : (s.writeStatus ctx off v).Canonical :=
  State.Canonical.modMod (.ite (h.withHost (Memory.writeBytes_wf h.host_wf _ _)) h)

theorem State.Canonical.deliver {t src v} : (s.deliver t src v).Canonical := .ite h.writeStatus h.send
theorem State.Canonical.dropTask {id} : (s.dropTask id).Canonical := h.update
theorem State.Canonical.taskFault {t core cls} : (s.taskFault t core cls).Canonical := h.logFault.deliver.dropTask
theorem State.Canonical.addPart {id stack lo hi grain issuer} : (s.addPart id stack lo hi grain issuer).Canonical := h.modStack

theorem State.Canonical.startRange {t lo hi grain issuer} : (s.startRange t lo hi grain issuer).Canonical :=
  .ite h.deliver.dropTask (h.modTask.foldl fun _ _ h => h.addPart)

theorem State.Canonical.startTask {r ctx prio stack issuer} : (s.startTask r ctx prio stack issuer).Canonical := by
  unfold State.startTask
  dsimp only
  split
  · exact h.newId.setTask.startRange
  · exact h.newId.setTask.modStack

theorem execDistributorSelect_canonical {stack} : NextCanonical (execDistributorSelect stack s) := by
  unfold execDistributorSelect
  dsimp only
  split
  · exact h
  · split
    · exact h
    · refine .ite h ?_
      split
      · exact (h.update.modStack.foldl fun _ _ h => .ite h (.ite h.modSlot.soon h.modSlot)).modSlot.startTask
      · exact (h.update.modStack.foldl fun _ _ h => .ite h (.ite h.modSlot.soon h.modSlot)).modSlot.faultLogged

theorem execPriorityAging_canonical {stack slot} : NextCanonical (execPriorityAging stack slot s) := h.modSlot
theorem State.Canonical.push {g f i d ws} : (s.push g f i d ws).Canonical := .ite h.accept h.append.emit

theorem execLaunch_canonical {f} : NextCanonical (execLaunch f s) := by
  unfold execLaunch
  refine h.operate fun _ _ _ _ _ h => ?_
  split
  · exact h.fault
  · split
    · exact h.fault
    · split
      · exact h.fault
      · exact .ite h.fault h.liveInc.push

theorem execQpush_canonical {f} : NextCanonical (execQpush f s) := by
  unfold execQpush
  refine h.operate fun _ _ _ _ _ h => ?_
  split
  · exact h.fault
  · split
    · exact h.fault
    · exact .ite h.fault h.push

theorem execPushPortRelease_canonical {core cmd} : NextCanonical (execPushPortRelease core cmd s) := by
  unfold execPushPortRelease
  dsimp only
  split
  · exact h
  · split
    · exact .ite h h.append.answer
    · exact h

theorem State.Canonical.setShare {stack n x} : (s.setShare stack n x).Canonical := h.modStack

theorem execRange_canonical {f} : NextCanonical (execRange f s) := by
  unfold execRange
  dsimp only
  refine h.operate fun _ _ _ _ _ h => .ite h.fault ?_
  split
  · exact .ite h.modShare.modFrameOf.emit.emit h.emitBoth
  · exact h.emitBoth

theorem execRgive_canonical {f} : NextCanonical (execRgive f s) := by
  unfold execRgive
  dsimp only
  refine h.operate fun _ _ _ _ _ h => ?_
  split
  · refine .ite h.fault (State.Canonical.emit ?_)
    split
    · exact h.modFrameOf.setShare
    · exact h.modFrameOf.modShare
  · exact h.fault

theorem execAskForWork_canonical {core task} : NextCanonical (execAskForWork core task s) := by
  unfold execAskForWork
  dsimp only
  split
  · exact h
  · exact .ite h h.setStack

theorem State.Canonical.serveAsk {stack core task} : ∀ out ∈ s.serveAsk stack core task, State.Canonical out := by
  unfold State.serveAsk
  dsimp only
  split
  · exact canonical_of_mem_some h.setShare.modStack
  · split
    · exact canonical_of_mem_some h.setShare.setShare.modStack
    · exact canonical_of_mem_none

theorem execAskServe_canonical {stack} : NextCanonical (execAskServe stack s) := by
  unfold execAskServe
  split
  next e =>
    obtain ⟨a, -, ha⟩ := List.exists_of_findSome?_eq_some e
    exact h.serveAsk _ ha
  · exact h

theorem execPartReport_canonical {stack task} : NextCanonical (execPartReport stack task s) := by
  unfold execPartReport
  dsimp only
  split
  · exact h
  · exact .ite h h.modStack.modTask

theorem execRangeTaskComplete_canonical {task} : NextCanonical (execRangeTaskComplete task s) := by
  unfold execRangeTaskComplete
  dsimp only
  split
  · exact h
  · split
    · exact h
    · exact .ite h h.setTask

theorem execQprio_canonical {f} : NextCanonical (execQprio f s) := by
  unfold execQprio
  dsimp only
  refine h.operate fun _ _ _ _ _ h => ?_
  split
  · exact h.fault
  · refine .ite h.fault (State.Canonical.emit ?_)
    split
    · exact h.qwrite.modSlot
    · exact h.qwrite

theorem execQinfo_canonical {f} : NextCanonical (execQinfo f s) := by
  unfold execQinfo
  refine h.operate fun _ _ _ _ _ h => ?_
  split
  · exact h.fault
  · exact h.emit

theorem State.Canonical.makeResident {q slot d} : (s.makeResident q slot d).Canonical := h.modStack
theorem State.Canonical.dropResident {q stack slot r} : (s.dropResident q stack slot r).Canonical := h.qwrite.qwrite.qwrite.modStack

theorem execQbindBind_canonical {f} : NextCanonical (execQbindBind f s) := by
  unfold execQbindBind
  dsimp only
  refine h.operate fun _ _ _ _ _ h => .ite h.fault (.ite h.fault (.ite h.fault ?_))
  split
  · exact h.fault
  · exact .ite h.emit (.ite h.emit h.makeResident.emit)

theorem execQbindUnbind_canonical {f} : NextCanonical (execQbindUnbind f s) := by
  unfold execQbindUnbind
  dsimp only
  refine h.operate fun _ _ _ _ _ h => .ite h.fault (.ite h.fault ?_)
  split
  · exact h.emit
  · exact h.dropResident.emit

theorem execCtxinfo_canonical {f} : NextCanonical (execCtxinfo f s) := h.operate fun _ _ _ _ _ h => h.emit

/-! ## Tape -/

theorem State.Canonical.putImage {x off} : (s.putImage x off).Canonical := .ite h h.ctxPut

theorem State.Canonical.streamOut {quad r} : (s.streamOut quad r).Canonical := by
  unfold State.streamOut
  dsimp only
  split
  · exact h
  · split
    · exact h
    · exact h.putImage

theorem State.Canonical.setRecording {quad r} : (s.setRecording quad r).Canonical := h.modEngine

theorem State.Canonical.capture {core g w} : (s.capture core g w).1.Canonical := by
  unfold State.capture
  extract_lets q opc ops named
  split
  · split
    · exact h.endRecording
    · extract_lets patch d n
      split
      · extract_lets e r' s'
        have hs : State.Canonical s' := h.setRecording
        clear_value s'
        split
        · exact hs.endRecording
        · change State.Canonical (s'.streamOut q r')
          exact hs.streamOut
      · exact h.endRecording
  · exact h

theorem State.Canonical.closeRecording {quad r t} : (s.closeRecording quad r t).Canonical := by
  unfold State.closeRecording
  dsimp only
  refine .ite h.endRecording ?_
  split
  · exact h.endRecording
  · exact h.modEngine.modTask.putImage

theorem State.Canonical.guardPlain {x} : (s.guardPlain x).Canonical := h.emit

theorem State.Canonical.takeSnapshot {quad r t g f isEnd rest} : (s.takeSnapshot quad r t g f isEnd rest).Canonical := by
  unfold State.takeSnapshot
  dsimp only
  split
  · exact h.setRecording.endRecording.emit
  · exact .ite h.setRecording.closeRecording.emit (.ite h.setRecording.endRecording.emit h.setRecording.streamOut.emit)

theorem execGuardSnapshot_canonical {quad} : NextCanonical (execGuardSnapshot quad s) := by
  unfold execGuardSnapshot
  split
  · exact h.modEngine.foldl fun _ _ h => h.guardPlain
  · split
    · exact h
    · split
      · exact .ite h.takeSnapshot h
      · exact h

theorem State.Canonical.invalidateOn {quad bad} : (s.invalidateOn quad bad).1.Canonical := by
  unfold State.invalidateOn
  dsimp only
  split
  · exact .ite h.modEngine.endRecording h.modEngine
  · exact h.modEngine

theorem State.Canonical.invalidate {bad} : (s.invalidate bad).1.Canonical := h.foldl_fst fun _ _ h => h.invalidateOn
theorem State.Canonical.modReplay {quad task fn} : (s.modReplay quad task fn).Canonical := h.modEngine
theorem State.Canonical.endReplay {quad r outcome} : (s.endReplay quad r outcome).Canonical := h.modEngine.modTask

theorem State.Canonical.issueEntry {quad r t i} : (s.issueEntry quad r t i).Canonical := by
  unfold State.issueEntry
  dsimp only
  split
  · exact h.modReplay.modCore
  · exact h

theorem State.Canonical.recreate {t frames l fps} : ∀ out ∈ s.recreate t frames l fps, out.1.Canonical := by
  induction l generalizing s fps with
  | nil => exact canonical_of_mem_some h
  | cons x l ih =>
    unfold State.recreate
    dsimp only
    split
    · exact canonical_of_mem_none
    · split
      · exact canonical_of_mem_none
      next e =>
        split
        · exact canonical_of_mem_none
        next e' => exact ih ((h.makeRoom.fst e).allocFrame _ e')

theorem State.Canonical.restoreTok {t kept fps gout x} : (s.restoreTok t kept fps gout x).Canonical := by
  unfold State.restoreTok
  dsimp only
  split
  · exact h
  · split
    · exact h.send
    · exact h.modCore
    · exact h.modCore

theorem State.Canonical.freeProbe {ctx r} : (s.freeProbe ctx r).Canonical := by
  unfold State.freeProbe
  split
  · split
    · exact h.freeOrWait
    · exact h
  · exact h

theorem State.Canonical.handOver {quad r t x gout outcome} : ∀ out ∈ s.handOver quad r t x gout outcome, State.Canonical out := by
  unfold State.handOver
  dsimp only
  split
  · exact canonical_of_mem_none
  next e1 => exact canonical_of_mem_some ((h.recreate _ e1).foldl fun _ _ h => h.restoreTok).freeProbe.endReplay.modTask

theorem execReplayIssue_canonical {quad task} : NextCanonical (execReplayIssue quad task s) := by
  unfold execReplayIssue
  dsimp only
  split
  · refine .ite h ?_
    split
    · exact h.issueEntry
    · split
      · exact .ite (canonical_getD h.handOver h) h
      · exact h
  · exact h

theorem execProbeStart_canonical {quad task} : NextCanonical (execProbeStart quad task s) := by
  unfold execProbeStart
  dsimp only
  split
  · exact h
  · split
    · exact h
    · refine .ite h ?_
      split
      · exact h.modReplay.allocate
      · exact h

theorem execReplayComplete_canonical {quad task} : NextCanonical (execReplayComplete quad task s) := by
  unfold execReplayComplete
  dsimp only
  split
  · exact .ite h h.endReplay.modTask
  · exact h

theorem execReplayFault_canonical {quad task} : NextCanonical (execReplayFault quad task s) := by
  unfold execReplayFault
  dsimp only
  split
  · split
    · exact h
    · exact .ite h h.freeProbe.endReplay.deliver.dropTask
  · exact h

theorem execReplayCursorGrant_canonical {quad} : NextCanonical (execReplayCursorGrant quad s) := h.modEngine

theorem execTapeend_canonical {f} : NextCanonical (execTapeend f s) := by
  unfold execTapeend
  refine h.operate fun _ _ _ _ _ h => ?_
  split
  · exact h.setRecording
  · exact h.emit

theorem State.Canonical.probeGuard {g quad r t n x} : (s.probeGuard g quad r t n x).Canonical := by
  unfold State.probeGuard
  refine .ite h.freeProbe.modReplay ?_
  split
  · exact h.modCore
  next e1 => exact (h.handOver _ e1).event

theorem execTapegrd_canonical {f} : NextCanonical (execTapegrd f s) := by
  unfold execTapegrd
  dsimp only
  refine h.operate fun _ _ _ _ _ h => ?_
  split
  · exact h.probeGuard
  · split
    · exact .ite h.endRecording.guardPlain h.setRecording
    · exact h.guardPlain

theorem execTapepatArg_canonical {f} : NextCanonical (execTapepatArg f s) := h.operate fun _ _ _ _ _ h => h.emit
theorem execTapepatConst_canonical {f} : NextCanonical (execTapepatConst f s) := h.operate fun _ _ _ _ _ h => h.emit
theorem execTapedropQuad_canonical {f} : NextCanonical (execTapedropQuad f s) := h.operate fun _ _ _ _ _ h => h.invalidateOn.emit
theorem execTapedropAll_canonical {f} : NextCanonical (execTapedropAll f s) := h.operate fun _ _ _ _ _ h => h.invalidate.emit
theorem execTapeinfo_canonical {f} : NextCanonical (execTapeinfo f s) := h.operate fun _ _ _ _ _ h => h.spend.emit

theorem State.Canonical.tapeStart {t quad} : (s.tapeStart t quad).state.Canonical := by
  unfold State.tapeStart
  extract_lets e tape ofKey out busy stale r s' record room replay usable
  have hout (n) : (out s n).Canonical := h.modEngine
  have hbusy : busy.state.Canonical := (hout 10).modTask
  have hstale : stale.state.Canonical := hout 6
  have hs : State.Canonical s' := h.modEngine
  have hrecord : record.state.Canonical := by
    unfold record
    split
    · exact hbusy
    · exact hs.modTask
  have hreplay (x) : (replay x).state.Canonical := by
    unfold replay
    split
    · exact hstale
    · split
      · exact hout 4
      · exact h.modEngine.modTask
  clear_value busy stale record replay usable
  split
  · split
    · exact hbusy
    · exact hrecord
  · split
    · split
      · exact hstale
      · exact hreplay _
    · exact hstale
  · split
    · exact hbusy
    · split
      · exact hreplay _
      · exact hrecord
  · exact h

/-! ## Bind -/

theorem State.Canonical.bindOn {t p core anchor} : (s.bindOn t p core anchor).Canonical := by
  unfold State.bindOn
  dsimp only
  split
  · exact h.hold
  · exact h.taskFault
  · exact h.taskFault
  · split
    · refine .ite h.taskFault (.ite h.allocate ?_)
      split
      next e1 => exact (h.tapeStart.start e1).allocate
      next e1 => exact h.tapeStart.start e1
      next e1 => exact (h.tapeStart.start e1).taskFault
    · exact h.taskFault

theorem State.Canonical.forwardBind {stack p} : (s.forwardBind stack p).Canonical := h.modStack

theorem State.Canonical.bindPacket {stack p} : (s.bindPacket stack p).Canonical := by
  unfold State.bindPacket
  dsimp only
  split
  · exact h
  · split
    · exact .ite h h.forwardBind
    · split
      · refine .ite ?_ h.bindOn
        split
        · exact h.taskFault
        · exact .ite h.forwardBind (.ite h.modStack.bindOn h.bindOn)
      · split
        · exact h.taskFault
        · exact .ite h.forwardBind (.ite h.modStack.bindOn h.bindOn)

theorem execBind_canonical {stack} : NextCanonical (execBind stack s) := by
  unfold execBind
  split
  · exact h
  · exact h.modStack.bindPacket

theorem State.Canonical.tapeLaunch {g f mode} : (s.tapeLaunch g f mode).Canonical := by
  unfold State.tapeLaunch
  dsimp only
  split
  · exact h.fault
  · split
    · exact h.fault
    · exact .ite h.fault (.ite h.fault h.liveInc.newId.setTask.forwardBind.emit)

theorem execTaperec_canonical {f} : NextCanonical (execTaperec f s) := h.operate fun _ _ _ _ _ h => h.tapeLaunch
theorem execTapeplay_canonical {f} : NextCanonical (execTapeplay f s) := h.operate fun _ _ _ _ _ h => h.tapeLaunch

theorem execTaskCompletion_canonical {task} : NextCanonical (execTaskCompletion task s) := by
  unfold execTaskCompletion
  dsimp only
  split
  · exact h
  · split
    · exact h
    · refine .ite h (State.Canonical.dropTask (State.Canonical.deliver ?_))
      split
      · split
        · exact h.closeRecording
        · exact h
      · exact h

/-! ## Matrix -/

theorem State.Canonical.modAcc {core a fn} : (s.modAcc core a fn).Canonical := h.modCore
theorem State.Canonical.itemGone {core a id} : (s.itemGone core a id).Canonical := h.modAcc
theorem State.Canonical.modItem {core a id fn} : (s.modItem core a id fn).Canonical := h.modAcc
theorem State.Canonical.matEmit {g f v} : (s.matEmit g f v).Canonical := .ite h h.emitBoth

theorem State.Canonical.matSettle {core} : (s.matSettle core).Canonical := by
  unfold State.matSettle
  refine h.foldl fun _ _ h => ?_
  split
  · exact .ite h.answer h
  · exact .ite h.answer h
  · exact h

theorem State.Canonical.itemEnd {core a it f fl v} : (s.itemEnd core a it f fl v).Canonical :=
  h.itemGone.tilesDrop.setFlags.matEmit.matSettle

theorem State.Canonical.itemFail {core a it f e d} : (s.itemFail core a it f e d).Canonical :=
  h.itemGone.tilesDrop.setFlags.raise.matSettle

theorem State.Canonical.enqueue {core it} : (s.enqueue core it).Canonical := h.modAcc

theorem State.Canonical.matItem {opc f g i v} : (s.matItem opc f g i v).Canonical := by
  unfold State.matItem
  dsimp only
  refine State.Canonical.enqueue ?_
  split
  · exact h.newId.draws.tilesUse.modTile
  · exact h.newId.draws.tilesUse

theorem State.Canonical.gangCmd {g i v} : (s.gangCmd g i v).Canonical := h.newId.tilesUse.update
theorem State.Canonical.drainCmd {g i all} : (s.drainCmd g i all).Canonical := h.newId.modCore.matSettle

theorem matOperator_canonical {f i} : (matOperator f i s).Canonical := by
  unfold matOperator
  dsimp only
  refine h.execute fun _ _ h => .ite h.newId.enqueue (h.checked fun _ _ _ _ h => ?_)
  split
  · exact h.fault
  · refine .ite h.gangCmd (.ite h.matItem (.ite h.drainCmd (.ite h.modCore.emitBoth (.ite h.modCore ?_))))
    split
    · exact h
    · exact h.tilesUse.modCore.emitBoth

theorem execMbind_canonical {f} : NextCanonical (execMbind f s) := matOperator_canonical h
theorem execMunbind_canonical {f} : NextCanonical (execMunbind f s) := matOperator_canonical h
theorem execMacc_canonical {f} : NextCanonical (execMacc f s) := matOperator_canonical h
theorem execMrowAcc_canonical {f} : NextCanonical (execMrowAcc f s) := matOperator_canonical h
theorem execMrowOut_canonical {f} : NextCanonical (execMrowOut f s) := matOperator_canonical h
theorem execMma_canonical {f} : NextCanonical (execMma f s) := matOperator_canonical h
theorem execMmag_canonical {f} : NextCanonical (execMmag f s) := matOperator_canonical h
theorem execMsclSet_canonical {f} : NextCanonical (execMsclSet f s) := matOperator_canonical h
theorem execMsclClr_canonical {f} : NextCanonical (execMsclClr f s) := matOperator_canonical h
theorem execMrd_canonical {f} : NextCanonical (execMrd f s) := matOperator_canonical h
theorem execMoutKeep_canonical {f} : NextCanonical (execMoutKeep f s) := matOperator_canonical h
theorem execMoutClr_canonical {f} : NextCanonical (execMoutClr f s) := matOperator_canonical h
theorem execMclr_canonical {f} : NextCanonical (execMclr f s) := matOperator_canonical h
theorem execMresc_canonical {f} : NextCanonical (execMresc f s) := matOperator_canonical h
theorem execMdrainCur_canonical {f} : NextCanonical (execMdrainCur f s) := matOperator_canonical h
theorem execMdrainAll_canonical {f} : NextCanonical (execMdrainAll f s) := matOperator_canonical h
theorem State.Canonical.gangGone {hs it} : (s.gangGone hs it).Canonical := h.foldl fun _ _ h => h.itemGone.matSettle

theorem State.Canonical.itemStart {core a it opc f} : (s.itemStart core a it opc f).Canonical := by
  unfold State.itemStart
  dsimp only
  refine .ite ?_ (.ite h.itemFail (.ite h.draws.modItem h.modItem))
  split
  · exact h
  · exact .ite (h.foldl fun _ _ h => h.modItem) h.gangGone.tilesDrop.raise

theorem State.Canonical.macRow {core a id f b w row x} : (s.macRow core a id f b w row x).Canonical := h.modAcc.modItem.modCore

theorem State.Canonical.mmaRow {core a it f x} : (s.mmaRow core a it f x).Canonical := by
  unfold State.mmaRow
  dsimp only
  split
  · split
    · exact h.macRow.modItem
    · exact h
  · exact h

theorem State.Canonical.mrowFire {core a it f out data} : (s.mrowFire core a it f out data).Canonical := by
  unfold State.mrowFire
  dsimp only
  split
  · exact h
  · exact .ite h.modItem.macRow (h.modItem.draws.modItem.modCore.foldl fun _ _ h => h.portPush)

theorem State.Canonical.mrowStep {core a it f out} : (s.mrowStep core a it f out).Canonical := by
  unfold State.mrowStep
  dsimp only
  split
  · exact h
  · refine .ite h ?_
    split
    · exact h
    · refine .ite h.itemFail (.ite h.itemFail (.ite h ?_))
      split
      · exact h
      next e1 =>
        have hs1 := h.portPop _ e1
        exact .ite (.ite (State.Canonical.itemEnd (.ite hs1.portPush hs1)).settle (State.Canonical.itemEnd (.ite hs1.portPush hs1)))
          (.ite hs1.modItem (.ite hs1.itemFail hs1.mrowFire))

theorem State.Canonical.moutStep {core a it f clr} : (s.moutStep core a it f clr).Canonical := by
  unfold State.moutStep
  dsimp only
  split
  · exact h
  · exact .ite h.itemEnd.settle (.ite h (.ite (State.Canonical.portPush (.ite h.modAcc h)).itemEnd.settle (State.Canonical.portPush
      (.ite h.modAcc h)).modItem))

theorem State.Canonical.mrdWork {core a it f} : (s.mrdWork core a it f).Canonical := by
  unfold State.mrdWork
  dsimp only
  split
  · exact h
  · exact h.setViewRows.itemGone.setFlags.modAcc.matSettle

theorem State.Canonical.mrescWork {core a it f} : (s.mrescWork core a it f).Canonical := by
  unfold State.mrescWork
  dsimp only
  split
  · exact h
  · exact h.modAcc.itemEnd

theorem State.Canonical.msclWork {core a it f set} : (s.msclWork core a it f set).Canonical := h.modAcc.itemEnd
theorem State.Canonical.mclrWork {core a it f} : (s.mclrWork core a it f).Canonical := h.modAcc.itemEnd

theorem State.Canonical.mmaEnd {core a it f gang} : (s.mmaEnd core a it f gang).Canonical :=
  State.Canonical.itemEnd (.ite (State.Canonical.gangGone (.ite h (h.foldl fun _ _ h => h.modAcc)))
    (.ite h (h.foldl fun _ _ h => h.modAcc)))

theorem execMatrixItemStart_canonical {core acc} : NextCanonical (execMatrixItemStart core acc s) := by
  unfold execMatrixItemStart
  dsimp only
  split
  · exact h
  · split
    · exact h
    · exact .ite h h.itemStart

theorem State.Canonical.rowDone {r : State} {core a} : (r.rowDone s core a).Canonical := .ite h.modCore h

theorem execRowFiring_canonical {core acc} : NextCanonical (execRowFiring core acc s) := by
  unfold execRowFiring
  dsimp only
  split
  · exact h
  · split
    · exact h
    · exact .ite h (State.Canonical.rowDone (.ite h.mrowStep (.ite (.ite h.mmaRow h) (.ite (.ite (h.foldl fun _ _ h => h.mmaRow) h) h))))

theorem execMatrixItemFinish_canonical {core acc} : NextCanonical (execMatrixItemFinish core acc s) := by
  unfold execMatrixItemFinish
  dsimp only
  split
  · exact h
  · split
    · exact h
    · refine .ite h ?_
      split
      · exact .ite h h.mmaEnd
      · exact .ite h h.mmaEnd
      · exact h.msclWork
      · exact h.mrdWork
      · exact h.moutStep
      · exact h.mclrWork
      · exact h.mrescWork
      · exact h

theorem State.Canonical.mrdRelease {core it} : (s.mrdRelease core it).Canonical := by
  unfold State.mrdRelease
  dsimp only
  split
  · exact h
  · exact (State.Canonical.tilesDrop (.ite h (h.foldl fun _ _ h => h.modTile))).matEmit

theorem execMarkerItem_canonical {core acc} : NextCanonical (execMarkerItem core acc s) := by
  unfold execMarkerItem
  dsimp only
  split
  · exact h
  · split
    · exact h
    · exact .ite h (h.itemGone.modAcc.foldl fun _ _ h => h.mrdRelease).matEmit.matSettle

theorem execBindingRelease_canonical {core} : NextCanonical (execBindingRelease core s) := by
  unfold execBindingRelease
  dsimp only
  split
  · exact h
  · split
    · exact h
    · refine .ite h (State.Canonical.matSettle ?_)
      split
      · exact h.modCore.tilesDrop.matEmit
      · exact h.modCore.tilesDrop

theorem execGangGrant_canonical {stack row} : NextCanonical (execGangGrant stack row s) := by
  unfold execGangGrant
  dsimp only
  split
  · exact h
  · exact .ite h (h.update.foldl fun _ _ h => h.modAcc)

/-! ## Switch -/

theorem State.Canonical.orphan {core fp fr cls} : (s.orphan core fp fr cls).Canonical := by
  unfold State.orphan
  dsimp only
  refine .ite h (.ite ?_ h.logFault.send)
  split
  · exact h.logFault.modTask.disown
  · exact h.logFault.modTask

theorem State.Canonical.freeNow {core fp} : (s.freeNow core fp).Canonical := by
  unfold State.freeNow
  split
  · exact h.freeSpilled
  · exact h.freeFrame

theorem State.Canonical.switchDone {g x} : (s.switchDone g x).Canonical := by
  unfold State.switchDone
  split
  · exact h.emit
  · exact h

theorem execSwitchAccept_canonical {stack ctx} : NextCanonical (execSwitchAccept stack ctx s) := by
  unfold execSwitchAccept
  extract_lets p
  split
  · exact h
  · extract_lets p' s' fails
    have hs : State.Canonical s' := h.setPart
    clear_value s'
    have hf (c) : State.Canonical (fails c) := by
      unfold fails
      split
      · exact hs.fault
      · exact hs
    clear_value fails
    split
    exact State.Canonical.ite hs.switchDone (.ite (hf _) (.ite (hf _) (.ite hs.setPart.switchDone hs.setPart)))

theorem State.Canonical.unhold {stack x} : (s.unhold stack x).Canonical := by
  unfold State.unhold
  split
  · exact h.bindPacket
  · exact h.allocate

theorem execSwitchDrain_canonical {stack ctx} : NextCanonical (execSwitchDrain stack ctx s) := by
  unfold execSwitchDrain
  dsimp only
  split
  · exact h
  · exact .ite h ((((h.foldl fun _ _ h => h.foldl fun _ _ h => h.orphan.freeNow).foldl fun _ _ h => h.foldl fun _ _ h =>
      h.unbindPort).foldl fun _ _ h => h.modCore).setPart.foldl fun _ _ h => h.unhold).switchDone

/-! ## Objects -/

theorem State.Canonical.measure {type digest} : (s.measure type digest).Canonical := h.modMod
theorem State.Canonical.objEnd {ctx n} : (s.objEnd ctx n).Canonical := h.modCtx

theorem execObjLoad_canonical {ctx} : NextCanonical (execObjLoad ctx s) := by
  unfold execObjLoad
  dsimp only
  refine .ite h (.ite h.objEnd ?_)
  split
  · exact h.measure.invalidate.modCtx.update.ctxPut.objEnd
  · exact h.ctxPut.faultLogged.objEnd

theorem execObjUnload_canonical {ctx} : NextCanonical (execObjUnload ctx s) :=
  .ite h (.ite h.objEnd (h.foldl fun _ _ h => h.modCore).invalidate.modCtx.ctxPut.objEnd)

theorem State.Canonical.quarantine {ctx obj page reason} : (s.quarantine ctx obj page reason).Canonical := by
  unfold State.quarantine
  dsimp only
  split
  · exact h
  · exact .ite h h.modCtx.ctxPut.ctxPut

theorem State.Canonical.dropAlloc {core a} : (s.dropAlloc core a).Canonical := by
  unfold State.dropAlloc
  split
  · split
    · exact h.taskFault
    · exact h
  · split
    · exact h.liveDec.fault
    · exact h
  · exact h

theorem State.Canonical.notice {core obj} : (s.notice core obj).Canonical :=
  .ite h (h.setCore.foldl fun _ _ h => h.dropAlloc).invalidateOn

theorem execQuarantineNotice_canonical {core} : NextCanonical (execQuarantineNotice core s) := by
  unfold execQuarantineNotice
  dsimp only
  split
  · exact h
  · split
    · exact h.notice
    · exact h

theorem execAbortFree_canonical {core fp} : NextCanonical (execAbortFree core fp s) := by
  unfold execAbortFree
  dsimp only
  split
  · exact h
  · exact .ite h (.ite h.freeFrame (.ite h (.ite h.orphan.freeOrWait h.orphan.freeNow)))

theorem execInstallStart_canonical {core obj page} : NextCanonical (execInstallStart core obj page s) := by
  unfold execInstallStart
  dsimp only
  refine .ite h (.ite h.setCore ?_)
  split
  · exact h
  · exact h.setCore

theorem State.Canonical.installFails {core ctx obj page cls ip reason qreason} :
    (s.installFails core ctx obj page cls ip reason qreason).Canonical := h.faultLogged.quarantine.notice

theorem execInstallComplete_canonical {core obj page} : NextCanonical (execInstallComplete core obj page s) := by
  unfold execInstallComplete
  dsimp only
  split
  · refine .ite h ?_
    split
    · exact h.faultSupervisor.modCore
    · refine .ite h.installFails ?_
      split
      · exact h.installFails
      · exact h.setCore
  · exact h

/-! ## Issue -/

theorem execTokenServe_canonical {core src} : NextCanonical (execTokenServe core src s) := .ite h h.takeMail
theorem execReleaseMessage_canonical {core src} : NextCanonical (execReleaseMessage core src s) := .ite h h.takeMail
theorem execFrameSpill_canonical {core} : NextCanonical (execFrameSpill core s) := h.serveAlloc
theorem execFrameFill_canonical {core fp} : NextCanonical (execFrameFill core fp s) := h.fill

theorem execDeferredFree_canonical {core fp} : NextCanonical (execDeferredFree core fp s) := by
  unfold execDeferredFree
  split
  · exact h
  · exact .ite h.freeFrame h

theorem execLightDispatch_canonical {core} : NextCanonical (execLightDispatch core s) := by
  unfold execLightDispatch
  dsimp only
  refine .ite h ?_
  split
  · exact h
  · exact h.setCore.update

theorem State.Canonical.probeFault {g quad task} : (s.probeFault g quad task).Canonical := h.logFault.modReplay

theorem execEngineDispatch_canonical {core} : NextCanonical (execEngineDispatch core s) := by
  unfold execEngineDispatch
  dsimp only
  refine .ite h ?_
  split
  · exact h
  · split
    · split
      · exact h.setCore.probeFault
      · exact h.setCore.capture.update
    · exact h.setCore.update

theorem execDispatchTurn_canonical {core engine} : NextCanonical (execDispatchTurn core engine s) := h.modCore

theorem execDividerEmit_canonical {core} : NextCanonical (execDividerEmit core s) := by
  unfold execDividerEmit
  split
  · exact h
  · exact h.modCore.setFlags.emitBoth

theorem execQuiesced_canonical {ctx} : NextCanonical (execQuiesced ctx s) :=
  .ite h (State.Canonical.event (.ite h.modCtx h.modCtx.ctxPut))

/-! ## Time -/

theorem State.Canonical.limitCheck {stack} : (s.limitCheck stack).Canonical := .ite (.ite h h.modStack.event) h.modStack
theorem State.Canonical.pass {amount} : (s.pass amount).Canonical := (h.modMod.foldl fun _ _ h => h.modStack).modMod.modMod.update
theorem State.Canonical.spread {c} : (s.spread c).Canonical := h.modMod.foldl fun _ _ h => h.modStack.limitCheck
theorem execSlewComplete_canonical {stack} : NextCanonical (execSlewComplete stack s) := .ite h.modStack.limitCheck h
theorem execHoldoverEnter_canonical {stack} : NextCanonical (execHoldoverEnter stack s) := .ite h h.modStack
theorem execHoldoverTick_canonical {stack} : NextCanonical (execHoldoverTick stack s) := .ite h h.modStack.limitCheck
theorem State.Canonical.discipline {dom off err} : (s.discipline dom off err).Canonical := .ite h.modMod.spread h.modMod
theorem execPodSyncExchange_canonical {off err tiers} : NextCanonical (execPodSyncExchange off err tiers s) := .ite h h.discipline
theorem execPtpMessage_canonical {off err} : NextCanonical (execPtpMessage off err s) := .ite h h.discipline

theorem State.Canonical.timeadj {f k} (hk : ∀ (t : State) b c, t.Canonical → (k t b c).Canonical) : NextCanonical (s.timeadj f k) :=
  h.operate fun _ _ _ _ _ h => .ite h.fault (.ite h.fault (hk _ _ _ h))

theorem execTimeadjSlew_canonical {f} : NextCanonical (execTimeadjSlew f s) := h.timeadj fun _ _ _ h => .ite h.fault h.modMod.emit
theorem execTimeadjStep_canonical {f} : NextCanonical (execTimeadjStep f s) := h.timeadj fun _ _ _ h => .ite h.fault h.modMod.spread.emit
theorem execTimerdNow_canonical {f} : NextCanonical (execTimerdNow f s) := h.operate fun _ _ _ _ _ h => h.emit.emit
theorem execTimerdStat_canonical {f} : NextCanonical (execTimerdStat f s) := h.operate fun _ _ _ _ _ h => h.emitBoth
theorem execTimecmp_canonical {f} : NextCanonical (execTimecmp f s) := h.operate fun _ _ _ _ _ h => h.emitBoth
theorem State.Canonical.timewait {g f l deadline} : (s.timewait g f l deadline).Canonical := h.modCore
theorem execTimewaitAbs_canonical {f} : NextCanonical (execTimewaitAbs f s) := h.operate fun _ _ _ _ _ h => h.timewait
theorem execTimewaitRel_canonical {f} : NextCanonical (execTimewaitRel f s) := h.operate fun _ _ _ _ _ h => h.timewait

theorem execTimewaitRelease_canonical {core} : NextCanonical (execTimewaitRelease core s) := by
  unfold execTimewaitRelease
  dsimp only
  split
  · exact .ite h h.setCore.emitBoth
  · exact h

theorem execTimewaitRetry_canonical {core} : NextCanonical (execTimewaitRetry core s) := h.modCore

theorem State.Canonical.clockRelease {stack} : (s.clockRelease stack).Canonical := by
  unfold State.clockRelease
  dsimp only
  split
  · exact h
  · exact .ite h h.modStack

theorem execClockChangeRequest_canonical {stack mhz} : NextCanonical (execClockChangeRequest stack mhz s) :=
  .ite h.modMod h.modStack.clockRelease

theorem execClockSettled_canonical {stack} : NextCanonical (execClockSettled stack s) := h.modStack
theorem execClampAct_canonical {stack mhz idle} : NextCanonical (execClampAct stack mhz idle s) := h.modStack
theorem execClampRelease_canonical {stack} : NextCanonical (execClampRelease stack s) := .ite h h.modStack.clockRelease

/-! ## Links -/

theorem State.Canonical.toSend {l side tag b} : (s.toSend l side tag b).Canonical := h.modLink
theorem State.Canonical.sendFirst {l side b} : (s.sendFirst l side b).Canonical := h.modLink
theorem State.Canonical.onWire {l side x} : (s.onWire l side x).Canonical := h.modLink

theorem State.Canonical.stampFlit {l side x} : (s.stampFlit l side x).1.Canonical := by
  unfold State.stampFlit
  dsimp only
  split
  · exact h
  · exact h.modLink
  · exact h

theorem execFlitSend_canonical {link side} : NextCanonical (execFlitSend link side s) := by
  unfold execFlitSend
  dsimp only
  refine .ite h ?_
  split
  · exact h.setLink.onWire
  · split
    · exact .ite h.onWire h
    · exact .ite h.setLink.onWire h.setLink.stampFlit.onWire

theorem State.Canonical.receive {l side fn} (hfn : ∀ a, ∀ k ∈ fn a, ∀ t : State, t.Canonical → (k t).Canonical) :
    (s.receive l side fn).Canonical := by
  unfold State.receive
  dsimp only
  split
  · exact h
  · split
    · exact h
    next e1 =>
      have hs1 := hfn _ _ e1
      exact .ite (hs1 _ h.modLink) (.ite h (hs1 _ h.modLink))

theorem State.Canonical.acknowledge {l side nak} : (s.acknowledge l side nak).Canonical := h.sendFirst.modLink
theorem execAckDue_canonical {link side} : NextCanonical (execAckDue link side s) := .ite h h.acknowledge

theorem execFlitDiscard_canonical {link side badCrc} : NextCanonical (execFlitDiscard link side badCrc s) := by
  unfold execFlitDiscard
  dsimp only
  split
  · exact h
  · exact .ite h (.ite h.setLink h.setLink.acknowledge)

theorem execFlitAck_canonical {link side} : NextCanonical (execFlitAck link side s) := by
  unfold execFlitAck
  dsimp only
  refine h.receive fun _ => ?_
  split
  · exact keeps_of_mem_some (fun _ h => h.modLink)
  · exact keeps_of_mem_none

theorem execFlitIdle_canonical {link side} : NextCanonical (execFlitIdle link side s) := by
  unfold execFlitIdle
  refine h.receive fun _ => ?_
  split
  · exact keeps_of_mem_some (fun _ h => h)
  · exact keeps_of_mem_none

theorem execRetryWindow_canonical {link side} : NextCanonical (execRetryWindow link side s) :=
  .ite h (.ite (.ite h.modLink.event h.modLink) (.ite h.modLink h))

theorem State.Canonical.landEntry {c own n x} : (s.landEntry c own n x).Canonical := .ite h.portPush (.ite h.setVaultBytes h.hbmWrite)

theorem State.Canonical.landEntries {c own n l} : (s.landEntries c own n l).Canonical := by
  induction l generalizing s n with
  | nil => exact h
  | cons x l ih => exact ih h.landEntry

theorem State.Canonical.landed {id} : (s.landed id).Canonical := by
  unfold State.landed
  dsimp only
  split
  · exact .ite h.update h.update.update
  · exact h.update

theorem State.Canonical.onward {node goal tag b there} (hthere : ∀ (t : State), t.Canonical → (there t).Canonical) :
    (s.onward node goal tag b there).Canonical := by
  unfold State.onward
  split
  · exact h.toSend
  · exact hthere _ h

theorem State.Canonical.storeAt {node id} : (s.storeAt node id).Canonical := by
  unfold State.storeAt
  split
  · exact h.onward fun _ h => h.hbmWrite.landed
  · exact h

theorem execFlitOpen_canonical {link side} : NextCanonical (execFlitOpen link side s) := by
  unfold execFlitOpen
  refine h.receive fun _ => ?_
  split
  · exact keeps_of_mem_some (fun _ h => h.modLink.onward fun _ h => h)
  · exact keeps_of_mem_none

theorem execFlitClose_canonical {link side} : NextCanonical (execFlitClose link side s) := by
  unfold execFlitClose
  dsimp only
  refine h.receive fun _ => ?_
  split
  · refine keeps_of_mem_some (fun _ h => ?_)
    split
    · exact h.modLink.onward fun _ h => h.landed
    · exact h.modLink
  · exact keeps_of_mem_none

theorem State.Canonical.linkAnswer {r v} : (s.linkAnswer r v).Canonical := by
  unfold State.linkAnswer
  dsimp only
  refine .ite h.update ?_
  split
  · exact h.update.emitBoth
  · exact h.update.emit

theorem State.Canonical.linkReply {node r v} : (s.linkReply node r v).Canonical := by
  unfold State.linkReply
  split
  · exact h.linkAnswer
  · exact h.toSend

theorem State.Canonical.linkClocks {l} : (s.linkClocks l).Canonical := h.foldl fun _ _ h => .ite h.clockRelease h

theorem State.Canonical.linkCancel {l} : (s.linkCancel l).1.Canonical := by
  unfold State.linkCancel
  dsimp only
  split
  · exact (h.foldl fun _ _ h => h.modLink).linkClocks
  · exact h

theorem State.Canonical.linkAct {q} : (s.linkAct q).1.Canonical := by
  unfold State.linkAct
  dsimp only
  split
  · split <;> exact h.setLink
  · split <;> exact h.setLink
  · split
    · exact h
    · exact h.setLink
  · split
    · exact h
    · exact h.setLink.toSend
  · exact h.linkCancel
  · exact h.setLink
  · exact h.setLink
  · exact h
  · exact h

theorem State.Canonical.requestAt {node id result} : (s.requestAt node id result).Canonical := by
  unfold State.requestAt
  split
  · exact h
  · split
    · exact h.linkReply
    · split
      · exact h.toSend
      · split
        next e1 => exact (h.linkAct.fst e1).linkReply
        next e1 => exact h.linkAct.fst e1

theorem execFlitData_canonical {link side} : NextCanonical (execFlitData link side s) := by
  unfold execFlitData
  dsimp only
  refine h.receive fun _ => ?_
  split
  · exact keeps_of_mem_some (fun _ h => h.foldl fun _ _ h => h.route)
  · exact keeps_of_mem_some (fun _ h => h.requestAt)
  · exact keeps_of_mem_some (fun _ h => h.storeAt)
  · split
    · exact keeps_of_mem_some (fun _ h => h.onward fun _ h => h.landEntries)
    · exact keeps_of_mem_some (fun _ h => h)
  · exact keeps_of_mem_none

theorem linkRequest_canonical {f i} : NextCanonical (linkRequest f i s) :=
  h.operate fun _ _ _ _ _ h => .ite h.fault (.ite h.fault h.newId.update.requestAt)

theorem execLinkctlPause_canonical {f} : NextCanonical (execLinkctlPause f s) := linkRequest_canonical h
theorem execLinkctlResume_canonical {f} : NextCanonical (execLinkctlResume f s) := linkRequest_canonical h
theorem execLinkctlMap_canonical {f} : NextCanonical (execLinkctlMap f s) := linkRequest_canonical h
theorem execLinkctlSched_canonical {f} : NextCanonical (execLinkctlSched f s) := linkRequest_canonical h
theorem execLinkctlCancel_canonical {f} : NextCanonical (execLinkctlCancel f s) := linkRequest_canonical h
theorem execLinkctlClrcnt_canonical {f} : NextCanonical (execLinkctlClrcnt f s) := linkRequest_canonical h
theorem execLinkctlCfg_canonical {f} : NextCanonical (execLinkctlCfg f s) := linkRequest_canonical h
theorem execLinkst_canonical {f} : NextCanonical (execLinkst f s) := linkRequest_canonical h

theorem execChangeProposal_canonical {link side} : NextCanonical (execChangeProposal link side s) := by
  unfold execChangeProposal
  dsimp only
  refine h.receive fun _ => ?_
  split
  · exact keeps_of_mem_some (fun _ h => .ite h.toSend (.ite h.toSend (.ite h.toSend h.setLink.toSend)))
  · exact keeps_of_mem_none

theorem execChangeReply_canonical {link side} : NextCanonical (execChangeReply link side s) := by
  unfold execChangeReply
  dsimp only
  refine h.receive fun _ => ?_
  split
  · refine keeps_of_mem_some (fun _ h => ?_)
    split
    · exact h.modLink.setLink.linkReply
    · exact h.modLink.setLink
  · refine keeps_of_mem_some (fun _ h => ?_)
    split
    · exact h.setLink.linkReply
    · exact h.setLink
  · exact keeps_of_mem_none

theorem execChangeQuiesce_canonical {link side} : NextCanonical (execChangeQuiesce link side s) := .ite h h.setLink.toSend

theorem execChangeQuiet_canonical {link side} : NextCanonical (execChangeQuiet link side s) := by
  unfold execChangeQuiet
  refine h.receive fun _ => ?_
  split
  · exact keeps_of_mem_some (fun _ h => h.modLink)
  · exact keeps_of_mem_none

theorem execRetrainStart_canonical {link side} : NextCanonical (execRetrainStart link side s) := .ite h h.setLink
theorem execLinkLoss_canonical {link side} : NextCanonical (execLinkLoss link side s) := .ite h h.setLink

theorem execTrainingComplete_canonical {link ok} : NextCanonical (execTrainingComplete link ok s) :=
  .ite h (.ite (h.spend.foldl fun _ _ h => .ite h.setLink.event h.setLink).linkClocks
    (.ite (h.foldl fun _ _ h => h.modLink.event).linkClocks (h.foldl fun _ _ h => h.modLink)))

theorem execSyncExchange_canonical {link} : NextCanonical (execSyncExchange link s) := by
  unfold execSyncExchange
  dsimp only
  split
  · exact h
  · exact State.Canonical.toSend (.ite h.modMod h)

theorem execTimeMessage_canonical {link side} : NextCanonical (execTimeMessage link side s) := by
  unfold execTimeMessage
  dsimp only
  refine h.receive fun _ => ?_
  split
  · exact keeps_of_mem_some (fun _ h => h.modLink.toSend)
  · exact keeps_of_mem_some (fun _ h => h.toSend)
  · exact keeps_of_mem_some (fun _ h => .ite h.modStack.limitCheck h.modMod)
  · exact keeps_of_mem_none

/-! ## Vector -/

theorem State.Canonical.redJoin {g d} : (s.redJoin g d).Canonical := by
  unfold State.redJoin
  dsimp only
  split
  · exact h.modCore
  · exact h.modCore.tilesUse.modTile

theorem State.Canonical.vecAccept {opc f i g xs} : (s.vecAccept opc f i g xs).Canonical := by
  unfold State.vecAccept
  dsimp only
  refine State.Canonical.modCore ?_
  split
  · exact h.draws.newId.tilesUse
  · exact .ite h.draws.newId.tilesUse.redJoin h.draws.newId.tilesUse.modTile

theorem State.Canonical.redMarker {g} : (s.redMarker g).Canonical := h.modCore

theorem vecOperator_canonical {f i} : (vecOperator f i s).Canonical := by
  unfold vecOperator
  dsimp only
  refine h.operate fun _ _ _ _ _ h => ?_
  split
  · exact h.fault
  · refine .ite h.redMarker ?_
    split
    · exact h.fault
    · exact h.vecAccept

theorem State.Canonical.quantise {f src dst rnds} : (s.quantise f src dst rnds).1.Canonical :=
  h.foldl_fst fun _ _ h => h.setElem.setVaultByte

theorem State.Canonical.dequantise {f src dst rnds} : (s.dequantise f src dst rnds).1.Canonical := h.setViewRows
theorem State.Canonical.modRun {core fn} : (s.modRun core fn).Canonical := h.modCore
theorem State.Canonical.redStep {c} : (s.redStep c).Canonical := h.modCore
theorem State.Canonical.vecLeave {opc c} : (s.vecLeave opc c).Canonical := .ite h.modCore.redStep h.modCore

theorem State.Canonical.vecDone {opc f c fl count} : (s.vecDone opc f c fl count).Canonical :=
  .ite h.vecLeave.setFlags.finish (.ite h.vecLeave.setFlags.answer h.vecLeave.setFlags.answer)

theorem State.Canonical.vecFail {opc f c e} : (s.vecFail opc f c e).Canonical := h.vecLeave.failWith

theorem State.Canonical.vecRowWork {opc f c xs rs ts seed i a} : (s.vecRowWork opc f c xs rs ts seed i a).s.Canonical := by
  unfold State.vecRowWork
  dsimp only
  split
  · split
    · exact h
    · exact h.setElem
  · split
    · exact h.setViewRow
    · exact h

theorem State.Canonical.vecWhole {opc f c} : (s.vecWhole opc f c).Canonical := by
  unfold State.vecWhole
  extract_lets xs e rs ts w
  have hw : w.s.Canonical := State.Canonical.foldl_row h fun _ _ h => h.vecRowWork
  clear_value w
  split
  · exact h.quantise.vecDone
  · exact h.dequantise.vecDone
  · exact h.setViewRows.vecDone
  · exact hw.vecDone

theorem State.Canonical.vecPull {opc f c} : (s.vecPull opc f c).Canonical := by
  unfold State.vecPull
  dsimp only
  split
  · refine .ite h ?_
    split
    · exact h
    · refine .ite h.vecFail ?_
      split
      · exact h
      next e1 =>
        have hs1 := h.portPop _ e1
        exact .ite hs1.vecFail.emitBoth (.ite hs1.modRun (.ite hs1.vecFail (.ite hs1.vecRowWork.vecDone hs1.vecRowWork.modRun)))
  · exact h

theorem State.Canonical.vecPush {opc f c} : (s.vecPush opc f c).Canonical := by
  unfold State.vecPush
  dsimp only
  split
  · refine .ite h (.ite (State.Canonical.settle (State.Canonical.vecDone (State.Canonical.portPush ?_))) (State.Canonical.modRun
      (State.Canonical.portPush ?_)))
    · split
      · exact h.vecRowWork
      · exact h
    · split
      · exact h.vecRowWork
      · exact h
  · exact h

theorem execVadd_canonical {f} : NextCanonical (execVadd f s) := vecOperator_canonical h
theorem execVsub_canonical {f} : NextCanonical (execVsub f s) := vecOperator_canonical h
theorem execVmul_canonical {f} : NextCanonical (execVmul f s) := vecOperator_canonical h
theorem execVfma_canonical {f} : NextCanonical (execVfma f s) := vecOperator_canonical h
theorem execVdiv_canonical {f} : NextCanonical (execVdiv f s) := vecOperator_canonical h
theorem execVmin_canonical {f} : NextCanonical (execVmin f s) := vecOperator_canonical h
theorem execVmax_canonical {f} : NextCanonical (execVmax f s) := vecOperator_canonical h
theorem execVabs_canonical {f} : NextCanonical (execVabs f s) := vecOperator_canonical h
theorem execVneg_canonical {f} : NextCanonical (execVneg f s) := vecOperator_canonical h
theorem execVexp2_canonical {f} : NextCanonical (execVexp2 f s) := vecOperator_canonical h
theorem execVlog2_canonical {f} : NextCanonical (execVlog2 f s) := vecOperator_canonical h
theorem execVrcp_canonical {f} : NextCanonical (execVrcp f s) := vecOperator_canonical h
theorem execVrsq_canonical {f} : NextCanonical (execVrsq f s) := vecOperator_canonical h
theorem execVsqrt_canonical {f} : NextCanonical (execVsqrt f s) := vecOperator_canonical h
theorem execVtanh_canonical {f} : NextCanonical (execVtanh f s) := vecOperator_canonical h
theorem execVsigm_canonical {f} : NextCanonical (execVsigm f s) := vecOperator_canonical h
theorem execVcvt_canonical {f} : NextCanonical (execVcvt f s) := vecOperator_canonical h
theorem execVqmx_canonical {f} : NextCanonical (execVqmx f s) := vecOperator_canonical h
theorem execVdqmx_canonical {f} : NextCanonical (execVdqmx f s) := vecOperator_canonical h
theorem execVcmp_canonical {f} : NextCanonical (execVcmp f s) := vecOperator_canonical h
theorem execVsel_canonical {f} : NextCanonical (execVsel f s) := vecOperator_canonical h
theorem execVrsum_canonical {f} : NextCanonical (execVrsum f s) := vecOperator_canonical h
theorem execVrmax_canonical {f} : NextCanonical (execVrmax f s) := vecOperator_canonical h
theorem execVcsum_canonical {f} : NextCanonical (execVcsum f s) := vecOperator_canonical h
theorem execVbcast_canonical {f} : NextCanonical (execVbcast f s) := vecOperator_canonical h
theorem execVrbc_canonical {f} : NextCanonical (execVrbc f s) := vecOperator_canonical h
theorem execVtrans_canonical {f} : NextCanonical (execVtrans f s) := vecOperator_canonical h
theorem execViota_canonical {f} : NextCanonical (execViota f s) := vecOperator_canonical h
theorem execVcomp_canonical {f} : NextCanonical (execVcomp f s) := vecOperator_canonical h
theorem execVlogic_canonical {f} : NextCanonical (execVlogic f s) := vecOperator_canonical h
theorem execVshift_canonical {f} : NextCanonical (execVshift f s) := vecOperator_canonical h

theorem State.Canonical.redTake {c} : (s.redTake c).Canonical := by
  unfold State.redTake
  dsimp only
  split
  · exact h.modCore.modTile
  · exact h.modCore

theorem execVectorCommandStart_canonical {core} : NextCanonical (execVectorCommandStart core s) := by
  unfold execVectorCommandStart
  dsimp only
  split
  · exact .ite h (.ite h.modCore.redTake h.modCore)
  · exact h

theorem execVectorComplete_canonical {core} : NextCanonical (execVectorComplete core s) := by
  unfold execVectorComplete
  split
  · exact h
  · split
    · exact h
    · exact .ite h.vecPull (.ite h.vecPush h.vecWhole)

theorem execReductionRelease_canonical {core fp ip} : NextCanonical (execReductionRelease core fp ip s) := by
  unfold execReductionRelease
  dsimp only
  split
  · exact h
  · split
    · exact h
    · split
      · exact h
      · refine .ite ?_ (State.Canonical.emitBoth ?_)
        · split
          · exact h.modCore.modCore
          · exact .ite h.modCore.modCore.modTile.tilesDrop h.modCore.modCore.modTile.tilesDrop.emitBoth
        · split
          · exact h.modCore.modCore
          · exact .ite h.modCore.modCore.modTile.tilesDrop h.modCore.modCore.modTile.tilesDrop.emitBoth

/-! ## System -/

theorem State.Canonical.supervised {n f k} (hk : ∀ (t : State) b c d e, t.Canonical → (k t b c d e).Canonical) :
    (s.supervised n f k).Canonical := h.operate fun _ _ _ _ _ h => .ite h.fault (hk _ _ _ _ _ h)

theorem State.Canonical.sysEmit {g f x} : (s.sysEmit g f x).Canonical := h.emit
theorem State.Canonical.sysBoth {g f x} : (s.sysBoth g f x).Canonical := h.emitBoth
theorem execTrap_canonical {f} : NextCanonical (execTrap f s) := h.operate fun _ _ _ _ _ h => h.logFault.toHandler.emitBoth
theorem execHcall_canonical {f} : NextCanonical (execHcall f s) := h.operate fun _ _ _ _ _ h => .ite h.modStack.sysEmit h.modStack

theorem State.Canonical.admitCall {stack chan} : (s.admitCall stack chan).Canonical := by
  unfold State.admitCall
  dsimp only
  split
  · exact h
  · split
    · exact h.modStack.sysEmit
    · exact h.modStack

theorem execEventSend_canonical {stack chan} : NextCanonical (execEventSend stack chan s) := by
  unfold execEventSend
  dsimp only
  split
  · refine .ite h (State.Canonical.admitCall ?_)
    split
    · exact h.modStack
    · exact h.modStack.modCtx.post
  · exact h

theorem execEvbindBind_canonical {f} : NextCanonical (execEvbindBind f s) :=
  h.supervised fun _ _ _ _ _ h => .ite h.fault h.modStack.sysEmit

theorem execEvbindUnbind_canonical {f} : NextCanonical (execEvbindUnbind f s) := h.supervised fun _ _ _ _ _ h => h.modStack.sysEmit

theorem execFltrd.read_canonical {f g l r} : (execFltrd.read f s g l r).Canonical := by
  unfold execFltrd.read
  dsimp only
  refine .ite h.emitBoth ?_
  split
  · exact h.sysBoth
  · exact h.spend.sysBoth

theorem execFltrd_canonical {f} : NextCanonical (execFltrd f s) := by
  unfold execFltrd
  dsimp only
  refine h.operate fun _ _ _ _ _ h => ?_
  split
  · exact .ite h.fault (execFltrd.read_canonical h)
  · exact execFltrd.read_canonical h

theorem State.Canonical.retryPort {core kind index} : (s.retryPort core kind index).Canonical := by
  unfold State.retryPort
  dsimp only
  split
  · exact h.modCore
  · exact h.modCore
  · exact h.modCore
  · exact (h.foldl fun _ _ h => h.modGen).foldl fun _ _ h => h.modCmd

theorem State.Canonical.abortCovers {core n} : (s.abortCovers core n).Canonical := h.modCore
theorem State.Canonical.redResolved {c f} : (s.redResolved c f).Canonical := h.faultLogged.modCtx

theorem State.Canonical.dropToken {g d cls n reply} : (s.dropToken g d cls n reply).Canonical := by
  unfold State.dropToken
  dsimp only
  split
  · exact h.faultToken.endRecording
  · exact h.faultToken

theorem State.Canonical.dropCmd {c f cls} : (s.dropCmd c f cls).Canonical := by
  unfold State.dropCmd
  dsimp only
  split
  · exact State.Canonical.redResolved (.ite h.abortCovers.finish (h.abortCovers.finish.failReply fun _ _ _ h => h.dropToken))
  · exact h.abortCovers.finish.failReply fun _ _ _ h => h.dropToken

theorem State.Canonical.dropRow {core n a cls} : (s.dropRow core n a cls).Canonical := by
  unfold State.dropRow
  dsimp only
  refine State.Canonical.agIdle ?_
  split
  · exact h.abortCovers
  · split
    · exact .ite h.abortCovers h.abortCovers.dropToken
    · exact h.abortCovers

theorem State.Canonical.discardPort {core kind index} : (s.discardPort core kind index).Canonical := by
  unfold State.discardPort
  dsimp only
  split
  · split
    · exact h.dropRow
    · exact h
  · split
    · exact h.dropCmd
    · exact h
  · exact h

theorem State.Canonical.resume {f discard} : (s.resume f discard).Canonical := by
  unfold State.resume
  refine h.supervised fun _ _ _ _ _ h => ?_
  split
  · exact h.fault
  · split
    · exact h.sysEmit
    · exact .ite h.sysEmit (State.Canonical.sysEmit (.ite h.discardPort h.retryPort))

theorem execResumeRetry_canonical {f} : NextCanonical (execResumeRetry f s) := h.resume
theorem execResumeDiscard_canonical {f} : NextCanonical (execResumeDiscard f s) := h.resume

theorem execReplayall_canonical {f} : NextCanonical (execReplayall f s) :=
  h.supervised fun _ _ _ _ _ h => (h.foldl fun _ _ h => h.retryPort).sysEmit

theorem State.Canonical.writeSeed {ctx v} : (s.writeSeed ctx v).Canonical := h.modCtx.foldl fun _ _ h => h.modCore
theorem State.Canonical.writeFlogrd {ctx v} : (s.writeFlogrd ctx v).Canonical := h.modCtx
theorem State.Canonical.writeTimecfg {v} : (s.writeTimecfg v).Canonical := h.modMod.foldl fun _ _ h => h.limitCheck

theorem State.Canonical.csrWrite {ctx n v} : (s.csrWrite ctx n v).Canonical := by
  unfold State.csrWrite
  split
  · exact h.writeSeed
  · exact h.writeFlogrd
  · exact h.writeTimecfg
  · exact h.modCtx

theorem execCsrrd_canonical {f} : NextCanonical (execCsrrd f s) := h.operate fun _ _ _ _ _ h => .ite h.fault h.sysBoth
theorem execCsrwr_canonical {f} : NextCanonical (execCsrwr f s) := h.operate fun _ _ _ _ _ h => .ite h.fault h.csrWrite.sysEmit
theorem execSeedWrite_canonical {ctx value} : NextCanonical (execSeedWrite ctx value s) := .ite h.writeSeed h
theorem execFlogrdWrite_canonical {ctx value} : NextCanonical (execFlogrdWrite ctx value s) := .ite h.writeFlogrd h
theorem execPerfrd_canonical {f} : NextCanonical (execPerfrd f s) := h.operate fun _ _ _ _ _ h => h.sysBoth

theorem State.Canonical.corestop {f stop} : (s.corestop f stop).Canonical :=
  h.supervised fun _ _ _ _ _ h => .ite h.fault h.modCore.sysEmit

theorem execCorestopStop_canonical {f} : NextCanonical (execCorestopStop f s) := h.corestop
theorem execCorestopStart_canonical {f} : NextCanonical (execCorestopStart f s) := h.corestop

theorem State.Canonical.poisonCmd {e n} : (s.poisonCmd e n).Canonical := by
  unfold State.poisonCmd
  dsimp only
  split
  · split
    · refine State.Canonical.fail ?_
      split
      · exact h.modCtx
      · exact h
    · exact h
  · split
    · split
      · exact .ite h.vecLeave.fail h
      · exact h
    · exact h

theorem State.Canonical.poisonItem {e a n} : (s.poisonItem e a n).Canonical := by
  unfold State.poisonItem
  dsimp only
  split
  · exact h
  · split
    · exact h
    · refine .ite h (State.Canonical.matSettle (State.Canonical.raise (State.Canonical.setFlags (State.Canonical.tilesDrop ?_))))
      split
      · exact h.gangGone
      · exact h.itemGone

theorem State.Canonical.poisonGen {e n} : (s.poisonGen e n).Canonical := by
  unfold State.poisonGen
  dsimp only
  split
  · exact h
  · split
    · exact h.raise.agIdle
    · exact h

theorem State.Canonical.poisonFrame {e} : (s.poisonFrame e).Canonical := by
  unfold State.poisonFrame
  dsimp only
  split
  · exact h
  · exact .ite h h.modCore.orphan.freeOrWait

theorem State.Canonical.poisonPage {e} : (s.poisonPage e).Canonical := by
  unfold State.poisonPage
  dsimp only
  split
  · exact h.modCore.installFails
  · split
    · exact h.installFails
    · exact h

theorem State.Canonical.poisonTape {e} : (s.poisonTape e).Canonical := by
  unfold State.poisonTape
  dsimp only
  split
  · exact h
  · split
    · exact h.invalidateOn
    · exact h.invalidateOn.logFault.modEngine

theorem State.Canonical.poison {e} : (s.poison e).Canonical := by
  unfold State.poison
  split
  · exact h.poisonFrame
  · exact h.poisonPage
  · exact h.poisonTape
  · exact .ite h.poisonGen h.poisonCmd.poisonItem.poisonItem
  · split
    · split
      · exact .ite h.retire.raise h
      · exact h
    · exact h.poisonPage

theorem State.Canonical.transient {e ctx} : (s.transient e ctx).Canonical := h.faultLogged

theorem execMemoryError_canonical {err} : NextCanonical (execMemoryError err s) := by
  unfold execMemoryError
  dsimp only
  refine State.Canonical.event (.ite h.poison.modMod ?_)
  split
  · exact h.transient
  · exact h

/-! ## Save -/

theorem execCtxsave_canonical {f} : NextCanonical (execCtxsave f s) := by
  unfold execCtxsave
  dsimp only
  refine h.supervised fun _ _ _ _ _ h => .ite h.fault (h.newId.modCore.modCtx.foldl fun _ _ h => ?_)
  split
  · exact .ite h.endRecording h
  · exact h

theorem State.Canonical.writeParts {x base l} : (s.writeParts x base l).1.Canonical := by
  induction l generalizing s with
  | nil => exact h
  | cons p l ih =>
    unfold State.writeParts
    split
    · exact h
    next e => exact ih (h.ctxWrite _ e)

theorem State.Canonical.writeSegmentsOf {segment x l} : (s.writeSegmentsOf segment x l).1.Canonical := by
  induction l generalizing s with
  | nil => exact h
  | cons p l ih =>
    unfold State.writeSegmentsOf
    split
    · exact h
    · split
      next e => exact h.writeParts.fst e
      next e => exact ih (h.writeParts.fst e)

theorem State.Canonical.writeSegments {x l} : (s.writeSegments x l).1.Canonical :=
  State.writeSegments_eq s x l ▸ h.writeSegmentsOf

theorem State.Canonical.writeArea {x stack disp} : (s.writeArea x stack disp).1.Canonical := by
  unfold State.writeArea
  dsimp only
  split
  next e1 => exact h.writeParts.fst e1
  next e1 =>
    have hs1 := h.writeParts.fst e1
    split
    next e2 => exact hs1.writeSegments.fst e2
    next e2 => exact (hs1.writeSegments.fst e2).writeParts

theorem State.Canonical.dropQueues {x} : (s.dropQueues x).Canonical := h.foldl fun _ _ h => h.dropResident
theorem State.Canonical.clearCores {x} : (s.clearCores x).Canonical := h.foldl fun _ _ h => h.setCore

theorem State.Canonical.takeOff {x} : (s.takeOff x).Canonical := by
  unfold State.takeOff
  extract_lets s1 sv cores s2 s3
  have h1 : State.Canonical s1 := .ite h.invalidate h
  have h2 : State.Canonical s2 := h1.dropQueues
  have h3 : State.Canonical s3 := h2.update
  exact h3.clearCores.modCtx

theorem State.Canonical.reopen : s.reopen.Canonical := .ite h.modMod h

theorem State.Canonical.saveEnd {ctx stack c} : (s.saveEnd ctx stack c).Canonical := by
  unfold State.saveEnd
  split
  next e1 => exact (h.spend.writeArea.fst e1).modCtx.failWith
  next e1 => exact (h.spend.writeArea.fst e1).modCtx
  next e1 => exact (h.spend.writeArea.fst e1).takeOff.answer
  next e1 => exact (h.spend.writeArea.fst e1).takeOff.reopen

theorem execSaveWrite_canonical {ctx} : NextCanonical (execSaveWrite ctx s) := by
  unfold execSaveWrite
  split
  · refine .ite h ?_
    split <;> exact h.saveEnd
  · exact h

theorem State.Canonical.placeShares {m l acc} : (s.placeShares m l acc).1.Canonical := by
  induction l generalizing s acc with
  | nil => exact h
  | cons p l ih =>
    unfold State.placeShares
    dsimp only
    split
    · exact ih h
    · exact ih h.modStack

theorem State.Canonical.joinPart {stack p} : (s.joinPart stack p).Canonical := h.setPart

theorem State.Canonical.restoreStacks {sv m shares} : (s.restoreStacks sv m shares).Canonical := by
  unfold State.restoreStacks
  dsimp only
  refine State.Canonical.foldl (State.Canonical.foldl (State.Canonical.foldl (State.Canonical.foldl (State.Canonical.foldl (h.foldl fun _
    _ h => ?_) fun _ _ h => h.modStack) fun _ _ h => h.modStack) fun _ _ h => h.joinPart) fun _ _ h => h.modStack) fun _ _ h => h.modStack
  split
  · exact h
  · exact h.makeResident.modSlot

theorem State.Canonical.noticeAll {x} : (s.noticeAll x).Canonical := h.foldl fun _ _ h => h.foldl fun _ _ h => h.notice

theorem State.Canonical.restoreCores {sv x m shares l} : (s.restoreCores sv x m shares l).Canonical := by
  unfold State.restoreCores
  dsimp only
  refine h.update.foldl fun _ _ h => ?_
  split
  · exact h
  · exact h.setCore.setVaultBytes

theorem State.Canonical.restoreRest {x m ids} : (s.restoreRest x m ids).Canonical := h.update.update

theorem State.Canonical.restoreEnds {ends} : (s.restoreEnds ends).Canonical := by
  unfold State.restoreEnds
  dsimp only
  refine h.foldl fun _ _ h => ?_
  split
  · exact h
  · split
    · exact h
    · refine State.Canonical.answer ?_
      split
      · exact h.setViewRow.setFlags
      · exact h

theorem State.Canonical.putBack {sv x new l} : (s.putBack sv x new l).Canonical := by
  unfold State.putBack
  extract_lets m s0 s1 p shares s2 s3 s4
  have h0 : State.Canonical s0 := h.setCtx
  have h1 : State.Canonical s1 := h0.update
  have h2 : State.Canonical s2 := h1.placeShares.restoreStacks.restoreCores
  have h3 : State.Canonical s3 := h2.restoreRest.restoreEnds.noticeAll
  have h4 : State.Canonical s4 := h3.ctxPut
  exact h4.ctxPut

theorem execCtxload_canonical {f} : NextCanonical (execCtxload f s) := by
  unfold execCtxload
  dsimp only
  refine h.supervised fun _ _ _ _ _ h => .ite h.fault ?_
  split
  · exact h.raise
  · exact h.putBack.sysEmit

/-! ## Module -/

theorem State.Canonical.pageWrite {off v} : (s.pageWrite off v).Canonical :=
  .ite h (.ite h.modMod (.ite h.modMod (.ite (.ite h h.modMod) (.ite h.modMod (.ite (.ite h h.modMod) (.ite h.modMod (.ite h.modMod
    (.ite h.modMod h))))))))

theorem execRegisterWrite_canonical {offset value} : NextCanonical (execRegisterWrite offset value s) := .ite h.pageWrite h
theorem State.Canonical.ctxcmdEnd {r} : (s.ctxcmdEnd r).Canonical := h.modMod

theorem State.Canonical.activate {x c} : (s.activate x c).Canonical := by
  unfold State.activate
  extract_lets c' s1 cores s2 s3
  have h1 : State.Canonical s1 := h.setCtx
  have h2 : State.Canonical s2 := h1.foldl fun _ _ h => h.setCore
  have h3 : State.Canonical s3 := h2.withVault (Memory.filter_wf h2.vault_wf _)
  exact .ite h3 h3.modMod

theorem execCtxActivate_canonical {ctx} : NextCanonical (execCtxActivate ctx s) := by
  unfold execCtxActivate
  dsimp only
  refine .ite h (.ite h.ctxcmdEnd ?_)
  split
  · exact State.Canonical.ctxcmdEnd (.ite h.modCtx h)
  · exact .ite (State.Canonical.ctxcmdEnd (.ite h.modCtx h)) (.ite (State.Canonical.ctxcmdEnd (.ite h.modCtx h))
      (.ite (State.Canonical.ctxcmdEnd (.ite h.modCtx h)) (State.Canonical.activate (.ite h.modCtx h)).ctxcmdEnd))

theorem State.Canonical.startDestroy {x} : (s.startDestroy x).Canonical := by
  unfold State.startDestroy
  extract_lets quads mark s1 s2
  have h1 : State.Canonical s1 := h.update
  have h2 : State.Canonical s2 := h1.foldl fun _ _ h => h.modCore
  exact h2.modCtx

theorem State.Canonical.resolveReds {x} : (s.resolveReds x).Canonical := by
  unfold State.resolveReds
  refine h.foldl fun _ _ h => ?_
  split
  · exact h.redResolved
  · exact h

theorem State.Canonical.dropOutside {x} : (s.dropOutside x).Canonical := h.update

theorem State.Canonical.endDestroy {x} : (s.endDestroy x).Canonical := by
  unfold State.endDestroy
  extract_lets cores quads s1 s2
  have h1 : State.Canonical s1 := h.resolveReds.dropOutside.dropQueues
  clear_value s1
  have h2 : State.Canonical s2 := ⟨h1.hbm_wf, Memory.filter_wf h1.vault_wf _, h1.host_wf, h1.storage_wf⟩
  exact h2.clearCores.modCtx.reopen

theorem execCtxDestroy_canonical {ctx} : NextCanonical (execCtxDestroy ctx s) := by
  unfold execCtxDestroy
  refine .ite h ?_
  split
  · exact h.startDestroy
  · exact .ite h.endDestroy.ctxcmdEnd h
  · exact h.ctxcmdEnd

theorem execApertureAccess_canonical {offset len data} : NextCanonical (execApertureAccess offset len data s) := by
  unfold execApertureAccess
  dsimp only
  split
  · exact .ite h.hbmWrite h
  · exact h.modMod

theorem execWindowWrite_canonical {index value} : NextCanonical (execWindowWrite index value s) := .ite h h.modMod
theorem execOwnerkeyWrite_canonical {key} : NextCanonical (execOwnerkeyWrite key s) := .ite h h.modMod.measure
theorem execSignersWrite_canonical {index key} : NextCanonical (execSignersWrite index key s) := .ite h h.modMod.measure
theorem execMboxQuote_canonical : NextCanonical (execMboxQuote s) := .ite h h.modMod
theorem execMboxLog_canonical : NextCanonical (execMboxLog s) := .ite h h.modMod
theorem execLinkPolicy_canonical {policy} : NextCanonical (execLinkPolicy policy s) := .ite h h.modMod.measure

theorem execBootStage_canonical {ok} : NextCanonical (execBootStage ok s) := by
  unfold execBootStage
  dsimp only
  refine .ite h (.ite h.modMod ?_)
  split
  · exact h.measure.modMod
  · exact h.measure.modMod
  · exact .ite h.modMod h
  · exact h.modMod

theorem execModuleReset_canonical : NextCanonical (execModuleReset s) :=
  ⟨Memory.filter_wf h.hbm_wf _, ⟨rfl, fun _ h => nomatch h⟩, h.host_wf, h.storage_wf⟩

theorem execThermalTrip_canonical : NextCanonical (execThermalTrip s) := h.modMod
theorem execBoardPowerOff_canonical : NextCanonical (execBoardPowerOff s) := .ite h.modMod h
theorem execFreeSlotReport_canonical {core} : NextCanonical (execFreeSlotReport core s) := .ite h.modStack h

/-! ## Agents -/

theorem State.Canonical.agent0 {x x2} : NextCanonical (s.agent0 x x2) := by
  unfold State.agent0
  split
  · exact execClockChangeRequest_canonical h
  · exact execClockSettled_canonical h
  · exact execClampAct_canonical h
  · exact execClampRelease_canonical h
  · exact execThermalTrip_canonical h
  · exact execTokenServe_canonical h
  · exact execFrameSpill_canonical h
  · exact execFrameFill_canonical h
  · exact execDeferredFree_canonical h
  · exact execReleaseMessage_canonical h
  · exact execTileSpaceReturn_canonical h
  · exact execHostPush_canonical h
  · exact execDistributorSelect_canonical h
  · exact execPriorityAging_canonical h
  · exact execBind_canonical h
  · exact execAskForWork_canonical h
  · exact execAskServe_canonical h
  · exact execPartReport_canonical h
  · exact execRangeTaskComplete_canonical h
  · exact execPushPortRelease_canonical h
  · exact execReplayCursorGrant_canonical h
  · exact execGuardSnapshot_canonical h
  · exact execReplayIssue_canonical h
  · exact execProbeStart_canonical h
  · exact execReplayComplete_canonical h
  · exact execReplayFault_canonical h
  · exact execInstallStart_canonical h
  · exact execInstallComplete_canonical h
  · exact execQuarantineNotice_canonical h
  · exact execAbortFree_canonical h
  · exact execSwitchAccept_canonical h
  · exact execSwitchDrain_canonical h
  · exact execBridgeProduce_canonical h
  · exact execBridgeConsume_canonical h
  · exact execObjLoad_canonical h
  · exact execObjUnload_canonical h
  · exact execLightDispatch_canonical h
  · exact execEngineDispatch_canonical h
  · exact execDispatchTurn_canonical h
  · exact execQuiesced_canonical h

theorem State.Canonical.agent1 {x x2} : NextCanonical (s.agent1 x x2) := by
  unfold State.agent1
  split
  · exact execDividerEmit_canonical h
  · exact execPageSetBump_canonical h
  · exact execBumpDone_canonical h
  · exact execTranslationWindowFill_canonical h
  · exact execReplicaPropagate_canonical h
  · exact execPublishSwap_canonical h
  · exact execAgRow_canonical h
  · exact execTnewGrant_canonical h
  · exact execSplitPhaseComplete_canonical h
  · exact execCopyComplete_canonical h
  · exact execVectorCommandStart_canonical h
  · exact execVectorComplete_canonical h
  · exact execReductionRelease_canonical h
  · exact execMatrixItemStart_canonical h
  · exact execRowFiring_canonical h
  · exact execMatrixItemFinish_canonical h
  · exact execMarkerItem_canonical h
  · exact execBindingRelease_canonical h
  · exact execGangGrant_canonical h
  · exact execTbWaiterRelease_canonical h
  · exact execTbwaitRetry_canonical h
  · exact execBarArrival_canonical h
  · exact execCollArrival_canonical h
  · exact execUpdateApply_canonical h
  · exact execLockGrant_canonical h
  · exact execTimewaitRelease_canonical h
  · exact execTimewaitRetry_canonical h
  · exact execSyncExchange_canonical h
  · exact execTimeMessage_canonical h
  · exact execHoldoverEnter_canonical h
  · exact execHoldoverTick_canonical h
  · exact execPodSyncExchange_canonical h
  · exact execPtpMessage_canonical h
  · exact execFlitSend_canonical h
  · exact execFlitData_canonical h
  · exact execFlitOpen_canonical h
  · exact execFlitClose_canonical h
  · exact execFlitAck_canonical h
  · exact execFlitIdle_canonical h
  · exact execAckDue_canonical h

theorem State.Canonical.agent2 {x x2} : NextCanonical (s.agent2 x x2) := by
  unfold State.agent2
  split
  · exact execRetryWindow_canonical h
  · exact execChangeProposal_canonical h
  · exact execChangeReply_canonical h
  · exact execChangeQuiesce_canonical h
  · exact execChangeQuiet_canonical h
  · exact execRetrainStart_canonical h
  · exact execTrainingComplete_canonical h
  · exact execLinkLoss_canonical h
  · exact execMemoryError_canonical h
  · exact execEventSend_canonical h
  · exact execSaveWrite_canonical h
  · exact execTaskCompletion_canonical h
  · exact execNvmeCompletion_canonical h
  · exact execRegisterWrite_canonical h
  · exact execCtxActivate_canonical h
  · exact execCtxDestroy_canonical h
  · exact execWindowWrite_canonical h
  · exact execOwnerkeyWrite_canonical h
  · exact execSignersWrite_canonical h
  · exact execMboxQuote_canonical h
  · exact execMboxLog_canonical h
  · exact execLinkPolicy_canonical h
  · exact execModuleReset_canonical h
  · exact execBootStage_canonical h
  · exact execCapEntryFree_canonical h
  · exact execFlitDiscard_canonical h
  · exact execSlewComplete_canonical h
  · exact execFreeSlotReport_canonical h
  · exact execBoardPowerOff_canonical h
  · exact execApertureAccess_canonical h

theorem State.Canonical.freeStep : NextCanonical (s.freeStep) :=
  nextCanonical_ite h.pass.update.agent0 (nextCanonical_ite h.pass.update.agent1 h.pass.update.agent2)

/-! ## ScalarInt -/

theorem scalarResult_canonical {f g x p vs fl} : (scalarResult f s g x p vs fl).Canonical := h.setFlags.emitBoth

theorem scalarInt_canonical {f ident op prov} : NextCanonical (scalarInt f s ident op prov) :=
  h.operate fun _ _ _ _ _ h => scalarResult_canonical h

theorem scalarShift_canonical {op f} : NextCanonical (scalarShift op f s) := h.operate fun _ _ _ _ _ h => scalarResult_canonical h
theorem dividerResult_canonical {f g x p vs fl} : (dividerResult f s g x p vs fl).Canonical := h.modCore

theorem State.Canonical.divides {f k} (hk : ∀ (t : State) b c d, t.Canonical → (k t b c d).Canonical) : (s.divides f k).Canonical := by
  unfold State.divides
  dsimp only
  refine h.execute fun _ _ h => ?_
  split
  · exact h.modCore
  · exact h.modCore
  · exact h.modCore
  · exact h
  · exact h.fault
  · exact hk _ _ _ _ h

theorem scalarDivRem_canonical {rem f} : NextCanonical (scalarDivRem rem f s) := h.divides fun _ _ _ _ h => dividerResult_canonical h
theorem scalarUnary_canonical {f op} : NextCanonical (scalarUnary f s op) := h.operate fun _ _ _ _ _ h => scalarResult_canonical h
theorem execMoviLo_canonical {f} : NextCanonical (execMoviLo f s) := h.operate fun _ _ _ _ _ h => scalarResult_canonical h
theorem execMoviHi_canonical {f} : NextCanonical (execMoviHi f s) := h.operate fun _ _ _ _ _ h => scalarResult_canonical h
theorem execAdd_canonical {f} : NextCanonical (execAdd f s) := scalarInt_canonical h
theorem execSub_canonical {f} : NextCanonical (execSub f s) := scalarInt_canonical h
theorem execMul_canonical {f} : NextCanonical (execMul f s) := scalarInt_canonical h
theorem execMulh_canonical {f} : NextCanonical (execMulh f s) := scalarInt_canonical h
theorem execDiv_canonical {f} : NextCanonical (execDiv f s) := scalarDivRem_canonical h
theorem execRem_canonical {f} : NextCanonical (execRem f s) := scalarDivRem_canonical h
theorem execAnd_canonical {f} : NextCanonical (execAnd f s) := scalarInt_canonical h
theorem execOr_canonical {f} : NextCanonical (execOr f s) := scalarInt_canonical h
theorem execXor_canonical {f} : NextCanonical (execXor f s) := scalarInt_canonical h
theorem execAndn_canonical {f} : NextCanonical (execAndn f s) := scalarInt_canonical h
theorem execShl_canonical {f} : NextCanonical (execShl f s) := scalarShift_canonical h
theorem execShr_canonical {f} : NextCanonical (execShr f s) := scalarShift_canonical h
theorem execSar_canonical {f} : NextCanonical (execSar f s) := scalarShift_canonical h
theorem execRol_canonical {f} : NextCanonical (execRol f s) := scalarShift_canonical h
theorem execMin_canonical {f} : NextCanonical (execMin f s) := scalarInt_canonical h
theorem execMax_canonical {f} : NextCanonical (execMax f s) := scalarInt_canonical h
theorem execAbs_canonical {f} : NextCanonical (execAbs f s) := scalarUnary_canonical h
theorem execNeg_canonical {f} : NextCanonical (execNeg f s) := scalarUnary_canonical h
theorem execAddsatAdd_canonical {f} : NextCanonical (execAddsatAdd f s) := scalarInt_canonical h
theorem execAddsatSub_canonical {f} : NextCanonical (execAddsatSub f s) := scalarInt_canonical h
theorem execCmp_canonical {f} : NextCanonical (execCmp f s) := h.operate fun _ _ _ _ _ h => scalarResult_canonical h
theorem execSel_canonical {f} : NextCanonical (execSel f s) := h.operate fun _ _ _ _ _ h => h.emitBoth
theorem execClz_canonical {f} : NextCanonical (execClz f s) := scalarUnary_canonical h
theorem execCtz_canonical {f} : NextCanonical (execCtz f s) := scalarUnary_canonical h
theorem execPopc_canonical {f} : NextCanonical (execPopc f s) := scalarUnary_canonical h
theorem execBfx_canonical {f} : NextCanonical (execBfx f s) := scalarUnary_canonical h
theorem execBfi_canonical {f} : NextCanonical (execBfi f s) := h.operate fun _ _ _ _ _ h => scalarResult_canonical h
theorem execSext_canonical {f} : NextCanonical (execSext f s) := scalarUnary_canonical h
theorem execZext_canonical {f} : NextCanonical (execZext f s) := scalarUnary_canonical h

/-! ## ScalarFloat -/

theorem floatRound_canonical {f g x} : (floatRound f s g x).1.Canonical := h.drawFor

theorem scalarFloat_canonical {f ident op} : NextCanonical (scalarFloat f s ident op) :=
  h.operate fun _ _ _ _ _ h => scalarResult_canonical (floatRound_canonical h)

theorem dividerFloat_canonical {f op} : NextCanonical (dividerFloat f s op) :=
  h.divides fun _ _ _ _ h => dividerResult_canonical (floatRound_canonical h)

theorem floatMinMax_canonical {max f ident} : NextCanonical (floatMinMax max f s ident) := scalarInt_canonical h

theorem scalarConvert_canonical {src f} : NextCanonical (scalarConvert src f s) :=
  h.operate fun _ _ _ _ _ h => scalarResult_canonical h.drawFor

theorem execFadd_canonical {f} : NextCanonical (execFadd f s) := scalarFloat_canonical h
theorem execFsub_canonical {f} : NextCanonical (execFsub f s) := scalarFloat_canonical h
theorem execFmul_canonical {f} : NextCanonical (execFmul f s) := scalarFloat_canonical h
theorem execFfma_canonical {f} : NextCanonical (execFfma f s) := scalarFloat_canonical h
theorem execFdiv_canonical {f} : NextCanonical (execFdiv f s) := dividerFloat_canonical h
theorem execFsqrt_canonical {f} : NextCanonical (execFsqrt f s) := dividerFloat_canonical h
theorem execFmin_canonical {f} : NextCanonical (execFmin f s) := floatMinMax_canonical h
theorem execFmax_canonical {f} : NextCanonical (execFmax f s) := floatMinMax_canonical h
theorem execFcmp_canonical {f} : NextCanonical (execFcmp f s) := h.operate fun _ _ _ _ _ h => scalarResult_canonical h
theorem execFcvt_canonical {f} : NextCanonical (execFcvt f s) := scalarConvert_canonical h
theorem execFtoi_canonical {f} : NextCanonical (execFtoi f s) := scalarConvert_canonical h
theorem execItof_canonical {f} : NextCanonical (execItof f s) := scalarConvert_canonical h
theorem execFabs_canonical {f} : NextCanonical (execFabs f s) := scalarUnary_canonical h
theorem execFneg_canonical {f} : NextCanonical (execFneg f s) := scalarUnary_canonical h
theorem execFclass_canonical {f} : NextCanonical (execFclass f s) := scalarUnary_canonical h

/-! ## Dispatch -/

/-- Every meaning keeps the memories canonical, one arm per constructor. -/
theorem exec_canonical (i : Instr) : NextCanonical (exec i s) :=
  match i with
  | .nop _ => execNop_canonical h
  | .fork _ => execFork_canonical h
  | .steer _ => execSteer_canonical h
  | .gate _ => execGate_canonical h
  | .sync _ => execSync_canonical h
  | .drop _ => execDrop_canonical h
  | .falloc _ => execFalloc_canonical h
  | .ffreeFp _ => execFfreeFp_canonical h
  | .ffreeSelf _ => execFfreeSelf_canonical h
  | .fstore _ => execFstore_canonical h
  | .fstick _ => execFstick_canonical h
  | .freadSlot _ => execFreadSlot_canonical h
  | .freadSelf _ => execFreadSelf_canonical h
  | .call _ => execCall_canonical h
  | .callExt _ => execCallExt_canonical h
  | .ret _ => execRet_canonical h
  | .sendto _ => execSendto_canonical h
  | .iterNext _ => execIterNext_canonical h
  | .iterSet _ => execIterSet_canonical h
  | .punctMark _ => execPunctMark_canonical h
  | .punctAfter _ => execPunctAfter_canonical h
  | .rjoin _ => execRjoin_canonical h
  | .filter _ => execFilter_canonical h
  | .compact _ => execCompact_canonical h
  | .ordmerge _ => execOrdmerge_canonical h
  | .nullsetAll _ => execNullsetAll_canonical h
  | .nullsetIfz _ => execNullsetIfz_canonical h
  | .isnullNull _ => execIsnullNull_canonical h
  | .isnullKind _ => execIsnullKind_canonical h
  | .switch _ => execSwitch_canonical h
  | .endOp _ => execEndOp_canonical h
  | .moviLo _ => execMoviLo_canonical h
  | .moviHi _ => execMoviHi_canonical h
  | .add _ => execAdd_canonical h
  | .sub _ => execSub_canonical h
  | .mul _ => execMul_canonical h
  | .mulh _ => execMulh_canonical h
  | .div _ => execDiv_canonical h
  | .rem _ => execRem_canonical h
  | .and _ => execAnd_canonical h
  | .or _ => execOr_canonical h
  | .xor _ => execXor_canonical h
  | .andn _ => execAndn_canonical h
  | .shl _ => execShl_canonical h
  | .shr _ => execShr_canonical h
  | .sar _ => execSar_canonical h
  | .rol _ => execRol_canonical h
  | .min _ => execMin_canonical h
  | .max _ => execMax_canonical h
  | .abs _ => execAbs_canonical h
  | .neg _ => execNeg_canonical h
  | .addsatAdd _ => execAddsatAdd_canonical h
  | .addsatSub _ => execAddsatSub_canonical h
  | .cmp _ => execCmp_canonical h
  | .sel _ => execSel_canonical h
  | .clz _ => execClz_canonical h
  | .ctz _ => execCtz_canonical h
  | .popc _ => execPopc_canonical h
  | .bfx _ => execBfx_canonical h
  | .bfi _ => execBfi_canonical h
  | .sext _ => execSext_canonical h
  | .zext _ => execZext_canonical h
  | .fadd _ => execFadd_canonical h
  | .fsub _ => execFsub_canonical h
  | .fmul _ => execFmul_canonical h
  | .ffma _ => execFfma_canonical h
  | .fdiv _ => execFdiv_canonical h
  | .fsqrt _ => execFsqrt_canonical h
  | .fmin _ => execFmin_canonical h
  | .fmax _ => execFmax_canonical h
  | .fcmp _ => execFcmp_canonical h
  | .fcvt _ => execFcvt_canonical h
  | .ftoi _ => execFtoi_canonical h
  | .itof _ => execItof_canonical h
  | .fabs _ => execFabs_canonical h
  | .fneg _ => execFneg_canonical h
  | .fclass _ => execFclass_canonical h
  | .tnewHere _ => execTnewHere_canonical h
  | .tnewAt _ => execTnewAt_canonical h
  | .trel _ => execTrel_canonical h
  | .tdup _ => execTdup_canonical h
  | .tview _ => execTview_canonical h
  | .tinfo _ => execTinfo_canonical h
  | .tlayout _ => execTlayout_canonical h
  | .tfill _ => execTfill_canonical h
  | .tcopy _ => execTcopy_canonical h
  | .xlate _ => execXlate_canonical h
  | .capcutCut _ => execCapcutCut_canonical h
  | .capcutFree _ => execCapcutFree_canonical h
  | .fetchGlb _ => execFetchGlb_canonical h
  | .fetchEp _ => execFetchEp_canonical h
  | .fetchPort _ => execFetchPort_canonical h
  | .putGlb _ => execPutGlb_canonical h
  | .putEp _ => execPutEp_canonical h
  | .putPort _ => execPutPort_canonical h
  | .ldg _ => execLdg_canonical h
  | .stg _ => execStg_canonical h
  | .ldv _ => execLdv_canonical h
  | .stv _ => execStv_canonical h
  | .agset _ => execAgset_canonical h
  | .agrun _ => execAgrun_canonical h
  | .agstop _ => execAgstop_canonical h
  | .sbindAg _ => execSbindAg_canonical h
  | .sbindBq _ => execSbindBq_canonical h
  | .sbindPeer _ => execSbindPeer_canonical h
  | .sbindEp _ => execSbindEp_canonical h
  | .sbindUnbind _ => execSbindUnbind_canonical h
  | .sbar _ => execSbar_canonical h
  | .mcast _ => execMcast_canonical h
  | .permit _ => execPermit_canonical h
  | .publishTile _ => execPublishTile_canonical h
  | .publishGlb _ => execPublishGlb_canonical h
  | .epbind _ => execEpbind_canonical h
  | .epdrop _ => execEpdrop_canonical h
  | .vadd _ => execVadd_canonical h
  | .vsub _ => execVsub_canonical h
  | .vmul _ => execVmul_canonical h
  | .vfma _ => execVfma_canonical h
  | .vdiv _ => execVdiv_canonical h
  | .vmin _ => execVmin_canonical h
  | .vmax _ => execVmax_canonical h
  | .vabs _ => execVabs_canonical h
  | .vneg _ => execVneg_canonical h
  | .vexp2 _ => execVexp2_canonical h
  | .vlog2 _ => execVlog2_canonical h
  | .vrcp _ => execVrcp_canonical h
  | .vrsq _ => execVrsq_canonical h
  | .vsqrt _ => execVsqrt_canonical h
  | .vtanh _ => execVtanh_canonical h
  | .vsigm _ => execVsigm_canonical h
  | .vcvt _ => execVcvt_canonical h
  | .vqmx _ => execVqmx_canonical h
  | .vdqmx _ => execVdqmx_canonical h
  | .vcmp _ => execVcmp_canonical h
  | .vsel _ => execVsel_canonical h
  | .vrsum _ => execVrsum_canonical h
  | .vrmax _ => execVrmax_canonical h
  | .vcsum _ => execVcsum_canonical h
  | .vbcast _ => execVbcast_canonical h
  | .vrbc _ => execVrbc_canonical h
  | .vtrans _ => execVtrans_canonical h
  | .viota _ => execViota_canonical h
  | .vcomp _ => execVcomp_canonical h
  | .vlogic _ => execVlogic_canonical h
  | .vshift _ => execVshift_canonical h
  | .mbind _ => execMbind_canonical h
  | .munbind _ => execMunbind_canonical h
  | .macc _ => execMacc_canonical h
  | .mrowAcc _ => execMrowAcc_canonical h
  | .mrowOut _ => execMrowOut_canonical h
  | .mma _ => execMma_canonical h
  | .mmag _ => execMmag_canonical h
  | .msclSet _ => execMsclSet_canonical h
  | .msclClr _ => execMsclClr_canonical h
  | .mrd _ => execMrd_canonical h
  | .moutKeep _ => execMoutKeep_canonical h
  | .moutClr _ => execMoutClr_canonical h
  | .mclr _ => execMclr_canonical h
  | .mresc _ => execMresc_canonical h
  | .mdrainCur _ => execMdrainCur_canonical h
  | .mdrainAll _ => execMdrainAll_canonical h
  | .tbinit _ => execTbinit_canonical h
  | .tbexp _ => execTbexp_canonical h
  | .tbarrArr _ => execTbarrArr_canonical h
  | .tbarrTx _ => execTbarrTx_canonical h
  | .tbarrArrtx _ => execTbarrArrtx_canonical h
  | .tbwait _ => execTbwait_canonical h
  | .tbinv _ => execTbinv_canonical h
  | .bar _ => execBar_canonical h
  | .ownsetSet _ => execOwnsetSet_canonical h
  | .ownsetClr _ => execOwnsetClr_canonical h
  | .atom _ => execAtom_canonical h
  | .red _ => execRed_canonical h
  | .cas _ => execCas_canonical h
  | .lockq _ => execLockq_canonical h
  | .lockr _ => execLockr_canonical h
  | .fence _ => execFence_canonical h
  | .acq _ => execAcq_canonical h
  | .rel _ => execRel_canonical h
  | .coll _ => execColl_canonical h
  | .taperec _ => execTaperec_canonical h
  | .tapeend _ => execTapeend_canonical h
  | .tapeplay _ => execTapeplay_canonical h
  | .tapegrd _ => execTapegrd_canonical h
  | .tapepatArg _ => execTapepatArg_canonical h
  | .tapepatConst _ => execTapepatConst_canonical h
  | .tapedropQuad _ => execTapedropQuad_canonical h
  | .tapedropAll _ => execTapedropAll_canonical h
  | .tapeinfo _ => execTapeinfo_canonical h
  | .timerdNow _ => execTimerdNow_canonical h
  | .timerdStat _ => execTimerdStat_canonical h
  | .timecmp _ => execTimecmp_canonical h
  | .timewaitAbs _ => execTimewaitAbs_canonical h
  | .timewaitRel _ => execTimewaitRel_canonical h
  | .timeadjSlew _ => execTimeadjSlew_canonical h
  | .timeadjStep _ => execTimeadjStep_canonical h
  | .launch _ => execLaunch_canonical h
  | .qpush _ => execQpush_canonical h
  | .range _ => execRange_canonical h
  | .rgive _ => execRgive_canonical h
  | .qprio _ => execQprio_canonical h
  | .qinfo _ => execQinfo_canonical h
  | .qbindBind _ => execQbindBind_canonical h
  | .qbindUnbind _ => execQbindUnbind_canonical h
  | .ctxinfo _ => execCtxinfo_canonical h
  | .trap _ => execTrap_canonical h
  | .hcall _ => execHcall_canonical h
  | .evbindBind _ => execEvbindBind_canonical h
  | .evbindUnbind _ => execEvbindUnbind_canonical h
  | .fltrd _ => execFltrd_canonical h
  | .resumeRetry _ => execResumeRetry_canonical h
  | .resumeDiscard _ => execResumeDiscard_canonical h
  | .replayall _ => execReplayall_canonical h
  | .ctxsave _ => execCtxsave_canonical h
  | .ctxload _ => execCtxload_canonical h
  | .csrrd _ => execCsrrd_canonical h
  | .csrwr _ => execCsrwr_canonical h
  | .perfrd _ => execPerfrd_canonical h
  | .linkctlPause _ => execLinkctlPause_canonical h
  | .linkctlResume _ => execLinkctlResume_canonical h
  | .linkctlMap _ => execLinkctlMap_canonical h
  | .linkctlSched _ => execLinkctlSched_canonical h
  | .linkctlCancel _ => execLinkctlCancel_canonical h
  | .linkctlClrcnt _ => execLinkctlClrcnt_canonical h
  | .linkctlCfg _ => execLinkctlCfg_canonical h
  | .linkst _ => execLinkst_canonical h
  | .corestopStop _ => execCorestopStop_canonical h
  | .corestopStart _ => execCorestopStart_canonical h
  | .clockChangeRequest _ _ => execClockChangeRequest_canonical h
  | .clockSettled _ => execClockSettled_canonical h
  | .clampAct _ _ _ => execClampAct_canonical h
  | .clampRelease _ => execClampRelease_canonical h
  | .thermalTrip => execThermalTrip_canonical h
  | .tokenServe _ _ => execTokenServe_canonical h
  | .frameSpill _ => execFrameSpill_canonical h
  | .frameFill _ _ => execFrameFill_canonical h
  | .deferredFree _ _ => execDeferredFree_canonical h
  | .releaseMessage _ _ => execReleaseMessage_canonical h
  | .tileSpaceReturn _ _ => execTileSpaceReturn_canonical h
  | .hostPush _ _ _ _ => execHostPush_canonical h
  | .distributorSelect _ => execDistributorSelect_canonical h
  | .priorityAging _ _ => execPriorityAging_canonical h
  | .bind _ => execBind_canonical h
  | .askForWork _ _ => execAskForWork_canonical h
  | .askServe _ => execAskServe_canonical h
  | .partReport _ _ => execPartReport_canonical h
  | .rangeTaskComplete _ => execRangeTaskComplete_canonical h
  | .pushPortRelease _ _ => execPushPortRelease_canonical h
  | .replayCursorGrant _ => execReplayCursorGrant_canonical h
  | .guardSnapshot _ => execGuardSnapshot_canonical h
  | .replayIssue _ _ => execReplayIssue_canonical h
  | .probeStart _ _ => execProbeStart_canonical h
  | .replayComplete _ _ => execReplayComplete_canonical h
  | .replayFault _ _ => execReplayFault_canonical h
  | .installStart _ _ _ => execInstallStart_canonical h
  | .installComplete _ _ _ => execInstallComplete_canonical h
  | .quarantineNotice _ => execQuarantineNotice_canonical h
  | .abortFree _ _ => execAbortFree_canonical h
  | .switchAccept _ _ => execSwitchAccept_canonical h
  | .switchDrain _ _ => execSwitchDrain_canonical h
  | .bridgeProduce _ _ => execBridgeProduce_canonical h
  | .bridgeConsume _ _ => execBridgeConsume_canonical h
  | .objLoad _ => execObjLoad_canonical h
  | .objUnload _ => execObjUnload_canonical h
  | .lightDispatch _ => execLightDispatch_canonical h
  | .engineDispatch _ => execEngineDispatch_canonical h
  | .dispatchTurn _ _ => execDispatchTurn_canonical h
  | .quiesced _ => execQuiesced_canonical h
  | .dividerEmit _ => execDividerEmit_canonical h
  | .pageSetBump _ => execPageSetBump_canonical h
  | .bumpDone _ => execBumpDone_canonical h
  | .translationWindowFill _ _ _ _ => execTranslationWindowFill_canonical h
  | .replicaPropagate _ => execReplicaPropagate_canonical h
  | .publishSwap _ _ => execPublishSwap_canonical h
  | .agRow _ _ => execAgRow_canonical h
  | .tnewGrant _ => execTnewGrant_canonical h
  | .splitPhaseComplete _ _ => execSplitPhaseComplete_canonical h
  | .copyComplete _ _ => execCopyComplete_canonical h
  | .vectorCommandStart _ => execVectorCommandStart_canonical h
  | .vectorComplete _ => execVectorComplete_canonical h
  | .reductionRelease _ _ _ => execReductionRelease_canonical h
  | .matrixItemStart _ _ => execMatrixItemStart_canonical h
  | .rowFiring _ _ => execRowFiring_canonical h
  | .matrixItemFinish _ _ => execMatrixItemFinish_canonical h
  | .markerItem _ _ => execMarkerItem_canonical h
  | .bindingRelease _ => execBindingRelease_canonical h
  | .gangGrant _ _ => execGangGrant_canonical h
  | .tbWaiterRelease _ => execTbWaiterRelease_canonical h
  | .tbwaitRetry _ _ => execTbwaitRetry_canonical h
  | .barArrival _ _ => execBarArrival_canonical h
  | .collArrival _ _ => execCollArrival_canonical h
  | .updateApply _ _ => execUpdateApply_canonical h
  | .lockGrant _ _ => execLockGrant_canonical h
  | .timewaitRelease _ => execTimewaitRelease_canonical h
  | .timewaitRetry _ => execTimewaitRetry_canonical h
  | .syncExchange _ => execSyncExchange_canonical h
  | .timeMessage _ _ => execTimeMessage_canonical h
  | .holdoverEnter _ => execHoldoverEnter_canonical h
  | .holdoverTick _ => execHoldoverTick_canonical h
  | .podSyncExchange _ _ _ => execPodSyncExchange_canonical h
  | .ptpMessage _ _ => execPtpMessage_canonical h
  | .flitSend _ _ => execFlitSend_canonical h
  | .flitData _ _ => execFlitData_canonical h
  | .flitOpen _ _ => execFlitOpen_canonical h
  | .flitClose _ _ => execFlitClose_canonical h
  | .flitAck _ _ => execFlitAck_canonical h
  | .flitIdle _ _ => execFlitIdle_canonical h
  | .ackDue _ _ => execAckDue_canonical h
  | .retryWindow _ _ => execRetryWindow_canonical h
  | .changeProposal _ _ => execChangeProposal_canonical h
  | .changeReply _ _ => execChangeReply_canonical h
  | .changeQuiesce _ _ => execChangeQuiesce_canonical h
  | .changeQuiet _ _ => execChangeQuiet_canonical h
  | .retrainStart _ _ => execRetrainStart_canonical h
  | .trainingComplete _ _ => execTrainingComplete_canonical h
  | .linkLoss _ _ => execLinkLoss_canonical h
  | .memoryError _ => execMemoryError_canonical h
  | .eventSend _ _ => execEventSend_canonical h
  | .saveWrite _ => execSaveWrite_canonical h
  | .taskCompletion _ => execTaskCompletion_canonical h
  | .nvmeCompletion _ _ _ => execNvmeCompletion_canonical h
  | .registerWrite _ _ => execRegisterWrite_canonical h
  | .seedWrite _ _ => execSeedWrite_canonical h
  | .flogrdWrite _ _ => execFlogrdWrite_canonical h
  | .ctxActivate _ => execCtxActivate_canonical h
  | .ctxDestroy _ => execCtxDestroy_canonical h
  | .apertureAccess _ _ _ => execApertureAccess_canonical h
  | .windowWrite _ _ => execWindowWrite_canonical h
  | .ownerkeyWrite _ => execOwnerkeyWrite_canonical h
  | .signersWrite _ _ => execSignersWrite_canonical h
  | .mboxQuote => execMboxQuote_canonical h
  | .mboxLog => execMboxLog_canonical h
  | .linkPolicy _ => execLinkPolicy_canonical h
  | .moduleReset => execModuleReset_canonical h
  | .bootStage _ => execBootStage_canonical h
  | .capEntryFree _ _ => execCapEntryFree_canonical h
  | .flitDiscard _ _ _ => execFlitDiscard_canonical h
  | .slewComplete _ => execSlewComplete_canonical h
  | .freeSlotReport _ => execFreeSlotReport_canonical h
  | .boardPowerOff => execBoardPowerOff_canonical h

/-- One step: a fault of the machine itself, or a meaning that runs in a state which differs in what is due. -/
theorem step_canonical : NextCanonical (step s) := by
  unfold step
  split
  · trivial
  · split
    · split
      · trivial
      · split
        · exact exec_canonical h.update _
        · trivial
    · split
      · exact exec_canonical h.update _
      · split
        · exact exec_canonical h.pass.update _
        · exact h.freeStep

end

/-- Settles O3: each operation that the meanings share keeps the canonical form, and so does each meaning made of them. -/
theorem stepKeepsMemoryCanonical : Obligations.StepKeepsMemoryCanonical := by
  unfold Obligations.StepKeepsMemoryCanonical
  intro s t h e
  have hn : NextCanonical (step s) := step_canonical h
  rwa [e] at hn

end Sys2Proof.Machine

/-! SUPPORT. The frame of the scalar operators: tokens, flags and the rounding generator (R12, R60, R92, R221). -/

namespace Sys2Proof.Machine

variable {s t : State} {g : Firing} {f : Fields}

/-! ## What delivery depends on -/

/-- Delivery depends on region maps and frames only. -/
theorem State.delivers_of_frames (h : s.delivers g f) (hp : ∀ n v, (t.ctx n).phys v = (s.ctx n).phys v)
    (hf : ∀ c fp, (t.core c).anyFrame? fp = (s.core c).anyFrame? fp) : t.delivers g f := by
  have hd (d : Dest) : t.destFp g d = s.destFp g d := by
    unfold State.destFp
    simp only [hf]
  have hr (d : Dest) (r : s.reaches g d) : t.reaches g d := by
    unfold State.reaches State.fpCore at *
    simp only [hp, hf, hd]
    exact r
  obtain ⟨h0, h1, h2⟩ := h
  exact ⟨h0, hr _ h1, hr _ h2⟩

theorem State.delivers_retire (h : s.delivers g f) : s.retire.delivers g f :=
  State.delivers_of_frames h (fun _ _ => rfl) (fun _ _ => rfl)

theorem State.delivers_setFlags {ctx : Nat} {fl : Flags} (h : s.delivers g f) : (s.setFlags ctx fl).delivers g f := by
  unfold State.setFlags
  split
  · exact h
  · refine State.delivers_of_frames h (fun n v => ?_) (fun _ _ => rfl)
    rw [State.ctx_modCtx]
    split
    next e => subst e; rfl
    · rfl

theorem State.delivers_drawFor {core : Nat} {rm : Rounding} (h : s.delivers g f) : (s.drawFor core rm).1.delivers g f := by
  unfold State.drawFor
  split
  · refine State.delivers_of_frames h (fun _ _ => rfl) (fun c fp => ?_)
    dsimp only
    rw [State.core_modCore]
    split
    next e => subst e; rfl
    · rfl
  · exact h

/-- A draw advances the generator of its core under SR and changes nothing otherwise (R92). -/
theorem State.drawFor_fst (s : State) (core : Nat) (rm : Rounding) : (s.drawFor core rm).1 =
    if rm = .sr then s.modCore core (fun k => { k with lfsr := lfsrDraw (s.core core).lfsr }) else s := by
  unfold State.drawFor
  split <;> rfl

/-! ## Operators whose results are emitted at once -/

/-- The outcome is a state that differs from s, with some flags set, by tokens on their way only. -/
def EmitsWithFlags (s : State) (ctx : Nat) (o : Host.Outcome State Fault Refusal) : Prop :=
  ∃ (u : State) (fl : Flags), o = .next u ∧ (s.setFlags ctx fl).onlyTokens u

theorem emitBoth_emitsWithFlags {v : Val} (hd : s.delivers g f) : EmitsWithFlags s g.ctx (.next (s.emitBoth g f v)) :=
  ⟨_, 0, rfl, State.onlyTokens_emitBoth hd⟩

theorem scalarResult_emitsWithFlags {x : U64} {p : BitVec 4} {vs : List Val} {fl : Flags} (hd : s.delivers g f) :
    EmitsWithFlags s g.ctx (.next (scalarResult f s g x p vs fl)) :=
  ⟨_, fl, rfl, State.onlyTokens_emitBoth (State.delivers_setFlags hd)⟩

section
variable (hc : s.cur = some g) (hs : g.scalars)
include hc hs

theorem operate_emitsWithFlags {ctx : Nat} {n : Need} {k : State → Firing → Val → Option Val → Option Val → State}
    (hl : n.kl .scalar = true) (hr : n.kr .scalar = true) (ht : n.kt .scalar = true)
    (hk : EmitsWithFlags t ctx (.next (k s.retire g g.l g.r g.t))) : EmitsWithFlags t ctx (.next (s.operate n f k)) := by
  rwa [State.operate_scalars hc hs hl hr ht]

variable (hd : s.delivers g f)
include hd

theorem scalarInt_emitsWithFlags {ident : U64} {op : Nat → Nat → Nat × Flags} {prov : Val → Option Val → BitVec 4} :
    EmitsWithFlags s.retire g.ctx (scalarInt f s ident op prov) :=
  operate_emitsWithFlags hc hs rfl rfl rfl (scalarResult_emitsWithFlags (State.delivers_retire hd))

theorem scalarShift_emitsWithFlags {op : Nat} : EmitsWithFlags s.retire g.ctx (scalarShift op f s) :=
  operate_emitsWithFlags hc hs rfl rfl rfl (scalarResult_emitsWithFlags (State.delivers_retire hd))

theorem scalarUnary_emitsWithFlags {op : Nat → U64 × Flags} : EmitsWithFlags s.retire g.ctx (scalarUnary f s op) :=
  operate_emitsWithFlags hc hs rfl rfl rfl (scalarResult_emitsWithFlags (State.delivers_retire hd))

theorem scalarFloat_emitsWithFlags {ident : U64} {op : Num → Num → Num → Exact × Flags} :
    EmitsWithFlags (s.retire.drawFor g.core f.rm).1 g.ctx (scalarFloat f s ident op) :=
  operate_emitsWithFlags hc hs rfl rfl rfl (scalarResult_emitsWithFlags (State.delivers_drawFor (State.delivers_retire hd)))

theorem scalarConvert_emitsWithFlags {src : EType} : EmitsWithFlags (s.retire.drawFor g.core f.rm).1 g.ctx (scalarConvert src f s) :=
  operate_emitsWithFlags hc hs rfl rfl rfl (scalarResult_emitsWithFlags (State.delivers_drawFor (State.delivers_retire hd)))

/-! ### By operator -/

theorem execMoviLo_emitsWithFlags : EmitsWithFlags s.retire g.ctx (execMoviLo f s) :=
  operate_emitsWithFlags hc hs rfl rfl rfl (scalarResult_emitsWithFlags (State.delivers_retire hd))
theorem execMoviHi_emitsWithFlags : EmitsWithFlags s.retire g.ctx (execMoviHi f s) :=
  operate_emitsWithFlags hc hs rfl rfl rfl (scalarResult_emitsWithFlags (State.delivers_retire hd))
theorem execAdd_emitsWithFlags : EmitsWithFlags s.retire g.ctx (execAdd f s) := scalarInt_emitsWithFlags hc hs hd
theorem execSub_emitsWithFlags : EmitsWithFlags s.retire g.ctx (execSub f s) := scalarInt_emitsWithFlags hc hs hd
theorem execMul_emitsWithFlags : EmitsWithFlags s.retire g.ctx (execMul f s) := scalarInt_emitsWithFlags hc hs hd
theorem execMulh_emitsWithFlags : EmitsWithFlags s.retire g.ctx (execMulh f s) := scalarInt_emitsWithFlags hc hs hd
theorem execAnd_emitsWithFlags : EmitsWithFlags s.retire g.ctx (execAnd f s) := scalarInt_emitsWithFlags hc hs hd
theorem execOr_emitsWithFlags : EmitsWithFlags s.retire g.ctx (execOr f s) := scalarInt_emitsWithFlags hc hs hd
theorem execXor_emitsWithFlags : EmitsWithFlags s.retire g.ctx (execXor f s) := scalarInt_emitsWithFlags hc hs hd
theorem execAndn_emitsWithFlags : EmitsWithFlags s.retire g.ctx (execAndn f s) := scalarInt_emitsWithFlags hc hs hd
theorem execShl_emitsWithFlags : EmitsWithFlags s.retire g.ctx (execShl f s) := scalarShift_emitsWithFlags hc hs hd
theorem execShr_emitsWithFlags : EmitsWithFlags s.retire g.ctx (execShr f s) := scalarShift_emitsWithFlags hc hs hd
theorem execSar_emitsWithFlags : EmitsWithFlags s.retire g.ctx (execSar f s) := scalarShift_emitsWithFlags hc hs hd
theorem execRol_emitsWithFlags : EmitsWithFlags s.retire g.ctx (execRol f s) := scalarShift_emitsWithFlags hc hs hd
theorem execMin_emitsWithFlags : EmitsWithFlags s.retire g.ctx (execMin f s) := scalarInt_emitsWithFlags hc hs hd
theorem execMax_emitsWithFlags : EmitsWithFlags s.retire g.ctx (execMax f s) := scalarInt_emitsWithFlags hc hs hd
theorem execAbs_emitsWithFlags : EmitsWithFlags s.retire g.ctx (execAbs f s) := scalarUnary_emitsWithFlags hc hs hd
theorem execNeg_emitsWithFlags : EmitsWithFlags s.retire g.ctx (execNeg f s) := scalarUnary_emitsWithFlags hc hs hd
theorem execAddsatAdd_emitsWithFlags : EmitsWithFlags s.retire g.ctx (execAddsatAdd f s) := scalarInt_emitsWithFlags hc hs hd
theorem execAddsatSub_emitsWithFlags : EmitsWithFlags s.retire g.ctx (execAddsatSub f s) := scalarInt_emitsWithFlags hc hs hd
theorem execCmp_emitsWithFlags : EmitsWithFlags s.retire g.ctx (execCmp f s) :=
  operate_emitsWithFlags hc hs rfl rfl rfl (scalarResult_emitsWithFlags (State.delivers_retire hd))
theorem execSel_emitsWithFlags : EmitsWithFlags s.retire g.ctx (execSel f s) :=
  operate_emitsWithFlags hc hs rfl rfl rfl (emitBoth_emitsWithFlags (State.delivers_retire hd))
theorem execClz_emitsWithFlags : EmitsWithFlags s.retire g.ctx (execClz f s) := scalarUnary_emitsWithFlags hc hs hd
theorem execCtz_emitsWithFlags : EmitsWithFlags s.retire g.ctx (execCtz f s) := scalarUnary_emitsWithFlags hc hs hd
theorem execPopc_emitsWithFlags : EmitsWithFlags s.retire g.ctx (execPopc f s) := scalarUnary_emitsWithFlags hc hs hd
theorem execBfx_emitsWithFlags : EmitsWithFlags s.retire g.ctx (execBfx f s) := scalarUnary_emitsWithFlags hc hs hd
theorem execBfi_emitsWithFlags : EmitsWithFlags s.retire g.ctx (execBfi f s) :=
  operate_emitsWithFlags hc hs rfl rfl rfl (scalarResult_emitsWithFlags (State.delivers_retire hd))
theorem execSext_emitsWithFlags : EmitsWithFlags s.retire g.ctx (execSext f s) := scalarUnary_emitsWithFlags hc hs hd
theorem execZext_emitsWithFlags : EmitsWithFlags s.retire g.ctx (execZext f s) := scalarUnary_emitsWithFlags hc hs hd
theorem execFmin_emitsWithFlags : EmitsWithFlags s.retire g.ctx (execFmin f s) := scalarInt_emitsWithFlags hc hs hd
theorem execFmax_emitsWithFlags : EmitsWithFlags s.retire g.ctx (execFmax f s) := scalarInt_emitsWithFlags hc hs hd
theorem execFcmp_emitsWithFlags : EmitsWithFlags s.retire g.ctx (execFcmp f s) :=
  operate_emitsWithFlags hc hs rfl rfl rfl (scalarResult_emitsWithFlags (State.delivers_retire hd))
theorem execFabs_emitsWithFlags : EmitsWithFlags s.retire g.ctx (execFabs f s) := scalarUnary_emitsWithFlags hc hs hd
theorem execFneg_emitsWithFlags : EmitsWithFlags s.retire g.ctx (execFneg f s) := scalarUnary_emitsWithFlags hc hs hd
theorem execFclass_emitsWithFlags : EmitsWithFlags s.retire g.ctx (execFclass f s) := scalarUnary_emitsWithFlags hc hs hd

theorem execFadd_emitsWithFlags : EmitsWithFlags (s.retire.drawFor g.core f.rm).1 g.ctx (execFadd f s) :=
  scalarFloat_emitsWithFlags hc hs hd
theorem execFsub_emitsWithFlags : EmitsWithFlags (s.retire.drawFor g.core f.rm).1 g.ctx (execFsub f s) :=
  scalarFloat_emitsWithFlags hc hs hd
theorem execFmul_emitsWithFlags : EmitsWithFlags (s.retire.drawFor g.core f.rm).1 g.ctx (execFmul f s) :=
  scalarFloat_emitsWithFlags hc hs hd
theorem execFfma_emitsWithFlags : EmitsWithFlags (s.retire.drawFor g.core f.rm).1 g.ctx (execFfma f s) :=
  scalarFloat_emitsWithFlags hc hs hd
theorem execFcvt_emitsWithFlags : EmitsWithFlags (s.retire.drawFor g.core f.rm).1 g.ctx (execFcvt f s) :=
  scalarConvert_emitsWithFlags hc hs hd
theorem execFtoi_emitsWithFlags : EmitsWithFlags (s.retire.drawFor g.core f.rm).1 g.ctx (execFtoi f s) :=
  scalarConvert_emitsWithFlags hc hs hd
theorem execItof_emitsWithFlags : EmitsWithFlags (s.retire.drawFor g.core f.rm).1 g.ctx (execItof f s) :=
  scalarConvert_emitsWithFlags hc hs hd

end

/-! ## Operators of the divider -/

/-- The outcome is s with one result more in the divider of the core of the firing; of that core nothing else is said. -/
def WaitsInDivider (s : State) (g : Firing) (o : Host.Outcome State Fault Refusal) : Prop :=
  ∃ (u : State) (e : DivResult), o = .next u ∧ e.fire = g ∧ (∀ c, c ≠ g.core → u.core c = s.core c) ∧
    (u.core g.core).divider = (s.core g.core).divider ++ [e] ∧ { u with cores := [] } = { s with cores := [] }

theorem dividerResult_waitsInDivider {x : U64} {p : BitVec 4} {vs : List Val} {fl : Flags} :
    WaitsInDivider s g (.next (dividerResult f s g x p vs fl)) := by
  refine ⟨_, { fire := g, d0 := f.d0, d1 := f.d1, val := Val.computed x g.l.round p vs, flags := fl }, rfl, rfl, fun c hc => ?_, ?_, rfl⟩
  · exact (State.core_modCore ..).trans (if_neg hc.symm)
  · exact congrArg Core.divider (State.core_modCore_same ..)

/-- The draw that an operator takes before its result waits changes nothing that is said. -/
theorem WaitsInDivider.of_drawFor {rm : Rounding} {o : Host.Outcome State Fault Refusal}
    (h : WaitsInDivider (s.drawFor g.core rm).1 g o) : WaitsInDivider s g o := by
  rw [State.drawFor_fst] at h
  split at h
  · obtain ⟨u, e, ho, he, hcs, hv, hu⟩ := h
    refine ⟨u, e, ho, he, fun c hc => ?_, ?_, hu⟩
    · rw [hcs c hc, State.core_modCore, if_neg hc.symm]
    · rw [hv, State.core_modCore_same]
  · exact h

section
variable (hc : s.cur = some g) (hs : g.scalars)
include hc hs

theorem divides_waitsInDivider {k : State → Firing → Val → Option Val → State}
    (hk : WaitsInDivider s.retire g (.next (k s.retire g g.l g.r))) : WaitsInDivider s.retire g (.next (s.divides f k)) := by
  rwa [State.divides, State.execute_some hc, Need.check_plain hs.plain (kindsOk_scalars hs rfl rfl rfl)]

theorem scalarDivRem_waitsInDivider {rem : Bool} : WaitsInDivider s.retire g (scalarDivRem rem f s) :=
  divides_waitsInDivider hc hs dividerResult_waitsInDivider

theorem dividerFloat_waitsInDivider {op : Num → Num → Exact × Flags} : WaitsInDivider s.retire g (dividerFloat f s op) :=
  divides_waitsInDivider hc hs (.of_drawFor (rm := f.rm) dividerResult_waitsInDivider)

theorem execDiv_waitsInDivider : WaitsInDivider s.retire g (execDiv f s) := scalarDivRem_waitsInDivider hc hs
theorem execRem_waitsInDivider : WaitsInDivider s.retire g (execRem f s) := scalarDivRem_waitsInDivider hc hs
theorem execFdiv_waitsInDivider : WaitsInDivider s.retire g (execFdiv f s) := dividerFloat_waitsInDivider hc hs
theorem execFsqrt_waitsInDivider : WaitsInDivider s.retire g (execFsqrt f s) := dividerFloat_waitsInDivider hc hs

end

/-- Settles O10: each of the operators has one of a few shared shapes, whose frame is proved once. -/
theorem scalarOperatorFrame : Obligations.ScalarOperatorFrame := by
  unfold Obligations.ScalarOperatorFrame
  intro s g f hc hs hd
  have draws {i} (h : EmitsWithFlags (s.retire.drawFor g.core f.rm).1 g.ctx (exec i s)) :
      ∃ (u : State) (fl : Flags) (x : BitVec 64), exec i s = .next u ∧
        ((if f.rm = .sr then s.retire.modCore g.core (fun k => { k with lfsr := x }) else s.retire).setFlags g.ctx fl).onlyTokens u := by
    obtain ⟨u, fl, hu, ht⟩ := h
    rw [State.drawFor_fst] at ht
    exact ⟨u, fl, _, hu, ht⟩
  simp only [List.forall_mem_cons, List.not_mem_nil, false_imp_iff, implies_true, and_true]
  refine ⟨?_, ?_, ?_⟩
  · exact ⟨execMoviLo_emitsWithFlags hc hs hd, execMoviHi_emitsWithFlags hc hs hd, execAdd_emitsWithFlags hc hs hd,
      execSub_emitsWithFlags hc hs hd, execMul_emitsWithFlags hc hs hd, execMulh_emitsWithFlags hc hs hd, execAnd_emitsWithFlags hc hs hd,
      execOr_emitsWithFlags hc hs hd, execXor_emitsWithFlags hc hs hd, execAndn_emitsWithFlags hc hs hd, execShl_emitsWithFlags hc hs hd,
      execShr_emitsWithFlags hc hs hd, execSar_emitsWithFlags hc hs hd, execRol_emitsWithFlags hc hs hd, execMin_emitsWithFlags hc hs hd,
      execMax_emitsWithFlags hc hs hd, execAbs_emitsWithFlags hc hs hd, execNeg_emitsWithFlags hc hs hd,
      execAddsatAdd_emitsWithFlags hc hs hd, execAddsatSub_emitsWithFlags hc hs hd, execCmp_emitsWithFlags hc hs hd,
      execSel_emitsWithFlags hc hs hd, execClz_emitsWithFlags hc hs hd, execCtz_emitsWithFlags hc hs hd, execPopc_emitsWithFlags hc hs hd,
      execBfx_emitsWithFlags hc hs hd, execBfi_emitsWithFlags hc hs hd, execSext_emitsWithFlags hc hs hd, execZext_emitsWithFlags hc hs hd,
      execFmin_emitsWithFlags hc hs hd, execFmax_emitsWithFlags hc hs hd, execFcmp_emitsWithFlags hc hs hd,
      execFabs_emitsWithFlags hc hs hd, execFneg_emitsWithFlags hc hs hd, execFclass_emitsWithFlags hc hs hd⟩
  · exact ⟨draws (execFadd_emitsWithFlags hc hs hd), draws (execFsub_emitsWithFlags hc hs hd), draws (execFmul_emitsWithFlags hc hs hd),
      draws (execFfma_emitsWithFlags hc hs hd), draws (execFcvt_emitsWithFlags hc hs hd), draws (execFtoi_emitsWithFlags hc hs hd),
      draws (execItof_emitsWithFlags hc hs hd)⟩
  · exact ⟨execDiv_waitsInDivider hc hs, execRem_waitsInDivider hc hs, execFdiv_waitsInDivider hc hs, execFsqrt_waitsInDivider hc hs⟩

end Sys2Proof.Machine

/-! SUPPORT. What a store changes and what it leaves: chunks at their homes, writes over the links, vaults (R7, R25, R247, R258). -/

namespace Sys2Proof.Machine

variable {s t u : State}

/-! ## Bytes of a memory -/

/-- Memories that agree on n bytes from an address on read the same there. -/
theorem Memory.readBytes_congr {m m' : Memory} (n a : Nat) (h : ∀ b, a ≤ b → b < a + n → m.read b = m'.read b) :
    m.readBytes a n = m'.readBytes a n := by
  induction n generalizing a with
  | zero => rfl
  | succ n ih =>
    have htail : m.readBytes (a + 1) n = m'.readBytes (a + 1) n := ih (a + 1) fun b _ _ => h b (by omega) (by omega)
    simp only [Memory.readBytes, h a (Nat.le_refl a) (by omega), htail]

/-- Bytes written leave every byte outside their range. -/
theorem Memory.read_writeBytes_outside (m : Memory) {a b : Nat} {bs : List Byte} (h : b < a ∨ a + bs.length ≤ b) :
    (m.writeBytes a bs).read b = m.read b := by
  rw [Memory.read_writeBytes, if_neg (by omega)]

/-- Byte n of those written is read at its place. -/
theorem Memory.read_writeBytes_at (m : Memory) (a : Nat) {bs : List Byte} {n : Nat} (h : n < bs.length) :
    (m.writeBytes a bs).read (a + n) = bs[n] := by
  rw [Memory.read_writeBytes, if_pos (by omega), Nat.add_sub_cancel_left, List.getD_eq_getElem _ _ h]

/-! ## A write at a device key -/

@[simp] theorem State.hbmWrite_hbm (a : Nat) (bs : List Byte) (own : Option (Nat × Nat)) :
    (s.hbmWrite a bs own).hbm = s.hbm.writeBytes a bs := by
  unfold State.hbmWrite
  dsimp only
  split <;> rfl

@[simp] theorem State.hbmWrite_streams (a : Nat) (bs : List Byte) (own : Option (Nat × Nat)) :
    (s.hbmWrite a bs own).streams = s.streams := by
  unfold State.hbmWrite
  dsimp only
  split <;> rfl

/-- A write at a device key touches the memory and the tapes that watch it, and nothing else (R154). -/
theorem State.hbmWrite_frame (a : Nat) (bs : List Byte) (own : Option (Nat × Nat)) :
    s.hbmWrite a bs own =
      { s with hbm := (s.hbmWrite a bs own).hbm, tapes := (s.hbmWrite a bs own).tapes, saved := (s.hbmWrite a bs own).saved } := by
  unfold State.hbmWrite
  dsimp only
  split <;> rfl

/-! ## What a store may touch -/

/-- t is s but for device memory, the tapes that watch it, and the writes on their way to replicas and over links. -/
def State.storesInto (s t : State) : Prop :=
  t = { s with hbm := t.hbm, tapes := t.tapes, saved := t.saved, props := t.props, streams := t.streams, links := t.links, ids := t.ids }

theorem State.storesInto_refl : s.storesInto s := rfl

theorem State.storesInto.trans (h : s.storesInto t) (h' : t.storesInto u) : s.storesInto u := by
  unfold State.storesInto at *
  rw [h', h]

theorem State.storesInto.writeKey (h : s.storesInto t) (c : Chunk) : t.writeKey c = s.writeKey c := by
  rw [h]
  rfl

theorem State.hbmWrite_storesInto (a : Nat) (bs : List Byte) (own : Option (Nat × Nat)) : s.storesInto (s.hbmWrite a bs own) := by
  unfold State.storesInto
  rw [State.hbmWrite_frame]

/-! ## One chunk written at its home -/

section Chunk
variable (s) (c : Chunk) (bs : List Byte) (core cmd : Nat) (own : Option (Nat × Nat))

@[simp] theorem State.writeChunk_hbm : (s.writeChunk c bs core cmd own).hbm = s.hbm.writeBytes (s.writeKey c) bs := by
  unfold State.writeChunk
  dsimp only
  split <;> exact State.hbmWrite_hbm ..

@[simp] theorem State.writeChunk_streams : (s.writeChunk c bs core cmd own).streams = s.streams := by
  unfold State.writeChunk
  dsimp only
  split <;> exact State.hbmWrite_streams ..

theorem State.writeChunk_storesInto : s.storesInto (s.writeChunk c bs core cmd own) := by
  unfold State.writeChunk
  dsimp only
  split
  · exact State.hbmWrite_storesInto ..
  · exact (State.hbmWrite_storesInto ..).trans rfl

end Chunk

/-! ## One chunk written, at home or over the links (R25) -/

/-- There is a next link on the way exactly to another stack. -/
theorem nextHop_eq_none {a b : Nat} : nextHop a b = none ↔ a = b := by
  unfold nextHop
  dsimp only
  constructor
  · intro h
    split at h; · cases h
    split at h; · cases h
    split at h; · cases h
    split at h; · cases h
    omega
  · rintro rfl
    simp

/-- The chunk's home is the HBM of another stack than the core's, so that its bytes go over the links (R25; log 98). -/
def State.farHome (s : State) (core : Nat) (c : Chunk) : Prop :=
  core < 4096 ∧ s.writeKey c < 2 ^ 40 ∧ s.writeKey c / 2 ^ 36 ≠ coreStack core

/-- The write of a row that sets out over the links. -/
def State.rowTransit (s : State) (c : Chunk) (bs : List Byte) (core cmd : Nat) (own : Option (Nat × Nat)) : Transit :=
  { id := s.ids, core := core, cmd := cmd, own := own, key := s.writeKey c, bytes := bs, reps := replicas c }

section Row
variable {c : Chunk} {bs : List Byte} {core cmd : Nat} {own : Option (Nat × Nat)}

theorem State.writeRow_near (h : ¬s.farHome core c) : s.writeRow c bs core cmd own = s.writeChunk c bs core cmd own := by
  have hhop : (if core < 4096 ∧ s.writeKey c < 2 ^ 40 ∧ !bs.isEmpty then nextHop (coreStack core) (s.writeKey c / 2 ^ 36)
      else none) = none := by
    split
    · next hc => exact nextHop_eq_none.mpr (Decidable.byContradiction fun hne => h ⟨hc.1, hc.2.1, Ne.symm hne⟩)
    · rfl
  unfold State.writeRow
  dsimp only
  rw [hhop]

theorem State.writeRow_nil : s.writeRow c [] core cmd own = s.writeChunk c [] core cmd own := by
  unfold State.writeRow
  simp

theorem State.writeRow_far (h : s.farHome core c) (hb : bs ≠ []) : ∃ l side f,
    s.writeRow c bs core cmd own =
      { s with ids := s.ids + 1, streams := s.streams ++ [s.rowTransit c bs core cmd own] }.modLink l side f := by
  obtain ⟨hcore, hkey, hstack⟩ := h
  obtain ⟨⟨l, side, z⟩, hhop⟩ := Option.ne_none_iff_exists'.mp (mt nextHop_eq_none.mp (Ne.symm hstack))
  have hpos : core < 4096 ∧ s.writeKey c < 2 ^ 40 ∧ !bs.isEmpty := ⟨hcore, hkey, by simpa using hb⟩
  refine ⟨l, side, fun e => { e with out := e.out ++ (s.rowTransit c bs core cmd own).flits }, ?_⟩
  unfold State.writeRow
  dsimp only
  rw [if_pos hpos, hhop]
  rfl

/-- A chunk's bytes are written at its home at once, or they set out over the links. -/
theorem State.writeRow_cases (s : State) (c : Chunk) (bs : List Byte) (core cmd : Nat) (own : Option (Nat × Nat)) :
    s.writeRow c bs core cmd own = s.writeChunk c bs core cmd own ∨ ∃ l side f, s.writeRow c bs core cmd own =
      { s with ids := s.ids + 1, streams := s.streams ++ [s.rowTransit c bs core cmd own] }.modLink l side f := by
  rcases Classical.em (s.farHome core c) with hfar | hnear
  · rcases eq_or_ne bs [] with rfl | hb
    · exact .inl State.writeRow_nil
    · exact .inr (State.writeRow_far hfar hb)
  · exact .inl (State.writeRow_near hnear)

theorem State.writeRow_storesInto : s.storesInto (s.writeRow c bs core cmd own) := by
  rcases s.writeRow_cases c bs core cmd own with h | ⟨l, side, f, h⟩
  · exact h ▸ s.writeChunk_storesInto ..
  · exact h ▸ rfl

theorem State.writeRow_read_outside {a : Nat} (h : a < s.writeKey c ∨ s.writeKey c + bs.length ≤ a) :
    (s.writeRow c bs core cmd own).hbm.read a = s.hbm.read a := by
  rcases s.writeRow_cases c bs core cmd own with hw | ⟨l, side, f, hw⟩
  · rw [hw, State.writeChunk_hbm, Memory.read_writeBytes_outside _ h]
  · rw [hw, State.modLink_hbm]

/-! ## A run of chunks -/

theorem State.writeChunks_cons (cs : List Chunk) : s.writeChunks (c :: cs) bs core cmd own =
    (s.writeRow c (bs.take c.len) core cmd own).writeChunks cs (bs.drop c.len) core cmd own := rfl

theorem State.writeChunks_storesInto (cs : List Chunk) : s.storesInto (s.writeChunks cs bs core cmd own) := by
  induction cs generalizing s bs with
  | nil => exact State.storesInto_refl
  | cons c cs ih =>
    rw [State.writeChunks_cons]
    exact State.writeRow_storesInto.trans ih

theorem State.writeChunks_read_outside {a : Nat} (cs : List Chunk)
    (h : ∀ c ∈ cs, a < s.writeKey c ∨ s.writeKey c + c.len ≤ a) :
    (s.writeChunks cs bs core cmd own).hbm.read a = s.hbm.read a := by
  induction cs generalizing s bs with
  | nil => rfl
  | cons c cs ih =>
    obtain ⟨hc, hcs⟩ := List.forall_mem_cons.mp h
    have hlen : (bs.take c.len).length ≤ c.len := List.length_take_le ..
    have hrest : ∀ d ∈ cs, a < (s.writeRow c (bs.take c.len) core cmd own).writeKey d ∨
        (s.writeRow c (bs.take c.len) core cmd own).writeKey d + d.len ≤ a := by
      intro d hd
      rw [State.writeRow_storesInto.writeKey d]
      exact hcs d hd
    rw [State.writeChunks_cons, ih hrest]
    exact State.writeRow_read_outside (by omega)

theorem State.writeChunks_single (h : c.len = bs.length) : s.writeChunks [c] bs core cmd own = s.writeRow c bs core cmd own := by
  rw [State.writeChunks_cons, h, List.take_length]
  rfl

end Row

/-! ## The obligation -/

theorem State.sideWrite_cap {core cap off : Nat} {bs : List Byte} {kc cmd : Nat} {own : Option (Nat × Nat)} {cs : List Chunk}
    (h : s.xlate ((s.core kc).cap cap).root.toNat (s.core kc).win cap .write (((s.core kc).cap cap).vbase + off) bs.length = .ok cs) :
    s.sideWrite (.cap kc cap) off bs core cmd own = .ok (s.writeChunks cs bs core cmd own) := by
  unfold State.sideWrite
  dsimp only
  rw [h]
  rfl

/-- Vault bytes that a write does not name read as before: another core's, or another range of the same core's. -/
theorem State.setVaultBytes_outside {core off c n k : Nat} {bs : List Byte} (hoff : off + bs.length ≤ 2 ^ 22) (hn : n + k ≤ 2 ^ 22)
    (h : c ≠ core ∨ n + k ≤ off ∨ off + bs.length ≤ n) : (s.setVaultBytes core off bs).vaultBytes c n k = s.vaultBytes c n k := by
  unfold State.vaultBytes State.setVaultBytes
  refine Memory.readBytes_congr k (vaultKey c n) fun b hlo hhi => ?_
  unfold vaultKey at *
  exact Memory.read_writeBytes_outside s.vault (by omega)

/-- Settles O9: the first part by induction on the chunks, each at its home or over the links; the others from what a memory reads after a write. -/
theorem storesChangeOnlyTheirBytes : Obligations.StoresChangeOnlyTheirBytes := by
  unfold Obligations.StoresChangeOnlyTheirBytes
  refine ⟨fun s core cap off bs kc cmd own cs hx => ?_, fun s core off bs hoff => ?_, fun s a bs own => ?_⟩
  · refine ⟨_, State.sideWrite_cap hx, State.writeChunks_storesInto cs, ?_,
      fun a ha => State.writeChunks_read_outside cs ha, ?_⟩
    · intro hs
      have h : s.Canonical := hs
      exact h.writeChunks
    rintro c rfl hlen hb
    rw [State.writeChunks_single hlen]
    refine ⟨fun hnear => ?_, fun hfar => ?_⟩
    · rw [State.writeRow_near hnear]
      exact ⟨State.writeChunk_streams .., fun n hn => by rw [State.writeChunk_hbm, Memory.read_writeBytes_at _ _ hn]⟩
    · obtain ⟨l, side, f, hw⟩ := State.writeRow_far (cmd := cmd) (own := own) hfar hb
      rw [hw]
      exact ⟨rfl, s.rowTransit c bs core cmd own, rfl, rfl, rfl, rfl, rfl⟩
  · exact ⟨rfl, fun h => State.Canonical.setVaultBytes h, Memory.readBytes_writeBytes ..,
      fun c n k hn hout => State.setVaultBytes_outside hoff hn hout⟩
  · refine ⟨s.hbmWrite_frame a bs own, fun h => State.Canonical.hbmWrite h, ?_, fun b hb => ?_⟩
    · rw [State.hbmWrite_hbm, Memory.readBytes_writeBytes]
    · rw [State.hbmWrite_hbm, Memory.read_writeBytes_outside _ hb]

end Sys2Proof.Machine

/-! SUPPORT. The decoder and the encoder are inverse on well-formed operators (R55, R62, R64, R67); the spec's own words and its unassigned opcodes (R66). -/

namespace Sys2Proof

open Laws

/-! ## Forms -/

/-- `FormKept` of every step: the facts of its constructors, in the order of `Instr`. -/
theorem formKept (i : Instr) : FormKept.Statement i :=
  Instr.casesOn (motive := FormKept.Statement) i
    FormKept.nop FormKept.fork FormKept.steer FormKept.gate FormKept.sync FormKept.drop FormKept.falloc FormKept.ffreeFp FormKept.ffreeSelf
    FormKept.fstore FormKept.fstick FormKept.freadSlot FormKept.freadSelf FormKept.call FormKept.callExt FormKept.ret FormKept.sendto
    FormKept.iterNext FormKept.iterSet FormKept.punctMark FormKept.punctAfter FormKept.rjoin FormKept.filter FormKept.compact
    FormKept.ordmerge FormKept.nullsetAll FormKept.nullsetIfz FormKept.isnullNull FormKept.isnullKind FormKept.switch FormKept.endOp
    FormKept.moviLo FormKept.moviHi FormKept.add FormKept.sub FormKept.mul FormKept.mulh FormKept.div FormKept.rem FormKept.and FormKept.or
    FormKept.xor FormKept.andn FormKept.shl FormKept.shr FormKept.sar FormKept.rol FormKept.min FormKept.max FormKept.abs FormKept.neg
    FormKept.addsatAdd FormKept.addsatSub FormKept.cmp FormKept.sel FormKept.clz FormKept.ctz FormKept.popc FormKept.bfx FormKept.bfi
    FormKept.sext FormKept.zext FormKept.fadd FormKept.fsub FormKept.fmul FormKept.ffma FormKept.fdiv FormKept.fsqrt FormKept.fmin
    FormKept.fmax FormKept.fcmp FormKept.fcvt FormKept.ftoi FormKept.itof FormKept.fabs FormKept.fneg FormKept.fclass FormKept.tnewHere
    FormKept.tnewAt FormKept.trel FormKept.tdup FormKept.tview FormKept.tinfo FormKept.tlayout FormKept.tfill FormKept.tcopy FormKept.xlate
    FormKept.capcutCut FormKept.capcutFree FormKept.fetchGlb FormKept.fetchEp FormKept.fetchPort FormKept.putGlb FormKept.putEp
    FormKept.putPort FormKept.ldg FormKept.stg FormKept.ldv FormKept.stv FormKept.agset FormKept.agrun FormKept.agstop FormKept.sbindAg
    FormKept.sbindBq FormKept.sbindPeer FormKept.sbindEp FormKept.sbindUnbind FormKept.sbar FormKept.mcast FormKept.permit
    FormKept.publishTile FormKept.publishGlb FormKept.epbind FormKept.epdrop FormKept.vadd FormKept.vsub FormKept.vmul FormKept.vfma
    FormKept.vdiv FormKept.vmin FormKept.vmax FormKept.vabs FormKept.vneg FormKept.vexp2 FormKept.vlog2 FormKept.vrcp FormKept.vrsq
    FormKept.vsqrt FormKept.vtanh FormKept.vsigm FormKept.vcvt FormKept.vqmx FormKept.vdqmx FormKept.vcmp FormKept.vsel FormKept.vrsum
    FormKept.vrmax FormKept.vcsum FormKept.vbcast FormKept.vrbc FormKept.vtrans FormKept.viota FormKept.vcomp FormKept.vlogic
    FormKept.vshift FormKept.mbind FormKept.munbind FormKept.macc FormKept.mrowAcc FormKept.mrowOut FormKept.mma FormKept.mmag
    FormKept.msclSet FormKept.msclClr FormKept.mrd FormKept.moutKeep FormKept.moutClr FormKept.mclr FormKept.mresc FormKept.mdrainCur
    FormKept.mdrainAll FormKept.tbinit FormKept.tbexp FormKept.tbarrArr FormKept.tbarrTx FormKept.tbarrArrtx FormKept.tbwait FormKept.tbinv
    FormKept.bar FormKept.ownsetSet FormKept.ownsetClr FormKept.atom FormKept.red FormKept.cas FormKept.lockq FormKept.lockr FormKept.fence
    FormKept.acq FormKept.rel FormKept.coll FormKept.taperec FormKept.tapeend FormKept.tapeplay FormKept.tapegrd FormKept.tapepatArg
    FormKept.tapepatConst FormKept.tapedropQuad FormKept.tapedropAll FormKept.tapeinfo FormKept.timerdNow FormKept.timerdStat
    FormKept.timecmp FormKept.timewaitAbs FormKept.timewaitRel FormKept.timeadjSlew FormKept.timeadjStep FormKept.launch FormKept.qpush
    FormKept.range FormKept.rgive FormKept.qprio FormKept.qinfo FormKept.qbindBind FormKept.qbindUnbind FormKept.ctxinfo FormKept.trap
    FormKept.hcall FormKept.evbindBind FormKept.evbindUnbind FormKept.fltrd FormKept.resumeRetry FormKept.resumeDiscard FormKept.replayall
    FormKept.ctxsave FormKept.ctxload FormKept.csrrd FormKept.csrwr FormKept.perfrd FormKept.linkctlPause FormKept.linkctlResume
    FormKept.linkctlMap FormKept.linkctlSched FormKept.linkctlCancel FormKept.linkctlClrcnt FormKept.linkctlCfg FormKept.linkst
    FormKept.corestopStop FormKept.corestopStart FormKept.clockChangeRequest FormKept.clockSettled FormKept.clampAct FormKept.clampRelease
    FormKept.thermalTrip FormKept.tokenServe FormKept.frameSpill FormKept.frameFill FormKept.deferredFree FormKept.releaseMessage
    FormKept.tileSpaceReturn FormKept.hostPush FormKept.distributorSelect FormKept.priorityAging FormKept.bind FormKept.askForWork
    FormKept.askServe FormKept.partReport FormKept.rangeTaskComplete FormKept.pushPortRelease FormKept.replayCursorGrant
    FormKept.guardSnapshot FormKept.replayIssue FormKept.probeStart FormKept.replayComplete FormKept.replayFault FormKept.installStart
    FormKept.installComplete FormKept.quarantineNotice FormKept.abortFree FormKept.switchAccept FormKept.switchDrain FormKept.bridgeProduce
    FormKept.bridgeConsume FormKept.objLoad FormKept.objUnload FormKept.lightDispatch FormKept.engineDispatch FormKept.dispatchTurn
    FormKept.quiesced FormKept.dividerEmit FormKept.pageSetBump FormKept.bumpDone FormKept.translationWindowFill FormKept.replicaPropagate
    FormKept.publishSwap FormKept.agRow FormKept.tnewGrant FormKept.splitPhaseComplete FormKept.copyComplete FormKept.vectorCommandStart
    FormKept.vectorComplete FormKept.reductionRelease FormKept.matrixItemStart FormKept.rowFiring FormKept.matrixItemFinish
    FormKept.markerItem FormKept.bindingRelease FormKept.gangGrant FormKept.tbWaiterRelease FormKept.tbwaitRetry FormKept.barArrival
    FormKept.collArrival FormKept.updateApply FormKept.lockGrant FormKept.timewaitRelease FormKept.timewaitRetry FormKept.syncExchange
    FormKept.timeMessage FormKept.holdoverEnter FormKept.holdoverTick FormKept.podSyncExchange FormKept.ptpMessage FormKept.flitSend
    FormKept.flitData FormKept.flitOpen FormKept.flitClose FormKept.flitAck FormKept.flitIdle FormKept.ackDue FormKept.retryWindow
    FormKept.changeProposal FormKept.changeReply FormKept.changeQuiesce FormKept.changeQuiet FormKept.retrainStart FormKept.trainingComplete
    FormKept.linkLoss FormKept.memoryError FormKept.eventSend FormKept.saveWrite FormKept.taskCompletion FormKept.nvmeCompletion
    FormKept.registerWrite FormKept.seedWrite FormKept.flogrdWrite FormKept.ctxActivate FormKept.ctxDestroy FormKept.apertureAccess
    FormKept.windowWrite FormKept.ownerkeyWrite FormKept.signersWrite FormKept.mboxQuote FormKept.mboxLog FormKept.linkPolicy
    FormKept.moduleReset FormKept.bootStage FormKept.capEntryFree FormKept.flitDiscard FormKept.slewComplete FormKept.freeSlotReport
    FormKept.boardPowerOff

/-- An event has no form; an operator, which has one, names no agent that could be missing. -/
theorem Instr.form_isNone_or_agentsOk (i : Instr) : (i.form.isNone || i.agentsOk) = true := by
  cases i <;> rfl

section
variable {i : Instr} {opc : Nat} {fixed : Option Nat} {f : Fields} (h : i.form = some (opc, fixed, f))
include h

theorem Instr.agentsOk_of_form : i.agentsOk = true := by
  simpa [h] using i.form_isNone_or_agentsOk

/-- An operator is encodable when its FN is the one that its name fixes and its fields pass the checks of R67. -/
theorem Instr.encodable_iff :
    i.encodable = true ↔ (∀ k, fixed = some k → f.fn.toNat = k) ∧ installReason ObjInfo.all (Raw.ofFields opc f) = none := by
  unfold Instr.encodable
  rw [h]
  cases fixed <;> simp

theorem Instr.wf_iff :
    i.wf = true ↔ (∀ k, fixed = some k → f.fn.toNat = k) ∧ installReason ObjInfo.all (Raw.ofFields opc f) = none := by
  rw [Instr.wf, Instr.agentsOk_of_form h, Bool.true_and, Instr.encodable_iff h]

theorem encode_of_form : encode i = some (Raw.ofFields opc f).toWord := by
  unfold encode
  rw [h]

end

/-- Only an operator has a word. -/
theorem exists_form_of_encode {i : Instr} {w : U128} (h : encode i = some w) :
    ∃ opc fixed f, i.form = some (opc, fixed, f) ∧ (Raw.ofFields opc f).toWord = w := by
  match hf : i.form with
  | none => simp [encode, hf] at h
  | some (opc, fixed, f) => exact ⟨opc, fixed, f, rfl, Option.some.inj ((encode_of_form hf).symm.trans h)⟩

/-! ## The decoder -/

/-- A word decodes when it passes the checks of R67 and its opcode and FN name an operator. -/
theorem decode_eq_ok_iff {w : U128} {i : Instr} :
    decode w = .ok i ↔ installReason ObjInfo.all (Raw.ofWord w) = none ∧
      mkOp (Raw.ofWord w).opc.toNat (Raw.ofWord w).fn.toNat (Raw.ofWord w).fields = some i := by
  cases hr : installReason ObjInfo.all (Raw.ofWord w) with
  | some n => simp [decode, decodeIn, hr]
  | none =>
    cases hi : mkOp (Raw.ofWord w).opc.toNat (Raw.ofWord w).fn.toNat (Raw.ofWord w).fields with
    | none => simp [decode, decodeIn, hr, hi]
    | some j => simp [decode, decodeIn, hr, hi]

/-- A word whose opcode has no row is refused with reason 1. -/
theorem decode_of_opRow_eq_none {w : U128} (h : opRow (Raw.ofWord w).opc.toNat = none) : decode w = .reject .opcode := by
  simp [decode, decodeIn, installReason, h]

/-! ## The two directions -/

/-- Settles O1: the word's fields are those of the operator, which pass the checks, and they name the operator. -/
theorem encodeDecodeRoundTrip : Obligations.EncodeDecodeRoundTrip := by
  unfold Obligations.EncodeDecodeRoundTrip
  intro i w hwf hw
  obtain ⟨opc, fixed, f, hf, rfl⟩ := exists_form_of_encode hw
  obtain ⟨hfn, hok⟩ := (Instr.wf_iff hf).mp hwf
  obtain ⟨hlt, hop⟩ := formKept i opc fixed f hf hfn
  have hopc : (Raw.ofFields opc f).opc.toNat = opc := (BitVec.toNat_ofNat opc 8).trans (Nat.mod_eq_of_lt hlt)
  rw [decode_eq_ok_iff, Raw.ofWord_toWord, Raw.fields_ofFields, hopc]
  exact ⟨hok, hop⟩

/-- Settles O2: the operator's form is the opcode and the fields of the word, and the bits of an accepted word come back from its fields. -/
theorem decodedWordEncodesBack : Obligations.DecodedWordEncodesBack := by
  unfold Obligations.DecodedWordEncodesBack
  intro w i h
  obtain ⟨hok, hop⟩ := decode_eq_ok_iff.mp h
  obtain ⟨hrm, hscope⟩ := installReason_xt hok
  obtain ⟨fixed, hf, hfn⟩ := mkOp_form (BitVec.isLt _) (BitVec.isLt _) hop
  have hbits := Raw.ofFields_fields (Raw.ofWord w) hrm hscope
  refine ⟨(Instr.wf_iff hf).mpr ⟨hfn, ?_⟩, ?_⟩
  · rwa [hbits]
  · rw [encode_of_form hf, hbits, Raw.toWord_ofWord]

/-! ## Words of the spec -/

/-- The opcodes that R64 leaves unassigned. -/
abbrev UnassignedOpcode (opc : Nat) : Prop :=
  (0x18 ≤ opc ∧ opc < 0x20) ∨ (0x3D ≤ opc ∧ opc < 0x40) ∨ opc = 0x4F ∨ (0x58 ≤ opc ∧ opc < 0x60) ∨ (0x72 ≤ opc ∧ opc < 0x80) ∨ opc = 0x9F ∨
    (0xAC ≤ opc ∧ opc < 0xB0) ∨ opc = 0xC7 ∨ (0xCC ≤ opc ∧ opc < 0xD0) ∨ (0xD8 ≤ opc ∧ opc < 0xE0) ∨ 0xEE ≤ opc

/-- The opcodes without a row are those that R64 leaves unassigned: 256 cases. -/
theorem opRow_eq_none_iff (c : BitVec 8) : opRow c.toNat = none ↔ UnassignedOpcode c.toNat := by
  rw [← Option.isNone_iff_eq_none]
  revert c
  decide

/-- Settles O5: each word by evaluation; an unassigned opcode has no row. -/
theorem specWordsDecode : Obligations.SpecWordsDecode := by
  unfold Obligations.SpecWordsDecode
  exact ⟨rfl, rfl, rfl, rfl, rfl, rfl, rfl, rfl, rfl, fun w h => decode_of_opRow_eq_none ((opRow_eq_none_iff _).mpr h)⟩

end Sys2Proof

/-! SUPPORT. What one step runs: one equation of `step` for each of its cases (R56, R178, R183). -/

namespace Sys2Proof.Machine

section
variable {s : State}

theorem step_unpowered (h : s.mod.powered = false) : step s = .fault .noPower := by
  simp [step, h]

variable (hp : s.mod.powered = true)
include hp

theorem step_of_decode {g : Firing} {w : U128} {i : Instr} (hc : s.cur = some g) (hw : s.fetch g = some w) (hd : decode w = .ok i) :
    step s = exec i { s with cur := some { g with word := some w } } := by
  simp [step, hp, hc, hw, hd]

theorem step_of_due {i : Instr} {rest : List Instr} (hc : s.cur = none) (hd : s.due = i :: rest) :
    step s = exec i { s with due := rest } := by
  simp [step, hp, hc, hd]

theorem step_of_agenda {n : Nat} {i : Instr} {rest : List (Nat × Instr)} (hc : s.cur = none) (hd : s.due = [])
    (ha : s.agenda = (n, i) :: rest) : step s = exec i { s.pass (fun _ => n) with agenda := rest } := by
  simp [step, hp, hc, hd, ha]

theorem step_of_idle (hc : s.cur = none) (hd : s.due = []) (ha : s.agenda = []) : step s = s.freeStep := by
  simp [step, hp, hc, hd, ha]

end

/-- Settles O4: the equations of `step`, case by case. -/
theorem stepRunsDecodedInstruction : Obligations.StepRunsDecodedInstruction := by
  unfold Obligations.StepRunsDecodedInstruction
  exact fun s => ⟨step_unpowered, fun hp => ⟨fun _ _ _ => step_of_decode hp, fun _ _ => step_of_due hp, fun _ _ _ => step_of_agenda hp,
    step_of_idle hp⟩⟩

end Sys2Proof.Machine

/-! SUPPORT. The finite numbers of a format in order of their encodings, and the rounding of a ratio between two of them (R85, R89, R90, R92). -/

namespace Sys2Proof.Machine

variable {t : EType} {x y z q : ℚ}

/-! ## Numbers with a sign -/

/-- A magnitude with a sign. -/
def signedRat (neg : Bool) (q : ℚ) : ℚ := if neg then -q else q

@[simp] theorem signedRat_true (q : ℚ) : signedRat true q = -q := rfl
@[simp] theorem signedRat_false (q : ℚ) : signedRat false q = q := rfl
@[simp] theorem signedRat_zero (neg : Bool) : signedRat neg 0 = 0 := by cases neg <;> simp
@[simp] theorem signedRat_eq_zero {neg : Bool} : signedRat neg q = 0 ↔ q = 0 := by cases neg <;> simp
@[simp] theorem abs_signedRat (neg : Bool) (q : ℚ) : |signedRat neg q| = |q| := by cases neg <;> simp

/-- An encoding has a number exactly when it decodes to a finite one. -/
theorem floatRat_eq_some {b : Nat} : floatRat t b = some x ↔ ∃ neg n u, decodeFloat t b = .fin neg n u ∧ signedRat neg (n / 2 ^ u) = x := by
  unfold floatRat
  constructor
  · intro h
    split at h
    · next neg n u hd => exact ⟨neg, n, u, hd, Option.some.inj h⟩
    · cases h
  · rintro ⟨neg, n, u, hd, rfl⟩
    rw [hd]
    rfl

/-! ## Magnitudes by their encoding -/

/-- The magnitude that the encoding a without its sign has, in units of the smallest subnormal (R85). -/
def magUnits (m a : Nat) : Nat := if a / 2 ^ m = 0 then a else (a % 2 ^ m + 2 ^ m) * 2 ^ (a / 2 ^ m - 1)

/-- From the mantissa f and j exponent steps: the encoding's exponent is j, or j + 1 for a normal number. -/
theorem magUnits_of_mantissa {m j f : Nat} (hf : f < 2 ^ (m + 1)) (hj : j = 0 ∨ 2 ^ m ≤ f) : magUnits m (j * 2 ^ m + f) = f * 2 ^ j := by
  have hm : 0 < 2 ^ m := Nat.two_pow_pos m
  unfold magUnits
  rcases Nat.lt_or_ge f (2 ^ m) with h | h
  · obtain rfl : j = 0 := by omega
    simp [Nat.div_eq_of_lt h]
  · rw [pow_succ] at hf
    have hsplit : j * 2 ^ m + f = (f - 2 ^ m) + 2 ^ m * (j + 1) := by rw [Nat.mul_add, Nat.mul_comm]; omega
    have hlow : f - 2 ^ m < 2 ^ m := by omega
    rw [hsplit, Nat.add_mul_div_left _ _ hm, Nat.div_eq_of_lt hlow, Nat.add_mul_mod_self_left, Nat.mod_eq_of_lt hlow,
      if_neg (by omega), Nat.sub_add_cancel h]
    simp

/-- Every encoding has a mantissa and exponent steps. -/
theorem exists_mantissa (m a : Nat) : ∃ j f, a = j * 2 ^ m + f ∧ f < 2 ^ (m + 1) ∧ (j = 0 ∨ 2 ^ m ≤ f) := by
  have hm : 0 < 2 ^ m := Nat.two_pow_pos m
  have hdm := Nat.div_add_mod' a (2 ^ m)
  have hlt := Nat.mod_lt a hm
  rcases Nat.eq_zero_or_pos (a / 2 ^ m) with h | h
  · rw [h] at hdm
    exact ⟨0, a, by omega, by rw [pow_succ]; omega, .inl rfl⟩
  · obtain ⟨j, hj⟩ := Nat.exists_eq_add_of_le' h
    rw [hj, Nat.add_mul] at hdm
    exact ⟨j, 2 ^ m + a % 2 ^ m, by omega, by rw [pow_succ]; omega, .inr (by omega)⟩

/-- The next encoding is the next number, one unit of the exponent above. -/
theorem magUnits_succ_of_mantissa {m j f : Nat} (hf : f < 2 ^ (m + 1)) (hj : j = 0 ∨ 2 ^ m ≤ f) :
    magUnits m (j * 2 ^ m + f + 1) = (f + 1) * 2 ^ j := by
  rcases Nat.lt_or_ge (f + 1) (2 ^ (m + 1)) with h | h
  · exact magUnits_of_mantissa h (by omega)
  · have hnext : j * 2 ^ m + f + 1 = (j + 1) * 2 ^ m + 2 ^ m := by rw [Nat.add_mul]; rw [pow_succ] at h hf; omega
    have hdouble : f + 1 = 2 ^ m * 2 := by rw [pow_succ] at h hf; omega
    rw [hnext, magUnits_of_mantissa (by rw [pow_succ]; omega) (.inr le_rfl), hdouble, pow_succ]
    ring

theorem magUnits_strictMono (m : Nat) : StrictMono (magUnits m) := by
  refine strictMono_nat_of_lt_succ fun a => ?_
  obtain ⟨j, f, rfl, hf, hj⟩ := exists_mantissa m a
  rw [magUnits_succ_of_mantissa hf hj, magUnits_of_mantissa hf hj]
  exact Nat.mul_lt_mul_of_pos_right (Nat.lt_succ_self f) (Nat.two_pow_pos j)

/-- The magnitude that the encoding a without its sign has (R85). -/
def magRat (t : EType) (a : Nat) : ℚ := magUnits (fmtM t) a / 2 ^ fmtUlp t

theorem magRat_strictMono (t : EType) : StrictMono (magRat t) := fun a b h => by
  unfold magRat
  gcongr
  exact magUnits_strictMono _ h

@[simp] theorem magRat_zero (t : EType) : magRat t 0 = 0 := by simp [magRat, magUnits]

theorem magRat_nonneg (t : EType) (a : Nat) : 0 ≤ magRat t a := by
  unfold magRat
  positivity

/-! ## The numbers of a format -/

/-- Bit k of a number is set where its k + 1 low bits hold 2^k or more. -/
theorem testBit_eq_decide_le_mod (x k : Nat) : x.testBit k = decide (2 ^ k ≤ x % 2 ^ (k + 1)) := by
  have hlow : x % 2 ^ k < 2 ^ k := Nat.mod_lt _ (Nat.two_pow_pos k)
  rw [Nat.testBit_eq_decide_div_mod_eq, Nat.mod_pow_succ]
  rcases Nat.mod_two_eq_zero_or_one (x / 2 ^ k) with h | h
  · simp [h, hlow]
  · simp [h]

theorem tyWidth_sub_one_add_one (t : EType) : tyWidth t - 1 + 1 = tyWidth t := by cases t <;> rfl

/-- Without infinities every encoding but the NaN of E4M3 is a number. -/
theorem le_fmtMax_of_noInf (ht : tyFloat t = true) (hi : fmtInf t = false) {a : Nat} (ha : a < 2 ^ (tyWidth t - 1)) :
    a ≤ fmtMax t ↔ ¬(t = .e4m3 ∧ a = 0x7F) := by
  cases t <;> simp_all [tyFloat, fmtInf, tyWidth, fmtMax] <;> omega

/-- What an encoding has to be to have a number: the rest behind its sign is at most MAX, and gives the magnitude (R85). -/
theorem decodeFloat_eq_fin (ht : tyFloat t = true) {b : Nat} {neg : Bool} {n u : Nat} :
    decodeFloat t b = .fin neg n u ↔ b % 2 ^ (tyWidth t - 1) ≤ fmtMax t ∧ b.testBit (tyWidth t - 1) = neg ∧
      magUnits (fmtM t) (b % 2 ^ (tyWidth t - 1)) = n ∧ fmtUlp t = u := by
  have hmod : b % 2 ^ tyWidth t % 2 ^ (tyWidth t - 1) = b % 2 ^ (tyWidth t - 1) := Nat.mod_mod_of_dvd _ (pow_dvd_pow 2 (Nat.sub_le ..))
  have hlt : b % 2 ^ (tyWidth t - 1) < 2 ^ (tyWidth t - 1) := Nat.mod_lt _ (Nat.two_pow_pos _)
  rw [testBit_eq_decide_le_mod, tyWidth_sub_one_add_one]
  unfold decodeFloat magUnits
  simp only [hmod]
  generalize b % 2 ^ (tyWidth t - 1) = a at hlt
  by_cases hbig : (fmtInf t && decide (fmtMax t < a)) = true
  · have hnot : ¬a ≤ fmtMax t := by simp_all
    rw [if_pos hbig]
    split <;> simp [hnot]
  · have hle : a ≤ fmtMax t ↔ ¬(t = .e4m3 ∧ a = 0x7F) := by
      cases hi : fmtInf t
      · exact le_fmtMax_of_noInf ht hi hlt
      · have : a ≤ fmtMax t := by simp_all
        exact iff_of_true this (by rintro ⟨rfl, -⟩; cases hi)
    rw [if_neg hbig, hle]
    by_cases hnan : t = .e4m3 ∧ a = 0x7F
    · simp [hnan]
    · rw [if_neg hnan]
      split <;> simp [hnan]

/-- The numbers of a format: the magnitudes up to MAX, with either sign. -/
def IsFinite (t : EType) (z : ℚ) : Prop := ∃ neg a, a ≤ fmtMax t ∧ z = signedRat neg (magRat t a)

theorem isFinite_of_floatRat (ht : tyFloat t = true) {b : Nat} (h : floatRat t b = some z) : IsFinite t z := by
  obtain ⟨neg, n, u, hd, rfl⟩ := floatRat_eq_some.mp h
  obtain ⟨ha, -, rfl, rfl⟩ := (decodeFloat_eq_fin ht).mp hd
  exact ⟨neg, _, ha, rfl⟩

theorem fmtMax_lt (t : EType) (ht : tyFloat t = true) : fmtMax t < 2 ^ (tyWidth t - 1) := by
  cases t <;> simp_all [tyFloat, fmtMax, tyWidth]

/-- The encoding of a magnitude up to MAX with a sign. -/
theorem floatRat_encoding (ht : tyFloat t = true) {a : Nat} (ha : a ≤ fmtMax t) (neg : Bool) :
    floatRat t (a + signBit t neg) = some (signedRat neg (magRat t a)) := by
  have hlt : a < 2 ^ (tyWidth t - 1) := ha.trans_lt (fmtMax_lt t ht)
  have hmod : (a + signBit t neg) % 2 ^ (tyWidth t - 1) = a := by cases neg <;> simp [signBit, Nat.mod_eq_of_lt hlt]
  refine floatRat_eq_some.mpr ⟨neg, _, _, (decodeFloat_eq_fin ht).mpr ⟨hmod.le.trans ha, ?_, rfl, rfl⟩, by rw [hmod]; rfl⟩
  rw [testBit_eq_decide_le_mod, pow_succ]
  cases neg
  · simpa [signBit] using (Nat.mod_le ..).trans_lt hlt
  · have hsum : a + 2 ^ (tyWidth t - 1) < 2 ^ (tyWidth t - 1) * 2 := by omega
    simp [signBit, Nat.mod_eq_of_lt hsum]

/-- What lies nearer to zero than a number of the format is one as well. -/
theorem IsFinite.of_magRat_le (h : IsFinite t z) {a : Nat} (ha : magRat t a ≤ |z|) (neg : Bool) : IsFinite t (signedRat neg (magRat t a)) := by
  obtain ⟨neg', c, hc, rfl⟩ := h
  rw [abs_signedRat, abs_of_nonneg (magRat_nonneg t c), (magRat_strictMono t).le_iff_le] at ha
  exact ⟨neg, a, ha.trans hc, rfl⟩

theorem IsFinite.abs_le (h : IsFinite t z) : |z| ≤ magRat t (fmtMax t) := by
  obtain ⟨neg, c, hc, rfl⟩ := h
  rw [abs_signedRat, abs_of_nonneg (magRat_nonneg t c)]
  exact (magRat_strictMono t).monotone hc

/-- No number of the format stands between two neighbouring magnitudes. -/
theorem IsFinite.abs_le_or_ge (h : IsFinite t z) (a : Nat) : |z| ≤ magRat t a ∨ magRat t (a + 1) ≤ |z| := by
  obtain ⟨neg, c, -, rfl⟩ := h
  rw [abs_signedRat, abs_of_nonneg (magRat_nonneg t c), (magRat_strictMono t).le_iff_le, (magRat_strictMono t).le_iff_le]
  exact le_or_gt c a

/-! ## Scaled floors -/

/-- A floor of x, and whether x is that integer. -/
def IsFloor (f : Nat × Bool) (x : ℚ) : Prop := (f.1 : ℚ) ≤ x ∧ x < f.1 + 1 ∧ (f.2 = true ↔ x = f.1)

/-- A ratio scaled by a power of two has the floor that the model takes (R89). -/
theorem isFloor_ratio {n d : Nat} (hd : 0 < d) (k : Int) : IsFloor ((Mag.ratio n d).floor k) ((n : ℚ) / d * 2 ^ k) := by
  have hdpos : (0 : ℚ) < d := by exact_mod_cast hd
  have hscale : (n : ℚ) / d * 2 ^ k = ((n * 2 ^ k.toNat : Nat) : ℚ) / ((d * 2 ^ (-k).toNat : Nat) : ℚ) := by
    rcases Int.le_total 0 k with hk | hk
    · obtain ⟨m, rfl⟩ := Int.eq_ofNat_of_zero_le hk
      simp
      ring
    · obtain ⟨m, hm⟩ := Int.eq_ofNat_of_zero_le (Int.neg_nonneg_of_nonpos hk)
      obtain rfl : k = -(m : Int) := by omega
      simp
      field_simp
  have hb : 0 < d * 2 ^ (-k).toNat := Nat.mul_pos hd (Nat.two_pow_pos _)
  have hbpos : (0 : ℚ) < (d * 2 ^ (-k).toNat : Nat) := by exact_mod_cast hb
  rw [hscale]
  show IsFloor (_ / _, _) _
  generalize n * 2 ^ k.toNat = a
  generalize d * 2 ^ (-k).toNat = b at hb hbpos
  have hsum : (a : ℚ) = b * (a / b : Nat) + (a % b : Nat) := by exact_mod_cast (Nat.div_add_mod a b).symm
  have hmod : ((a % b : Nat) : ℚ) < b := by exact_mod_cast Nat.mod_lt a hb
  have hmod0 : (0 : ℚ) ≤ (a % b : Nat) := by positivity
  refine ⟨?_, ?_, ?_⟩
  · rw [le_div_iff₀ hbpos]; linarith
  · rw [div_lt_iff₀ hbpos]; linarith
  · rw [div_eq_iff hbpos.ne', beq_iff_eq, ← Nat.cast_eq_zero (R := ℚ)]
    constructor <;> intro h <;> linarith

/-! ## A number between two neighbours -/

/-- q lies strictly between lo and hi, and no number of the format does; where the format has numbers on a side of q, the bound there is one. -/
structure Bracket (t : EType) (q lo hi : ℚ) : Prop where
  lo_lt : lo < q
  lt_hi : q < hi
  none_between : ∀ z, IsFinite t z → z ≤ lo ∨ hi ≤ z
  finite_lo : ∀ z, IsFinite t z → z < q → IsFinite t lo
  finite_hi : ∀ z, IsFinite t z → q < z → IsFinite t hi

section
variable {lo hi : ℚ} (h : Bracket t q lo hi)
include h

/-- A bound of the bracket has no number of the format between it and q. -/
theorem Bracket.neighbour (hy : y = lo ∨ y = hi) (hz : IsFinite t z) :
    (y < q → z ≤ y ∨ q ≤ z) ∧ (q < y → z ≤ q ∨ y ≤ z) ∧ (z = q → y = q) := by
  have hlo := h.lo_lt
  have hhi := h.lt_hi
  rcases hy with rfl | rfl
  · rcases h.none_between z hz with hz | hz
    · exact ⟨fun _ => .inl hz, fun hlt => absurd hlt hlo.not_gt, fun heq => absurd heq (by linarith)⟩
    · exact ⟨fun _ => .inr (by linarith), fun hlt => absurd hlt hlo.not_gt, fun heq => absurd heq.symm (by linarith)⟩
  · rcases h.none_between z hz with hz | hz
    · exact ⟨fun hlt => absurd hlt hhi.not_gt, fun _ => .inl (by linarith), fun heq => absurd heq (by linarith)⟩
    · exact ⟨fun hlt => absurd hlt hhi.not_gt, fun _ => .inr hz, fun heq => absurd heq.symm (by linarith)⟩

/-- The nearer bound is no farther from q than any number of the format; one as far off is the other bound, as far off as this one. -/
theorem Bracket.nearest (hy : y = lo ∧ q - lo ≤ hi - q ∨ y = hi ∧ hi - q ≤ q - lo) (hz : IsFinite t z) :
    |y - q| ≤ |z - q| ∧ (|y - q| = |z - q| → z ≠ y → q - lo = hi - q) := by
  have hlo := h.lo_lt
  have hhi := h.lt_hi
  have hzq : z ≤ lo ∧ |z - q| = q - z ∨ hi ≤ z ∧ |z - q| = z - q := by
    rcases h.none_between z hz with hz | hz
    · exact .inl ⟨hz, by rw [abs_of_neg (by linarith)]; ring⟩
    · exact .inr ⟨hz, abs_of_pos (by linarith)⟩
  rcases hy with ⟨rfl, hnear⟩ | ⟨rfl, hnear⟩
  · rw [abs_of_neg (show y - q < 0 by linarith)]
    rcases hzq with ⟨hz, habs⟩ | ⟨hz, habs⟩
    · rw [habs]
      exact ⟨by linarith, fun heq hne => absurd (by linarith) hne⟩
    · rw [habs]
      exact ⟨by linarith, fun heq _ => by linarith⟩
  · rw [abs_of_pos (show 0 < y - q by linarith)]
    rcases hzq with ⟨hz, habs⟩ | ⟨hz, habs⟩
    · rw [habs]
      exact ⟨by linarith, fun heq _ => by linarith⟩
    · rw [habs]
      exact ⟨by linarith, fun heq hne => absurd (by linarith) hne⟩

/-- Two numbers of the format around q with none between them are the bounds. -/
theorem Bracket.unique {a b : ℚ} (ha : IsFinite t a) (hb : IsFinite t b) (haq : a < q) (hqb : q < b)
    (hnone : ∀ z, IsFinite t z → z ≤ a ∨ b ≤ z) : a = lo ∧ b = hi := by
  have hlo := h.lo_lt
  have hhi := h.lt_hi
  constructor
  · rcases h.none_between a ha with h1 | h1
    · rcases hnone lo (h.finite_lo a ha haq) with h2 | h2 <;> linarith
    · linarith
  · rcases h.none_between b hb with h1 | h1
    · linarith
    · rcases hnone hi (h.finite_hi b hb hqb) with h2 | h2 <;> linarith

end

/-- A magnitude strictly between two neighbouring ones, with either sign. -/
theorem bracket_signedRat {a : Nat} (ha : a ≤ fmtMax t) (hlo : magRat t a < q) (hhi : q < magRat t (a + 1)) (neg : Bool) :
    Bracket t (signedRat neg q) (if neg then -magRat t (a + 1) else magRat t a) (if neg then -magRat t a else magRat t (a + 1)) := by
  have hpos := magRat_nonneg t a
  have hfar {z : ℚ} (hz : IsFinite t z) (hq : q < |z|) : magRat t (a + 1) ≤ |z| := by
    rcases hz.abs_le_or_ge a with h | h
    · linarith
    · exact h
  cases neg
  · refine ⟨hlo, hhi, fun z hz => ?_, fun z _ _ => ⟨false, a, ha, rfl⟩, fun z hz hq => ?_⟩
    · rcases hz.abs_le_or_ge a with h | h
      · exact .inl (le_of_abs_le h)
      · rcases le_abs.mp h with h | h
        · exact .inr h
        · exact .inl (show z ≤ magRat t a by linarith)
    · exact hz.of_magRat_le (hfar hz (hq.trans_le (le_abs_self z))) false
  · refine ⟨neg_lt_neg hhi, neg_lt_neg hlo, fun z hz => ?_, fun z hz hq => ?_, fun z _ _ => ⟨true, a, ha, rfl⟩⟩
    · rcases hz.abs_le_or_ge a with h | h
      · exact .inr (neg_le_of_abs_le h)
      · rcases le_abs.mp h with h | h
        · exact .inr (show -magRat t a ≤ z by linarith)
        · exact .inl (show z ≤ -magRat t (a + 1) by linarith)
    · exact hz.of_magRat_le (hfar hz ((lt_neg_of_lt_neg hq).trans_le (neg_le_abs z))) true

/-! ## The choice of a neighbour (R89, R92) -/

section
variable {n d : Nat} (hd : 0 < d) (k : Int) {N : Nat}
include hd

/-- To nearest: away from zero past the half, and at the half from an odd floor. -/
theorem roundsUp_rne (neg : Bool) (rnd : U32) {f : Nat × Bool} (hf : (Mag.ratio n d).floor k = f) :
    roundsUp (.ratio n d) k neg .rne rnd = true ↔
      (1 / 2 : ℚ) < n / d * 2 ^ k - f.1 ∨ (1 / 2 : ℚ) = n / d * 2 ^ k - f.1 ∧ f.1 % 2 = 1 := by
  have hq := isFloor_ratio (n := n) hd k
  have hh := isFloor_ratio (n := n) hd (k + 1)
  rw [zpow_add_one₀ (two_ne_zero), ← mul_assoc] at hh
  unfold roundsUp
  simp only [hf] at hq ⊢
  generalize (Mag.ratio n d).floor (k + 1) = h at hh ⊢
  generalize (n : ℚ) / d * 2 ^ k = x at hq hh ⊢
  obtain ⟨hq1, hq2, -⟩ := hq
  obtain ⟨hh1, hh2, hexact⟩ := hh
  have hlow : 2 * f.1 ≤ h.1 := by
    have : (2 * f.1 : ℚ) < h.1 + 1 := by linarith
    exact Nat.lt_succ_iff.mp (by exact_mod_cast this)
  have hupp : h.1 < 2 * f.1 + 2 := by
    have : (h.1 : ℚ) < 2 * f.1 + 2 := by linarith
    exact_mod_cast this
  have hcases : h.1 = 2 * f.1 ∨ h.1 = 2 * f.1 + 1 := by omega
  rcases hcases with he | he
  · have hhalf : x - f.1 < 1 / 2 := by rw [he] at hh2; push_cast at hh2; linarith
    have heven : ¬h.1 % 2 = 1 := by omega
    simp only [Bool.and_eq_true, beq_iff_eq, heven, false_and, false_iff, not_or, not_lt, not_and]
    exact ⟨hhalf.le, fun heq => absurd heq hhalf.ne'⟩
  · have hhalf : 1 / 2 ≤ x - f.1 := by rw [he] at hh1; push_cast at hh1; linarith
    have hodd : h.1 % 2 = 1 := by omega
    have hmid : h.2 = true ↔ 1 / 2 = x - f.1 := by
      rw [hexact, he]; push_cast
      constructor <;> intro h <;> linarith
    simp only [Bool.and_eq_true, beq_iff_eq, hodd, true_and, Bool.or_eq_true, Bool.not_eq_true']
    rcases hhalf.lt_or_eq with hlt | heq
    · have : h.2 = false := by rw [← Bool.not_eq_true, hmid]; exact hlt.ne
      exact iff_of_true (.inl this) (.inl hlt)
    · have : h.2 = true := hmid.mpr heq
      simp [this, ← heq]

/-- Stochastic: away from zero by the fraction in units of 2^-32, counted from the lower neighbour of the signed number (R92). -/
theorem roundsUp_sr (neg : Bool) (rnd : U32) {f : Nat × Bool} (hf : (Mag.ratio n d).floor k = f) :
    (roundsUp (.ratio n d) k neg .sr rnd != neg) =
      decide ((2 ^ 32 : Int) ≤
        ⌊(if neg then f.1 + 1 - (n : ℚ) / d * 2 ^ k else n / d * 2 ^ k - f.1) * 2 ^ 32⌋ + rnd.toNat) := by
  have hq := isFloor_ratio (n := n) hd k
  have hh := isFloor_ratio (n := n) hd (k + 32)
  rw [zpow_add₀ (two_ne_zero), ← mul_assoc] at hh
  unfold roundsUp
  simp only [hf] at hq ⊢
  generalize (Mag.ratio n d).floor (k + 32) = h at hh ⊢
  generalize (n : ℚ) / d * 2 ^ k = x at hq hh ⊢
  obtain ⟨hq1, hq2, -⟩ := hq
  obtain ⟨hh1, hh2, hexact⟩ := hh
  have hpow : (2 : ℚ) ^ (32 : Int) = 2 ^ 32 := by norm_cast
  rw [hpow] at hh1 hh2 hexact
  have hlow : f.1 * 2 ^ 32 ≤ h.1 := by
    have : (f.1 * 2 ^ 32 : ℚ) < h.1 + 1 := by linarith
    exact Nat.lt_succ_iff.mp (by exact_mod_cast this)
  have hupp : h.1 < (f.1 + 1) * 2 ^ 32 := by
    have : (h.1 : ℚ) < (f.1 + 1) * 2 ^ 32 := by linarith
    exact_mod_cast this
  obtain ⟨c, hc⟩ := Nat.exists_eq_add_of_le hlow
  have hc32 : c < 2 ^ 32 := by omega
  have hfrac : h.1 - f.1 * 2 ^ 32 = c := by omega
  rw [hc] at hh1 hh2 hexact
  push_cast at hh1 hh2 hexact
  rw [hfrac]
  cases neg
  · have hfloor : ⌊(x - f.1) * 2 ^ 32⌋ = (c : Int) := by
      rw [Int.floor_eq_iff]; push_cast; constructor <;> linarith
    simp only [Bool.false_eq_true, if_false, Bool.bne_false, hfloor, decide_eq_decide]
    omega
  · have hfloor : ⌊(f.1 + 1 - x) * 2 ^ 32⌋ = (2 ^ 32 - c - (if h.2 then 0 else 1) : Int) := by
      rw [Int.floor_eq_iff]
      by_cases he : h.2 = true
      · have := hexact.mp he
        simp only [he, if_true]; push_cast; constructor <;> linarith
      · have hne : f.1 * 2 ^ 32 + (c : ℚ) < x * 2 ^ 32 := lt_of_le_of_ne hh1 fun heq => he (hexact.mpr heq.symm)
        simp only [he]; push_cast; constructor <;> simp <;> linarith
    simp only [if_true, hfloor, Bool.bne_true, Bool.not_not, decide_eq_decide]
    split <;> omega

end

/-! ## The rounded encoding -/

/-- The exponent steps above the subnormal spacing with which a magnitude is rounded (R89). -/
def expSteps (t : EType) (m : Mag) : Nat :=
  if (m.floor (fmtUlp t)).1 < 2 ^ (fmtM t + 1) then 0 else Nat.log2 (m.floor (fmtUlp t)).1 - fmtM t

/-- The magnitude is rounded to units of 2 to minus this. -/
def roundUnit (t : EType) (m : Mag) : Int := fmtUlp t - expSteps t m

/-- The encoding of the neighbour on the side of zero. -/
def lowerEnc (t : EType) (m : Mag) : Nat := expSteps t m * 2 ^ fmtM t + (m.floor (roundUnit t m)).1

/-- The magnitude goes to the neighbour away from zero. -/
def goesAway (t : EType) (m : Mag) (neg : Bool) (rm : Rounding) (rnd : U32) : Bool :=
  !(m.floor (roundUnit t m)).2 && roundsUp m (roundUnit t m) neg rm rnd

/-- The encoding of the neighbour chosen, on the grid continued above MAX. -/
def chosenEnc (t : EType) (m : Mag) (neg : Bool) (rm : Rounding) (rnd : U32) : Nat :=
  lowerEnc t m + if goesAway t m neg rm rnd then 1 else 0

section
variable {rm : Rounding} {sat neg : Bool} {rnd : U32} {m : Mag}

theorem roundMag_overflow (h : fmtMax t < chosenEnc t m neg rm rnd) :
    roundMag t rm sat rnd neg m = (overflowEnc t rm sat neg, flagOF ||| flagNX) := if_pos h

theorem roundMag_exact (h : ¬fmtMax t < chosenEnc t m neg rm rnd) (he : (m.floor (roundUnit t m)).2 = true) :
    roundMag t rm sat rnd neg m = (chosenEnc t m neg rm rnd + signBit t neg, 0) := (if_neg h).trans (if_pos he)

theorem roundMag_inexact (h : ¬fmtMax t < chosenEnc t m neg rm rnd) (he : ¬(m.floor (roundUnit t m)).2 = true) :
    ∃ tiny : Bool, roundMag t rm sat rnd neg m = (chosenEnc t m neg rm rnd + signBit t neg, flagNX ||| if tiny then flagUF else 0) :=
  ⟨_, (if_neg h).trans (if_neg he)⟩

end

section
variable {n d : Nat} (hd : 0 < d)
include hd

/-- The floor at the unit of a ratio is the mantissa of an encoding. -/
theorem mantissa_of_ratio (t : EType) : ((Mag.ratio n d).floor (roundUnit t (.ratio n d))).1 < 2 ^ (fmtM t + 1) ∧
    (expSteps t (.ratio n d) = 0 ∨ 2 ^ fmtM t ≤ ((Mag.ratio n d).floor (roundUnit t (.ratio n d))).1) := by
  have hq0 := isFloor_ratio (n := n) hd (fmtUlp t)
  have hf := isFloor_ratio (n := n) hd (roundUnit t (.ratio n d))
  have hj : expSteps t (.ratio n d) = if ((Mag.ratio n d).floor (fmtUlp t)).1 < 2 ^ (fmtM t + 1) then 0
    else Nat.log2 ((Mag.ratio n d).floor (fmtUlp t)).1 - fmtM t := rfl
  rw [roundUnit] at hf ⊢
  rw [zpow_sub₀ two_ne_zero, ← mul_div_assoc] at hf
  generalize expSteps t (.ratio n d) = j at hj hf ⊢
  generalize (Mag.ratio n d).floor (fmtUlp t) = q0 at hq0 hj
  generalize (Mag.ratio n d).floor ((fmtUlp t : Int) - j) = f at hf ⊢
  generalize (n : ℚ) / d * 2 ^ (fmtUlp t : Int) = x at hq0 hf
  obtain ⟨hq1, hq2, -⟩ := hq0
  obtain ⟨hf1, hf2, -⟩ := hf
  have hpow : (0 : ℚ) < 2 ^ (j : Int) := by positivity
  rw [le_div_iff₀ hpow] at hf1
  rw [div_lt_iff₀ hpow] at hf2
  have hlow : f.1 * 2 ^ j ≤ q0.1 := by
    have : (f.1 * 2 ^ (j : Int) : ℚ) < q0.1 + 1 := by linarith
    exact Nat.lt_succ_iff.mp (by exact_mod_cast this)
  have hupp : q0.1 < (f.1 + 1) * 2 ^ j := by
    have : (q0.1 : ℚ) < (f.1 + 1) * 2 ^ (j : Int) := by linarith
    exact_mod_cast this
  have hj2 : 0 < 2 ^ j := Nat.two_pow_pos j
  split at hj
  · next hsmall =>
    subst hj
    exact ⟨by omega, .inl rfl⟩
  · next hbig =>
    have hne : q0.1 ≠ 0 := by rintro h; exact hbig (h ▸ Nat.two_pow_pos _)
    have hlog : fmtM t + 1 ≤ q0.1.log2 := (Nat.le_log2 hne).mpr (by omega)
    obtain ⟨c, hc⟩ := Nat.exists_eq_add_of_le (Nat.le_of_succ_le hlog)
    obtain rfl : j = c := by omega
    have hlog1 : 2 ^ fmtM t * 2 ^ j ≤ q0.1 := by rw [← pow_add, ← hc]; exact Nat.log2_self_le hne
    have hlog2 : q0.1 < 2 ^ (fmtM t + 1) * 2 ^ j := by
      rw [← pow_add, show fmtM t + 1 + j = q0.1.log2 + 1 by omega]
      exact Nat.lt_log2_self
    exact ⟨Nat.lt_of_mul_lt_mul_right (hlow.trans_lt hlog2),
      .inr (Nat.lt_succ_iff.mp (Nat.lt_of_mul_lt_mul_right (hlog1.trans_lt hupp)))⟩

/-- The neighbours of a ratio are its floor and the next integer, in units of 2 to minus the unit. -/
theorem magRat_lowerEnc (t : EType) :
    magRat t (lowerEnc t (.ratio n d)) * 2 ^ roundUnit t (.ratio n d) = ((Mag.ratio n d).floor (roundUnit t (.ratio n d))).1 ∧
    magRat t (lowerEnc t (.ratio n d) + 1) * 2 ^ roundUnit t (.ratio n d) = ((Mag.ratio n d).floor (roundUnit t (.ratio n d))).1 + 1 := by
  obtain ⟨hf, hj⟩ := mantissa_of_ratio (n := n) hd t
  have hunit : (2 : ℚ) ^ roundUnit t (.ratio n d) = 2 ^ fmtUlp t / 2 ^ expSteps t (.ratio n d) := by
    rw [roundUnit, zpow_sub₀ two_ne_zero, zpow_natCast, zpow_natCast]
  rw [hunit, magRat, magRat, lowerEnc, magUnits_of_mantissa hf hj, magUnits_succ_of_mantissa hf hj]
  push_cast
  constructor <;> field_simp

end

/-- The floor is odd where the encoding is. -/
theorem lowerEnc_mod_two (t : EType) (m : Mag) : lowerEnc t m % 2 = (m.floor (roundUnit t m)).1 % 2 := by
  have heven : 2 ∣ expSteps t m * 2 ^ fmtM t := (dvd_pow_self 2 (by cases t <;> decide)).mul_left _
  unfold lowerEnc
  omega

theorem signBit_mod_two (t : EType) (neg : Bool) : signBit t neg % 2 = 0 := by
  cases neg
  · rfl
  · cases t <;> rfl

/-! ## The number that a ratio is rounded to -/

section
variable {n d : Nat} (hd : 0 < d) {neg : Bool} {rm : Rounding} {rnd : U32}
include hd

/-- The distances to the neighbours in units of 2 to minus the unit. -/
theorem distance_lowerEnc (t : EType) :
    (n / d - magRat t (lowerEnc t (.ratio n d))) * 2 ^ roundUnit t (.ratio n d) =
      n / d * 2 ^ roundUnit t (.ratio n d) - ((Mag.ratio n d).floor (roundUnit t (.ratio n d))).1 ∧
    (magRat t (lowerEnc t (.ratio n d) + 1) - n / d) * 2 ^ roundUnit t (.ratio n d) =
      ((Mag.ratio n d).floor (roundUnit t (.ratio n d))).1 + 1 - n / d * 2 ^ roundUnit t (.ratio n d) := by
  obtain ⟨hlow, hupp⟩ := magRat_lowerEnc (n := n) hd t
  exact ⟨by rw [sub_mul, hlow], by rw [sub_mul, hupp]⟩

/-- The neighbour on the side of zero is no farther from zero; it is the ratio itself where the floor is exact. -/
theorem magRat_lowerEnc_le (t : EType) : magRat t (lowerEnc t (.ratio n d)) ≤ n / d ∧ (n : ℚ) / d < magRat t (lowerEnc t (.ratio n d) + 1) ∧
    (((Mag.ratio n d).floor (roundUnit t (.ratio n d))).2 = true ↔ (n : ℚ) / d = magRat t (lowerEnc t (.ratio n d))) := by
  obtain ⟨hlow, hupp⟩ := magRat_lowerEnc (n := n) hd t
  obtain ⟨h1, h2, h3⟩ := isFloor_ratio (n := n) hd (roundUnit t (.ratio n d))
  have hunit : (0 : ℚ) < 2 ^ roundUnit t (.ratio n d) := by positivity
  rw [← hlow] at h1 h3
  rw [← hupp] at h2
  exact ⟨le_of_mul_le_mul_right h1 hunit, lt_of_mul_lt_mul_right h2 hunit.le, h3.trans (mul_left_inj' hunit.ne')⟩

end

/-- The neighbour below the signed number. -/
def lowerBound (t : EType) (m : Mag) (neg : Bool) : ℚ := if neg then -magRat t (lowerEnc t m + 1) else magRat t (lowerEnc t m)

/-- The neighbour above the signed number. -/
def upperBound (t : EType) (m : Mag) (neg : Bool) : ℚ := if neg then -magRat t (lowerEnc t m) else magRat t (lowerEnc t m + 1)

/-- The signed number goes to the neighbour above it. -/
def goesUp (t : EType) (m : Mag) (neg : Bool) (rm : Rounding) (rnd : U32) : Bool := goesAway t m neg rm rnd != neg

theorem signedRat_chosenEnc (t : EType) (m : Mag) (neg : Bool) (rm : Rounding) (rnd : U32) :
    signedRat neg (magRat t (chosenEnc t m neg rm rnd)) = if goesUp t m neg rm rnd then upperBound t m neg else lowerBound t m neg := by
  unfold goesUp chosenEnc upperBound lowerBound
  cases goesAway t m neg rm rnd <;> cases neg <;> rfl

/-- How far the lower neighbour is below the signed number. -/
theorem below_distance (m : Mag) (neg : Bool) (q : ℚ) :
    signedRat neg q - lowerBound t m neg = if neg then magRat t (lowerEnc t m + 1) - q else q - magRat t (lowerEnc t m) := by
  unfold lowerBound
  cases neg
  · rfl
  · exact neg_sub_neg ..

/-- How far the upper neighbour is above the signed number. -/
theorem above_distance (m : Mag) (neg : Bool) (q : ℚ) :
    upperBound t m neg - signedRat neg q = if neg then q - magRat t (lowerEnc t m) else magRat t (lowerEnc t m + 1) - q := by
  unfold upperBound
  cases neg
  · rfl
  · exact neg_sub_neg ..

section
variable {n d : Nat} (hd : 0 < d) (hinexact : ¬((Mag.ratio n d).floor (roundUnit t (.ratio n d))).2 = true)
include hinexact

theorem goesAway_of_inexact (neg : Bool) (rm : Rounding) (rnd : U32) :
    goesAway t (.ratio n d) neg rm rnd = roundsUp (.ratio n d) (roundUnit t (.ratio n d)) neg rm rnd := by
  simp [goesAway, hinexact]

theorem goesUp_rdn (neg : Bool) (rnd : U32) : goesUp t (.ratio n d) neg .rdn rnd = false := by
  rw [goesUp, goesAway_of_inexact hinexact]
  exact bne_self_eq_false neg

theorem goesUp_rup (neg : Bool) (rnd : U32) : goesUp t (.ratio n d) neg .rup rnd = true := by
  rw [goesUp, goesAway_of_inexact hinexact]
  cases neg <;> rfl

include hd

/-- A ratio that is no number of the grid stands strictly between its neighbours. -/
theorem bracket_bounds (hmax : lowerEnc t (.ratio n d) ≤ fmtMax t) (neg : Bool) :
    Bracket t (signedRat neg (n / d)) (lowerBound t (.ratio n d) neg) (upperBound t (.ratio n d) neg) := by
  obtain ⟨h1, h2, h3⟩ := magRat_lowerEnc_le (n := n) hd t
  exact bracket_signedRat hmax (lt_of_le_of_ne h1 fun heq => hinexact (h3.mpr heq.symm)) h2 neg

/-- To nearest: away from zero where that neighbour is nearer, and between two as near from an odd encoding (R89). -/
theorem goesAway_rne (neg : Bool) (rnd : U32) : goesAway t (.ratio n d) neg .rne rnd = true ↔
    magRat t (lowerEnc t (.ratio n d) + 1) - n / d < n / d - magRat t (lowerEnc t (.ratio n d)) ∨
    magRat t (lowerEnc t (.ratio n d) + 1) - n / d = n / d - magRat t (lowerEnc t (.ratio n d)) ∧ lowerEnc t (.ratio n d) % 2 = 1 := by
  obtain ⟨hlow, hupp⟩ := distance_lowerEnc (n := n) hd t
  have hunit : (0 : ℚ) < 2 ^ roundUnit t (.ratio n d) := by positivity
  rw [goesAway_of_inexact hinexact, roundsUp_rne hd _ neg rnd rfl, lowerEnc_mod_two,
    ← (mul_lt_mul_iff_left₀ hunit : _ ↔ magRat t (lowerEnc t (.ratio n d) + 1) - n / d < _),
    ← (mul_left_inj' hunit.ne' : _ ↔ magRat t (lowerEnc t (.ratio n d) + 1) - n / d = _), hlow, hupp]
  constructor <;> rintro (h | ⟨h, hodd⟩)
  · exact .inl (by linarith)
  · exact .inr ⟨by linarith, hodd⟩
  · exact .inl (by linarith)
  · exact .inr ⟨by linarith, hodd⟩

/-- To nearest the bound taken is no farther than the other (R89). -/
theorem goesUp_rne (neg : Bool) (rnd : U32) : if goesUp t (.ratio n d) neg .rne rnd
    then upperBound t (.ratio n d) neg - signedRat neg (n / d) ≤ signedRat neg (n / d) - lowerBound t (.ratio n d) neg
    else signedRat neg (n / d) - lowerBound t (.ratio n d) neg ≤ upperBound t (.ratio n d) neg - signedRat neg (n / d) := by
  have haway := goesAway_rne hd hinexact neg rnd
  rw [below_distance, above_distance]
  unfold goesUp
  cases hup : goesAway t (.ratio n d) neg .rne rnd
  · have hnear := not_lt.mp (not_or.mp (mt haway.mpr (by simp [hup]))).1
    cases neg <;> exact hnear
  · have hnear : magRat t (lowerEnc t (.ratio n d) + 1) - n / d ≤ n / d - magRat t (lowerEnc t (.ratio n d)) := by
      rcases haway.mp hup with h | ⟨h, -⟩
      · exact h.le
      · exact h.le
    cases neg <;> exact hnear

/-- Where both bounds are as far, the one taken has an even encoding (R89). -/
theorem chosenEnc_rne_even (neg : Bool) (rnd : U32)
    (htie : signedRat neg (n / d) - lowerBound t (.ratio n d) neg = upperBound t (.ratio n d) neg - signedRat neg (n / d)) :
    chosenEnc t (.ratio n d) neg .rne rnd % 2 = 0 := by
  have hdist : magRat t (lowerEnc t (.ratio n d) + 1) - n / d = n / d - magRat t (lowerEnc t (.ratio n d)) := by
    rw [below_distance, above_distance] at htie
    cases neg
    · exact htie.symm
    · exact htie
  have hodd : goesAway t (.ratio n d) neg .rne rnd = true ↔ lowerEnc t (.ratio n d) % 2 = 1 := by
    simp [goesAway_rne hd hinexact neg rnd, hdist]
  unfold chosenEnc
  split
  · next h =>
    have := hodd.mp h
    omega
  · next h =>
    have := mt hodd.mpr h
    omega

/-- Stochastic: to the upper neighbour by the fraction of q above the lower one (R92). -/
theorem goesUp_sr (neg : Bool) (rnd : U32) : goesUp t (.ratio n d) neg .sr rnd = decide ((2 ^ 32 : Int) ≤
    ⌊(signedRat neg (n / d) - lowerBound t (.ratio n d) neg) / (upperBound t (.ratio n d) neg - lowerBound t (.ratio n d) neg) * 2 ^ 32⌋ +
      rnd.toNat) := by
  obtain ⟨hlow, hupp⟩ := distance_lowerEnc (n := n) hd t
  have hunit : (0 : ℚ) < 2 ^ roundUnit t (.ratio n d) := by positivity
  have hone : (upperBound t (.ratio n d) neg - lowerBound t (.ratio n d) neg) * 2 ^ roundUnit t (.ratio n d) = 1 := by
    unfold upperBound lowerBound
    cases neg <;> simp <;> linarith
  rw [goesUp, goesAway_of_inexact hinexact, roundsUp_sr hd _ neg rnd rfl, ← mul_div_mul_right (_ - lowerBound ..) _ hunit.ne', hone, div_one,
    below_distance, ← hlow, ← hupp, ← ite_mul]

end

/-! ## The obligation -/

/-- What R89 says of y as the rounding of q to a format: exact, or a neighbour of q as the mode asks, with the encoding's parity where it counts. -/
def RoundsTo (t : EType) (rm : Rounding) (rnd : U32) (enc : Nat) (q y : ℚ) : Prop :=
  (∀ z, IsFinite t z → (y < q → z ≤ y ∨ q ≤ z) ∧ (q < y → z ≤ q ∨ y ≤ z) ∧ (z = q → y = q)) ∧
  (rm = .rtz → |y| ≤ |q|) ∧ (rm = .rdn → y ≤ q) ∧ (rm = .rup → q ≤ y) ∧
  (rm = .rne → ∀ z, IsFinite t z → |y - q| ≤ |z - q| ∧ (|y - q| = |z - q| → z ≠ y → enc % 2 = 0)) ∧
  (rm = .sr → ∀ lo hi, IsFinite t lo → IsFinite t hi → lo < q → q < hi → (∀ z, IsFinite t z → z ≤ lo ∨ hi ≤ z) →
    y = if (2 ^ 32 : Int) ≤ ⌊(q - lo) / (hi - lo) * 2 ^ 32⌋ + rnd.toNat then hi else lo)

/-- An exact number is its own rounding in every mode. -/
theorem roundsTo_self (rm : Rounding) (rnd : U32) (enc : Nat) (hq : IsFinite t q) : RoundsTo t rm rnd enc q q := by
  refine ⟨fun z _ => ⟨fun h => absurd h (lt_irrefl q), fun h => absurd h (lt_irrefl q), fun _ => rfl⟩, fun _ => le_rfl, fun _ => le_rfl,
    fun _ => le_rfl, fun _ z _ => ?_, fun _ lo hi _ _ hlo hhi hnone => ?_⟩
  · rw [sub_self, abs_zero]
    exact ⟨abs_nonneg _, fun h hne => absurd (sub_eq_zero.mp (abs_eq_zero.mp h.symm)) hne⟩
  · rcases hnone q hq with h | h <;> linarith

section
variable {n d : Nat} (hd : 0 < d) {neg : Bool} {rm : Rounding} {rnd : U32}
include hd

/-- The chosen neighbour is the rounding of a ratio that is no number of the grid. -/
theorem roundsTo_inexact (hinexact : ¬((Mag.ratio n d).floor (roundUnit t (.ratio n d))).2 = true) (hmax : lowerEnc t (.ratio n d) ≤ fmtMax t) :
    RoundsTo t rm rnd (chosenEnc t (.ratio n d) neg rm rnd + signBit t neg) (signedRat neg (n / d))
      (signedRat neg (magRat t (chosenEnc t (.ratio n d) neg rm rnd))) := by
  have hbr := bracket_bounds hd hinexact hmax neg
  refine ⟨fun z hz => hbr.neighbour ?_ hz, ?_, ?_, ?_, ?_, ?_⟩
  · rw [signedRat_chosenEnc]
    split
    · exact .inr rfl
    · exact .inl rfl
  · rintro rfl
    obtain ⟨hlow, -, -⟩ := magRat_lowerEnc_le (n := n) hd t
    have hpos := magRat_nonneg t (lowerEnc t (.ratio n d))
    have hdown : chosenEnc t (.ratio n d) neg .rtz rnd = lowerEnc t (.ratio n d) := by
      rw [chosenEnc, goesAway_of_inexact hinexact]
      rfl
    rw [hdown, abs_signedRat, abs_signedRat, abs_of_nonneg hpos, abs_of_nonneg (hpos.trans hlow)]
    exact hlow
  · rintro rfl
    rw [signedRat_chosenEnc, goesUp_rdn hinexact]
    exact hbr.lo_lt.le
  · rintro rfl
    rw [signedRat_chosenEnc, goesUp_rup hinexact]
    exact hbr.lt_hi.le
  · rintro rfl z hz
    have hnear := goesUp_rne hd hinexact neg rnd
    have hbound := hbr.nearest (y := signedRat neg (magRat t (chosenEnc t (.ratio n d) neg .rne rnd))) (hz := hz) (by
      rw [signedRat_chosenEnc]
      split at hnear
      · next h => exact .inr ⟨if_pos h, hnear⟩
      · next h => exact .inl ⟨if_neg h, hnear⟩)
    refine ⟨hbound.1, fun htie hne => ?_⟩
    have heven := chosenEnc_rne_even hd hinexact neg rnd (hbound.2 htie hne)
    have hsign := signBit_mod_two t neg
    omega
  · rintro rfl lo hi hlo hhi hloq hqhi hnone
    obtain ⟨rfl, rfl⟩ := hbr.unique hlo hhi hloq hqhi hnone
    rw [signedRat_chosenEnc, goesUp_sr hd hinexact]
    simp only [decide_eq_true_eq]

/-- What is rounded beyond MAX lies above every number of the format. -/
theorem magRat_fmtMax_lt (h : fmtMax t < chosenEnc t (.ratio n d) neg rm rnd) : magRat t (fmtMax t) < n / d := by
  obtain ⟨hlow, -, hexact⟩ := magRat_lowerEnc_le (n := n) hd t
  unfold chosenEnc at h
  split at h
  · next haway =>
    have hne : (n : ℚ) / d ≠ magRat t (lowerEnc t (.ratio n d)) := fun heq => by simp [goesAway, hexact.mpr heq] at haway
    exact ((magRat_strictMono t).monotone (Nat.lt_succ_iff.mp h)).trans_lt (lt_of_le_of_ne hlow hne.symm)
  · exact (magRat_strictMono t h).trans_le hlow

/-- A rounding that stays within MAX: its encoding, its flags, and its number, which is exact where NX is not flagged. -/
theorem roundMag_inRange (sat : Bool) (hmax : chosenEnc t (.ratio n d) neg rm rnd ≤ fmtMax t) :
    ∃ fl : Flags, roundMag t rm sat rnd neg (.ratio n d) = (chosenEnc t (.ratio n d) neg rm rnd + signBit t neg, fl) ∧ fl &&& flagOF = 0 ∧
      (fl &&& flagNX = 0 ↔ signedRat neg (magRat t (chosenEnc t (.ratio n d) neg rm rnd)) = signedRat neg (n / d)) ∧
      RoundsTo t rm rnd (chosenEnc t (.ratio n d) neg rm rnd + signBit t neg) (signedRat neg (n / d))
        (signedRat neg (magRat t (chosenEnc t (.ratio n d) neg rm rnd))) := by
  obtain ⟨-, -, hexact⟩ := magRat_lowerEnc_le (n := n) hd t
  by_cases he : ((Mag.ratio n d).floor (roundUnit t (.ratio n d))).2 = true
  · have hsame : signedRat neg (magRat t (chosenEnc t (.ratio n d) neg rm rnd)) = signedRat neg (n / d) := by
      simp [chosenEnc, goesAway, he, hexact.mp he]
    refine ⟨0, roundMag_exact hmax.not_gt he, by decide, iff_of_true (by decide) hsame, ?_⟩
    rw [← hsame]
    exact roundsTo_self rm rnd _ ⟨neg, _, hmax, rfl⟩
  · obtain ⟨tiny, hmag⟩ := roundMag_inexact (sat := sat) hmax.not_gt he
    have hlow : lowerEnc t (.ratio n d) ≤ fmtMax t := le_trans (Nat.le_add_right ..) hmax
    have hbr := bracket_bounds hd he hlow neg
    refine ⟨_, hmag, by cases tiny <;> decide, iff_of_false (by cases tiny <;> decide) ?_, roundsTo_inexact hd he hlow⟩
    rw [signedRat_chosenEnc]
    split
    · exact hbr.lt_hi.ne'
    · exact hbr.lo_lt.ne

end

/-- An overflow gives MAX under SAT and where the mode points toward zero (R90). -/
theorem overflowEnc_toMax {rm : Rounding} {sat neg : Bool}
    (h : sat = true ∨ rm = .rtz ∨ (rm = .rdn ∧ neg = false) ∨ (rm = .rup ∧ neg = true)) : overflowEnc t rm sat neg = fmtMaxEnc t neg := by
  rcases h with rfl | rfl | ⟨rfl, rfl⟩ | ⟨rfl, rfl⟩
  · cases rm <;> cases neg <;> rfl
  · rfl
  · rfl
  · rfl

/-- Settles O19: the rounded encoding is the one below the ratio or the next, and no number of the format lies between the two. -/
theorem roundingChoosesNeighbour : Obligations.RoundingChoosesNeighbour := by
  unfold Obligations.RoundingChoosesNeighbour
  intro t rm sat rnd neg n d ht hn hd q r
  have hq : q = signedRat neg (n / d) := rfl
  have hr : r = roundMag t rm sat rnd neg (.ratio n d) := by
    show roundTo .. = _
    rw [roundTo, if_pos ht]
    rfl
  clear_value q r
  subst hq hr
  by_cases hmax : fmtMax t < chosenEnc t (.ratio n d) neg rm rnd
  · have hpos : (0 : ℚ) ≤ n / d := by positivity
    rw [roundMag_overflow hmax, abs_signedRat, abs_of_nonneg hpos]
    refine ⟨fun h => absurd (show (flagOF ||| flagNX) &&& flagOF = 0 from h) (by decide), fun _ => ⟨fun b z hz => ?_, rfl, fun h => ?_⟩⟩
    · exact (isFinite_of_floatRat ht hz).abs_le.trans_lt (magRat_fmtMax_lt hd hmax)
    · rw [overflowEnc_toMax h]
  · obtain ⟨fl, hmag, hof, hnx, hnear, hrtz, hrdn, hrup, hrne, hsr⟩ := roundMag_inRange (rm := rm) (rnd := rnd) hd sat (not_lt.mp hmax)
    rw [hmag]
    refine ⟨fun _ => ⟨_, floatRat_encoding ht (not_lt.mp hmax) neg, hnx, fun b z hz => hnear z (isFinite_of_floatRat ht hz), hrtz, hrdn, hrup,
      fun h b z hz => hrne h z (isFinite_of_floatRat ht hz), fun h a b lo hi ha hb hlo hhi hnone => ?_⟩, fun h => absurd hof h⟩
    exact hsr h lo hi (isFinite_of_floatRat ht ha) (isFinite_of_floatRat ht hb) hlo hhi fun z ⟨neg', c, hc, hz⟩ =>
      hnone _ z (hz ▸ floatRat_encoding ht hc neg')

end Sys2Proof.Machine

/-! SUPPORT. FMIN without an R operand: the model takes IMM as the integer operators do (R219), where the statement about FMIN reads 0. -/

namespace Sys2Proof.Machine

variable {s : State} {g : Firing} {f : Fields}

/-- A result for the firing's own frame, where that frame lies on the core's stack, is the next message in its core's inbox. -/
theorem State.inbox_emitBoth_same {v : Val} {dst : Nat} (hr : g.replay = none) (h0 : f.d0.mode = .same) (h1 : f.d1.mode = .discard)
    (hc : g.core < 4096) (hd : s.fpCore g.ctx g.fp = some dst) (hn : nextHop (coreStack g.core) (coreStack dst) = none) :
    ((s.emitBoth g f v).core dst).inbox =
      (s.core dst).inbox ++ [{ src := g.core, msg := .token { fp := g.fp, ip := f.d0.ip, port := f.d0.port, val := v } false }] := by
  have hsend : s.emitBoth g f v = s.sendAt g g.fp f.d0 v false := by
    simp [State.emitBoth, State.emit, hr, State.emitTo, h0, h1]
  rw [hsend, State.sendAt, State.send, hd]
  dsimp only
  rw [State.post, if_pos hc, State.route_near hn, State.core_modCore_same]
  rfl

/-- An FMIN of F32 with IMM 1 that sends its result to its own frame. -/
def fminImmFields : Fields :=
  { fn := 0, ty := .f32, ar := .monadic, np := .absorb, slot := 0, d0 := { mode := .same, port := false, ip := 0 },
    d1 := { mode := .discard, port := false, ip := 0 }, pri := 0, rm := .rne, sat := false, scope := .core, mx := false, qual := 0, imm := 1 }

/-- A firing on core 0 of context 0 with a quiet NaN of F32 in L and no R. -/
def loneNanFiring : Firing :=
  { core := 0, fp := 0, ip := 0, ctx := 0, obj := 0, task := 0, port := false, l := Val.scalar 0x7FC00000 0 0, r := none, t := none,
    replay := none, word := none, recorded := false }

/-- The machine after reset with that firing in execution. -/
def loneNanState : State := { State.reset with cur := some loneNanFiring }

@[simp] theorem State.setFlags_core_of (ctx : Nat) (fl : Flags) (c : Nat) : (s.setFlags ctx fl).core c = s.core c := by
  unfold State.setFlags
  split <;> rfl

/-- Flags leave the region map as it was. -/
@[simp] theorem State.setFlags_fpCore (ctx : Nat) (fl : Flags) (n : Nat) (fp : U32) : (s.setFlags ctx fl).fpCore n fp = s.fpCore n fp := by
  unfold State.setFlags
  split
  · rfl
  · unfold State.fpCore
    rw [State.ctx_modCtx]
    split
    · next e => subst e; rfl
    · rfl

/-- Any emission of that firing is one message in the inbox of core 0. -/
theorem inbox_emitBoth_loneNan (fl : Flags) (v : Val) :
    (((loneNanState.retire.setFlags loneNanFiring.ctx fl).emitBoth loneNanFiring fminImmFields v).core 0).inbox =
      [{ src := 0, msg := .token { fp := 0, ip := 0, port := false, val := v } false }] := by
  rw [State.inbox_emitBoth_same rfl rfl rfl (by decide) (State.setFlags_fpCore ..) rfl, State.setFlags_core_of]
  rfl

/-- An integer operator, or FMIN or FMAX, on scalars: R is the token, or IMM where there is none (R219). -/
theorem scalarInt_scalars {ident : U64} {op : Nat → Nat → Nat × Flags} {prov : Val → Option Val → BitVec 4} (hc : s.cur = some g)
    (hs : g.scalars) : scalarInt f s ident op prov =
      .next ((s.retire.setFlags g.ctx (op g.l.value.toNat (operandR f.ty f g.r)).2).emitBoth g f
        (Val.computed (extend f.ty (op g.l.value.toNat (operandR f.ty f g.r)).1) g.l.round (prov g.l g.r) (g.l :: g.r.toList))) :=
  congrArg Host.Outcome.next (State.operate_scalars hc hs rfl rfl rfl)

/-- The other operand of that FMIN is its IMM, so it emits 1. -/
theorem execFmin_loneNan : ∃ (v : Val) (fl : Flags), v.value = 1 ∧
    exec (.fmin fminImmFields) loneNanState = .next ((loneNanState.retire.setFlags loneNanFiring.ctx fl).emitBoth loneNanFiring fminImmFields v) :=
  have hpick : (floatPick .f32 false 0x7FC00000 1).1 = 1 := by decide
  ⟨_, _, congrArg (fun n => extend .f32 n) hpick, scalarInt_scalars rfl (by decide)⟩

/-- Refutes O21: the statement reads a missing R operand as 0, but FMIN and FMAX then take IMM (R219 as the model's `operandR` has it): FMIN of a
NaN in L with IMM 1 emits 1. Install refuses such a word of FMIN, but the statement speaks of every firing. -/
theorem not_floatConversionResults : ¬ Obligations.FloatConversionResults := by
  unfold Obligations.FloatConversionResults
  intro h
  have hscalars : loneNanFiring.scalars := by decide
  obtain ⟨-, hother, -⟩ := h.2 loneNanState loneNanFiring fminImmFields rfl hscalars rfl
  have hnanL : ∃ q, decodeFloat .f32 0x7FC00000 = .nan q := ⟨false, by decide⟩
  have hnumR : ¬∃ q, decodeFloat .f32 0 = .nan q := by
    rintro ⟨q, hq⟩
    exact absurd hq (by cases q <;> decide)
  obtain ⟨v, -, -, hv, hsays⟩ := hother hnanL hnumR (.fmin fminImmFields) (List.mem_cons_self ..)
  obtain ⟨w, fl, hw, hdoes⟩ := execFmin_loneNan
  have hinbox := congrArg (fun u : State => (u.core 0).inbox) (Host.Outcome.next.inj (hsays.symm.trans hdoes))
  simp only [inbox_emitBoth_loneNan] at hinbox
  have hvw : v = w := by simpa using hinbox
  have hzero : v.value = 0 := hv
  rw [hvw, hw] at hzero
  exact absurd hzero (by decide)

end Sys2Proof.Machine

/-! SUPPORT. Exact values of finite encodings and of sums, products and quotients of them (R85, R86, R95, R234). -/

namespace Sys2Proof.Machine

variable {s : State} {g : Firing} {f : Fields} {t : EType} {x y z e : ℚ}

/-! ## Numbers of encodings -/

theorem signedRat_not (neg : Bool) (q : ℚ) : signedRat (!neg) q = -signedRat neg q := by cases neg <;> simp

theorem signedRat_mul (a b : Bool) (p q : ℚ) : signedRat a p * signedRat b q = signedRat (a != b) (p * q) := by
  cases a <;> cases b <;> simp

/-- A number that is not zero is the magnitude of its own sign. -/
theorem signedRat_abs (e : ℚ) : signedRat (decide (e < 0)) |e| = e := by
  rcases lt_or_ge e 0 with h | h
  · rw [decide_eq_true h, signedRat_true, abs_of_neg h, neg_neg]
  · rw [decide_eq_false h.not_gt, signedRat_false, abs_of_nonneg h]

/-- The sign of a number that is not zero is that of its magnitude. -/
theorem signedRat_neg_iff {neg : Bool} {q : ℚ} (hq : 0 < q) : signedRat neg q < 0 ↔ neg = true := by
  cases neg
  · simpa using hq.le
  · simpa using hq

/-- The sign of a finite number is the top bit of its encoding (R85). -/
theorem sign_of_decodeFloat (ht : tyFloat t = true) {x : U64} {neg : Bool} {n u : Nat} (h : decodeFloat t x.toNat = .fin neg n u) :
    x.getLsbD (tyWidth t - 1) = neg := by
  obtain ⟨-, hsign, -, -⟩ := (decodeFloat_eq_fin ht).mp h
  exact hsign

/-! ## Exact results -/

/-- A value to be rounded is the number e: a zero, or a ratio with the sign of e. -/
def Exact.IsRat (v : Exact) (e : ℚ) : Prop :=
  (e = 0 → ∃ neg, v = .zero neg) ∧
  (e ≠ 0 → ∃ n d : Nat, 0 < n ∧ 0 < d ∧ |e| = n / d ∧ v = .mag (decide (e < 0)) (.ratio n d))

/-- A finite number goes to its rounding as the number that it is. -/
theorem Num.isRat_exact (neg : Bool) (n u : Nat) : (Num.fin neg n u).exact.IsRat (signedRat neg (n / 2 ^ u)) := by
  unfold Num.exact Exact.IsRat
  rcases Nat.eq_zero_or_pos n with rfl | hn
  · exact ⟨fun _ => ⟨neg, rfl⟩, fun h => absurd (by simp) h⟩
  · have hq : (0 : ℚ) < n / 2 ^ u := by positivity
    refine ⟨fun h => absurd (signedRat_eq_zero.mp h) hq.ne', fun _ => ⟨n, 2 ^ u, hn, Nat.two_pow_pos u, ?_, ?_⟩⟩
    · rw [abs_signedRat, abs_of_pos hq]
      push_cast
      rfl
    · simp [hn.ne', signedRat_neg_iff hq]

/-- A sum in units of 2^-u is the number that it is (R86). -/
theorem isRat_exactSum (v : Int) (u : Nat) (zero : Bool) : (exactSum v u zero).IsRat (v / 2 ^ u) := by
  have hu : (0 : ℚ) < 2 ^ u := by positivity
  unfold exactSum Exact.IsRat
  rcases eq_or_ne v 0 with rfl | hv
  · simp
  · have hsign : ((v : ℚ) / 2 ^ u < 0) ↔ v < 0 := by
      rw [div_lt_iff₀ hu, zero_mul, Int.cast_lt_zero]
    refine ⟨fun h => absurd h (by positivity), fun _ => ⟨v.natAbs, 2 ^ u, Int.natAbs_pos.mpr hv, Nat.two_pow_pos u, ?_, ?_⟩⟩
    · rw [abs_div, abs_of_pos hu, Nat.cast_natAbs]
      push_cast
      rfl
    · simp [hv, hsign]

/-- A finite number in finer units. -/
theorem signedAt_eq {neg : Bool} {n u w : Nat} (h : u ≤ w) : (signedAt neg n u w : ℚ) = signedRat neg (n / 2 ^ u) * 2 ^ w := by
  have hpow : (2 : ℚ) ^ w = 2 ^ u * 2 ^ (w - u) := by rw [← pow_add, Nat.add_sub_cancel' h]
  have hmag : (n : ℚ) / 2 ^ u * 2 ^ w = n * 2 ^ (w - u) := by rw [hpow]; field_simp
  unfold signedAt signedRat
  cases neg
  · simpa using hmag.symm
  · simpa using hmag.symm

/-- The sum of finite numbers, exact and without a flag (R95, R234). -/
theorem numAdd_fin (rm : Rounding) (a b : Bool) (n u m v : Nat) : ∃ w, numAdd rm (.fin a n u) (.fin b m v) = (w, 0) ∧
    w.IsRat (signedRat a (n / 2 ^ u) + signedRat b (m / 2 ^ v)) := by
  refine ⟨_, rfl, ?_⟩
  have hsum := isRat_exactSum (signedAt a n u (max u v) + signedAt b m v (max u v)) (max u v)
    (if n = 0 ∧ m = 0 ∧ a = b then a else decide (rm = .rdn))
  rw [Int.cast_add, signedAt_eq (le_max_left u v), signedAt_eq (le_max_right u v), ← add_mul, mul_div_assoc, div_self (by positivity),
    mul_one] at hsum
  exact hsum

theorem numSub_fin (rm : Rounding) (a b : Bool) (n u m v : Nat) : ∃ w, numSub rm (.fin a n u) (.fin b m v) = (w, 0) ∧
    w.IsRat (signedRat a (n / 2 ^ u) - signedRat b (m / 2 ^ v)) := by
  obtain ⟨w, hw, hr⟩ := numAdd_fin rm a (!b) n u m v
  rw [signedRat_not, ← sub_eq_add_neg] at hr
  exact ⟨w, hw, hr⟩

/-- The number of an exact product. -/
theorem signedRat_product (a b : Bool) (n u m v : Nat) :
    signedRat (a != b) ((n * m : Nat) / 2 ^ (u + v)) = signedRat a (n / 2 ^ u) * signedRat b (m / 2 ^ v) := by
  rw [signedRat_mul, Nat.cast_mul, pow_add, mul_div_mul_comm]

theorem numMul_fin (a b : Bool) (n u m v : Nat) : ∃ w, numMul (.fin a n u) (.fin b m v) = (w, 0) ∧
    w.IsRat (signedRat a (n / 2 ^ u) * signedRat b (m / 2 ^ v)) := by
  refine ⟨_, rfl, ?_⟩
  rw [← signedRat_product]
  exact Num.isRat_exact ..

theorem numFma_fin (rm : Rounding) (a b c : Bool) (n u m v k w : Nat) :
    ∃ r, numFma rm (.fin a n u) (.fin b m v) (.fin c k w) = (r, 0) ∧
      r.IsRat (signedRat a (n / 2 ^ u) * signedRat b (m / 2 ^ v) + signedRat c (k / 2 ^ w)) := by
  obtain ⟨r, hr, hrat⟩ := numAdd_fin rm (a != b) c (n * m) (u + v) k w
  rw [signedRat_product] at hrat
  exact ⟨r, by simp [numFma, numProduct, hr, Num.signals], hrat⟩

/-! ## Roundings of exact results -/

/-- A zero of either sign has the number 0. -/
theorem floatRat_signBit (ht : tyFloat t = true) (neg : Bool) : floatRat t (signBit t neg) = some 0 := by
  have h := floatRat_encoding ht (Nat.zero_le _) neg
  rwa [Nat.zero_add, magRat_zero, signedRat_zero] at h

/-- A zero is rounded to the zero of its sign, with no flag. -/
theorem roundTo_zero (ht : tyFloat t = true) (rm : Rounding) (sat : Bool) (rnd : U32) (neg : Bool) :
    roundTo t rm sat rnd (.zero neg) = (signBit t neg, 0) := by
  simp [roundTo, ht, roundFloat]

@[simp] theorem rounded_noFlag (rm : Rounding) (sat : Bool) (rnd : U32) (v : Exact) : rounded t rm sat rnd (v, 0) = roundTo t rm sat rnd v := by
  simp [rounded]

/-! ## The operators -/

/-- The number of an operand: that of its token, or of 0 where there is none. -/
def operandNum (t : EType) (v : Option Val) : Num := decodeFloat t ((v.map Val.value).getD 0).toNat

/-- What a floating-point operator rounds its exact result to, with the draw that SR takes. -/
def floatResult (f : Fields) (s : State) (g : Firing) (r : Exact × Flags) : Nat × Flags :=
  rounded f.ty f.rm f.sat (s.drawFor g.core f.rm).2 r

/-- A floating-point operator on scalars draws, sets the flags of its one rounding and emits (R94, R95). -/
theorem scalarFloat_scalars {ident : U64} {op : Num → Num → Num → Exact × Flags} (hc : s.cur = some g) (hs : g.scalars) :
    scalarFloat f s ident op =
      .next (((s.retire.drawFor g.core f.rm).1.setFlags g.ctx
        (floatResult f s.retire g (op (operandNum f.ty (some g.l)) (operandNum f.ty g.r) (operandNum f.ty g.t))).2).emitBoth g f
          (Val.computed (extend f.ty
            (floatResult f s.retire g (op (operandNum f.ty (some g.l)) (operandNum f.ty g.r) (operandNum f.ty g.t))).1)
            g.l.round (provFloat f g.l g.r g.t) (g.l :: (g.r.toList ++ g.t.toList)))) :=
  congrArg Host.Outcome.next (State.operate_scalars hc hs rfl rfl rfl)

/-- A floating-point operator of the divider on scalars draws, and its result waits with the flags of its rounding (R217). -/
theorem dividerFloat_scalars {op : Num → Num → Exact × Flags} (hc : s.cur = some g) (hs : g.scalars) :
    dividerFloat f s op =
      .next ((s.retire.drawFor g.core f.rm).1.modCore g.core (fun k => { k with divider := k.divider ++
        [{ fire := g, d0 := f.d0, d1 := f.d1, val := Val.computed
             (extend f.ty (floatResult f s.retire g (op (operandNum f.ty (some g.l)) (operandNum f.ty g.r))).1) g.l.round
             (provFloat f g.l g.r none) (g.l :: g.r.toList),
           flags := (floatResult f s.retire g (op (operandNum f.ty (some g.l)) (operandNum f.ty g.r))).2 }] })) := by
  unfold dividerFloat State.divides
  rw [State.execute_some hc, Need.check_plain hs.plain (kindsOk_scalars hs rfl rfl rfl)]
  rfl

/-- An operator whose exact result is the number e, without a flag of its own: a zero is emitted as a zero, any other number as
its one rounding with the flags of that rounding. -/
theorem scalarFloat_isRat {ident : U64} {op : Num → Num → Num → Exact × Flags} {v : Exact} (hc : s.cur = some g) (hs : g.scalars)
    (ht : tyFloat f.ty = true) (hop : op (operandNum f.ty (some g.l)) (operandNum f.ty g.r) (operandNum f.ty g.t) = (v, 0)) (hv : v.IsRat e) :
    ∃ (w : Val) (bits : Nat) (fl : Flags), w.kind = .scalar ∧ w.round = g.l.round ∧ w.value = extend f.ty bits ∧
      scalarFloat f s ident op = .next (((s.retire.drawFor g.core f.rm).1.setFlags g.ctx fl).emitBoth g f w) ∧
      (e = 0 → floatRat f.ty bits = some 0 ∧ fl = 0) ∧
      (e ≠ 0 → ∃ n d : Nat, 0 < n ∧ 0 < d ∧ e = (if e < 0 then -((n : Rat) / d) else (n : Rat) / d) ∧
        (bits, fl) = roundTo f.ty f.rm f.sat (s.retire.drawFor g.core f.rm).2 (.mag (decide (e < 0)) (.ratio n d))) := by
  have hexec := scalarFloat_scalars (ident := ident) (op := op) (f := f) hc hs
  rw [hop, floatResult, rounded_noFlag] at hexec
  obtain ⟨hzero, hmag⟩ := hv
  refine ⟨Val.computed .., _, _, rfl, rfl, rfl, hexec, fun he => ?_, fun he => ?_⟩
  · obtain ⟨neg, rfl⟩ := hzero he
    rw [roundTo_zero ht]
    exact ⟨floatRat_signBit ht neg, rfl⟩
  · obtain ⟨n, d, hn, hd, habs, rfl⟩ := hmag he
    refine ⟨n, d, hn, hd, ?_, rfl⟩
    have hsigned := signedRat_abs e
    rw [habs] at hsigned
    simpa [signedRat] using hsigned.symm

/-! ## Quotients and roots -/

theorem numDiv_zero_zero (a b : Bool) (u v : Nat) : numDiv (.fin a 0 u) (.fin b 0 v) = (.nan, flagNV) := rfl

theorem numDiv_by_zero {a b : Bool} {n u v : Nat} (hn : n ≠ 0) : numDiv (.fin a n u) (.fin b 0 v) = (.inf (a != b), flagDZ) := by
  simp [numDiv, hn]

theorem numDiv_of_zero {a b : Bool} {u m v : Nat} (hm : m ≠ 0) : numDiv (.fin a 0 u) (.fin b m v) = (.zero (a != b), 0) := by
  simp [numDiv, hm]

theorem numDiv_fin {a b : Bool} {n u m v : Nat} (hn : n ≠ 0) (hm : m ≠ 0) :
    numDiv (.fin a n u) (.fin b m v) = (.mag (a != b) (.ratio (n * 2 ^ v) (m * 2 ^ u)), 0) := by
  simp [numDiv, hn, hm]

/-- The magnitude of a quotient of finite numbers. -/
theorem abs_quotient (a b : Bool) {n u m v : Nat} :
    |signedRat a (n / 2 ^ u) / signedRat b (m / 2 ^ v)| = ((n * 2 ^ v : Nat) : ℚ) / (m * 2 ^ u : Nat) := by
  have hn : (0 : ℚ) ≤ n / 2 ^ u := by positivity
  have hm : (0 : ℚ) ≤ m / 2 ^ v := by positivity
  rw [abs_div, abs_signedRat, abs_signedRat, abs_of_nonneg hn, abs_of_nonneg hm, div_div_div_eq]
  push_cast
  rw [mul_comm (2 ^ u : ℚ)]

/-- A finite number is zero where its magnitude is. -/
theorem signedRat_fin_eq_zero {neg : Bool} {n u : Nat} : signedRat neg ((n : ℚ) / 2 ^ u) = 0 ↔ n = 0 := by
  simp

/-- A finite number above zero has no sign. -/
theorem pos_of_signedRat {neg : Bool} {n u : Nat} (h : 0 < signedRat neg ((n : ℚ) / 2 ^ u)) : neg = false ∧ n ≠ 0 := by
  have hmag : (0 : ℚ) ≤ n / 2 ^ u := by positivity
  cases neg
  · exact ⟨rfl, by rintro rfl; simp at h⟩
  · rw [signedRat_true] at h
    linarith

theorem numSqrt_neg {neg : Bool} {n u : Nat} (h : signedRat neg ((n : ℚ) / 2 ^ u) < 0) : numSqrt (.fin neg n u) = (.nan, flagNV) := by
  have hmag : (0 : ℚ) ≤ n / 2 ^ u := by positivity
  have hn : n ≠ 0 := by rintro rfl; simp at h
  cases neg
  · rw [signedRat_false] at h
    linarith
  · simp [numSqrt, hn]

theorem numSqrt_pos {n u : Nat} (hn : n ≠ 0) : numSqrt (.fin false n u) = (.mag false (.root n (2 ^ u)), 0) := by
  simp [numSqrt, hn]

/-- What FDIV and FSQRT on scalars do with an exact value and its flags: its one rounding waits in the divider (R217). -/
theorem dividerFloat_waits {op : Num → Num → Exact × Flags} {v : Exact} {fl : Flags} (hc : s.cur = some g) (hs : g.scalars)
    (hop : op (operandNum f.ty (some g.l)) (operandNum f.ty g.r) = (v, fl)) :
    ∃ w : Val, w.kind = .scalar ∧ w.round = g.l.round ∧
      w.value = extend f.ty (roundTo f.ty f.rm f.sat (s.retire.drawFor g.core f.rm).2 v).1 ∧
      dividerFloat f s op = .next ((s.retire.drawFor g.core f.rm).1.modCore g.core (fun k => { k with divider := k.divider ++
        [{ fire := g, d0 := f.d0, d1 := f.d1, val := w, flags := (roundTo f.ty f.rm f.sat (s.retire.drawFor g.core f.rm).2 v).2 ||| fl }] })) := by
  have hexec := dividerFloat_scalars (op := op) (f := f) hc hs
  rw [hop] at hexec
  exact ⟨Val.computed .., rfl, rfl, rfl, hexec⟩

theorem exec_fadd : exec (.fadd f) s = scalarFloat f s (BitVec.ofNat 64 (signBit f.ty true)) (fun x y _ => numAdd f.rm x y) := rfl
theorem exec_fsub : exec (.fsub f) s = scalarFloat f s 0 (fun x y _ => numSub f.rm x y) := rfl
theorem exec_fmul : exec (.fmul f) s = scalarFloat f s (BitVec.ofNat 64 (fmtOne f.ty)) (fun x y _ => numMul x y) := rfl
theorem exec_ffma : exec (.ffma f) s = scalarFloat f s 0 (fun x y z => numFma f.rm x y z) := rfl
theorem exec_fdiv : exec (.fdiv f) s = dividerFloat f s numDiv := rfl
theorem exec_fsqrt : exec (.fsqrt f) s = dividerFloat f s (fun x _ => numSqrt x) := rfl

/-- Settles O20: each operator is one rounding of an exact value, computed on the finite numbers of the operands. -/
theorem floatArithmeticResults : Obligations.FloatArithmeticResults := by
  unfold Obligations.FloatArithmeticResults
  refine ⟨fun s g f x y z hc hs ht hx hy hz => ?_, fun s g f x y hc hs ht hx hy => ?_⟩
  · obtain ⟨a, n, u, hl, rfl⟩ := floatRat_eq_some.mp hx
    obtain ⟨b, m, v, hr, rfl⟩ := floatRat_eq_some.mp hy
    obtain ⟨c, k, w, h3, rfl⟩ := floatRat_eq_some.mp hz
    have hl : operandNum f.ty (some g.l) = .fin a n u := hl
    have hr : operandNum f.ty g.r = .fin b m v := hr
    have h3 : operandNum f.ty g.t = .fin c k w := h3
    simp only [List.mem_cons, Prod.mk.injEq, List.not_mem_nil, or_false]
    rintro i e (⟨rfl, rfl⟩ | ⟨rfl, rfl⟩ | ⟨rfl, rfl⟩ | ⟨rfl, rfl⟩)
    · obtain ⟨r, hop, hrat⟩ := numAdd_fin f.rm a b n u m v
      rw [exec_fadd]
      exact scalarFloat_isRat hc hs ht (by rw [hl, hr, hop]) hrat
    · obtain ⟨r, hop, hrat⟩ := numSub_fin f.rm a b n u m v
      rw [exec_fsub]
      exact scalarFloat_isRat hc hs ht (by rw [hl, hr, hop]) hrat
    · obtain ⟨r, hop, hrat⟩ := numMul_fin a b n u m v
      rw [exec_fmul]
      exact scalarFloat_isRat hc hs ht (by rw [hl, hr, hop]) hrat
    · obtain ⟨r, hop, hrat⟩ := numFma_fin f.rm a b c n u m v k w
      rw [exec_ffma]
      exact scalarFloat_isRat hc hs ht (by rw [hl, hr, h3, hop]) hrat
  · obtain ⟨a, n, u, hl, rfl⟩ := floatRat_eq_some.mp hx
    obtain ⟨b, m, v, hr, rfl⟩ := floatRat_eq_some.mp hy
    dsimp only
    rw [sign_of_decodeFloat ht hl, sign_of_decodeFloat ht hr]
    have hl : operandNum f.ty (some g.l) = .fin a n u := hl
    have hr : operandNum f.ty g.r = .fin b m v := hr
    rw [exec_fdiv, exec_fsqrt]
    simp only [ne_eq, signedRat_fin_eq_zero]
    refine ⟨?_, ?_, ?_, ?_, ?_, ?_⟩
    · rintro rfl rfl
      exact dividerFloat_waits hc hs (by rw [hl, hr, numDiv_zero_zero])
    · rintro rfl hn
      exact dividerFloat_waits hc hs (by rw [hl, hr, numDiv_by_zero hn])
    · rintro hm rfl
      exact dividerFloat_waits hc hs (by rw [hl, hr, numDiv_of_zero hm])
    · intro hm hn
      exact ⟨_, _, Nat.mul_pos (Nat.pos_of_ne_zero hn) (Nat.two_pow_pos v), Nat.mul_pos (Nat.pos_of_ne_zero hm) (Nat.two_pow_pos u),
        abs_quotient a b, dividerFloat_waits hc hs (by rw [hl, hr, numDiv_fin hn hm])⟩
    · intro hneg
      exact dividerFloat_waits hc hs (by rw [hl, numSqrt_neg hneg])
    · intro hpos
      obtain ⟨rfl, hn⟩ := pos_of_signedRat hpos
      exact ⟨n, 2 ^ u, Nat.pos_of_ne_zero hn, Nat.two_pow_pos u, by simp, dividerFloat_waits hc hs (by rw [hl, numSqrt_pos hn])⟩

end Sys2Proof.Machine

/-! SUPPORT. Rows of integer vector commands, the transpose, and the release of a reduction (R84, R302, R304, R313, R317). -/

namespace Sys2Proof.Machine

variable {s : State} {c : Cmd} {f : Fields} {v w : View} {opc : Nat}

/-! ## Views of a command at work -/

/-- A handle that passes R51 names the same view while its command is at work (R52). -/
theorem State.viewFlight_of_view {ctx : Nat} {h : U64} {shadowOk : Bool} (hv : s.view ctx h shadowOk = .ok v) : s.viewFlight ctx h = some v := by
  unfold State.view at hv
  unfold State.viewFlight
  split at hv
  · cases hv
  · next core hp =>
    dsimp only at hv
    repeat (split at hv; · cases hv)
    rw [hp]
    exact congrArg some (Except.ok.inj hv)

/-- A command of a tile in L and a scalar in R has one view, that of L. -/
theorem State.vecNow_tileScalar {r : Val} (hpin : pinForm f = false) (hl : c.fire.l.kind = .tile) (hr : c.fire.r = some r)
    (hrk : r.kind = .scalar) (ht : c.fire.t = none) (hv : s.viewFlight c.fire.ctx c.fire.l.value = some v) :
    s.vecNow opc f c.fire = [(0, v)] := by
  simp [State.vecNow, vecTiles, hpin, hl, hr, hrk, ht, hv]

/-- The first two views of a command of tiles in L and R, whatever its third operand is. -/
theorem State.vecNow_twoTiles {r : Val} (hpin : pinForm f = false) (hpout : poutForm f = false) (hopc : opc ≠ 0x9B) (hl : c.fire.l.kind = .tile)
    (hr : c.fire.r = some r) (hrk : r.kind = .tile) (hv : s.viewFlight c.fire.ctx c.fire.l.value = some v)
    (hw : s.viewFlight c.fire.ctx r.value = some w) :
    viewNo (s.vecNow opc f c.fire) 0 = some v ∧ viewNo (s.vecNow opc f c.fire) 1 = some w := by
  simp [State.vecNow, vecTiles, viewNo, hpin, hpout, hopc, hl, hr, hrk, hv, hw]

/-! ## Commands of tiles -/

/-- A command without ports performs its work when it ends (R297). -/
theorem exec_vectorComplete_tiles {core : Nat} {fn : Option Nat} (hrun : (s.core core).vecRun = some c) (hform : c.instr.form = some (opc, fn, f))
    (hpin : pinForm f = false) (hpout : poutForm f = false) : exec (.vectorComplete core) s = .next (s.vecWhole opc f c) := by
  show execVectorComplete core s = _
  simp [execVectorComplete, hrun, hform, hpin, hpout]

/-- VTRANS writes the transposed rows of L into R (R313). -/
theorem State.vecWhole_vtrans (hl : viewNo (s.vecNow 0x9A f c.fire) 0 = some v) (hr : viewNo (s.vecNow 0x9A f c.fire) 1 = some w) :
    s.vecWhole 0x9A f c = (s.setViewRows w ((List.range w.n).map (fun i => (List.range w.tile.cols).map (fun j =>
      ((s.viewRows v)[j]?.getD [])[i]?.getD 0)))).vecDone 0x9A f c 0 0 := by
  unfold State.vecWhole
  simp only [hl, hr]

/-! ## Integer commands in place -/

/-- VADD, VSUB, VMUL, VMIN and VMAX (R304). -/
def IntBinary (opc : Nat) : Prop := opc = 0x80 ∨ opc = 0x81 ∨ opc = 0x82 ∨ opc = 0x85 ∨ opc = 0x86

/-- The element that such an operator makes of two elements of an integer type, without SAT (R84, R304). -/
def intElem (opc : Nat) (t : EType) (a b : Nat) : Nat := (vecBinary opc 0 t .rne false 0 a b).1

section
variable {t : EType} (ht : tyFloat t = false)
include ht

theorem intElem_vadd (a b : Nat) : intElem 0x80 t a b = wrapInt t (decodeInt t a + decodeInt t b) := by
  simp [intElem, vecBinary, ht, fitInt]

theorem intElem_vsub (a b : Nat) : intElem 0x81 t a b = wrapInt t (decodeInt t a - decodeInt t b) := by
  simp [intElem, vecBinary, ht, fitInt]

theorem intElem_vmul (a b : Nat) : intElem 0x82 t a b = wrapInt t (decodeInt t a * decodeInt t b) := by
  simp [intElem, vecBinary, ht, fitInt]

/-- The lesser of two elements is the one that has the lesser integer. -/
theorem intElem_vmin (a b : Nat) : (intElem 0x85 t a b : Int) % 2 ^ tyWidth t = min (decodeInt t a) (decodeInt t b) % 2 ^ tyWidth t := by
  have hif : intElem 0x85 t a b = if decodeInt t b < decodeInt t a then b else a := by simp [intElem, vecBinary, ht]
  rw [hif]
  split
  · next h => rw [min_eq_right h.le, (decodeInt_spec t b).2.2]
  · next h => rw [min_eq_left (not_lt.mp h), (decodeInt_spec t a).2.2]

/-- The greater of two elements is the one that has the greater integer. -/
theorem intElem_vmax (a b : Nat) : (intElem 0x86 t a b : Int) % 2 ^ tyWidth t = max (decodeInt t a) (decodeInt t b) % 2 ^ tyWidth t := by
  have hif : intElem 0x86 t a b = if decodeInt t a < decodeInt t b then b else a := by simp [intElem, vecBinary, ht]
  rw [hif]
  split
  · next h => rw [max_eq_right h.le, (decodeInt_spec t b).2.2]
  · next h => rw [max_eq_left (not_lt.mp h), (decodeInt_spec t a).2.2]

/-- No such operator depends on the mode or raises a flag. -/
theorem vecBinary_int (hopc : IntBinary opc) (fn : Nat) (rm : Rounding) (rnd : U32) (a b : Nat) :
    vecBinary opc fn t rm false rnd a b = (intElem opc t a b, 0) := by
  rcases hopc with rfl | rfl | rfl | rfl | rfl <;> simp [intElem, vecBinary, ht, fitInt]

end

/-- A wrapped integer is congruent to the exact one (R84). -/
theorem wrapInt_emod (t : EType) (e : Int) : (wrapInt t e : Int) % 2 ^ tyWidth t = e % 2 ^ tyWidth t := by
  rw [← (decodeInt_spec t (wrapInt t e)).2.2, decodeInt_wrapInt]

/-- The loop of `State.vecWhole` over the source rows. -/
def vecLoop (opc : Nat) (f : Fields) (c : Cmd) (xs : List (Nat × View)) (rs ts : List (List Nat)) (l : List (List Nat × Nat)) (x : RowWork) : RowWork :=
  l.foldl (fun (w : RowWork) (p : List Nat × Nat) =>
    let r := w.s.vecRowWork opc f c xs rs ts w.seed p.2 p.1
    { r with fl := w.fl ||| r.fl, cnt := w.cnt + r.cnt }) x

section
variable (hopc : IntBinary opc)
include hopc

theorem IntBinary.not_reduces : vecReduces opc = false := by
  rcases hopc with rfl | rfl | rfl | rfl | rfl <;> rfl

theorem IntBinary.destNo (hpout : poutForm f = false) : vecDestNo opc f = some 0 := by
  rcases hopc with rfl | rfl | rfl | rfl | rfl <;> simp [vecDestNo, hpout, vecIntoR, vecReduces, vecOneSource]

/-- The command works over the rows and columns of its tile. -/
theorem IntBinary.extent (hpout : poutForm f = false) : vecExtent opc f [(0, v)] = (v.n, v.tile.cols) := by
  simp [vecExtent, hopc.destNo hpout, hpout, viewNo, hopc.not_reduces]

/-- A row of results with a scalar in R: one element for each of the row, and no flag. -/
theorem IntBinary.vecRow {g : Firing} {r : Val} (ht : tyFloat f.ty = false) (hsat : f.sat = false) (hr : g.r = some r) (hrk : r.kind = .scalar)
    (n cols i : Nat) (rs ts : List (List Nat)) (rnds : List U32) (a : List Nat) :
    vecRow opc f g n cols i rs ts rnds a =
      ((List.range cols).map (fun j => intElem opc f.ty (a[j]?.getD 0) r.value.toNat), 0, 0) := by
  have hsup (j : Nat) : suppliedBy g.r rs n i j = r.value.toNat := by simp [suppliedBy, hr, hrk]
  have hrow : Machine.vecRow opc f g n cols i rs ts rnds a =
      let x := joinRow ((List.range cols).map (fun j => vecBinary opc f.fn.toNat f.ty f.rm f.sat (drawAt rnds j) (a[j]?.getD 0) (suppliedBy g.r rs n i j)))
      (x.1, x.2, 0) := by
    rcases hopc with rfl | rfl | rfl | rfl | rfl <;> rfl
  rw [hrow]
  simp only [hsat, hsup, vecBinary_int ht hopc, joinRow, List.map_map]
  refine Prod.ext rfl (Prod.ext ?_ rfl)
  exact List.foldlRecOn (motive := fun fl : Flags => fl = 0) _ _ rfl fun fl hfl x hx => by
    obtain ⟨j, -, rfl⟩ := List.mem_map.mp hx
    rw [hfl]
    exact BitVec.or_self

/-- Row i of such a command is written, and nothing else but the draws goes on (R302). -/
theorem IntBinary.rowWork {r : Val} (ht : tyFloat f.ty = false) (hsat : f.sat = false) (hpout : poutForm f = false) (hr : c.fire.r = some r)
    (hrk : r.kind = .scalar) (rs ts : List (List Nat)) (seed : U64) (i : Nat) (a : List Nat) :
    (s.vecRowWork opc f c [(0, v)] rs ts seed i a).s =
        s.setViewRow v i ((List.range v.tile.cols).map (fun j => intElem opc f.ty (a[j]?.getD 0) r.value.toNat)) ∧
      (s.vecRowWork opc f c [(0, v)] rs ts seed i a).fl = 0 ∧ (s.vecRowWork opc f c [(0, v)] rs ts seed i a).cnt = 0 := by
  unfold State.vecRowWork
  simp only [hopc.not_reduces, hopc.extent hpout, hopc.destNo hpout, hopc.vecRow ht hsat hr hrk]
  exact ⟨rfl, rfl, rfl⟩

/-- The command goes through its rows. -/
theorem IntBinary.vecWhole_eq_loop : s.vecWhole opc f c =
    let xs := s.vecNow opc f c.fire
    let w := vecLoop opc f c xs (s.rowsOf xs 1) (s.rowsOf xs 2) (((s.rowsOf xs 0).take (vecExtent opc f xs).1).zipIdx)
      { s := s, seed := c.seed, fl := 0, cnt := 0, out := [] }
    w.s.vecDone opc f c w.fl w.cnt := by
  rcases hopc with rfl | rfl | rfl | rfl | rfl <;> rfl

/-- The rows of such a command are written one after another, from what stood in them when it began (R302). -/
theorem IntBinary.vecLoop_eq {r : Val} (ht : tyFloat f.ty = false) (hsat : f.sat = false) (hpout : poutForm f = false) (hr : c.fire.r = some r)
    (hrk : r.kind = .scalar) (rs ts : List (List Nat)) (l : List (List Nat × Nat)) {x : RowWork} (hfl : x.fl = 0) (hcnt : x.cnt = 0) :
    (vecLoop opc f c [(0, v)] rs ts l x).s = l.foldl (fun (t : State) p => t.setViewRow v p.2
      ((List.range v.tile.cols).map (fun j => intElem opc f.ty (p.1[j]?.getD 0) r.value.toNat))) x.s ∧
    (vecLoop opc f c [(0, v)] rs ts l x).fl = 0 ∧ (vecLoop opc f c [(0, v)] rs ts l x).cnt = 0 := by
  induction l generalizing x with
  | nil => exact ⟨rfl, hfl, hcnt⟩
  | cons p l ih =>
    obtain ⟨hs, hf, hc⟩ := hopc.rowWork (s := x.s) (v := v) ht hsat hpout hr hrk rs ts x.seed p.2 p.1
    rw [List.foldl_cons, ← hs]
    exact ih (by simp [hfl, hf]) (by simp [hcnt, hc])

/-- An integer command in place makes every element anew from the one that stood there and the scalar (R84, R302, R304). -/
theorem IntBinary.vecWhole {r : Val} (ht : tyFloat f.ty = false) (hsat : f.sat = false) (hpin : pinForm f = false) (hpout : poutForm f = false)
    (hl : c.fire.l.kind = .tile) (hr : c.fire.r = some r) (hrk : r.kind = .scalar) (h3 : c.fire.t = none)
    (hv : s.viewFlight c.fire.ctx c.fire.l.value = some v) :
    s.vecWhole opc f c = ((List.range v.n).foldl (fun t a => t.setViewRow v a ((List.range v.tile.cols).map (fun b =>
      intElem opc f.ty (s.elem v.core v.tile (v.row0 + a) b) r.value.toNat))) s).vecDone opc f c 0 0 := by
  have hrows : ((s.rowsOf [(0, v)] 0).take v.n).zipIdx = (List.range v.n).map (fun a => (s.viewRow v a, a)) :=
    List.ext_getElem (by simp [State.rowsOf, viewNo, State.viewRows]) fun i _ _ => by simp [State.rowsOf, viewNo, State.viewRows]
  have helem (a b : Nat) (hb : b ∈ List.range v.tile.cols) : (s.viewRow v a)[b]?.getD 0 = s.elem v.core v.tile (v.row0 + a) b := by
    simp [State.viewRow, List.mem_range.mp hb]
  obtain ⟨hs, hfl, hcnt⟩ := hopc.vecLoop_eq (v := v) ht hsat hpout hr hrk (s.rowsOf [(0, v)] 1) (s.rowsOf [(0, v)] 2)
    (((s.rowsOf [(0, v)] 0).take v.n).zipIdx) (x := { s := s, seed := c.seed, fl := 0, cnt := 0, out := [] }) rfl rfl
  rw [hopc.vecWhole_eq_loop]
  simp only [State.vecNow_tileScalar hpin hl hr hrk h3 hv, hopc.extent hpout, hs, hfl, hcnt]
  rw [hrows, List.foldl_map]
  congr 3
  funext t a
  rw [List.map_congr_left fun b hb => by rw [helem a b hb]]

end

/-! ## Tiles -/

section
variable (s)

theorem State.core_modTile (c i : Nat) (h : Tile → Tile) (n : Nat) :
    ∃ tiles, (s.modTile c i h).core n = { s.core n with tiles := tiles } := by
  unfold State.modTile
  rw [State.core_modCore]
  split
  · next e => subst e; exact ⟨_, rfl⟩
  · exact ⟨_, rfl⟩

@[simp] theorem State.tile_modTile_same (c i : Nat) (h : Tile → Tile) : ((s.modTile c i h).core c).tile i = h ((s.core c).tile i) := by
  rw [State.modTile, State.core_modCore_same]
  exact Table.look_put_same ..

/-- A tile that a command drops is one less in BUSY, and its space may be due to return (R52). -/
theorem State.tilesDrop_single (c i : Nat) :
    s.tilesDrop [(c, i)] = s.modTile c i (fun x => { x with busy := x.busy - 1 }) ∨
    s.tilesDrop [(c, i)] = (s.modTile c i (fun x => { x with busy := x.busy - 1 })).soon (.tileSpaceReturn c i) := by
  unfold State.tilesDrop
  simp only [List.foldl_cons, List.foldl_nil]
  split
  · exact .inr rfl
  · exact .inl rfl

/-- Dropping tiles changes tiles, and what follows at once, only. -/
theorem State.tilesDrop_frame (ts : List (Nat × Nat)) : (s.tilesDrop ts).vault = s.vault ∧ (s.tilesDrop ts).hbm = s.hbm ∧
    ∀ n, ∃ tiles, (s.tilesDrop ts).core n = { s.core n with tiles := tiles } := by
  induction ts generalizing s with
  | nil => exact ⟨rfl, rfl, fun n => ⟨_, rfl⟩⟩
  | cons x ts ih =>
    obtain ⟨hv, hh, hcore⟩ := ih (s.tilesDrop [x])
    obtain ⟨c, i⟩ := x
    have hone : (s.tilesDrop [(c, i)]).vault = s.vault ∧ (s.tilesDrop [(c, i)]).hbm = s.hbm ∧
        ∀ n, (s.tilesDrop [(c, i)]).core n = (s.modTile c i (fun x => { x with busy := x.busy - 1 })).core n := by
      rcases s.tilesDrop_single c i with h | h <;> rw [h] <;> exact ⟨rfl, rfl, fun _ => rfl⟩
    obtain ⟨hv1, hh1, hcore1⟩ := hone
    refine ⟨hv.trans hv1, hh.trans hh1, fun n => ?_⟩
    obtain ⟨tiles, h⟩ := hcore n
    obtain ⟨tiles', h'⟩ := s.core_modTile c i (fun x => { x with busy := x.busy - 1 }) n
    exact ⟨tiles, by rw [← hcore1] at h'; exact h.trans (by rw [h'])⟩

end

/-! ## The events of the vector unit -/

/-- The head of the queue of vector commands that no reduction holds back goes to work (R294). -/
theorem exec_vectorCommandStart {core : Nat} {rest : List Cmd} (hrun : (s.core core).vecRun = none) (hq : (s.core core).vecQueue = c :: rest)
    (hopc : c.instr.form.map Prod.fst = some opc) (hmay : (s.core core).vecMayStart c opc = true) (hred : vecReduces opc = false) :
    exec (.vectorCommandStart core) s = .next (s.modCore core (fun k => { k with vecQueue := rest, vecRun := some c })) := by
  show execVectorCommandStart core s = _
  simp [execVectorCommandStart, hrun, hq, hopc, hmay, hred]

@[simp] theorem Core.modAny_reds (k : Core) (fp : U32) (h : Frame → Frame) : (k.modAny fp h).reds = k.reds := by
  unfold Core.modAny
  split <;> rfl

/-- The state in which the tokens of a released round of a reduction leave: the round is over, the frame has released it, and the
destination stands in shadow no more (R317). -/
def State.redReleased (s : State) (core : Nat) (fp : U32) (ip : BitVec 20) (round : BitVec 8) (tc ti : Nat) : State :=
  ((((s.modCore core (fun k => { k with reds := k.reds.filter (fun x => !(x.fp == fp && x.ip == ip && x.round == round)) })).modCore core
    (fun k => k.modAny fp (fun fr => { fr with released := (ip, round) :: fr.released.filter (fun p => p.1 != ip) }))).modTile tc ti
      (fun x => { x with shadow := false })).tilesDrop [(tc, ti)])

theorem exec_reductionRelease {core : Nat} {fp : U32} {ip : BitVec 20} {r : Reduction} {g : Firing} {d : Val} {tc ti : Nat}
    (hfind : ((s.core core).redsOf fp ip).find? (s.core core).redFree = some r) (hmark : r.marker = some g) (hform : s.formOf g = some (opc, f))
    (hdest : r.dest = some (d, tc, ti)) (hquar : g.obj ∉ (s.core core).quar) :
    exec (.reductionRelease core fp ip) s = .next (((s.redReleased core fp ip r.round tc ti).emitBoth g f
      { d with prov := 7, round := r.round, lin := Lineage.none }).emitBoth g f (Val.marker r.round 7)) := by
  have hq : (s.core core).quar.contains g.obj = false := by simpa using hquar
  show execReductionRelease core fp ip s = _
  unfold execReductionRelease
  simp only [hfind, hmark, hform, hdest, hq, Bool.false_eq_true, if_false]
  rfl

/-- No round of the released number is left. -/
theorem State.redReleased_reds (core : Nat) (fp : U32) (ip : BitVec 20) (round : BitVec 8) (tc ti : Nat) :
    ∀ x ∈ ((s.redReleased core fp ip round tc ti).core core).redsOf fp ip, x.round ≠ round := by
  unfold State.redReleased
  generalize hu : (s.modCore core _).modCore core _ = u
  obtain ⟨-, -, hdrop⟩ := (u.modTile tc ti (fun x => { x with shadow := false })).tilesDrop_frame [(tc, ti)]
  obtain ⟨_, h⟩ := hdrop core
  obtain ⟨_, h'⟩ := u.core_modTile tc ti (fun x => { x with shadow := false }) core
  rw [h, h', ← hu]
  intro x hx
  simp only [Core.redsOf, State.core_modCore_same, Core.modAny_reds, List.mem_filter] at hx
  grind

theorem State.redReleased_shadow (core : Nat) (fp : U32) (ip : BitVec 20) (round : BitVec 8) (tc ti : Nat) :
    (((s.redReleased core fp ip round tc ti).core tc).tile ti).shadow = false := by
  unfold State.redReleased
  generalize (s.modCore core _).modCore core _ = u
  rcases (u.modTile tc ti (fun x => { x with shadow := false })).tilesDrop_single tc ti with h | h
  · rw [h]
    simp
  · rw [h]
    simp

theorem State.redReleased_memory (core : Nat) (fp : U32) (ip : BitVec 20) (round : BitVec 8) (tc ti : Nat) :
    (s.redReleased core fp ip round tc ti).vault = s.vault ∧ (s.redReleased core fp ip round tc ti).hbm = s.hbm := by
  obtain ⟨hv, hh, -⟩ := State.tilesDrop_frame (s := ((s.modCore core _).modCore core _).modTile tc ti _) [(tc, ti)]
  exact ⟨hv, hh⟩

/-! ## The obligation -/

/-- VECTOR_COMPLETE of an integer command in place, from what its elements are modulo 2^w. -/
theorem exec_vectorComplete_int {core : Nat} {fn : Option Nat} {r : Val} {e : Int → Int → Int} (hopc : IntBinary opc) (hrun : (s.core core).vecRun = some c)
    (hform : c.instr.form = some (opc, fn, f)) (ht : tyFloat f.ty = false) (hsat : f.sat = false) (hpin : pinForm f = false) (hpout : poutForm f = false)
    (hl : c.fire.l.kind = .tile) (hr : c.fire.r = some r) (hrk : r.kind = .scalar) (h3 : c.fire.t = none)
    (hv : s.view c.fire.ctx c.fire.l.value true = .ok v)
    (he : ∀ a b, (intElem opc f.ty a b : Int) % 2 ^ tyWidth f.ty = e (decodeInt f.ty a) (decodeInt f.ty b) % 2 ^ tyWidth f.ty) :
    ∃ out : Nat → Nat → Nat,
      (∀ a b, b < v.tile.cols → (out a b : Int) % 2 ^ tyWidth f.ty =
        e (decodeInt f.ty (s.elem v.core v.tile (v.row0 + a) b)) (decodeInt f.ty r.value.toNat) % 2 ^ tyWidth f.ty) ∧
      exec (.vectorComplete core) s = .next (((List.range v.n).foldl (fun t a =>
        t.setViewRow v a ((List.range v.tile.cols).map (out a))) s).vecDone opc f c 0 0) :=
  ⟨fun a b => intElem opc f.ty (s.elem v.core v.tile (v.row0 + a) b) r.value.toNat, fun _ _ _ => he _ _, by
    rw [exec_vectorComplete_tiles hrun hform hpin hpout, hopc.vecWhole ht hsat hpin hpout hl hr hrk h3 (State.viewFlight_of_view hv)]⟩

/-- Settles O34: the loop over the rows for the integer commands; the events by what each finds. -/
theorem vectorResults : Obligations.VectorResults := by
  unfold Obligations.VectorResults
  refine ⟨fun s core c f v r hrun hcore hr h3 hl hrk hv ht hsat hrm hpin hpout opc i e hmem hi => ?_, fun s core => ⟨?_, ?_, ?_⟩⟩
  · simp only [List.mem_cons, Prod.mk.injEq, List.not_mem_nil, or_false] at hmem
    rcases hmem with ⟨rfl, rfl, rfl⟩ | ⟨rfl, rfl, rfl⟩ | ⟨rfl, rfl, rfl⟩ | ⟨rfl, rfl, rfl⟩ | ⟨rfl, rfl, rfl⟩
    · exact exec_vectorComplete_int (.inl rfl) hrun (congrArg Instr.form hi) ht hsat hpin hpout hl hr hrk h3 hv fun a b => by
        rw [intElem_vadd ht, wrapInt_emod]
    · exact exec_vectorComplete_int (.inr (.inl rfl)) hrun (congrArg Instr.form hi) ht hsat hpin hpout hl hr hrk h3 hv fun a b => by
        rw [intElem_vsub ht, wrapInt_emod]
    · exact exec_vectorComplete_int (.inr (.inr (.inl rfl))) hrun (congrArg Instr.form hi) ht hsat hpin hpout hl hr hrk h3 hv fun a b => by
        rw [intElem_vmul ht, wrapInt_emod]
    · exact exec_vectorComplete_int (.inr (.inr (.inr (.inl rfl)))) hrun (congrArg Instr.form hi) ht hsat hpin hpout hl hr hrk h3 hv (intElem_vmin ht)
    · exact exec_vectorComplete_int (.inr (.inr (.inr (.inr rfl)))) hrun (congrArg Instr.form hi) ht hsat hpin hpout hl hr hrk h3 hv (intElem_vmax ht)
  · exact fun c rest hrun hq opc => exec_vectorCommandStart hrun hq
  · intro c f v w hrun hi hpin hpout hl hv hr hne
    obtain ⟨r, hfr⟩ := Option.ne_none_iff_exists'.mp hne
    obtain ⟨hrk, hw⟩ := hr r hfr
    obtain ⟨h0, h1⟩ := State.vecNow_twoTiles (opc := 0x9A) hpin hpout (by decide) hl hfr hrk (State.viewFlight_of_view hv) (State.viewFlight_of_view hw)
    rw [exec_vectorComplete_tiles (opc := 0x9A) hrun (by rw [hi]; rfl) hpin hpout, State.vecWhole_vtrans h0 h1]
  · intro fp ip r g opc f d tc ti hfind hmark hform hdest hquar
    obtain ⟨hvault, hhbm⟩ := s.redReleased_memory core fp ip r.round tc ti
    exact ⟨_, State.redReleased_reds core fp ip r.round tc ti, State.redReleased_shadow core fp ip r.round tc ti, hvault, hhbm,
      exec_reductionRelease hfind hmark hform hdest hquar⟩

end Sys2Proof.Machine

/-! SUPPORT. The accumulators of the matrix array: rows of I8 products, items that start and finish, bindings and gangs (R97, R98, R320 to R331). -/

namespace Sys2Proof.Machine

variable {s t : State} {core : Nat} {sel : Bool} {it : MatItem} {f : Fields}

/-! ## Accumulators -/

/-- The accumulator that an event's number names. -/
@[simp] theorem accBit_number (sel : Bool) : accBit (if sel then 1 else 0) = sel := by cases sel <;> rfl

@[simp] theorem Core.acc_setAcc (k : Core) (a : Bool) (x : Accum) : (k.setAcc a x).acc a = x := by cases a <;> rfl
@[simp] theorem Core.acc_count (k : Core) (n : Nat) (a : Bool) : (k.count n).acc a = k.acc a := by cases a <;> rfl

section
variable (s) (c : Nat) (a : Bool)

@[simp] theorem State.acc_modAcc (h : Accum → Accum) : ((s.modAcc c a h).core c).acc a = h ((s.core c).acc a) := by
  rw [State.modAcc, State.core_modCore_same, Core.acc_setAcc]

@[simp] theorem State.acc_modItem (id : Nat) (h : MatItem → MatItem) : ((s.modItem c a id h).core c).acc a =
    { (s.core c).acc a with queue := ((s.core c).acc a).queue.map (fun i => if i.id == id then h i else i) } := State.acc_modAcc ..

@[simp] theorem State.acc_count (n : Nat) : ((s.modCore c (fun k => k.count n)).core c).acc a = (s.core c).acc a := by
  rw [State.core_modCore_same, Core.acc_count]

/-- The turn of the heads changes no accumulator (R322). -/
@[simp] theorem State.acc_rowDone (t : State) (b : Bool) : ((s.rowDone t c b).core c).acc a = (t.core c).acc a := by
  unfold State.rowDone
  split
  · rw [State.core_modCore_same]
    cases a <;> rfl
  · rfl

theorem State.rowDone_memory (t : State) (b : Bool) : (s.rowDone t c b).vault = t.vault ∧ (s.rowDone t c b).hbm = t.hbm := by
  unfold State.rowDone
  split <;> exact ⟨rfl, rfl⟩

end

/-- Values put one after another from key k on are read at their keys, and every other key as before. -/
theorem Table.look_foldl_put (vs : List Nat) (t : List (Nat × BitVec 32)) (k b key : Nat) :
    Table.look 0 ((vs.zipIdx k).foldl (fun t (p : Nat × Nat) => Table.put t (b + p.2) (BitVec.ofNat 32 p.1)) t) key =
      if b + k ≤ key ∧ key < b + k + vs.length then BitVec.ofNat 32 (vs[key - (b + k)]?.getD 0) else Table.look 0 t key := by
  induction vs generalizing t k with
  | nil => simp
  | cons v vs ih =>
    rw [List.zipIdx_cons, List.foldl_cons, ih, Table.look_put]
    rcases Nat.lt_trichotomy key (b + k) with h | h | h
    · rw [if_neg (by omega), if_neg (by omega), if_neg (by omega)]
    · subst h
      simp
    · have hrest : key - (b + k) = key - (b + (k + 1)) + 1 := by omega
      rw [if_neg (show b + k ≠ key by omega), hrest, List.getElem?_cons_succ]
      simp only [List.length_cons]
      congr 1
      simp; omega

/-- A row written is read back in its columns, and every other element stays. -/
theorem Accum.at_setRow (x : Accum) {vs : List Nat} {row i j : Nat} (hj : j < 128) (hlen : vs.length ≤ 128) :
    (x.setRow row vs).at i j = if i = row ∧ j < vs.length then (vs[j]?.getD 0) % 2 ^ 32 else x.at i j := by
  unfold Accum.at Accum.setRow
  rw [Table.look_foldl_put]
  by_cases h : i = row ∧ j < vs.length
  · obtain ⟨rfl, h⟩ := h
    rw [if_pos (by omega), if_pos ⟨rfl, h⟩, Nat.add_zero, Nat.add_sub_cancel_left, BitVec.toNat_ofNat]
  · rw [if_neg (by omega), if_neg h]

/-! ## Sums of I8 products (R98) -/

/-- The nearest I32. -/
def nearestI32 (x : Int) : Int := max (-2 ^ 31) (min x (2 ^ 31 - 1))

/-- A wrapped integer is a bit pattern of I32. -/
theorem wrapInt_i32_lt (x : Int) : wrapInt .i32 x < 2 ^ 32 := by
  show (x % 2 ^ 32).toNat < 2 ^ 32
  omega

/-- An integer brought to I32 is the nearest one (R84). -/
theorem decodeInt_fitI32 (x : Int) : decodeInt .i32 ((fitInt .i32 true x).1 % 2 ^ 32) = nearestI32 x := by
  have hin {y : Int} (h : -2 ^ 31 ≤ y ∧ y ≤ 2 ^ 31 - 1) : decodeInt .i32 (wrapInt .i32 y % 2 ^ 32) = y := by
    have hmod : decodeInt .i32 (wrapInt .i32 y % 2 ^ 32) = decodeInt .i32 (wrapInt .i32 y) :=
      congrArg (decodeInt .i32) (Nat.mod_eq_of_lt (wrapInt_i32_lt y))
    rw [hmod]
    exact range_unique .i32 ⟨(decodeInt_spec .i32 _).1, (decodeInt_spec .i32 _).2.1⟩ h (decodeInt_wrapInt .i32 y)
  unfold fitInt nearestI32
  simp only [Bool.true_and, decide_eq_true_eq, tyMin, tyMax, tySigned, tyWidth, if_true, Nat.reduceSub]
  split
  · rw [hin (by omega)]; omega
  · split
    · rw [hin (by omega)]; omega
    · rw [hin (by omega)]; omega

/-- ISAT says that the value was not the integer (R84). -/
theorem isat_fitI32 (x : Int) : (fitInt .i32 true x).2.getLsbD 5 = true ↔ x < -2 ^ 31 ∨ 2 ^ 31 ≤ x := by
  unfold fitInt
  simp only [Bool.true_and, decide_eq_true_eq, tyMin, tyMax, tySigned, tyWidth, if_true, Nat.reduceSub]
  split
  · exact iff_of_true rfl (by omega)
  · split
    · exact iff_of_true rfl (by omega)
    · exact iff_of_false (show ¬ (0 : Flags).getLsbD 5 = true by decide) (by omega)

/-- ISAT is bit 5 of the flags. -/
theorem and_flagISAT (fl : Flags) : fl &&& flagISAT ≠ 0 ↔ fl.getLsbD 5 = true := by
  revert fl
  decide

/-- A row's flags are those of its elements. -/
theorem getLsbD_joinRow (l : List (Nat × Flags)) (k : Nat) : (joinRow l).2.getLsbD k = l.any (fun x => x.2.getLsbD k) := by
  have hfold (a : Flags) : (l.foldl (fun (a : Flags) x => a ||| x.2) a).getLsbD k = (a.getLsbD k || l.any (fun x => x.2.getLsbD k)) := by
    induction l generalizing a with
    | nil => simp
    | cons x l ih => simp [ih, Bool.or_assoc]
  exact (hfold 0).trans (by simp)

/-- Of a row and a column of at most one chunk the sum is added at once (R98). -/
theorem macElem_i8 {tb : EType} {mx : Bool} {k : Nat} (as bs : List Nat) (sa sb : Nat → Nat) (acc : Nat) (hk : 0 < k) (hk32 : k ≤ 32) :
    macElem .i8 tb mx k as bs sa sb acc = macInt acc ((as.zip bs).take k) := by
  have hone : (k + 32 - 1) / 32 = 1 := by omega
  have hall : (((as.zip bs).take k).drop (0 * 32)).take 32 = (as.zip bs).take k := by
    rw [Nat.zero_mul, List.drop_zero]
    exact List.take_of_length_le (by rw [List.length_take]; omega)
  unfold macElem
  simp only [macChunk, hone, List.range_one, List.foldl_cons, List.foldl_nil, hall, if_true]
  exact Prod.ext rfl BitVec.zero_or

/-- The pairs of two rows of which one has k elements and the other at least k. -/
theorem map_zip_range {cols k : Nat} (hk : k ≤ cols) (g h : Nat → Nat) (p : Nat × Nat → Int) :
    ((((List.range cols).map g).zip ((List.range k).map h)).take k).map p = (List.range k).map (fun i => p (g i, h i)) := by
  apply List.ext_getElem
  · simp; omega
  · intro i h1 h2
    simp

/-! ## Rows of an MMA of I8 (R327, R328, R330) -/

/-- Without ACC an element starts from 0 (R327). -/
theorem decodeInt_start (b : Bool) (x : Nat) : decodeInt .i32 (if b then x else 0) = if b then decodeInt .i32 x else 0 := by
  cases b <;> rfl

/-- The exact value of element (row, j) after a row of A has met column j of B. -/
def State.rowExact (s : State) (core : Nat) (sel : Bool) (it : MatItem) (f : Fields) (w : ShapeWord) (b : MatBinding) (v : View) (j : Nat) : Int :=
  (if f.qual.getLsbD 0 then decodeInt .i32 (((s.core core).acc sel).at (w.arow + it.row) j) else 0) +
    ((List.range w.k).map (fun k => decodeInt .i8 (s.elem v.core v.tile (v.row0 + it.row) k) *
      decodeInt .i8 (s.elem b.core ((s.core b.core).tile b.index) k j))).sum

/-- The row of exact values brought to I32, with its flags. -/
def State.rowSums (s : State) (core : Nat) (sel : Bool) (it : MatItem) (f : Fields) (w : ShapeWord) (b : MatBinding) (v : View) : List Nat × Flags :=
  joinRow ((List.range w.n).map (fun j => fitInt .i32 true (s.rowExact core sel it f w b v j)))

section
variable (s core sel it f) (w : ShapeWord) (b : MatBinding) (v : View)

theorem State.rowSums_length : (s.rowSums core sel it f w b v).1.length = w.n := by simp [State.rowSums, joinRow]

/-- An element of the row is the exact value brought to the nearest I32 (R98). -/
theorem State.rowSums_decode {j : Nat} (hj : j < w.n) :
    decodeInt .i32 (((s.rowSums core sel it f w b v).1[j]?.getD 0) % 2 ^ 32) = nearestI32 (s.rowExact core sel it f w b v j) := by
  rw [← decodeInt_fitI32]
  simp [State.rowSums, joinRow, hj]

/-- ISAT says that an exact value was not an I32 (R98). -/
theorem State.rowSums_isat : (s.rowSums core sel it f w b v).2.getLsbD 5 = true ↔
    ∃ j, j < w.n ∧ (s.rowExact core sel it f w b v j < -2 ^ 31 ∨ 2 ^ 31 ≤ s.rowExact core sel it f w b v j) := by
  unfold State.rowSums
  rw [getLsbD_joinRow, List.any_map, List.any_eq_true]
  simp only [List.mem_range, Function.comp_apply, isat_fitI32]

end

/-- A row of products of I8: each element is the exact value brought to I32. -/
theorem State.rowTimesB_i8 {w : ShapeWord} {b : MatBinding} {v : View} (hty : f.ty = .i8) (hk : 0 < w.k) (hk32 : w.k ≤ 32) (hcols : w.k ≤ v.tile.cols)
    (sc : Nat → Nat) : s.rowTimesB f b w.k w.n { xs := s.viewRow v it.row, sc := sc }
      (fun j => if bitAt f.qual 0 then ((s.core core).acc sel).at (w.arow + it.row) j else 0) =
    s.rowSums core sel it f w b v := by
  unfold State.rowTimesB
  refine congrArg joinRow (List.map_congr_left fun j _ => ?_)
  rw [hty, macElem_i8 _ _ _ _ _ hk hk32, macInt, State.viewRow, map_zip_range hcols, decodeInt_start]
  rfl

/-- A row of products changes its row of the accumulator and the flags of its items, and no memory. -/
theorem State.acc_macRow (s : State) (core : Nat) (a : Bool) (id : Nat) (f : Fields) (b : MatBinding) (w : ShapeWord) (row : Nat) (x : ARow) :
    let acc := (s.core core).acc a
    let r := s.rowTimesB f b w.k w.n x (fun j => if bitAt f.qual 0 then acc.at row j else 0)
    ((s.macRow core a id f b w row x).core core).acc a =
      { acc.setRow row r.1 with queue := acc.queue.map (fun i => if i.id == id then { i with flags := i.flags ||| r.2 } else i) } := by
  unfold State.macRow
  simp only [State.acc_count, State.acc_modItem, State.acc_modAcc]
  rfl

/-- A row firing of an MMA adds the products of its row, and the item at the head goes to the next row. -/
theorem State.mmaRow_of_head {b : MatBinding} (hhead : s.matHead core sel = some it) (hb : it.binding = some b) (x : ARow) :
    s.mmaRow core sel it f x =
      (s.macRow core sel it.id f b (it.shape true true false) ((it.shape true true false).arow + it.row) x).modItem core sel it.id
        (fun i => { i with row := i.row + 1 }) := by
  obtain ⟨rest, hq⟩ := List.head?_eq_some_iff.mp hhead
  unfold State.mmaRow
  simp only [hq, List.find?_cons_of_pos (p := fun i : MatItem => i.id == it.id) (beq_self_eq_true it.id), hb]

/-- A row firing writes no memory. -/
theorem State.mmaRow_memory {b : MatBinding} (hhead : s.matHead core sel = some it) (hb : it.binding = some b) (x : ARow) :
    (s.mmaRow core sel it f x).vault = s.vault ∧ (s.mmaRow core sel it f x).hbm = s.hbm := by
  rw [State.mmaRow_of_head hhead hb]
  exact ⟨rfl, rfl⟩

/-- The queue says nothing about elements. -/
@[simp] theorem Accum.at_queue (x : Accum) (q : List MatItem) (i j : Nat) : { x with queue := q }.at i j = x.at i j := rfl

/-- The accumulator and the item at its head after a row of I8 (R327, R330). -/
theorem State.acc_mmaRow_i8 {w : ShapeWord} {b : MatBinding} {v : View} (hhead : s.matHead core sel = some it) (hty : f.ty = .i8)
    (hb : it.binding = some b) (hshape : it.shape true true false = w) (hv : s.view it.fire.ctx it.fire.l.value true = .ok v)
    (hk : 0 < w.k) (hk32 : w.k ≤ 32) (hcols : w.k ≤ v.tile.cols) :
    ∃ rest, ((s.mmaRow core sel it f (s.rowA it it.row)).core core).acc sel =
      { ((s.core core).acc sel).setRow (w.arow + it.row) (s.rowSums core sel it f w b v).1 with
        queue := { it with flags := it.flags ||| (s.rowSums core sel it f w b v).2, row := it.row + 1 } :: rest } := by
  obtain ⟨rest, hq⟩ := List.head?_eq_some_iff.mp hhead
  have hrowA : s.rowA it it.row = { xs := s.viewRow v it.row, sc := fun c => s.vaultByte v.core (v.tile.scaleOf (v.row0 + it.row) (32 * c)) } := by
    unfold State.rowA
    rw [State.viewFlight_of_view hv]
  rw [State.mmaRow_of_head hhead hb, State.acc_modItem, State.acc_macRow, hshape, hrowA]
  simp only [State.rowTimesB_i8 (s := s) (core := core) (sel := sel) (it := it) (b := b) hty hk hk32 hcols, hq, List.map_cons, beq_self_eq_true, if_true]
  exact ⟨_, rfl⟩

/-- A started MMA in an active context works its next row (R322, R330). -/
theorem exec_rowFiring_mma (hhead : s.matHead core sel = some it) (hi : it.instr = .mma f) (hst : it.started = true)
    (hph : (s.ctx it.fire.ctx).phase = .active) (hmay : s.rowMay core sel = true) (hrow : it.row < (it.shape true true false).rows) :
    exec (.rowFiring core (if sel then 1 else 0)) s = .next (s.rowDone (s.mmaRow core sel it f (s.rowA it it.row)) core sel) := by
  have hform : it.instr.form = some (0xA4, none, f) := by rw [hi]; rfl
  have hheld : s.rowHeld it = false := by simp [State.rowHeld, hph]
  show execRowFiring core _ s = _
  simp [execRowFiring, hhead, hform, hst, hheld, hmay, hrow]

/-- Without a turn nothing fires (R322). -/
theorem exec_rowFiring_not_may (h : s.rowMay core sel = false) : exec (.rowFiring core (if sel then 1 else 0)) s = .next s := by
  show execRowFiring core _ s = _
  unfold execRowFiring
  simp only [accBit_number, h, Bool.not_false, Bool.or_true, if_true]
  split
  · rfl
  · split <;> rfl

/-- The shape word of an item that has one. -/
theorem MatItem.shape_of_shapeWord {w : ShapeWord} {rows depth out : Bool}
    (h : shapeWord ((it.fire.r.map Val.value).getD 0) rows depth out = some w) : it.shape rows depth out = w := by
  have hval : (theVal it.fire.r).value = (it.fire.r.map Val.value).getD 0 := by
    unfold theVal
    cases it.fire.r <;> rfl
  rw [MatItem.shape, hval, h, Option.getD_some]

/-- A shape word keeps its limits (R325). -/
theorem shapeWord_n_le {x : U64} {w : ShapeWord} {rows depth out : Bool} (h : shapeWord x rows depth out = some w) : w.n ≤ 128 := by
  unfold shapeWord at h
  dsimp only at h
  split at h
  · cases h
  · next hok =>
    obtain rfl := Option.some.inj h
    simp only [not_or, not_lt] at hok
    obtain ⟨-, -, -, -, hn, -⟩ := hok
    exact hn

/-- ROW_FIRING of an MMA of I8 of at most one chunk (R97, R98, R327, R330). -/
theorem rowFiring_i8 {w : ShapeWord} {b : MatBinding} {v : View} (hhead : s.matHead core sel = some it) (hi : it.instr = .mma f)
    (hty : f.ty = .i8) (hst : it.started = true) (hb : it.binding = some b) (hph : (s.ctx it.fire.ctx).phase = .active)
    (hw : shapeWord ((it.fire.r.map Val.value).getD 0) true true false = some w) (hv : s.view it.fire.ctx it.fire.l.value true = .ok v)
    (hrow : it.row < w.m) (hn : 0 < w.n) (hk : 0 < w.k) (hk32 : w.k ≤ 32) (hcols : w.k ≤ v.tile.cols) (hmay : s.rowMay core sel = true) :
    ∃ u : State, exec (.rowFiring core (if sel then 1 else 0)) s = .next u ∧ u.vault = s.vault ∧ u.hbm = s.hbm ∧
      (∀ j, j < w.n → decodeInt .i32 (((u.core core).acc sel).at (w.arow + it.row) j) = nearestI32 (s.rowExact core sel it f w b v j)) ∧
      (∀ i j, j < 128 → (i ≠ w.arow + it.row ∨ w.n ≤ j) → ((u.core core).acc sel).at i j = ((s.core core).acc sel).at i j) ∧
      (∀ x, u.matHead core sel = some x → x.row = it.row + 1 ∧
        (it.flags &&& flagISAT = 0 → (x.flags &&& flagISAT ≠ 0 ↔
          ∃ j, j < w.n ∧ (s.rowExact core sel it f w b v j < -2 ^ 31 ∨ 2 ^ 31 ≤ s.rowExact core sel it f w b v j)))) := by
  have hshape : it.shape true true false = w := MatItem.shape_of_shapeWord hw
  have hrows : w.rows = w.m := if_neg (by omega)
  obtain ⟨rest, hacc⟩ := State.acc_mmaRow_i8 hhead hty hb hshape hv hk hk32 hcols
  obtain ⟨hvault, hhbm⟩ := State.mmaRow_memory (core := core) (f := f) hhead hb (s.rowA it it.row)
  obtain ⟨hv', hh'⟩ := State.rowDone_memory s core (s.mmaRow core sel it f (s.rowA it it.row)) sel
  refine ⟨_, exec_rowFiring_mma hhead hi hst hph hmay (by rw [hshape, hrows]; exact hrow), hv'.trans hvault, hh'.trans hhbm, ?_⟩
  simp only [State.matHead, State.acc_rowDone, hacc]
  have hlen := State.rowSums_length s core sel it f w b v
  have hn128 : w.n ≤ 128 := shapeWord_n_le hw
  refine ⟨fun j hj => ?_, fun i j hj hij => ?_, fun x hx => ?_⟩
  · rw [Accum.at_queue, Accum.at_setRow _ (by omega) (by omega), if_pos ⟨rfl, by omega⟩, State.rowSums_decode _ _ _ _ _ _ _ _ hj]
  · rw [Accum.at_queue, Accum.at_setRow _ hj (by omega), if_neg (by omega)]
  · obtain rfl := Option.some.inj hx
    refine ⟨rfl, fun hclear => ?_⟩
    have hbit : it.flags.getLsbD 5 = false := by simpa using mt (and_flagISAT it.flags).mpr (not_not.mpr hclear)
    rw [and_flagISAT, BitVec.getLsbD_or, hbit, Bool.false_or, State.rowSums_isat]

/-! ## Items that start (R322, R332) -/

/-- The accumulator holds the other kind of number than the operator adds or scales (R332). -/
def atypeWrong (opc : Nat) (f : Fields) (isInt : Bool) : Prop :=
  ((opc = 0xA4 ∨ (opc = 0xA3 ∧ f.fn = 0)) ∧ isInt ≠ decide (f.ty = .i8)) ∨ (opc = 0xAA ∧ isInt = true)

section
variable {opc : Nat} {fn : Option Nat}

/-- An item other than of a gang fails check 9 or starts, drawing where it has not drawn yet (R332, R333). -/
theorem State.itemStart_single (hopc : opc ≠ 0xA5) :
    (atypeWrong opc f ((s.core core).acc sel).isInt → s.itemStart core sel it opc f = s.itemFail core sel it f .matAtype 0) ∧
    (¬ atypeWrong opc f ((s.core core).acc sel).isInt → s.itemStart core sel it opc f =
      if it.seed = 0 then (s.draws core (matDraws opc f it.fire)).1.modItem core sel it.id (fun i => { i with started := true, seed := (s.core core).lfsr })
      else s.modItem core sel it.id (fun i => { i with started := true })) := by
  have hfn : f.fn.toNat = 0 ↔ f.fn = 0 := (BitVec.toNat_eq (y := 0)).symm
  have hwrong : (((opc == 0xA4 || (opc == 0xA3 && f.fn.toNat == 0)) && ((s.core core).acc sel).isInt != (f.ty == .i8)) ||
      (opc == 0xAA && ((s.core core).acc sel).isInt)) = true ↔ atypeWrong opc f ((s.core core).acc sel).isInt := by
    simp only [atypeWrong, Bool.or_eq_true, Bool.and_eq_true, bne_iff_ne, beq_eq_decide, decide_eq_true_eq, hfn]
  unfold State.itemStart
  rw [if_neg hopc]
  exact ⟨fun h => if_pos (hwrong.mpr h), fun h => if_neg (mt hwrong.mp h)⟩

/-- The item at the head starts in an active context (R322, R333). -/
theorem exec_matrixItemStart (hhead : s.matHead core sel = some it) (hm : it.marker = false) (hst : it.started = false)
    (hform : it.instr.form = some (opc, fn, f)) (hph : (s.ctx it.fire.ctx).phase = .active) :
    exec (.matrixItemStart core (if sel then 1 else 0)) s = .next (s.itemStart core sel it opc f) := by
  show execMatrixItemStart core _ s = _
  simp [execMatrixItemStart, hhead, hform, hm, hst, hph]

end

/-! ## Items that finish (R321, R340, R341, R343) -/

theorem exec_matrixItemFinish_mclr (hhead : s.matHead core sel = some it) (hst : it.started = true) (hi : it.instr = .mclr f) :
    exec (.matrixItemFinish core (if sel then 1 else 0)) s = .next (s.mclrWork core sel it f) := by
  have hform : it.instr.form = some (0xA9, none, f) := by rw [hi]; rfl
  show execMatrixItemFinish core _ s = _
  simp [execMatrixItemFinish, hhead, hform, hst]

theorem exec_matrixItemFinish_msclClr (hhead : s.matHead core sel = some it) (hst : it.started = true) (hi : it.instr = .msclClr f) (hfn : f.fn ≠ 0) :
    exec (.matrixItemFinish core (if sel then 1 else 0)) s = .next (s.msclWork core sel it f false) := by
  have hform : it.instr.form = some (0xA6, some 1, f) := by rw [hi]; rfl
  have hset : (f.fn.toNat == 0) = false := beq_eq_false_iff_ne.mpr fun h => hfn (BitVec.eq_of_toNat_eq h)
  show execMatrixItemFinish core _ s = _
  simp [execMatrixItemFinish, hhead, hform, hst, hset]

theorem exec_matrixItemFinish_mrd (hhead : s.matHead core sel = some it) (hst : it.started = true) (hi : it.instr = .mrd f) :
    exec (.matrixItemFinish core (if sel then 1 else 0)) s = .next (s.mrdWork core sel it f) := by
  have hform : it.instr.form = some (0xA7, none, f) := by rw [hi]; rfl
  show execMatrixItemFinish core _ s = _
  simp [execMatrixItemFinish, hhead, hform, hst]

/-- MRD writes its window to its view and holds the handle (R341). -/
theorem State.mrdWork_eq {v : View} {w : ShapeWord} (hv : s.view it.fire.ctx it.fire.l.value true = .ok v)
    (hw : shapeWord ((it.fire.r.map Val.value).getD 0) true false false = some w) :
    ∃ fl, s.mrdWork core sel it f = (((((s.setViewRows v ((List.range w.m).map (fun i => (((s.core core).acc sel).outRow f w it.seed i).1))).itemGone
      core sel it.id).setFlags it.fire.ctx fl).modAcc core sel (fun x => { x with held := x.held ++ [it] })).matSettle core) := by
  refine ⟨((List.range w.m).map (((s.core core).acc sel).outRow f w it.seed)).foldl (fun (x : Flags) r => x ||| r.2) 0, ?_⟩
  unfold State.mrdWork
  rw [State.viewFlight_of_view hv, MatItem.shape_of_shapeWord hw]
  simp only [List.map_map]
  rfl

/-! ## Gangs (R331) -/

/-- A gang of one member is its issuer. -/
theorem State.gangCores_one (s : State) (core ctx : Nat) : s.gangCores core 1 ctx = [core] := rfl

/-- A gang of one member goes into its issuer's queue where that has room (R331). -/
theorem exec_gangGrant_single {stack row : Nat} {c : Cmd} (hc : s.gangs.find? (fun c => c.fire.core / 16 == stack * 16 + row) = some c)
    (hi : c.instr = .mmag f) (hg : f.imm.toNat % 8 = 0) : exec (.gangGrant stack row) s = .next (
      if ((s.core c.fire.core).acc (c.aux == 1)).queue.length < 8 then
        { s with gangs := s.gangs.filter (fun x => x.id != c.id) }.modAcc c.fire.core (c.aux == 1) (fun x => { x with
          queue := x.queue ++ [{ MatItem.start c.id c.fire c.instr false with gang := some (c.fire.core, c.id, 0, 1), tiles := c.tiles }] })
      else s) := by
  show execGangGrant stack row s = _
  unfold execGangGrant
  simp only [hc, hi, hg, Nat.zero_add, State.gangCores_one, List.zipIdx_cons, List.zipIdx_nil, List.all_cons, List.all_nil, Bool.and_true,
    List.foldl_cons, List.foldl_nil, if_true]
  split
  · next h => rw [if_neg (by simpa using h)]
  · next h => rw [if_pos (by simpa using h)]

/-! ## What tokens, records and answers leave (R320) -/

@[simp] theorem Core.modAny_mat (k : Core) (fp : U32) (g : Frame → Frame) : (k.modAny fp g).mat = k.mat := by
  unfold Core.modAny
  split <;> rfl

/-- t has the vaults of s and its bindings of B. -/
def State.KeepsMats (s t : State) : Prop := t.vault = s.vault ∧ ∀ c, (t.core c).mat = (s.core c).mat

theorem State.KeepsMats.refl (s : State) : s.KeepsMats s := ⟨rfl, fun _ => rfl⟩

/-- A loop whose body keeps them. -/
theorem State.KeepsMats.foldl {α β : Type} {π : β → State} {k : β → α → β} (l : List α) {b : β} (hb : s.KeepsMats (π b))
    (hk : ∀ b x, s.KeepsMats (π b) → s.KeepsMats (π (k b x))) : s.KeepsMats (π (l.foldl k b)) := by
  induction l generalizing b with
  | nil => exact hb
  | cons x l ih => exact ih (hk b x hb)

section
variable (h : s.KeepsMats t)
include h

/-- Components other than the cores and the vaults say nothing. -/
theorem State.KeepsMats.update {u : State} (hv : u.vault = t.vault) (hc : u.cores = t.cores) : s.KeepsMats u :=
  ⟨hv.trans h.1, fun c => (congrArg Core.mat (congrArg (Table.look Core.reset · c) hc)).trans (h.2 c)⟩

/-- A change to a core that leaves its binding. -/
theorem State.KeepsMats.modCore {c : Nat} {g : Core → Core} (hg : (g (t.core c)).mat = (t.core c).mat) : s.KeepsMats (t.modCore c g) := by
  refine ⟨h.1, fun c' => ?_⟩
  rw [State.core_modCore]
  split
  next hc => rw [hg, hc, h.2]
  · exact h.2 c'

theorem State.KeepsMats.modTask {n : Nat} {g : Task → Task} : s.KeepsMats (t.modTask n g) := by
  unfold State.modTask
  split
  · exact h.update rfl rfl
  · exact h

theorem State.KeepsMats.event {stack chan ctx src : Nat} {arg : U32} : s.KeepsMats (t.event stack chan ctx src arg) := h.update rfl rfl

theorem State.KeepsMats.ctxWrite {ctx va : Nat} {bs : List Byte} {u : State} (hu : t.ctxWrite ctx va bs = .ok u) : s.KeepsMats u := by
  unfold State.ctxWrite State.ctxWriteFor at hu
  split at hu
  · next cs _ =>
    obtain rfl := Except.ok.inj hu
    have hst := t.writeChunks_storesInto (bs := bs) (core := 4096) (cmd := 0) (own := none) cs
    rw [hst]
    exact h.update rfl rfl
  · cases hu

theorem State.KeepsMats.route {stack dst : Nat} {m : Mail} : s.KeepsMats (t.route stack dst m) := by
  unfold State.route
  split
  · exact h.modCore rfl
  · exact h.update rfl rfl

theorem State.KeepsMats.post {src dst : Nat} {m : Msg} : s.KeepsMats (t.post src dst m) := h.route

theorem State.KeepsMats.logFault {r : FaultRec} : s.KeepsMats (t.logFault r).1 := by
  unfold State.logFault
  dsimp only
  split
  · exact h.update rfl rfl
  · split
    · exact h.update rfl rfl
    next hu => exact (h.ctxWrite hu).update rfl rfl

theorem State.KeepsMats.toHandler {ctx core : Nat} {v : U64} : s.KeepsMats (t.toHandler ctx core v) := by
  unfold State.toHandler
  dsimp only
  split
  · exact h
  · split
    · exact h
    · exact (h.update rfl rfl : s.KeepsMats (t.modCtx ctx _)).post

theorem State.KeepsMats.send {src ctx : Nat} {k : Token} {reply : Bool} : s.KeepsMats (t.send src ctx k reply) := by
  unfold State.send
  split
  · exact (h.update rfl rfl : s.KeepsMats (t.modCtx ctx _)).post
  · exact h.logFault.toHandler

theorem State.KeepsMats.liveDec {ctx : Nat} {fp : U32} : s.KeepsMats (t.liveDec ctx fp) := by
  unfold State.liveDec
  split
  · exact h
  · next c _ =>
    split
    · exact h
    · split
      · exact h
      · have hlive : s.KeepsMats (t.modCore c (fun k => k.modAny fp (fun f => { f with live := f.live - 1 }))) := h.modCore (by simp)
        dsimp only
        split
        · exact hlive.update rfl rfl
        · exact hlive

theorem State.KeepsMats.endRecording {quad reason : Nat} : s.KeepsMats (t.endRecording quad reason) := by
  unfold State.endRecording
  split
  · exact h
  · next r _ =>
    have hrec {g : TapeEngine → TapeEngine} {g' : Task → Task} : s.KeepsMats ((t.modEngine quad g).modTask r.task g') :=
      (h.update rfl rfl : s.KeepsMats (t.modEngine quad g)).modTask
    dsimp only
    split
    · exact hrec
    · exact hrec.logFault

theorem State.KeepsMats.faultToken {g : Firing} {d : Dest} {cls : FaultClass} {n : U32} {reply : Bool} : s.KeepsMats (t.faultToken g d cls n reply) := by
  unfold State.faultToken
  dsimp only
  split
  · exact h.update rfl rfl
  · split
    · exact h
    · exact h.send

theorem State.KeepsMats.fault {g : Firing} {cls : FaultClass} {n : Nat} : s.KeepsMats (t.fault g f cls n) := by
  unfold State.fault State.raise
  dsimp only
  split
  · exact h.logFault.faultToken.endRecording
  · exact h.logFault.faultToken

theorem State.KeepsMats.emitTo {g : Firing} {second reply : Bool} {v : Val} : s.KeepsMats (t.emitTo g f second v reply) := by
  unfold State.emitTo
  dsimp only
  split
  · exact h
  · exact h.send
  · split
    · exact h.send
    · exact h
  · split
    · exact h
    · split
      · exact h.fault
      · exact h.send

theorem State.KeepsMats.emit {g : Firing} {second reply : Bool} {v : Val} : s.KeepsMats (t.emit g f second v reply) := by
  unfold State.emit
  split
  · exact h.emitTo
  · split
    · exact h.update rfl rfl
    · exact h.emitTo

theorem State.KeepsMats.tilesDrop {ts : List (Nat × Nat)} : s.KeepsMats (t.tilesDrop ts) := by
  obtain ⟨hv, -, hc⟩ := State.tilesDrop_frame (s := t) ts
  refine ⟨hv.trans h.1, fun n => ?_⟩
  obtain ⟨_, hn⟩ := hc n
  rw [hn]
  exact h.2 n

theorem State.KeepsMats.capsBusy {core : Nat} {cs : List Nat} {g : Nat → Nat} : s.KeepsMats (t.capsBusy core cs g) := by
  obtain ⟨hs, hc⟩ := State.capsBusy_spec (s := t) core cs g
  have hv : (t.capsBusy core cs g).vault = t.vault := by injection hs
  refine ⟨hv.trans h.1, fun n => ?_⟩
  obtain ⟨_, hn⟩ := hc n
  rw [hn]
  exact h.2 n

/-- A command that ends leaves bindings and vaults (R320). -/
theorem State.KeepsMats.finish {c : Cmd} {clear : Bool} : s.KeepsMats (t.finish c clear) := by
  have hrel : s.KeepsMats (t.release_ c clear) := by
    unfold State.release_
    dsimp only
    split
    · split
      · exact h.tilesDrop.capsBusy.modCore rfl
      · exact h.tilesDrop.capsBusy
    · exact h.tilesDrop.capsBusy
  exact hrel.modCore rfl

theorem State.KeepsMats.replies {c : Cmd} {outs : List (Bool × Val)} : s.KeepsMats (t.replies c f outs) := by
  unfold State.replies State.liveDecs
  refine .foldl (π := id) _ (.foldl (π := Prod.fst) _ h fun b o hb => ?_) fun _ _ hb => hb.liveDec
  split <;> exact hb.emit

theorem State.KeepsMats.answer {c : Cmd} {outs : List (Bool × Val)} : s.KeepsMats (t.answer c f outs) := h.finish.replies

theorem State.KeepsMats.matEmit {g : Firing} {v : Val} : s.KeepsMats (t.matEmit g f v) := by
  unfold State.matEmit
  split
  · exact h
  · exact h.emit.emit

theorem State.KeepsMats.matSettle : s.KeepsMats (t.matSettle core) := by
  unfold State.matSettle
  refine .foldl (π := id) _ h fun b c hb => ?_
  split
  · split
    · exact hb.answer
    · exact hb
  · split
    · exact hb.answer
    · exact hb
  · exact hb

end

/-- A closing binding that no item has captured ends (R320, R336). -/
theorem exec_bindingRelease {b : MatBinding} {g : Firing} (hb : (s.core core).mat = some b) (hg : b.closing = some g)
    (hfree : ∀ x ∈ (s.core core).acc0.queue ++ (s.core core).acc1.queue, x.binding = none) :
    ∃ u : State, exec (.bindingRelease core) s = .next u ∧ (u.core core).mat = none ∧ u.vault = s.vault := by
  have hany : ((s.core core).acc0.queue ++ (s.core core).acc1.queue).any (fun i => i.binding.isSome) = false := by
    simp only [List.any_eq_false, Option.isSome_iff_ne_none, not_not]
    exact hfree
  show ∃ u, execBindingRelease core s = .next u ∧ _
  unfold execBindingRelease
  simp only [hb, hg, hany]
  generalize hu : s.modCore core _ = u
  have hmat : (u.core core).mat = none := by rw [← hu, State.core_modCore_same]
  have hvault : u.vault = s.vault := by rw [← hu]; rfl
  have hdrop := (State.KeepsMats.refl u).tilesDrop (ts := [(b.core, b.index)])
  refine ⟨_, rfl, ?_⟩
  rw [if_neg Bool.false_ne_true]
  split
  · obtain ⟨hv, hc⟩ := hdrop.matEmit.matSettle
    exact ⟨(hc core).trans hmat, hv.trans hvault⟩
  · obtain ⟨hv, hc⟩ := hdrop.matSettle
    exact ⟨(hc core).trans hmat, hv.trans hvault⟩

/-! ## The obligation -/

/-- Settles O36: each part is the lemma of its event above. -/
theorem matrixResults : Obligations.MatrixResults := by
  unfold Obligations.MatrixResults
  refine ⟨fun s core sel it f w b v hhead hi hty _ hst hb _ hph hw hv hrow hn hk hk32 hcols hmay =>
    rowFiring_i8 hhead hi hty hst hb hph hw hv hrow hn hk hk32 hcols hmay, fun s core sel => ⟨?start, exec_rowFiring_not_may, ?finish, ?release, ?grant⟩⟩
  case start =>
    intro it opc fn f hhead hm hst hform hph hopc
    obtain ⟨hwrong, hok⟩ := State.itemStart_single (s := s) (core := core) (sel := sel) (it := it) (f := f) hopc
    have hexec := exec_matrixItemStart hhead hm hst hform hph
    refine ⟨fun h => hexec.trans (congrArg _ (hwrong h)), fun hi8 hresc => ?_⟩
    have hfine : ¬ atypeWrong opc f ((s.core core).acc sel).isInt := by
      rintro (⟨hadd, hne⟩ | ⟨hmresc, hint⟩)
      · exact hne (hi8 (hadd.imp_right And.left))
      · exact Bool.false_ne_true ((hresc hmresc).symm.trans hint)
    exact ⟨fun hseed => hexec.trans (congrArg _ ((hok hfine).trans (if_neg hseed))),
      fun hseed => hexec.trans (congrArg _ ((hok hfine).trans (if_pos hseed)))⟩
  case finish =>
    intro it f hhead _ hst
    refine ⟨exec_matrixItemFinish_mclr hhead hst, exec_matrixItemFinish_msclClr hhead hst, fun v w hi hv hw => ?_⟩
    obtain ⟨fl, hfl⟩ := State.mrdWork_eq (s := s) (core := core) (sel := sel) (f := f) hv hw
    exact ⟨fl, (exec_matrixItemFinish_mrd hhead hst hi).trans (congrArg _ hfl)⟩
  case release => exact fun b g _ _ hb hg _ hfree => exec_bindingRelease hb hg hfree
  case grant =>
    intro stack row c f hc hi hg
    have hexec := exec_gangGrant_single hc hi hg
    exact ⟨fun hroom => ⟨_, rfl, rfl, rfl, rfl, rfl, hexec.trans (congrArg _ (if_pos hroom))⟩,
      fun hfull => hexec.trans (congrArg _ (if_neg (by omega)))⟩

end Sys2Proof.Machine

/-! SUPPORT. The launch and queue instructions on the operands of their firing, and RANGE and RGIVE of a worker (R117 to R123). -/

namespace Sys2Proof.Machine

variable {s : State} {g : Firing} {f : Fields}

/-! ## Queues of a context (R117, R120, R121) -/

theorem State.ownQueue_beyond {ctx : Nat} {v : U64} (h : 4096 ≤ v.toNat) : s.ownQueue ctx v = .error .queueRange := if_pos h

/-- What QINFO reads of a queue of the context, as a number (R121). -/
def State.queueInfo (s : State) (fn q : Nat) (d : QDesc) : Nat :=
  match fn with
  | 0 => d.depth
  | 1 => d.prio + 256 * (match s.resident? q with
    | some (_, _, r) => r.eff
    | none => d.prio)
  | 2 => match s.resident? q with
    | some (k, n, _) => 16 * k + n
    | none => 2 ^ 64 - 1
  | _ => d.ovf

theorem State.qinfo_eq (fn q : Nat) (d : QDesc) : s.qinfo fn q d = BitVec.ofNat 64 (s.queueInfo fn q d) := by
  unfold State.qinfo State.queueInfo
  match fn with
  | 0 | 1 | _ + 3 => rfl
  | 2 => cases s.resident? q <;> rfl

/-- The number in R, or else in IMM, that QPRIO and QBIND.BIND take. -/
def Firing.rOrImm (g : Firing) (f : Fields) : Nat := (g.r.map (fun v => v.value.toNat)).getD f.imm.toNat

/-- A queue's PRIO and EFF after QPRIO (R120). -/
def State.setPrio (s : State) (q p : Nat) : State :=
  let u := s.qwrite q 2 1 p
  match u.resident? q with
  | some (k, n, _) => u.modSlot k n (fun x => { x with prio := p, eff := p, passed := 0 })
  | none => u

/-! ## Pushes (R117) -/

/-- The queue's ring takes the record, and the firing emits its place. -/
theorem State.push_of_room {i : Instr} {d : QDesc} {ws : List U64} (hfull : d.full = false) (hturn : s.pushTurn g.core s.ids g.l.value.toNat = true) :
    s.push g f i d ws = (s.append g.l.value.toNat d (recBytes ws) (some g.core)).1.emit g f false (launchScalar g (BitVec.ofNat 64 d.tail)) := by
  unfold State.push
  simp only [hfull, hturn, Bool.not_true, Bool.or_self, Bool.false_eq_true, if_false]
  rfl

/-- At a full queue the push waits as a command. -/
theorem State.push_of_full {i : Instr} {d : QDesc} {ws : List U64} (hfull : d.full = true) : s.push g f i d ws =
    (s.accept f { Cmd.start 0 g i .launch with phase := .queued, data := recBytes ws }).1 := by
  unfold State.push
  simp only [hfull, Bool.true_or, if_true]

/-- A push has its turn where no earlier push of its core waits at the queue. -/
theorem State.pushTurn_iff {core id q : Nat} : s.pushTurn core id q = true ↔
    ∀ c ∈ (s.core core).cmds, c.engine = .launch → c.phase = .queued → c.id < id → c.fire.l.value.toNat ≠ q := by
  simp only [State.pushTurn, List.all_eq_true, Bool.not_eq_true', Bool.and_eq_false_imp, Bool.and_eq_true, beq_iff_eq, decide_eq_true_eq,
    beq_eq_false_iff_ne, and_imp]

theorem State.pushTurn_of_none {core id : Nat} {v : U64}
    (h : ∀ c ∈ (s.core core).cmds, c.engine = .launch → c.phase = .queued → c.fire.l.value ≠ v) : s.pushTurn core id v.toNat = true :=
  State.pushTurn_iff.mpr fun c hc he hp _ hv => h c hc he hp (BitVec.eq_of_toNat_eq hv)

/-- LIVE of a frame leaves the commands of every core. -/
theorem State.liveInc_cmds (ctx : Nat) (fp : U32) (n : Nat) : ((s.liveInc ctx fp).core n).cmds = (s.core n).cmds := by
  obtain ⟨-, hcore⟩ := State.liveInc_spec (s := s) ctx fp
  obtain ⟨_, _, hn⟩ := hcore n
  rw [hn]

/-- HOSTC alone is cleared in word 0 of LAUNCH's record. -/
theorem launchWord0 (w : U64) : field w 63 1 ++ (0 : BitVec 1) ++ field w 0 62 = w &&& 0xBFFFFFFFFFFFFFFF := by
  have hmask : ∀ i : Fin 64, (0xBFFFFFFFFFFFFFFF : U64).getLsbD i = decide ((i : Nat) ≠ 62) := by decide
  refine BitVec.eq_of_getLsbD_eq fun i hi => ?_
  rw [BitVec.getLsbD_and, hmask ⟨i, hi⟩]
  simp only [field, BitVec.getLsbD_append, BitVec.getLsbD_extractLsb']
  rcases Nat.lt_or_ge i 62 with h | h
  · simp [h, h.ne]
  · obtain rfl | rfl : i = 62 ∨ i = 63 := by omega
    · simp
    · simp

/-- The record that LAUNCH writes: HOSTC is 0 and CONT names dest1 in a frame (R117). -/
def launchRecord (f : Fields) (ws : List U64) (fp : U32) : List U64 :=
  ((ws[0]?.getD 0) &&& 0xBFFFFFFFFFFFFFFF) :: (fp ++ f.d1.ip ++ bit1 f.d1.port ++ ((ws[1]?.getD 0).extractLsb' 0 11)) :: ws.drop 2

theorem State.launchWords_eq {ws : List U64} {fp : U32} (h : s.destFp g f.d1 = some fp) : s.launchWords g f ws = some (launchRecord f ws fp) := by
  unfold State.launchWords launchRecord
  rw [h, ← launchWord0]
  rfl

section
variable (hc : s.cur = some g) (hs : g.scalars)
include hc hs

/-- A number that is no queue of the context is a fault (R117, R120, R121). -/
theorem exec_of_ownQueue_error {e : FaultClass} (hq : s.retire.ownQueue g.ctx g.l.value = .error e) :
    ∀ i ∈ [Instr.launch f, .qpush f, .qprio f, .qinfo f], exec i s = .next (s.retire.fault g f e g.l.value.toNat) := by
  simp only [List.forall_mem_cons, List.not_mem_nil, false_imp_iff, implies_true, and_true]
  refine ⟨?_, ?_, ?_, ?_⟩ <;>
  · refine congrArg Host.Outcome.next ((State.operate_scalars hc hs rfl rfl rfl).trans ?_)
    simp only [hq]

section
variable {d : QDesc} (hq : s.retire.ownQueue g.ctx g.l.value = .ok d)
include hq

theorem exec_qinfo : exec (.qinfo f) s =
    .next (s.retire.emit g f false (launchScalar g (BitVec.ofNat 64 (s.retire.queueInfo f.fn.toNat g.l.value.toNat d)))) := by
  refine congrArg Host.Outcome.next ((State.operate_scalars hc hs rfl rfl rfl).trans ?_)
  simp only [hq, State.qinfo_eq]

theorem exec_qprio : exec (.qprio f) s = .next (if 7 < g.rOrImm f then s.retire.fault g f .operandRange 0
    else (s.retire.setPrio g.l.value.toNat (g.rOrImm f)).emit g f false (launchScalar g (BitVec.ofNat 64 d.prio))) := by
  refine congrArg Host.Outcome.next ((State.operate_scalars hc hs rfl rfl rfl).trans ?_)
  simp only [hq]
  unfold Firing.rOrImm
  cases g.r <;> rfl

section
variable {ws : List U64} (hw : s.retire.recSlots g f.slot.toNat = .ok ws)
include hw

theorem exec_qpush : exec (.qpush f) s = .next (if recMalformed ws (s.ctx g.ctx).hcwlen.toNat then s.retire.fault g f .taskMalformed 0
    else s.retire.push g f (.qpush f) d ws) := by
  refine congrArg Host.Outcome.next ((State.operate_scalars hc hs rfl rfl rfl).trans ?_)
  simp only [hq, hw]
  rfl

theorem exec_launch {fp : U32} (hfp : s.retire.destFp g f.d1 = some fp)
    (hok : recMalformed (launchRecord f ws fp) (s.ctx g.ctx).hcwlen.toNat = false) :
    exec (.launch f) s = .next ((s.retire.liveInc g.ctx fp).push g f (.launch f) d (launchRecord f ws fp)) := by
  refine congrArg Host.Outcome.next ((State.operate_scalars hc hs rfl rfl rfl).trans ?_)
  simp only [hq, hw, State.launchWords_eq hfp, State.retire_ctx, hok, hfp, Bool.false_eq_true, if_false, Option.getD_some]

end
end

/-! ## Residence (R122) -/

theorem exec_qbind_unprivileged (hsup : (s.ctx g.ctx).sup = false) :
    ∀ i ∈ [Instr.qbindBind f, .qbindUnbind f], exec i s = .next (s.retire.fault g f .privilege 0) := by
  simp only [List.forall_mem_cons, List.not_mem_nil, false_imp_iff, implies_true, and_true]
  refine ⟨?_, ?_⟩ <;>
  · refine congrArg Host.Outcome.next ((State.operate_scalars hc hs rfl rfl rfl).trans ?_)
    simp only [State.retire_ctx, hsup, Bool.not_false, if_true]

section
variable (hsup : (s.ctx g.ctx).sup = true) (hlt : g.l.value.toNat < 4096)
include hsup hlt

theorem exec_qbindBind {d : QDesc} (hn : g.rOrImm f < 256) (hd : s.retire.qdesc g.l.value.toNat = some d) :
    exec (.qbindBind f) s = .next (if (s.retire.resident? g.l.value.toNat).isSome then s.retire.emit g f false (launchScalar g 2)
      else if (Table.find (s.stack (g.rOrImm f / 16)).slots (g.rOrImm f % 16)).isSome then s.retire.emit g f false (launchScalar g 1)
      else (s.retire.makeResident g.l.value.toNat (g.rOrImm f) d).emit g f false (launchScalar g 0)) := by
  refine congrArg Host.Outcome.next ((State.operate_scalars hc hs rfl rfl rfl).trans ?_)
  revert hn
  unfold Firing.rOrImm
  cases g.r <;>
  · simp only [Option.map_none, Option.map_some, Option.getD_none, Option.getD_some]
    intro hn
    simp only [State.retire_ctx, State.retire_stack, hsup, hd, Nat.not_le.mpr hlt, Nat.not_le.mpr hn, Bool.not_true, Bool.false_eq_true, if_false]
    rfl

theorem exec_qbindUnbind_absent (hr : s.retire.resident? g.l.value.toNat = none) :
    exec (.qbindUnbind f) s = .next (s.retire.emit g f false (launchScalar g 2)) := by
  refine congrArg Host.Outcome.next ((State.operate_scalars hc hs rfl rfl rfl).trans ?_)
  simp only [State.retire_ctx, hsup, hr, Nat.not_le.mpr hlt, Bool.not_true, Bool.false_eq_true, if_false]

theorem exec_qbindUnbind_resident {k n : Nat} {r : Resident} (hr : s.retire.resident? g.l.value.toNat = some (k, n, r)) :
    exec (.qbindUnbind f) s = .next ((s.retire.dropResident g.l.value.toNat k n r).emit g f false (launchScalar g 0)) := by
  refine congrArg Host.Outcome.next ((State.operate_scalars hc hs rfl rfl rfl).trans ?_)
  simp only [State.retire_ctx, hsup, hr, Nat.not_le.mpr hlt, Bool.not_true, Bool.false_eq_true, if_false]

end
/-! ## Shares of a worker (R118, R119) -/

/-- A worker that owns no share has nothing to give. -/
theorem exec_rgive_unowned (hx : s.retire.ownedShare g.core g.fp = none) : exec (.rgive f) s = .next (s.retire.fault g f .rangeReturn 0) := by
  refine congrArg Host.Outcome.next ((State.operate_scalars hc hs rfl rfl rfl).trans ?_)
  simp only [hx]
  cases (s.retire.frameOf g).bind Frame.worker <;> rfl

end

section
variable {fr : Frame} (hc : s.cur = some g) (hfr : s.retire.frameOf g = some fr)
include hc hfr

theorem exec_range_notWorker (hp : g.plain) (hw : fr.worker = none) : exec (.range f) s = .next (s.retire.fault g f .notRange 0) := by
  refine congrArg Host.Outcome.next ((State.operate_plain hc hp (kindsOk_any ..)).trans ?_)
  simp only [State.isWorker, hfr, hw, Option.isSome_none, Bool.not_false, if_true]

/-- A worker without a share, or with an empty one, is given nulls. -/
theorem exec_range_empty (hp : g.plain) (hw : fr.worker ≠ none) (hx : ∀ n x, s.retire.ownedShare g.core g.fp = some (n, x) → x.hi ≤ x.lo) :
    exec (.range f) s = .next (s.retire.emitBoth g f (Val.null g.l.round 14)) := by
  refine congrArg Host.Outcome.next ((State.operate_plain hc hp (kindsOk_any ..)).trans ?_)
  simp only [State.isWorker, hfr, Option.isSome_iff_ne_none.mpr hw, Bool.not_true, Bool.false_eq_true, if_false]
  split
  · next n x hn => rw [if_neg (Nat.not_lt.mpr (hx n x hn))]; rfl
  · rfl

/-- The next grain of a worker's share. -/
theorem exec_range_grain {n : Nat} {x : Share} (hp : g.plain) (hw : fr.worker ≠ none) (hx : s.retire.ownedShare g.core g.fp = some (n, x))
    (hlt : x.lo < x.hi) : exec (.range f) s = .next (((((s.retire.modShare n (fun y => some { y with lo := min (x.lo + x.grain) x.hi })).modFrameOf g
      (fun fr => { fr with worker := some (n, x.lo, min (x.lo + x.grain) x.hi) })).emit g f false (launchScalar g (BitVec.ofNat 64 x.lo))).emit
        g f true (launchScalar g (BitVec.ofNat 64 (min (x.lo + x.grain) x.hi))))) := by
  refine congrArg Host.Outcome.next ((State.operate_plain hc hp (kindsOk_any ..)).trans ?_)
  simp only [State.isWorker, hfr, Option.isSome_iff_ne_none.mpr hw, hx, hlt, Bool.not_true, Bool.false_eq_true, if_false, if_true]

section
variable (hs : g.scalars) {r : Val} {n a b : Nat} (hr : g.r = some r) (hw : fr.worker = some (n, a, b))
include hs hr hw

/-- What is no rest of the last grain is not taken back. -/
theorem exec_rgive_noRest (hbad : r.value.toNat ≤ g.l.value.toNat ∨ g.l.value.toNat < a ∨ r.value.toNat ≠ b) :
    exec (.rgive f) s = .next (s.retire.fault g f .rangeReturn 0) := by
  refine congrArg Host.Outcome.next ((State.operate_scalars hc hs rfl rfl rfl).trans ?_)
  simp only [hfr, hw, hr, optVal, Option.bind_some, Option.map_some, Option.getD_some]
  cases hx : s.retire.ownedShare g.core g.fp with
  | none => rfl
  | some own =>
    dsimp only
    rw [if_pos (by simpa [or_assoc] using hbad)]

/-- A rest of the last grain leaves the worker; it becomes a share of its own, or is the worker's again (log 122). -/
theorem exec_rgive_rest {m : Nat} {x : Share} (hlt : g.l.value.toNat < r.value.toNat) (ha : a ≤ g.l.value.toNat) (hb : r.value.toNat = b)
    (hx : s.retire.ownedShare g.core g.fp = some (m, x)) :
    let lo := g.l.value.toNat
    let hi := r.value.toNat
    let u := s.retire.modFrameOf g (fun fr => { fr with worker := some (n, lo, lo) })
    (∀ j, Table.lowestFree (s.stack (n / 2 ^ 20)).shares 256 = some j →
      exec (.rgive f) s = .next ((u.setShare (n / 2 ^ 20) j { task := g.task, grain := x.grain, lo := lo, hi := hi, owner := none, ready := true }).emit
        g f false (launchScalar g (BitVec.ofNat 64 (hi - lo))))) ∧
    (Table.lowestFree (s.stack (n / 2 ^ 20)).shares 256 = none →
      exec (.rgive f) s = .next ((u.modShare m (fun x => some { x with lo := lo })).emit g f false (launchScalar g (BitVec.ofNat 64 (hi - lo))))) := by
  intro lo hi u
  have hrest (v : State) (hv : v = match Table.lowestFree (s.stack (n / 2 ^ 20)).shares 256 with
      | some i => u.setShare (n / 2 ^ 20) i { task := g.task, grain := x.grain, lo := lo, hi := hi, owner := none, ready := true }
      | none => u.modShare m (fun x => some { x with lo := lo })) :
      exec (.rgive f) s = .next (v.emit g f false (launchScalar g (BitVec.ofNat 64 (hi - lo)))) := by
    refine congrArg Host.Outcome.next ((State.operate_scalars hc hs rfl rfl rfl).trans ?_)
    simp only [hfr, hw, hr, hx, optVal, Option.bind_some, Option.map_some, Option.getD_some]
    rw [if_neg (by simpa using ⟨⟨hlt, ha⟩, hb⟩), hv]
    rfl
  exact ⟨fun j hj => hrest _ (by rw [hj]), fun hnone => hrest _ (by rw [hnone])⟩

end
end

/-- Settles O45: each instruction by its lemma above; a record pushed is appended at the queue's TAIL. -/
theorem queueOperatorResults : Obligations.QueueOperatorResults := by
  unfold Obligations.QueueOperatorResults
  refine ⟨fun s g f hc => ⟨fun hp => congrArg Host.Outcome.next (State.operate_plain hc hp (kindsOk_any ..)), fun hs =>
      ⟨fun e he => exec_of_ownQueue_error hc hs he, fun h => State.ownQueue_beyond h, fun d hq => ⟨exec_qinfo hc hs hq, ?prioRange, ?prio, ?push⟩,
        exec_qbind_unprivileged hc hs, fun hsup hlt => ⟨fun d hn hd => ?bind, exec_qbindUnbind_absent hc hs hsup hlt,
          fun k n r hr => exec_qbindUnbind_resident hc hs hsup hlt hr⟩⟩⟩,
    fun s g f fr hc hfr => ⟨fun hp => ⟨exec_range_notWorker hc hfr hp, ?noShare, ?share⟩, fun hs hx => exec_rgive_unowned hc hs hx,
      fun hs r n a b hr hw => ⟨exec_rgive_noRest hc hfr hs hr hw, fun hlt ha hb m x hx => exec_rgive_rest hc hfr hs hr hw hlt ha hb hx⟩⟩⟩
  case prioRange => exact fun h => (exec_qprio hc hs hq).trans (congrArg _ (if_pos h))
  case prio => exact fun h => (exec_qprio hc hs hq).trans (congrArg _ (if_neg (Nat.not_lt.mpr h)))
  case push =>
    intro ws hw
    have hpush := exec_qpush hc hs hq hw
    refine ⟨fun hbad => hpush.trans (congrArg _ (if_pos hbad)), fun hok => ?_, fun fp hfp => ?_⟩
    · have hpush := hpush.trans (congrArg _ (if_neg (Bool.not_eq_true _ ▸ hok)))
      exact ⟨fun hroom hturn => hpush.trans (congrArg _ (State.push_of_room hroom (State.pushTurn_of_none hturn))),
        fun hfull => hpush.trans (congrArg _ (State.push_of_full hfull))⟩
    · intro ws' hok
      have hlaunch := exec_launch hc hs hq hw hfp hok
      refine ⟨fun hroom hturn => hlaunch.trans (congrArg _ (State.push_of_room hroom (State.pushTurn_of_none ?_))),
        fun hfull => hlaunch.trans (congrArg _ (State.push_of_full hfull))⟩
      rw [State.liveInc_cmds]
      exact hturn
  case bind =>
    have hbind := exec_qbindBind hc hs hsup hlt hn hd
    exact ⟨fun x hx => hbind.trans (congrArg _ (if_pos (Option.isSome_of_eq_some hx))),
      fun hnone hslot => hbind.trans (congrArg _ ((if_neg (by simp [hnone])).trans (if_pos (Option.isSome_iff_ne_none.mpr hslot)))),
      fun hnone hfree => hbind.trans (congrArg _ ((if_neg (by simp [hnone])).trans (if_neg (Option.not_isSome_iff_eq_none.mpr hfree))))⟩
  case noShare => exact fun hw hx => exec_range_empty hc hfr hp hw (by simp [hx])
  case share =>
    intro n x hw hx
    refine ⟨fun hle => exec_range_empty hc hfr hp hw fun m y hy => ?_, exec_range_grain hc hfr hp hw hx⟩
    obtain ⟨rfl, rfl⟩ : n = m ∧ x = y := by simpa [hx] using hy
    exact hle

end Sys2Proof.Machine

/-! SUPPORT. Activation and destruction of contexts, boot and reset (R99, R100, R469, R471, R472, R487). -/

namespace Sys2Proof.Machine

variable {s : State} {x : Nat}

/-! ## ACTIVATE (R100, R471, R472) -/

/-- The address, in the map of context 0, of a context's descriptor (R99). -/
def State.descriptorAt (s : State) (x : Nat) : Nat := s.mod.ctxtab.toNat + 128 * x

section
variable (hbusy : s.mod.cmdBusy = true) (hctx : s.mod.cmdCtx.toNat = x) (hop : s.mod.cmdOp = 1)
include hbusy hctx hop

theorem exec_ctxActivate_live (hlive : (s.ctx x).live = true) : exec (.ctxActivate x) s = .next (s.ctxcmdEnd 1) := by
  show execCtxActivate x s = _
  simp [execCtxActivate, hbusy, hctx, hop, hlive]

section
variable (hlive : (s.ctx x).live = false) (hx : x ≠ 0)
include hlive hx

theorem exec_ctxActivate_unread {e : AccessStop} (hd : s.ctxRead 0 0 (s.descriptorAt x) 128 = .error e) :
    exec (.ctxActivate x) s = .next (s.ctxcmdEnd 2) := by
  unfold State.descriptorAt at hd
  show execCtxActivate x s = _
  simp [execCtxActivate, hbusy, hctx, hop, hlive, hx, hd]

theorem exec_ctxActivate_malformed {d : List Byte} (hd : s.ctxRead 0 0 (s.descriptorAt x) 128 = .ok d) (hbad : descriptorBad x d = true) :
    exec (.ctxActivate x) s = .next (s.ctxcmdEnd 2) := by
  unfold State.descriptorAt at hd
  show execCtxActivate x s = _
  simp [execCtxActivate, hbusy, hctx, hop, hlive, hx, hd, hbad]

/-- A well-formed descriptor is judged by its region. -/
theorem exec_ctxActivate_judged {d : List Byte} {c : Ctx} (hd : s.ctxRead 0 0 (s.descriptorAt x) 128 = .ok d) (hbad : descriptorBad x d = false)
    (hc : (s.ctx x).ofDescriptor d = c) : exec (.ctxActivate x) s = .next (
      if c.x0 % 2 = 1 ∨ c.y0 % 2 = 1 ∨ c.wm1 % 2 = 0 ∨ c.hm1 % 2 = 0 then s.ctxcmdEnd 1
      else if !s.regionFree x c.x0 c.y0 c.wm1 c.hm1 then s.ctxcmdEnd 3
      else (s.activate x c).ctxcmdEnd 0) := by
  unfold State.descriptorAt at hd
  subst hc
  show execCtxActivate x s = _
  simp [execCtxActivate, hbusy, hctx, hop, hlive, hx, hd, hbad]

end
end

/-- The cores of a list of virtual and physical numbers, made fresh for a context. -/
def State.freshCores (s : State) (x : Nat) (seed : U64) (l : List (Nat × Nat)) : State :=
  l.foldl (fun s p => s.setCore p.2 (Core.fresh x p.1 seed (s.core p.2).stopped)) s

section
variable (seed : U64) (l : List (Nat × Nat))

theorem State.freshCores_frame : s.freshCores x seed l = { s with cores := (s.freshCores x seed l).cores } := by
  unfold State.freshCores
  induction l generalizing s with
  | nil => rfl
  | cons p l ih => exact ih

@[simp] theorem State.freshCores_mod : (s.freshCores x seed l).mod = s.mod := by rw [State.freshCores_frame]
@[simp] theorem State.freshCores_ctxs : (s.freshCores x seed l).ctxs = s.ctxs := by rw [State.freshCores_frame]

/-- Cores made fresh stay stopped where they were. -/
theorem State.freshCores_core : (∀ n, ((s.freshCores x seed l).core n).stopped = (s.core n).stopped) ∧
    ∀ p ∈ l, ∃ v, (s.freshCores x seed l).core p.2 = Core.fresh x v seed (s.core p.2).stopped := by
  induction l using List.reverseRecOn with
  | nil => exact ⟨fun _ => rfl, by simp⟩
  | append_singleton l q ih =>
    obtain ⟨hstopped, hfresh⟩ := ih
    have hlast : s.freshCores x seed (l ++ [q]) = (s.freshCores x seed l).setCore q.2 (Core.fresh x q.1 seed (s.core q.2).stopped) := by
      rw [← hstopped q.2]
      simp [State.freshCores]
    rw [hlast]
    refine ⟨fun n => ?_, fun p hp => ?_⟩
    · rw [State.core_setCore]
      split
      next hn => rw [hn]; rfl
      · exact hstopped n
    · rw [State.core_setCore]
      split
      next hn => exact ⟨q.1, by rw [hn]⟩
      next hn =>
        rcases List.mem_append.mp hp with hp | hp
        · exact hfresh p hp
        · exact absurd (by rw [List.mem_singleton.mp hp]) hn

end

/-- A context as ACTIVATE leaves it (R471; log 109). -/
def Ctx.activated (c : Ctx) : Ctx := { c with phase := .active, quiet := false, redcnt := 0, bridges := [], stalecnt := 0, fpstat := 0 }

/-- ACTIVATE of a context other than 0 makes it active on its region, with fresh cores, and closes the aperture. -/
theorem State.activate_spec (hx : x ≠ 0) (c : Ctx) :
    (s.activate x c).mod = { s.mod with aperture := false } ∧ (s.activate x c).ctx x = c.activated ∧
    ∀ p ∈ c.region, ∃ v, (s.activate x c).core p.2 = Core.fresh x v c.seed (s.core p.2).stopped := by
  have hact : ∃ v, s.activate x c = ({ (s.setCtx x c.activated).freshCores x c.seed c.activated.region with vault := v }).modMod
      (fun m => { m with aperture := false }) := ⟨_, if_neg hx⟩
  obtain ⟨v, hact⟩ := hact
  have hregion : c.activated.region = c.region := by unfold Ctx.region; rfl
  rw [hact, hregion]
  generalize c.region = l
  obtain ⟨-, hfresh⟩ := State.freshCores_core (s := s.setCtx x c.activated) (x := x) c.seed l
  refine ⟨?_, ?_, hfresh⟩
  · rw [State.mod_modMod, State.freshCores_mod]
    rfl
  · show Table.look Ctx.reset ((s.setCtx x c.activated).freshCores x c.seed l).ctxs x = _
    rw [State.freshCores_ctxs]
    exact Table.look_put_same ..

/-! ## DESTROY (R471) -/

section
variable (hbusy : s.mod.cmdBusy = true) (hctx : s.mod.cmdCtx.toNat = x) (hop : s.mod.cmdOp = 2)
include hbusy hctx hop

theorem exec_ctxDestroy_inactive (hph : (s.ctx x).phase = .inactive) : exec (.ctxDestroy x) s = .next (s.ctxcmdEnd 1) := by
  show execCtxDestroy x s = _
  simp [execCtxDestroy, hbusy, hctx, hop, hph]

theorem exec_ctxDestroy_active (hph : (s.ctx x).phase = .active) : exec (.ctxDestroy x) s = .next (s.startDestroy x) := by
  show execCtxDestroy x s = _
  simp [execCtxDestroy, hbusy, hctx, hop, hph]

theorem exec_ctxDestroy_destroying (hph : (s.ctx x).phase = .destroying) :
    exec (.ctxDestroy x) s = .next (if s.frameless x && s.drained x then (s.endDestroy x).ctxcmdEnd 0 else s) := by
  show execCtxDestroy x s = _
  simp [execCtxDestroy, hbusy, hctx, hop, hph]

end

/-- A frame that DESTROY has marked. -/
def Frame.aborted (f : Frame) : Frame := { f with abort := true }

/-- A core whose frames DESTROY has marked and whose allocations it has dropped. -/
def Core.aborted (k : Core) : Core :=
  { k with frames := k.frames.map Frame.aborted, spillDir := k.spillDir.map (fun e => { e with frame := e.frame.aborted }), allocs := [] }

/-- The cores of a list as the first step of DESTROY leaves them. -/
def State.abortCores (s : State) (l : List Nat) : State := l.foldl (fun s core => s.modCore core Core.aborted) s

section
variable (l : List Nat)

@[simp] theorem State.abortCores_tasks : (s.abortCores l).tasks = s.tasks := by
  unfold State.abortCores
  induction l generalizing s with
  | nil => rfl
  | cons c l ih => exact ih

/-- Marking a frame twice marks it once, so that every frame of a listed core is marked. -/
theorem State.abortCores_frames (n : Nat) :
    ((s.abortCores l).core n).frames = if n ∈ l then (s.core n).frames.map Frame.aborted else (s.core n).frames := by
  induction l using List.reverseRecOn with
  | nil => simp [State.abortCores]
  | append_singleton l c ih =>
    have hlast : s.abortCores (l ++ [c]) = (s.abortCores l).modCore c Core.aborted := by simp [State.abortCores]
    rw [hlast, State.core_modCore]
    split
    next hn =>
      subst hn
      show ((s.abortCores l).core c).frames.map Frame.aborted = _
      rw [ih, if_pos (List.mem_append_right l (List.mem_singleton_self c))]
      split
      · exact List.map_map.trans rfl
      · rfl
    next hn => simp [ih, Ne.symm hn]

end

/-- The first step of DESTROY (R471): the context's tasks are gone and the frames of its cores are marked. -/
theorem State.startDestroy_spec : ((s.startDestroy x).ctx x).phase = .destroying ∧ (∀ e ∈ (s.startDestroy x).tasks, e.2.ctx ≠ x) ∧
    ∀ core ∈ s.regionCores x, ((s.startDestroy x).core core).frames = (s.core core).frames.map Frame.aborted := by
  have hstart : ∃ u : State, s.startDestroy x = (u.abortCores (s.regionCores x)).modCtx x (fun c => { c with phase := .destroying }) ∧
      u.cores = s.cores ∧ u.tasks = s.tasks.filter (fun t => t.2.ctx != x) := ⟨_, rfl, rfl, rfl⟩
  obtain ⟨u, hstart, hcores, htasks⟩ := hstart
  rw [hstart]
  refine ⟨by rw [State.ctx_modCtx_same], fun e he => ?_, fun core hcore => ?_⟩
  · rw [State.modCtx_tasks, State.abortCores_tasks, htasks] at he
    simpa using (List.mem_filter.mp he).2
  · rw [State.modCtx_core, State.abortCores_frames, if_pos hcore]
    unfold State.core
    rw [hcores]

/-- Step 5 of DESTROY leaves the context inactive, without endpoints or owned ranges (R469). -/
theorem State.endDestroy_ctx : ((s.endDestroy x).ctx x).phase = .inactive ∧ ((s.endDestroy x).ctx x).eps = [] ∧ ((s.endDestroy x).ctx x).owned = [] := by
  have hreopen (u : State) : u.reopen.ctx x = u.ctx x := by
    unfold State.reopen
    split <;> rfl
  unfold State.endDestroy
  dsimp only
  rw [hreopen, State.ctx_modCtx_same]
  exact ⟨rfl, rfl, rfl⟩

/-! ## Boot (R487, R489) -/

/-- A measurement extends the running digest, also when the log is full (R489). -/
theorem State.measure_digest (s : State) (type : Nat) (h : List Byte) : (s.measure type h).mod.digest =
    sha512 (s.mod.digest ++ natLe 4 type ++ natLe 4 0 ++ h ++ natLe 8 (s.stack 0).timeReg.toNat) := by
  simp only [State.measure, State.mod_modMod, List.append_assoc]

/-- The stage in progress is passed; the aperture opens with the last one (R472). -/
def State.stagePassed (s : State) (n : Nat) : State := s.modMod (fun m => { m with stage := n + 1, aperture := decide (n = 6) })

section
variable (hhalt : s.mod.halted = false) (hstage : s.mod.stage < 7)
include hhalt hstage

theorem exec_bootStage_failed : exec (.bootStage false) s = .next (s.modMod (fun m => { m with halted := true })) := by
  show execBootStage false s = _
  simp [execBootStage, hhalt, Nat.not_le.mpr hstage]

/-- A stage that neither measures nor waits is passed. -/
theorem exec_bootStage_plain (h : s.mod.stage ∉ [1, 2, 4]) : exec (.bootStage true) s = .next (s.stagePassed s.mod.stage) := by
  show execBootStage true s = _
  simp only [execBootStage, hhalt, Nat.not_le.mpr hstage, decide_false, Bool.or_self, Bool.false_eq_true, if_false, Bool.not_true]
  split
  next hn => simp [hn] at h
  next hn => simp [hn] at h
  next hn => simp [hn] at h
  · rfl

omit hstage in
/-- Stage 4 is passed once links and time are up. -/
theorem exec_bootStage_timeUp (h : s.mod.stage = 4) (hup : s.timeUp = true) : exec (.bootStage true) s = .next (s.stagePassed 4) := by
  show execBootStage true s = _
  simp [execBootStage, hhalt, h, hup, State.stagePassed]

omit hstage in
/-- Stages 1 and 2 measure the image that the next stage runs. -/
theorem exec_bootStage_measured {n : Nat} (hn : n ∈ [1, 2]) (h : s.mod.stage = n) :
    exec (.bootStage true) s = .next ((s.measure n (Config.flashDigest n)).stagePassed n) := by
  show execBootStage true s = _
  simp only [List.mem_cons, List.not_mem_nil, or_false] at hn
  rcases hn with rfl | rfl
  · simp only [execBootStage, hhalt, h]; rfl
  · simp only [execBootStage, hhalt, h]; rfl

end

/-! ## The obligation -/

/-- Settles O59: each command and event by its lemma above. -/
theorem lifecycleResults : Obligations.LifecycleResults := by
  unfold Obligations.LifecycleResults
  intro s x res
  refine ⟨fun hbusy hctx => ⟨fun hop => ⟨exec_ctxActivate_live hbusy hctx hop, fun hlive hx => ?activate⟩, fun hop => ?destroy⟩,
    fun hhalt hstage => ⟨exec_bootStage_failed hhalt hstage, exec_bootStage_plain hhalt hstage, exec_bootStage_timeUp hhalt, ?measured⟩,
    _, rfl, rfl, rfl, rfl, rfl, rfl, rfl, rfl, rfl, rfl, rfl, rfl⟩
  case activate =>
    refine ⟨fun e hd => exec_ctxActivate_unread hbusy hctx hop hlive hx hd, fun d hd =>
      ⟨exec_ctxActivate_malformed hbusy hctx hop hlive hx hd, fun hbad => ?_⟩⟩
    have hexec := exec_ctxActivate_judged hbusy hctx hop hlive hx hd hbad rfl
    refine ⟨fun hodd => hexec.trans (congrArg _ (if_pos hodd)), fun hx0 hy0 hw hh => ?_⟩
    have hexec := hexec.trans (congrArg _ (if_neg (by omega)))
    refine ⟨fun htaken => hexec.trans (congrArg _ (if_pos (by rw [htaken]; rfl))), fun hfree => ?_⟩
    obtain ⟨hmod, hc, hcores⟩ := State.activate_spec (s := s) hx ((s.ctx x).ofDescriptor d)
    refine ⟨_, hexec.trans (congrArg _ (if_neg (by rw [hfree]; decide))), by rw [hc]; rfl, hmod,
      by rw [hc]; unfold Ctx.region; rfl, fun p hp => ?_⟩
    obtain ⟨v, hv⟩ := hcores p hp
    rw [hv]
    exact ⟨rfl, rfl, rfl, rfl, rfl⟩
  case destroy =>
    refine ⟨exec_ctxDestroy_inactive hbusy hctx hop, fun hph => ⟨_, exec_ctxDestroy_active hbusy hctx hop hph, State.startDestroy_spec⟩,
      fun hph hwait => ?_, fun hph hfree hdrained => ⟨_, ?_, State.endDestroy_ctx (s := s)⟩⟩
    · exact (exec_ctxDestroy_destroying hbusy hctx hop hph).trans (congrArg _ (if_neg (by rcases hwait with h | h <;> simp [h])))
    · exact (exec_ctxDestroy_destroying hbusy hctx hop hph).trans (congrArg _ (if_pos (by rw [hfree, hdrained]; rfl)))
  case measured =>
    exact fun n hn h => ⟨_, exec_bootStage_measured hhalt hn h, rfl, State.measure_digest ..⟩

end Sys2Proof.Machine

/-! SUPPORT. What deliveries, records and events leave of the distributors, and the selection of a record (R103 to R108). -/

namespace Sys2Proof.Machine

variable {s t : State}

/-! ## Resident queues after deliveries and records (R102) -/

/-- The distributors of t hold the resident queues of s and have chosen last as in s. -/
def State.KeepsSlots (s t : State) : Prop := ∀ k, (t.stack k).slots = (s.stack k).slots ∧ (t.stack k).rrp = (s.stack k).rrp

theorem State.KeepsSlots.refl (s : State) : s.KeepsSlots s := fun _ => ⟨rfl, rfl⟩

/-- A table whose values change by a function has the changed value at each of its keys. -/
theorem Table.find_map {α β : Type} (t : List (Nat × α)) (h : α → β) (k : Nat) :
    Table.find (t.map (fun e => (e.1, h e.2))) k = (Table.find t k).map h := by
  induction t with
  | nil => rfl
  | cons e t ih =>
    simp only [List.map_cons, Table.find]
    split
    · rfl
    · exact ih

/-- A distributor without the asks and shares of a task. -/
def Stack.without (id : Nat) (k : Stack) : Stack :=
  { k with asks := k.asks.filter (fun a => a.2 != id), shares := k.shares.filter (fun e => e.2.task != id) }

section
variable (h : s.KeepsSlots t)
include h

theorem State.KeepsSlots.update {u : State} (hu : u.stackTab = t.stackTab) : s.KeepsSlots u := fun k => by
  have hk : u.stack k = t.stack k := congrArg (Table.look (Stack.reset k) · k) hu
  rw [hk]
  exact h k

/-- A change to a stack that leaves its resident queues. -/
theorem State.KeepsSlots.modStack {n : Nat} {g : Stack → Stack} (hs : (g (t.stack n)).slots = (t.stack n).slots)
    (hr : (g (t.stack n)).rrp = (t.stack n).rrp) : s.KeepsSlots (t.modStack n g) := fun k => by
  rw [State.stack_modStack]
  split
  next hk => rw [hs, hr, hk]; exact h k
  · exact h k

theorem State.KeepsSlots.event {stack chan ctx src : Nat} {arg : U32} : s.KeepsSlots (t.event stack chan ctx src arg) := by
  refine h.modStack ?_ ?_ <;>
  · dsimp only
    split <;> rfl

theorem State.KeepsSlots.ctxWrite {ctx va : Nat} {bs : List Byte} {u : State} (hu : t.ctxWrite ctx va bs = .ok u) : s.KeepsSlots u := by
  unfold State.ctxWrite State.ctxWriteFor at hu
  split at hu
  next cs _ =>
    obtain rfl := Except.ok.inj hu
    rw [t.writeChunks_storesInto (bs := bs) (core := 4096) (cmd := 0) (own := none) cs]
    exact h.update rfl
  · cases hu

theorem State.KeepsSlots.route {stack dst : Nat} {m : Mail} : s.KeepsSlots (t.route stack dst m) := by
  unfold State.route
  split <;> exact h.update rfl

theorem State.KeepsSlots.logFault {r : FaultRec} : s.KeepsSlots (t.logFault r).1 := by
  have hlost {n : U32} {k a b c : Nat} : s.KeepsSlots ((t.modCtx r.ctx (fun x => { x with flogLost := n })).event k a b c n) :=
    (h.update rfl : s.KeepsSlots (t.modCtx r.ctx _)).event
  unfold State.logFault
  dsimp only
  split
  · exact hlost
  · split
    · exact hlost
    next hu => exact (h.ctxWrite hu).update rfl

theorem State.KeepsSlots.toHandler {ctx core : Nat} {v : U64} : s.KeepsSlots (t.toHandler ctx core v) := by
  unfold State.toHandler
  dsimp only
  split
  · exact h
  · split
    · exact h
    · exact (h.update rfl : s.KeepsSlots (t.modCtx ctx _)).route

theorem State.KeepsSlots.send {src ctx : Nat} {k : Token} {reply : Bool} : s.KeepsSlots (t.send src ctx k reply) := by
  unfold State.send
  split
  · exact (h.update rfl : s.KeepsSlots (t.modCtx ctx _)).route
  · exact h.logFault.toHandler

theorem State.KeepsSlots.deliver {k : Task} {src : Nat} {v : Val} : s.KeepsSlots (t.deliver k src v) := by
  unfold State.deliver
  split
  · unfold State.writeStatus
    dsimp only
    split <;> exact h.update rfl
  · exact h.send

theorem State.KeepsSlots.dropTask {id : Nat} : s.KeepsSlots (t.dropTask id) := fun k => by
  have hk : (t.dropTask id).stack k = ((Table.find t.stackTab k).map (Stack.without id)).getD (Stack.reset k) :=
    congrArg (Option.getD · _) (Table.find_map t.stackTab (Stack.without id) k)
  have ht : t.stack k = (Table.find t.stackTab k).getD (Stack.reset k) := rfl
  rw [← (h k).1, ← (h k).2, hk, ht]
  cases Table.find t.stackTab k <;> exact ⟨rfl, rfl⟩

theorem State.KeepsSlots.modTask {n : Nat} {g : Task → Task} : s.KeepsSlots (t.modTask n g) := h.update (State.modTask_stacks ..)

theorem State.KeepsSlots.addPart {id stack lo hi grain : Nat} {issuer : Option Nat} : s.KeepsSlots (t.addPart id stack lo hi grain issuer) := by
  refine h.modStack ?_ ?_ <;>
  · dsimp only
    split <;> rfl

/-- A range task that is divided adds shares and packets only (R111, R112). -/
theorem State.KeepsSlots.startRange {k : Task} {lo hi grain : Nat} {issuer : Option Nat} : s.KeepsSlots (t.startRange k lo hi grain issuer) := by
  unfold State.startRange
  dsimp only
  split
  · exact h.deliver.dropTask
  · generalize Ctx.partsOf _ _ = parts
    have hmod : s.KeepsSlots (t.modTask k.id (fun t => { t with bound := true, parts := parts.map (fun p => (p.1, false)) })) := h.modTask
    revert hmod
    generalize t.modTask _ _ = u
    intro hu
    induction parts generalizing u with
    | nil => exact hu
    | cons p parts ih => exact ih _ hu.addPart

theorem State.KeepsSlots.startTask {r : Rec} {ctx prio stack : Nat} {issuer : Option Nat} : s.KeepsSlots (t.startTask r ctx prio stack issuer) := by
  have htask : s.KeepsSlots (t.newId.setTask t.ids (r.task t.ids ctx prio stack)) := h.update rfl
  unfold State.startTask
  dsimp only
  split
  · exact htask.startRange
  · exact htask.modStack rfl rfl

end

/-- A record in the log of a context leaves the tasks. -/
theorem State.logFault_tasks (r : FaultRec) : (s.logFault r).1.tasks = s.tasks := by
  unfold State.logFault
  dsimp only
  split
  · rfl
  · split
    · rfl
    next u hu =>
      show u.tasks = s.tasks
      unfold State.ctxWrite State.ctxWriteFor at hu
      split at hu
      next cs _ =>
        obtain rfl := Except.ok.inj hu
        rw [s.writeChunks_storesInto (bs := s.recordBytes r (s.ctx r.ctx).flogWr) (core := 4096) (cmd := 0) (own := none) cs]
      · cases hu

/-! ## The queue that is selected (R107) -/

/-- The largest measure of a list is found by taking maxima from any start below it. -/
theorem foldl_max_eq {α : Type} {l : List α} {m : α → Nat} {n b : Nat} (hle : ∀ e ∈ l, m e ≤ n) (hb : b ≤ n) (hn : b = n ∨ ∃ e ∈ l, m e = n) :
    l.foldl (fun a e => max a (m e)) b = n := by
  induction l generalizing b with
  | nil => simpa using hn
  | cons e l ih =>
    have hle' := List.forall_mem_cons.mp hle
    refine ih hle'.2 (max_le hb hle'.1) ?_
    rcases hn with rfl | ⟨e', he', rfl⟩
    · exact .inl (max_eq_left hle'.1)
    · rcases List.mem_cons.mp he' with rfl | he'
      · exact .inl (max_eq_right hb)
      · exact .inr ⟨e', he', rfl⟩

/-- The slot of a candidate comes next, cyclically, after the slot chosen last among those of its EFF, which is the highest. -/
def FirstAfter (last : Nat) (cand : List (Nat × Resident)) (slot : Nat) (r : Resident) : Prop :=
  ∀ e ∈ cand, e.2.eff ≤ r.eff ∧ (e.2.eff = r.eff → (last < slot ∧ (e.1 ≤ last ∨ slot ≤ e.1)) ∨ (e.1 ≤ last ∧ slot ≤ e.1))

theorem pickQueue_eq {k : Stack} {cand : List (Nat × Resident)} {slot : Nat} {r : Resident} (hmem : (slot, r) ∈ cand)
    (hsort : cand.Pairwise (fun a b => a.1 < b.1)) (hfirst : FirstAfter (Table.look 0 k.rrp r.eff) cand slot r) :
    pickQueue k cand = some (slot, r) := by
  have hmax : cand.foldl (fun m e => max m e.2.eff) 0 = r.eff :=
    foldl_max_eq (fun e he => (hfirst e he).1) (Nat.zero_le _) (.inr ⟨_, hmem, rfl⟩)
  have htop : (slot, r) ∈ cand.filter (fun e => e.2.eff == r.eff) := List.mem_filter.mpr ⟨hmem, by simp⟩
  obtain ⟨before, after, hsplit⟩ := List.append_of_mem htop
  have hbefore : ∀ e ∈ before, e.1 < slot := fun e he =>
    (List.pairwise_append.mp (hsplit ▸ hsort.filter _)).2.2 e he _ (List.mem_cons_self ..)
  have hpos : ∀ e ∈ before ++ (slot, r) :: after, (Table.look 0 k.rrp r.eff < slot ∧ (e.1 ≤ Table.look 0 k.rrp r.eff ∨ slot ≤ e.1)) ∨
      (e.1 ≤ Table.look 0 k.rrp r.eff ∧ slot ≤ e.1) := by
    intro e he
    rw [← hsplit] at he
    obtain ⟨hcand, heff⟩ := List.mem_filter.mp he
    exact (hfirst e hcand).2 (by simpa using heff)
  unfold pickQueue
  simp only [hmax, hsplit]
  rcases Nat.lt_or_ge (Table.look 0 k.rrp r.eff) slot with hlast | hlast
  · have hfind : (before ++ (slot, r) :: after).find? (fun e => decide (Table.look 0 k.rrp r.eff < e.1)) = some (slot, r) := by
      refine List.find?_eq_some_iff_append.mpr ⟨by simpa using hlast, before, after, rfl, fun e he => ?_⟩
      have hlt := hbefore e he
      have := hpos e (List.mem_append_left _ he)
      simp only [Bool.not_eq_true', decide_eq_false_iff_not]
      omega
    rw [hfind]
  · have hnone : (before ++ (slot, r) :: after).find? (fun e => decide (Table.look 0 k.rrp r.eff < e.1)) = none := by
      refine List.find?_eq_none.mpr fun e he => ?_
      have := hpos e he
      simp only [decide_eq_true_eq]
      omega
    have hnil : before = [] := List.eq_nil_iff_forall_not_mem.mpr fun e he => by
      have hlt := hbefore e he
      have := hpos e (List.mem_append_left _ he)
      omega
    rw [hnone, hnil]
    rfl

/-- An entry of a table with rising keys is found at its key. -/
theorem Table.find_of_mem {α : Type} {t : List (Nat × α)} {k : Nat} {v : α} (hsort : t.Pairwise (fun a b => a.1 < b.1)) (h : (k, v) ∈ t) :
    Table.find t k = some v := by
  induction t with
  | nil => simp at h
  | cons e t ih =>
    obtain ⟨hlt, hsort⟩ := List.pairwise_cons.mp hsort
    simp only [Table.find]
    rcases List.mem_cons.mp h with rfl | h
    · exact if_pos rfl
    · rw [if_neg (hlt _ h).ne]
      exact ih hsort h

/-! ## A change to a resident slot -/

/-- A slot that is written reads back changed; the rest of its distributor stays. -/
theorem State.modSlot_spec (stack slot : Nat) (h : Resident → Resident) :
    (∀ n, Table.find ((s.modSlot stack slot h).stack stack).slots n =
      if slot = n then (Table.find (s.stack stack).slots n).map h else Table.find (s.stack stack).slots n) ∧
    ((s.modSlot stack slot h).stack stack).rrp = (s.stack stack).rrp ∧ ((s.modSlot stack slot h).stack stack).binds = (s.stack stack).binds := by
  unfold State.modSlot
  rw [State.stack_modStack_same]
  cases hr : Table.find (s.stack stack).slots slot with
  | none =>
    refine ⟨fun n => ?_, rfl, rfl⟩
    dsimp only
    split
    next hn => rw [← hn, hr]; rfl
    · rfl
  | some r =>
    refine ⟨fun n => ?_, rfl, rfl⟩
    dsimp only
    rw [Table.find_put]
    split
    next hn => rw [← hn, hr]; rfl
    · rfl

/-- The other candidates are passed over once more, and age at 1024 (R107). -/
def State.passOver (s : State) (stack slot : Nat) (cand : List (Nat × Resident)) : State :=
  cand.foldl (fun s e =>
    if e.1 = slot then s
    else
      let s := s.modSlot stack e.1 (fun x => { x with passed := x.passed + 1 })
      if e.2.passed + 1 = 1024 then s.soon (.priorityAging stack e.1) else s) s

/-- A slot is not passed over by its own selection, and tasks and packets stay. -/
theorem State.passOver_spec (stack slot : Nat) (cand : List (Nat × Resident)) : let u := s.passOver stack slot cand
    u.tasks = s.tasks ∧ u.ids = s.ids ∧ Table.find (u.stack stack).slots slot = Table.find (s.stack stack).slots slot ∧
      (u.stack stack).rrp = (s.stack stack).rrp ∧ (u.stack stack).binds = (s.stack stack).binds := by
  unfold State.passOver
  induction cand generalizing s with
  | nil => exact ⟨rfl, rfl, rfl, rfl, rfl⟩
  | cons e cand ih =>
    simp only [List.foldl_cons]
    split
    · exact ih
    next hne =>
      obtain ⟨hfind, hrrp, hbinds⟩ := State.modSlot_spec (s := s) stack e.1 (fun x => { x with passed := x.passed + 1 })
      have hslot := (hfind slot).trans (if_neg hne)
      split
      · obtain ⟨ht, hi, hf, hr, hb⟩ := ih (s := (s.modSlot stack e.1 (fun x => { x with passed := x.passed + 1 })).soon (.priorityAging stack e.1))
        exact ⟨ht, hi, hf.trans hslot, hr.trans hrrp, hb.trans hbinds⟩
      · obtain ⟨ht, hi, hf, hr, hb⟩ := ih (s := s.modSlot stack e.1 (fun x => { x with passed := x.passed + 1 }))
        exact ⟨ht, hi, hf.trans hslot, hr.trans hrrp, hb.trans hbinds⟩

/-! ## DISTRIBUTOR_SELECT (R107, R108) -/

/-- The key of a queue's record at its HEAD among those that devices pushed. -/
def Resident.headKey (r : Resident) : Nat := r.queue * 65536 + r.head

/-- The slot of a queue whose record has been taken (R107). -/
def Resident.taken (r : Resident) : Resident := { r with head := (r.head + 1) % 65536, eff := r.prio, passed := 0 }

/-- The distributor has taken the record at the head of a slot's queue. -/
def State.takeHead (s : State) (stack slot : Nat) (r : Resident) : State :=
  ((({ s with pushers := Table.del s.pushers r.headKey }).modStack stack (fun k => { k with rrp := Table.put k.rrp r.eff slot })).passOver
    stack slot (s.candidates stack)).modSlot stack slot Resident.taken

theorem State.takeHead_spec {stack slot : Nat} {r : Resident} (hslot : Table.find (s.stack stack).slots slot = some r) :
    let u := s.takeHead stack slot r
    u.tasks = s.tasks ∧ u.ids = s.ids ∧ Table.find (u.stack stack).slots slot = some r.taken ∧
      Table.look 0 (u.stack stack).rrp r.eff = slot ∧ (u.stack stack).binds = (s.stack stack).binds := by
  unfold State.takeHead
  generalize hv : State.modStack _ stack _ = v
  have hstack : v.stack stack = { s.stack stack with rrp := Table.put (s.stack stack).rrp r.eff slot } := by
    rw [← hv, State.stack_modStack_same]
    rfl
  obtain ⟨ht, hi, hf, hr, hb⟩ := State.passOver_spec (s := v) stack slot (s.candidates stack)
  obtain ⟨hfind, hrrp, hbinds⟩ := State.modSlot_spec (s := v.passOver stack slot (s.candidates stack)) stack slot Resident.taken
  refine ⟨ht.trans (by rw [← hv]; rfl), hi.trans (by rw [← hv]; rfl), ?_, ?_, ?_⟩
  · rw [hfind, if_pos rfl, hf, hstack, hslot]
    rfl
  · rw [hrrp, hr, hstack, Table.look_put_same]
  · rw [hbinds, hb, hstack]

section
variable {stack slot : Nat} {r : Resident} {d : QDesc} (hpick : pickQueue (s.stack stack) (s.candidates stack) = some (slot, r))
  (hd : s.qdesc r.queue = some d)
include hpick hd

/-- A range record whose shares find no room is not selected yet (R113; log 52). -/
theorem exec_distributorSelect_noRoom {x : Rec} (hx : s.headRec d stack r.head (Table.find s.pushers r.headKey).isSome = some x)
    (hfit : s.partsFit d.ctx x = false) : exec (.distributorSelect stack) s = .next s := by
  unfold Resident.headKey at hx
  show execDistributorSelect stack s = _
  simp [execDistributorSelect, hpick, hd, hx, hfit]

theorem exec_distributorSelect_task {x : Rec} (hx : s.headRec d stack r.head (Table.find s.pushers r.headKey).isSome = some x)
    (hfit : s.partsFit d.ctx x = true) :
    exec (.distributorSelect stack) s = .next ((s.takeHead stack slot r).startTask x d.ctx r.eff stack (Table.find s.pushers r.headKey)) := by
  unfold Resident.headKey at *
  show execDistributorSelect stack s = _
  simp only [execDistributorSelect, hpick, hd, hx, hfit, Option.any_some, Bool.not_true, Bool.false_eq_true, if_false]
  rfl

/-- A malformed record is taken with a fault record and makes no task (R106). -/
theorem exec_distributorSelect_malformed (hx : s.headRec d stack r.head (Table.find s.pushers r.headKey).isSome = none) :
    ∃ p : FaultRec, exec (.distributorSelect stack) s = .next ((s.takeHead stack slot r).faultLogged p) := by
  unfold Resident.headKey at hx
  show ∃ p, execDistributorSelect stack s = _
  simp only [execDistributorSelect, hpick, hd, hx, Option.any_none, Bool.false_eq_true, if_false]
  exact ⟨_, rfl⟩

end

/-- An ordinary record becomes a task whose packet joins the distributor's (R108). -/
theorem State.startTask_ordinary {r : Rec} {ctx prio stack : Nat} {issuer : Option Nat} (hr : r.rng = false) : s.startTask r ctx prio stack issuer =
    (s.newId.setTask s.ids (r.task s.ids ctx prio stack)).modStack stack
      (fun k => { k with binds := k.binds ++ [{ task := s.ids, share := none, issuer := issuer, quad := none }] }) := by
  unfold State.startTask
  simp only [Rec.task, hr, Bool.false_eq_true, if_false]

/-- What the distributor finds at the head of a queue that can be read: a record, or none where a host's is malformed (R106). -/
theorem State.headRec_read {d : QDesc} {stack head : Nat} {device : Bool} {bs : List Byte}
    (hbs : s.ctxRead d.ctx stack (d.ring + 64 * (head % 2 ^ d.rlog)) 64 = .ok bs) : s.headRec d stack head device =
      if !device && recMalformed (recWords bs) (s.ctx d.ctx).hcwlen.toNat then none else some (Rec.of (recWords bs)) := by
  simp only [State.headRec, hbs]

/-- DISTRIBUTOR_SELECT of the queue that comes first among those of the highest EFF (R106 to R108, R113). -/
theorem distributorSelect_first {stack slot : Nat} {r : Resident} {d : QDesc} {bs : List Byte}
    (hsort : (s.stack stack).slots.Pairwise (fun a b => a.1 < b.1)) (hmem : (slot, r) ∈ s.candidates stack)
    (hfirst : FirstAfter (Table.look 0 (s.stack stack).rrp r.eff) (s.candidates stack) slot r) (hd : s.qdesc r.queue = some d)
    (hbs : s.ctxRead d.ctx stack (d.ring + 64 * (r.head % 2 ^ d.rlog)) 64 = .ok bs) :
    let bad : Prop := recMalformed (recWords bs) (s.ctx d.ctx).hcwlen.toNat = true ∧ Table.find s.pushers r.headKey = none
    (¬bad → s.partsFit d.ctx (Rec.of (recWords bs)) = false → exec (.distributorSelect stack) s = .next s) ∧
    (bad ∨ s.partsFit d.ctx (Rec.of (recWords bs)) = true → ∃ u : State, exec (.distributorSelect stack) s = .next u ∧
      Table.find (u.stack stack).slots slot = some r.taken ∧ Table.look 0 (u.stack stack).rrp r.eff = slot ∧ (bad → u.tasks = s.tasks) ∧
      (¬bad → (Rec.of (recWords bs)).rng = false → u.task? s.ids = some ((Rec.of (recWords bs)).task s.ids d.ctx r.eff stack) ∧
        (u.stack stack).binds = (s.stack stack).binds ++ [{ task := s.ids, share := none, issuer := Table.find s.pushers r.headKey, quad := none }])) := by
  intro bad
  have hpick := pickQueue_eq hmem (hsort.filter _) hfirst
  have hslot := Table.find_of_mem hsort (List.mem_filter.mp hmem).1
  obtain ⟨htasks, hids, htaken, hrrp, hbinds⟩ := State.takeHead_spec hslot
  have hread := State.headRec_read (device := (Table.find s.pushers r.headKey).isSome) hbs
  have hgood (hb : ¬bad) : s.headRec d stack r.head (Table.find s.pushers r.headKey).isSome = some (Rec.of (recWords bs)) := by
    rw [hread, if_neg]
    simpa [bad, and_comm] using hb
  refine ⟨fun hb hfit => exec_distributorSelect_noRoom hpick hd (hgood hb) hfit, fun hsel => ?_⟩
  rcases Classical.em bad with hb | hb
  · have hnone : s.headRec d stack r.head (Table.find s.pushers r.headKey).isSome = none := by
      rw [hread, if_pos]
      simp [hb.1, hb.2]
    obtain ⟨p, hexec⟩ := exec_distributorSelect_malformed hpick hd hnone
    have hkeep := (State.KeepsSlots.refl (s.takeHead stack slot r)).logFault (r := { p with precise := false, token := false }) stack
    refine ⟨_, hexec, ?_, ?_, fun _ => (State.logFault_tasks _).trans htasks, fun h => absurd hb h⟩
    · exact (congrArg (Table.find · slot) hkeep.1).trans htaken
    · exact (congrArg (Table.look 0 · r.eff) hkeep.2).trans hrrp
  · have hkeep := (State.KeepsSlots.refl (s.takeHead stack slot r)).startTask (r := Rec.of (recWords bs)) (ctx := d.ctx) (prio := r.eff)
      (stack := stack) (issuer := Table.find s.pushers r.headKey) stack
    refine ⟨_, exec_distributorSelect_task hpick hd (hgood hb) (hsel.resolve_left hb), ?_, ?_, fun h => absurd h hb, fun _ hrng => ?_⟩
    · exact (congrArg (Table.find · slot) hkeep.1).trans htaken
    · exact (congrArg (Table.look 0 · r.eff) hkeep.2).trans hrrp
    · rw [State.startTask_ordinary hrng, hids]
      refine ⟨(State.task_setTask ..).trans (if_pos rfl), ?_⟩
      rw [State.stack_modStack_same]
      exact congrArg (· ++ _) hbinds

end Sys2Proof.Machine

/-! SUPPORT. Pushes of the host and pushes that wait, bindings, asks and the ends of tasks (R103, R104, R109, R114, R115, R117, R168, R464). -/

namespace Sys2Proof.Machine

variable {s : State}

/-! ## Two changes to a stack (R102) -/

theorem Table.put_put_same {α : Type} (t : List (Nat × α)) (k : Nat) (v w : α) : Table.put (Table.put t k v) k w = Table.put t k w := by
  induction t with
  | nil => simp [Table.put]
  | cons e t ih =>
    obtain ⟨a, x⟩ := e
    simp only [Table.put]
    split
    · simp [Table.put]
    next hlt =>
      split
      · simp [Table.put]
      next hne => simp only [Table.put, hlt, hne, if_false, ih]

theorem State.modStack_modStack (n : Nat) (f g : Stack → Stack) : (s.modStack n f).modStack n g = s.modStack n (fun k => g (f k)) := by
  show ({ s with stackTab := Table.put (Table.put s.stackTab n (f (s.stack n))) n (g ((s.modStack n f).stack n)) } : State) = _
  rw [Table.put_put_same, State.stack_modStack_same]
  rfl

/-- A change to a stack is what it makes of the stack as it stands. -/
theorem State.modStack_congr {n : Nat} {f g : Stack → Stack} (h : f (s.stack n) = g (s.stack n)) : s.modStack n f = s.modStack n g :=
  congrArg (s.setStack n) h

/-! ## Pushes (R103, R104, R117) -/

theorem QDesc.full_iff {d : QDesc} : d.full = true ↔ d.depth = 2 ^ d.rlog := beq_iff_eq

theorem exec_hostPush {q : Nat} {d : QDesc} (hq : q < 4096) (hd : s.queue q = some d) (func off : Nat) (data : List Byte) :
    exec (.hostPush func q off data) s = .next (
    if func ≠ s.functionOf d.ctx ∨ 0x40 ≤ off then s
    else if off ≠ 0 ∨ data.length ≠ 64 then s.overflow q d
    else if d.depth = 2 ^ d.rlog then (s.overflow q d).event (s.homeStack d.ctx) 2 d.ctx 0 (BitVec.ofNat 32 q)
    else (s.append q d data none).1) := by
  show execHostPush func q off data s = _
  simp only [execHostPush, hq, hd, QDesc.full_iff, if_true]

section
variable {core id : Nat} {c : Cmd} {f : Fields} {d : QDesc} (hc : (s.core core).cmd? id = some c)
  (hf : c.instr = .launch f ∨ c.instr = .qpush f)
  (hd : s.queue c.fire.l.value.toNat = some d)
include hc hf hd

theorem exec_pushPortRelease_full (hfull : d.depth = 2 ^ d.rlog) : exec (.pushPortRelease core id) s = .next s := by
  have hfields : c.fields = some f := by rcases hf with h | h <;> rw [Cmd.fields, h] <;> rfl
  show execPushPortRelease core id s = _
  simp [execPushPortRelease, hc, hfields, hd, QDesc.full_iff.mpr hfull]

theorem exec_pushPortRelease_room (hid : c.id = id) (he : c.engine = .launch) (hp : c.phase = .queued) (hroom : d.depth ≠ 2 ^ d.rlog)
    (hfirst : ∀ x ∈ (s.core core).cmds, x.id < id → x.engine ≠ .launch) : exec (.pushPortRelease core id) s = .next
      ((s.append c.fire.l.value.toNat d c.data (some core)).1.answer c f [(false, Val.scalar (BitVec.ofNat 64 d.tail) c.fire.l.round 14)]) := by
  have hfields : c.fields = some f := by rcases hf with h | h <;> rw [Cmd.fields, h] <;> rfl
  have hnotFull : d.full = false := Bool.eq_false_iff.mpr (mt QDesc.full_iff.mp hroom)
  have hturn : s.pushTurn core c.id c.fire.l.value.toNat = true :=
    State.pushTurn_iff.mpr fun x hx hxe _ hlt => absurd hxe (hfirst x hx (hid ▸ hlt))
  show execPushPortRelease core id s = _
  simp only [execPushPortRelease, hc, hfields, hd, he, hp, hnotFull, hturn]
  rfl

end

/-! ## BIND (R109) -/

/-- A worker's packet is bound on the core that it names, with the lowest core of the stack as its anchor. -/
theorem exec_bind_worker {stack n core : Nat} {p : BindPacket} {rest : List BindPacket} {t : Task} {low : Nat × Nat}
    (hp : s.nextPacket (s.stack stack).binds = some (p, rest)) (ht : s.task? p.task = some t) (hshare : p.share = some (n, core)) (hcore : core ≠ 4096)
    (hissuer : p.issuer = none) (hlow : ((s.ctx t.ctx).cores stack).head? = some low) :
    let u : State := s.modStack stack (fun k => { k with binds := rest })
    exec (.bind stack) s = .next (u.bindOn t p core (u.vcoreOf low.2)) := by
  intro u
  have htask : u.task? p.task = some t := ht
  have hhead : ((u.ctx t.ctx).cores stack).head? = some low := hlow
  have hbind : exec (.bind stack) s = .next (u.bindPacket stack p) := by
    show execBind stack s = _
    simp only [execBind, hp, u]
  rw [hbind]
  simp only [State.bindPacket, htask, hhead, hshare, hissuer, byPolicy, hcore, if_false]

/-- The record of an ordinary task with an object that may run there binds where the object has its entry (R109). -/
theorem State.bindOn_usable {t : Task} {p : BindPacket} {core : Nat} {anchor : BitVec 12} {o : ObjRec} (hmode : t.tmode = 0)
    (hpart : (s.part (coreStack core) t.ctx).state t.obj = .enabled) (ho : s.objOn core t.ctx t.obj = .usable o) :
    s.bindOn t p core anchor = if o.binds t then s.allocate core (.bind t.id (p.share.map Prod.fst) anchor) else s.taskFault t core .taskMalformed := by
  simp only [State.bindOn, hpart, ho, hmode, if_true]
  cases o.binds t <;> rfl

/-! ## Asks for work (R114) -/

theorem exec_askForWork {core task : Nat} {t : Task} (ht : s.task? task = some t) (hr : t.range ≠ none) (hctx : (s.core core).ctx = some t.ctx)
    (hw : (s.core core).hasWorker task = false) (hopen : ∃ p ∈ t.parts, p.2 = false)
    (hidle : ∀ e ∈ (s.core core).light ++ (s.core core).engine, e.2.ctx ≠ t.ctx) (hnew : (core, task) ∉ (s.stack (coreStack core)).asks) :
    exec (.askForWork core task) s = .next (s.modStack (coreStack core) (fun k => { k with asks := k.asks ++ [(core, task)] })) := by
  have hidle' : (s.core core).idleFor t.ctx = true := by
    simp only [Core.idleFor, List.all_eq_true, bne_iff_ne]
    exact hidle
  have hparts : t.parts.all (fun p => p.2) = false := by
    simpa [List.all_eq_false] using hopen
  have hasks : (s.stack (coreStack core)).asks.contains (core, task) = false := by simpa using hnew
  have hrange : t.range.isNone = false := Option.isNone_eq_false_iff.mpr (Option.isSome_iff_ne_none.mpr hr)
  show execAskForWork core task s = _
  simp only [execAskForWork, ht, hrange, hctx, hw, hidle', hparts, hasks, bne_self_eq_false, Bool.not_true, Bool.or_self, Bool.false_eq_true, if_false]
  rfl

section
variable {stack core task : Nat} (hasks : (s.stack stack).asks = [(core, task)])
include hasks

theorem exec_askServe_only {u : State} (hu : s.serveAsk stack core task = some u) : exec (.askServe stack) s = .next u := by
  show execAskServe stack s = _
  simp [execAskServe, hasks, sortAsks, sortBy, insertBy, hu]

/-- The distributor's packet for a core that asked, its only ask. -/
def Stack.served (stack core t n : Nat) (k : Stack) : Stack :=
  { k with binds := k.binds ++ [{ task := t, share := some (stack * 2 ^ 20 + n, core), issuer := none, quad := none }], asks := [] }

/-- An unowned share of the task is handed over whole. -/
theorem exec_askServe_whole {n : Nat} {x : Share}
    (hx : largestShare ((s.stack stack).shares.filter (fun e => e.2.task == task && e.2.owner.isNone)) = some (n, x)) :
    exec (.askServe stack) s = .next (s.modStack stack (fun k => Stack.served stack core task n
      { k with shares := Table.put k.shares n { x with owner := some (core, 0), ready := false } })) := by
  refine exec_askServe_only hasks ?_
  unfold State.serveAsk
  simp only [hx, State.setShare, State.modStack_modStack]
  refine congrArg some (State.modStack_congr ?_)
  simp [Stack.served, hasks, shareNo]

/-- Where none is unowned, half the grains of the largest splittable share go to the core, rounded up staying. -/
theorem exec_askServe_split {m n : Nat} {x : Share} (howned : ∀ e ∈ (s.stack stack).shares, e.2.task = task → e.2.owner ≠ none)
    (hm : Table.lowestFree (s.stack stack).shares 256 = some m) (hx : s.splittable stack ((s.core core).ctx.getD 0) = some (n, x)) :
    let cut := x.lo + ((x.hi - x.lo + x.grain - 1) / x.grain + 1) / 2 * x.grain
    exec (.askServe stack) s = .next (s.modStack stack (fun k => Stack.served stack core x.task m { k with
      shares := Table.put (Table.put k.shares n { x with hi := cut }) m { x with lo := cut, owner := some (core, 0), ready := false } })) := by
  intro cut
  have hnone : (s.stack stack).shares.filter (fun e => e.2.task == task && e.2.owner.isNone) = [] := by
    simpa [List.filter_eq_nil_iff] using howned
  refine exec_askServe_only hasks ?_
  unfold State.serveAsk
  simp only [hnone, largestShare, List.foldl_nil, maxShares, hm, hx, State.setShare, State.modStack_modStack]
  refine congrArg some (State.modStack_congr ?_)
  simp [Stack.served, hasks, shareNo, cut]

end

/-! ## The ends of tasks (R115, R464, R467) -/

theorem State.modTask_of_task {n : Nat} {f : Task → Task} {t : Task} (h : s.task? n = some t) : s.modTask n f = s.setTask n (f t) := by
  simp only [State.modTask, h]

section
variable {task : Nat} {t : Task} (ht : s.task? task = some t) (hlive : (s.ctx t.ctx).live = true)
include ht hlive

/-- A part whose shares are empty and whose workers have ended reports (R115). -/
theorem exec_partReport {stack : Nat} (hpart : (stack, false) ∈ t.parts)
    (hshares : ∀ e ∈ (s.stack stack).shares, e.2.task = task → e.2.hi ≤ e.2.lo ∧ e.2.owner ≠ none)
    (hbinds : ∀ b ∈ (s.stack stack).binds, b.task ≠ task)
    (hcores : ∀ c ∈ s.cores, c.2.hasWorker task = false) : exec (.partReport stack task) s = .next
      ((s.modStack stack (fun k => { k with shares := k.shares.filter (fun e => e.2.task != task) })).setTask task
        { t with parts := t.parts.map (fun p => if p.1 = stack then (p.1, true) else p) }) := by
  have hsharesIdle : (s.stack stack).shares.any (fun e => e.2.task == task && (decide (e.2.lo < e.2.hi) || e.2.owner.isNone)) = false := by
    simpa [List.any_eq_false] using hshares
  have hbindsIdle : (s.stack stack).binds.any (fun b => b.task == task) = false := by simpa [List.any_eq_false] using hbinds
  have hcoresIdle : s.cores.any (fun c => c.2.hasWorker task) = false := by simpa [List.any_eq_false] using hcores
  have hcontains : t.parts.contains (stack, false) = true := by simpa using hpart
  show execPartReport stack task s = _
  simp only [execPartReport, ht, hsharesIdle, hbindsIdle, hcoresIdle, hlive, hcontains, Bool.not_true, Bool.or_self, Bool.false_eq_true, if_false]
  exact congrArg Host.Outcome.next (State.modTask_of_task ht)

theorem exec_rangeTaskComplete {lo hi grain : Nat} (hr : t.range = some (lo, hi, grain)) (hne : t.parts ≠ []) (hall : ∀ p ∈ t.parts, p.2 = true)
    (hfreed : t.freed = false) : exec (.rangeTaskComplete task) s = .next (s.setTask task { t with
      ended := some (t.ended.getD (Val.scalar (BitVec.ofNat 64 (hi - lo)) 0 7)), freed := true }) := by
  have hany : t.parts.any (fun p => !p.2) = false := by simpa [List.any_eq_false] using hall
  have hempty : t.parts.isEmpty = false := by simpa using hne
  show execRangeTaskComplete task s = _
  simp only [execRangeTaskComplete, ht, hr, hlive, hempty, hany, hfreed, Bool.not_true, Bool.or_self, Bool.false_eq_true, if_false]
  rfl

section
variable {v : Val} (hv : t.ended = some v)
include hv

/-- A task does not complete before its root frame is freed and its work is done (R464). -/
theorem exec_taskCompletion_waits (h : t.freed = false ∨ ∃ g ∈ s.work, g.task = task) : exec (.taskCompletion task) s = .next s := by
  have hwait : (!(s.ctx t.ctx).live || !t.freed || s.work.any (fun g => g.task == task)) = true := by
    rcases h with h | h
    · simp [h]
    · simp [hlive, h]
  show execTaskCompletion task s = _
  simp only [execTaskCompletion, ht, hv, hwait, if_true]

/-- A task without a recording completes: its value goes to its continuation (R464, R465). -/
theorem exec_taskCompletion_done {core : Nat} (hr : t.range = none) (hfreed : t.freed = true) (hwork : ∀ g ∈ s.work, g.task ≠ task)
    (hrec : s.recordQuad task = none) (hcore : s.fpCore t.ctx t.rootFp = some core) :
    exec (.taskCompletion task) s = .next ((s.deliver t core v).dropTask task) := by
  have hdone : s.work.any (fun g => g.task == task) = false := by simpa [List.any_eq_false] using hwork
  show execTaskCompletion task s = _
  simp only [execTaskCompletion, ht, hv, hlive, hfreed, hdone, hrec, hr, hcore, Bool.not_true, Bool.or_self, Bool.false_eq_true, if_false,
    Option.isSome_none, Option.getD_some]

end
end

theorem exec_freeSlotReport {core : Nat} (h : core < 4096) : exec (.freeSlotReport core) s = .next (s.modStack (coreStack core) (fun k =>
    { k with reports := Table.put k.reports core (s.core core).freeSlots })) := by
  show execFreeSlotReport core s = _
  simp only [execFreeSlotReport, h, if_true]

/-! ## The obligation -/

/-- Settles O46: each event by its lemma above; a selection by the queue that comes first. -/
theorem distributorResults : Obligations.DistributorResults := by
  unfold Obligations.DistributorResults
  refine ⟨fun s => ⟨?select, ?aging, ?hostPush, ?release⟩, fun s => ⟨?bind, fun core task t => exec_askForWork, ?serve,
    fun stack task t ht hlive => exec_partReport ht hlive,
    ?rangeComplete, ?complete, fun core => exec_freeSlotReport⟩⟩
  case select =>
    intro stack slot r d bs hsort hmem last hfirst hd hbs bad
    obtain ⟨hwait, hsel⟩ := distributorSelect_first hsort hmem hfirst hd hbs
    refine ⟨hwait, fun h => ?_⟩
    obtain ⟨u, hexec, htaken, hrrp, hbad, htask⟩ := hsel h
    refine ⟨u, hexec, htaken, hrrp, fun hm hp => hbad ⟨hm, hp⟩, fun hm hrng => ?_⟩
    obtain ⟨ht, hbinds⟩ := htask (fun h => by simp [hm] at h) hrng
    exact ⟨_, ht, rfl, rfl, rfl, rfl, rfl, by simp [Rec.task, hrng], hbinds⟩
  case aging =>
    intro stack slot r hr
    obtain ⟨hfind, -, -⟩ := State.modSlot_spec (s := s) stack slot (fun r => if 1024 ≤ r.passed then { r with eff := min 7 (r.eff + 1), passed := 0 } else r)
    exact ⟨_, rfl, (hfind slot).trans (by rw [if_pos rfl, hr]; rfl)⟩
  case hostPush =>
    intro func q off data d hq hd
    have hexec := exec_hostPush hq hd func
    refine ⟨fun h => (hexec off data).trans (congrArg _ (if_pos h)), fun hfn hoff hform => ?_, fun hfn hlen => ?_⟩
    · exact (hexec off data).trans (congrArg _ ((if_neg (by omega)).trans (if_pos hform)))
    · have hpush := (hexec 0 data).trans (congrArg _ ((if_neg (by omega)).trans (if_neg (by omega))))
      exact ⟨fun h => hpush.trans (congrArg _ (if_pos h)), fun h => hpush.trans (congrArg _ (if_neg h))⟩
  case release =>
    intro core id c f d hc hid he hp hf hd
    exact ⟨exec_pushPortRelease_full hc hf hd, exec_pushPortRelease_room hc hf hd hid he hp⟩
  case bind =>
    intro stack p rest t n core hp ht hshare hcore hmode hissuer u low hlow hpart o ho
    have hbind := (exec_bind_worker hp ht hshare hcore hissuer hlow).trans
      (congrArg _ (State.bindOn_usable (p := p) (anchor := u.vcoreOf low.2) hmode hpart ho))
    rw [hshare] at hbind
    exact ⟨fun h => hbind.trans (congrArg _ (if_pos h)), fun h => hbind.trans (congrArg _ (if_neg (by simp [h])))⟩
  case serve =>
    intro stack core task hasks k bind
    exact ⟨fun n x => exec_askServe_whole hasks, fun howned _ m n x hm hx => exec_askServe_split hasks howned hm hx⟩
  case rangeComplete => exact fun task t lo hi grain ht hr hlive => exec_rangeTaskComplete ht hlive hr
  case complete =>
    intro task t v ht hv hlive hr
    exact ⟨exec_taskCompletion_waits ht hlive hv, fun core => exec_taskCompletion_done ht hlive hv hr⟩

end Sys2Proof.Machine

/-! SUPPORT. The tape instructions on scalars: tapes that are dropped or described, tasks that record or replay, and the guard of a probe (R141, R155, R157 to R163). -/

namespace Sys2Proof.Machine

variable {s : State} {g : Firing} {f : Fields}

/-! ## Tapes that become invalid (R155, R162) -/

/-- An engine whose tapes that satisfy a test have become invalid, and those gone that no replay holds (R155). -/
def TapeEngine.invalidated (bad : Nat → Nat → U32 → Bool) (e : TapeEngine) : TapeEngine :=
  ({ e with tapes := e.tapes.map (fun t => if bad t.ctx t.tmpl t.obj then { t with valid := false } else t) } : TapeEngine).reclaim

/-- How many valid tapes of an engine satisfy a test. -/
def TapeEngine.validHits (bad : Nat → Nat → U32 → Bool) (e : TapeEngine) : Nat := (e.tapes.filter (fun t => t.valid && bad t.ctx t.tmpl t.obj)).length

section
variable {bad : Nat → Nat → U32 → Bool}

theorem State.invalidateOn_of_idle {q : Nat} (h : (s.engine q).record = none) :
    s.invalidateOn q bad = (s.modEngine q (TapeEngine.invalidated bad), (s.engine q).validHits bad) := by
  unfold State.invalidateOn
  simp only [h]
  rfl

/-- One engine after another, each of a quad of its own. -/
theorem State.foldl_invalidateOn (l : List (Nat × TapeEngine)) (n : Nat) (hkeys : l.Pairwise (fun a b => a.1 < b.1))
    (hl : ∀ e ∈ l, s.engine e.1 = e.2 ∧ e.2.record = none) :
    ∃ u n', l.foldl (fun a e => let r := a.1.invalidateOn e.1 bad; (r.1, a.2 + r.2)) (s, n) = (u, n') ∧
      n' = n + (l.map (fun e => e.2.validHits bad)).sum ∧ u = { s with tapes := u.tapes } ∧
      ∀ q, u.engine q = if q ∈ l.map Prod.fst then (s.engine q).invalidated bad else s.engine q := by
  induction l generalizing s n with
  | nil => exact ⟨s, n, rfl, rfl, rfl, fun q => rfl⟩
  | cons e l ih =>
    obtain ⟨hlt, hkeys⟩ := List.pairwise_cons.mp hkeys
    obtain ⟨⟨he, hrec⟩, hl⟩ := List.forall_mem_cons.mp hl
    have hnew : e.1 ∉ l.map Prod.fst := by
      simp only [List.mem_map, not_exists, not_and]
      exact fun x hx => (hlt x hx).ne'
    have hrest : ∀ x ∈ l, (s.modEngine e.1 (TapeEngine.invalidated bad)).engine x.1 = x.2 ∧ x.2.record = none := fun x hx => by
      rw [State.engine_modEngine, if_neg (hlt x hx).ne]
      exact hl x hx
    obtain ⟨u, n', hfold, hn, hu, hq⟩ := ih (n + e.2.validHits bad) hkeys hrest
    refine ⟨u, n', ?_, ?_, hu, fun q => ?_⟩
    · rw [List.foldl_cons, State.invalidateOn_of_idle (he ▸ hrec), he]
      exact hfold
    · rw [hn, List.map_cons, List.sum_cons, Nat.add_assoc]
    · rw [hq, State.engine_modEngine]
      by_cases h : e.1 = q
      · subst h
        simp [hnew]
      · simp only [h, if_false, List.map_cons, List.mem_cons, Ne.symm h, false_or]

/-- A key that a table does not list is not found. -/
theorem Table.find_of_not_mem {α : Type} {t : List (Nat × α)} {k : Nat} (h : k ∉ t.map Prod.fst) : Table.find t k = none := by
  induction t with
  | nil => rfl
  | cons e t ih =>
    obtain ⟨hne, ht⟩ := not_or.mp (mt List.mem_cons.mpr h)
    exact (if_neg (Ne.symm hne)).trans (ih ht)

theorem State.engine_of_not_mem {q : Nat} (h : q ∉ s.tapes.map Prod.fst) : s.engine q = TapeEngine.reset :=
  congrArg (Option.getD · _) (Table.find_of_not_mem h)

/-- Where no quad records, every quad loses its tapes that satisfy the test. -/
theorem State.invalidate_of_idle (hrec : ∀ e ∈ s.tapes, e.2.record = none) (hkeys : s.tapes.Pairwise (fun a b => a.1 < b.1)) :
    ∃ u, s.invalidate bad = (u, (s.tapes.map (fun e => e.2.validHits bad)).sum) ∧ u = { s with tapes := u.tapes } ∧
      ∀ q, u.engine q = (s.engine q).invalidated bad := by
  obtain ⟨u, n', hfold, hn, hu, hq⟩ := State.foldl_invalidateOn (s := s) (bad := bad) s.tapes 0 hkeys fun e he =>
    ⟨congrArg (Option.getD · _) (Table.find_of_mem hkeys he), hrec e he⟩
  refine ⟨u, by rw [← Nat.zero_add (List.sum _), ← hn]; exact hfold, hu, fun q => (hq q).trans ?_⟩
  split
  · rfl
  next h => rw [State.engine_of_not_mem h]; rfl

end

/-! ## What TAPEINFO reads (R163) -/

/-- The tape of a key belongs to the engine. -/
theorem TapeEngine.tape?_mem {e : TapeEngine} {ctx tmpl : Nat} {y : Tape} (h : e.tape? ctx tmpl = some y) :
    y ∈ e.tapes ∧ (y.ctx, y.tmpl) = (ctx, tmpl) := by
  suffices hy : y ∈ e.tapes.filter (fun t => t.ctx == ctx && t.tmpl == tmpl) by simpa using hy
  unfold TapeEngine.tape? at h
  dsimp only at h
  split at h
  next t ht => exact Option.some.inj h ▸ List.mem_of_find?_eq_some ht
  · exact List.mem_of_head? h

/-- The tape of a key that a replay could stream: valid, with an image that agrees (R152). -/
def State.usableTape (s : State) (q ctx tmpl : Nat) : Option Tape :=
  ((s.engine q).tape? ctx tmpl).filter (fun t => t.valid && (s.readTape t).isSome)

section
variable {q ctx tmpl : Nat}

theorem State.usableTape_some {y : Tape} (hy : (s.engine q).tape? ctx tmpl = some y) (hv : y.valid = true) (hr : (s.readTape y).isSome = true) :
    s.usableTape q ctx tmpl = some y := by
  simp [State.usableTape, hy, hv, hr]

theorem State.usableTape_none (h : ∀ y ∈ (s.engine q).tapes, (y.ctx, y.tmpl) = (ctx, tmpl) → y.valid = false) : s.usableTape q ctx tmpl = none := by
  unfold State.usableTape
  rw [Option.filter_eq_none_iff]
  intro y hy
  obtain ⟨hmem, hkey⟩ := TapeEngine.tape?_mem hy
  simp [h y hmem hkey]

theorem TapeEngine.holds_iff {e : TapeEngine} : e.holds ctx tmpl = true ↔ ∃ r ∈ e.replays ++ e.waiting, (r.tape.ctx, r.tape.tmpl) = (ctx, tmpl) := by
  simp [TapeEngine.holds, or_and_right, exists_or]

theorem State.tapeinfo_recording {r : Recording} (hr : (s.engine q).record = some r) (hkey : (r.ctx, r.tmpl) = (ctx, tmpl)) :
    s.tapeinfo 0 q ctx tmpl = 1 := by
  obtain ⟨rfl, rfl⟩ := Prod.mk.inj hkey
  simp [State.tapeinfo, hr]

section
variable (hnot : ∀ r, (s.engine q).record = some r → (r.ctx, r.tmpl) ≠ (ctx, tmpl))
include hnot

/-- A key that is not being recorded has a valid tape, an invalid one that a replay holds, or none; bit 2 tells where its header is. -/
theorem State.tapeinfo_state : ∃ resident, s.tapeinfo 0 q ctx tmpl =
    if (s.usableTape q ctx tmpl).isSome then 2 + 4 * resident else if (s.engine q).holds ctx tmpl then 3 + 4 * resident else 0 := by
  refine ⟨_, if_neg ?_⟩
  cases hr : (s.engine q).record with
  | none => exact Bool.false_ne_true
  | some r => simpa using hnot r hr

theorem State.tapeinfo_valid {y : Tape} (hy : (s.engine q).tape? ctx tmpl = some y) (hv : y.valid = true) (hr : (s.readTape y).isSome = true) :
    s.tapeinfo 0 q ctx tmpl % 4 = 2 := by
  obtain ⟨resident, hx⟩ := State.tapeinfo_state hnot
  rw [hx, State.usableTape_some hy hv hr, Option.isSome_some, if_pos rfl]
  omega

section
variable (hnone : ∀ y ∈ (s.engine q).tapes, (y.ctx, y.tmpl) = (ctx, tmpl) → y.valid = false)
include hnone

theorem State.tapeinfo_held {r : Replay} (hr : r ∈ (s.engine q).replays ++ (s.engine q).waiting) (hkey : (r.tape.ctx, r.tape.tmpl) = (ctx, tmpl)) :
    s.tapeinfo 0 q ctx tmpl % 4 = 3 := by
  obtain ⟨resident, hx⟩ := State.tapeinfo_state hnot
  rw [hx, State.usableTape_none hnone, if_neg (by simp), if_pos (TapeEngine.holds_iff.mpr ⟨r, hr, hkey⟩)]
  omega

theorem State.tapeinfo_absent (hfree : ∀ r ∈ (s.engine q).replays ++ (s.engine q).waiting, (r.tape.ctx, r.tape.tmpl) ≠ (ctx, tmpl)) :
    s.tapeinfo 0 q ctx tmpl = 0 := by
  obtain ⟨resident, hx⟩ := State.tapeinfo_state hnot
  rw [hx, State.usableTape_none hnone, if_neg (by simp), if_neg (mt TapeEngine.holds_iff.mp fun ⟨r, hr, hkey⟩ => hfree r hr hkey)]

end
end

theorem State.tapeinfo_size : s.tapeinfo 1 q ctx tmpl = ((s.usableTape q ctx tmpl).map (fun t => t.entries.length)).getD 0 := rfl

theorem State.tapeinfo_last {fn : Nat} (h : 2 ≤ fn) :
    s.tapeinfo fn q ctx tmpl = (((s.engine q).last.find? (fun x => x.1 == ctx && x.2.1 == tmpl)).map (fun x => x.2.2.toNat)).getD 0 := by
  match fn, h with
  | _ + 2, _ => rfl

/-- TAPEINFO.LAST reads the only outcome of the key. -/
theorem State.tapeinfo_last_only {fn : Nat} (h : 2 ≤ fn) {y : Nat × Nat × U64} (hy : y ∈ (s.engine q).last) (hkey : (y.1, y.2.1) = (ctx, tmpl))
    (honly : ∀ z ∈ (s.engine q).last, (z.1, z.2.1) = (ctx, tmpl) → z = y) : s.tapeinfo fn q ctx tmpl = y.2.2.toNat := by
  have hfound : ((s.engine q).last.find? (fun x => x.1 == ctx && x.2.1 == tmpl)).isSome = true :=
    List.find?_isSome.mpr ⟨y, hy, by simpa using hkey⟩
  obtain ⟨z, hz⟩ := Option.isSome_iff_exists.mp hfound
  rw [State.tapeinfo_last h, hz, honly z (List.mem_of_find?_eq_some hz) (by simpa using List.find?_some hz)]
  rfl

theorem State.tapeinfo_last_none {fn : Nat} (h : 2 ≤ fn) (hnone : ∀ y ∈ (s.engine q).last, (y.1, y.2.1) ≠ (ctx, tmpl)) :
    s.tapeinfo fn q ctx tmpl = 0 := by
  have hfind : (s.engine q).last.find? (fun x => x.1 == ctx && x.2.1 == tmpl) = none := by simpa [List.find?_eq_none] using hnone
  rw [State.tapeinfo_last h, hfind]
  rfl

end

/-! ## The record of TAPEREC and TAPEPLAY (R105, R158) -/

/-- HOSTC of word 0 is cleared, and the fields below it stay. -/
theorem field_hostcCleared_low (w : U64) {lo len : Nat} (h : lo + len ≤ 62) : field (w &&& 0xBFFFFFFFFFFFFFFF) lo len = field w lo len := by
  rw [← launchWord0]
  exact (BitVec.extractLsb'_append_eq_of_add_le h).trans (BitVec.extractLsb'_extractLsb'_of_le h)

theorem field_hostcCleared_high (w : U64) : field (w &&& 0xBFFFFFFFFFFFFFFF) 62 2 = field w 63 1 ++ (0 : BitVec 1) := by
  rw [← launchWord0]
  exact (BitVec.extractLsb'_append_eq_of_le le_rfl).trans BitVec.extractLsb'_eq_self

/-- Word 0 of a record that is no range, with HOSTC 0 and a TMODE. -/
def tapeWord (mode : BitVec 2) (w : U64) : U64 := (0 : BitVec 2) ++ mode ++ field w 0 60

/-- The record that TAPEREC and TAPEPLAY build: CONT names dest1 in a frame. -/
def tapeRecord (f : Fields) (mode : BitVec 2) (ws : List U64) (fp : U32) : List U64 :=
  tapeWord mode (ws[0]?.getD 0) :: (fp ++ f.d1.ip ++ bit1 f.d1.port ++ (ws[1]?.getD 0).extractLsb' 0 11) :: ws.drop 2

section
variable {mode : BitVec 2} {w : U64}

theorem field_tapeWord {lo len : Nat} (h : lo + len ≤ 60) : field (tapeWord mode w) lo len = field w lo len :=
  (BitVec.extractLsb'_append_eq_of_add_le h).trans (BitVec.extractLsb'_extractLsb'_of_le h)

theorem tapeWord_tmode : field (tapeWord mode w) 60 2 = mode :=
  (BitVec.extractLsb'_append_eq_of_le le_rfl).trans ((BitVec.extractLsb'_append_eq_of_add_le le_rfl).trans BitVec.extractLsb'_eq_self)

theorem tapeWord_bit {i : Nat} (h : 62 ≤ i) : bitAt (tapeWord mode w) i = false := by
  rw [bitAt, tapeWord, getLsbD_append_hi _ _ _ (by omega), getLsbD_append_hi _ _ _ (by omega)]
  exact BitVec.getLsbD_zero

end

/-- The task of such a record, which has the record's object and entry (R105, R108). -/
theorem tapeRecord_task (mode : BitVec 2) (ws : List U64) (fp : U32) (id ctx prio stack : Nat) :
    let x := (Rec.of (tapeRecord f mode ws fp)).task id ctx prio stack
    x.tmode = mode ∧ x.hostc = false ∧ x.obj = (ws[0]?.getD 0).extractLsb' 0 32 ∧ x.entry = (ws[0]?.getD 0).extractLsb' 32 20 ∧
      x.cont = fp ++ f.d1.ip ++ bit1 f.d1.port := by
  have hrange : bitAt (tapeWord mode (ws[0]?.getD 0)) 63 = false := tapeWord_bit (by decide)
  refine ⟨?_, tapeWord_bit le_rfl, field_tapeWord (by decide), field_tapeWord (by decide), ?_⟩
  · exact (if_neg (Bool.eq_false_iff.mp hrange)).trans tapeWord_tmode
  · exact (BitVec.extractLsb'_append_eq_of_le le_rfl).trans BitVec.extractLsb'_eq_self

/-- A task of TAPEREC or TAPEPLAY, with its bind packet for the firing core's quad (R158). -/
def State.bindOnQuad (s : State) (g : Firing) (fp : U32) (x : Task) : State :=
  (((s.liveInc g.ctx fp).newId).setTask s.ids x).modStack (coreStack g.core) (fun k => { k with
    binds := k.binds ++ [{ task := s.ids, share := none, issuer := some g.core, quad := some (quadOf g.core) }] })

section
variable {mode : BitVec 2 → BitVec 2} {ws : List U64} {fp : U32} (hw : s.recSlots g f.slot.toNat = .ok ws) (hfp : s.destFp g f.d1 = some fp)
include hw hfp

theorem State.tapeLaunch_range (hrange : (ws[0]?.getD 0).getLsbD 63 = true) : s.tapeLaunch g f mode = s.fault g f .operandRange 0 := by
  unfold State.tapeLaunch
  simp only [hw, State.launchWords_eq hfp, launchRecord, List.getElem?_cons_zero, Option.getD_some, field_hostcCleared_high]
  refine if_pos ?_
  rw [bitAt, getLsbD_append_hi _ _ _ (by decide), getLsbD_append_hi _ _ _ (by decide), getLsbD_append_hi _ _ _ (by decide),
    BitVec.getLsbD_extractLsb']
  exact hrange

theorem State.tapeLaunch_task {tk : Task} (ht : s.task? g.task = some tk) (hrange : (ws[0]?.getD 0).getLsbD 63 = false) :
    let ws' := tapeRecord f (mode (field (ws[0]?.getD 0) 60 2)) ws fp
    s.tapeLaunch g f mode = if recMalformed ws' (s.ctx g.ctx).hcwlen.toNat then s.fault g f .taskMalformed 0
      else (s.bindOnQuad g fp ((Rec.of ws').task s.ids g.ctx tk.prio (coreStack g.core))).emit g f false (Val.scalar 0 g.l.round 0) := by
  intro ws'
  have hbit : field (ws[0]?.getD 0) 63 1 = 0 := by
    refine BitVec.eq_of_getLsbD_eq fun i hi => ?_
    obtain rfl : i = 0 := by omega
    simpa [field] using hrange
  have hword : bitAt (tapeWord (mode (field (ws[0]?.getD 0) 60 2)) (ws[0]?.getD 0)) 63 = false := tapeWord_bit (by decide)
  unfold State.tapeLaunch
  simp only [hw, State.launchWords_eq hfp, launchRecord, List.getElem?_cons_zero, Option.getD_some, field_hostcCleared_high, hbit,
    field_hostcCleared_low _ (show 60 + 2 ≤ 62 by decide), field_hostcCleared_low _ (show 0 + 60 ≤ 62 by decide), ht, hfp, Option.map_some]
  exact if_neg (Bool.eq_false_iff.mp hword)

end

section
variable (hc : s.cur = some g) (hs : g.scalars)
include hc hs

theorem exec_taperec : exec (.taperec f) s = .next (s.retire.tapeLaunch g f (fun _ => 1)) :=
  congrArg Host.Outcome.next (State.operate_scalars hc hs rfl rfl rfl)

theorem exec_tapeplay : exec (.tapeplay f) s = .next (s.retire.tapeLaunch g f (fun m => if m = 3 then 3 else 2)) :=
  congrArg Host.Outcome.next (State.operate_scalars hc hs rfl rfl rfl)

/-- Both make a task of the record, with a TMODE that may depend on that of the record. -/
theorem exec_tapeLaunch : ∀ i ∈ [Instr.taperec f, .tapeplay f], ∃ m, exec i s = .next (s.retire.tapeLaunch g f m) := by
  simp only [List.forall_mem_cons, List.not_mem_nil, false_imp_iff, implies_true, and_true]
  exact ⟨⟨_, exec_taperec hc hs⟩, ⟨_, exec_tapeplay hc hs⟩⟩

theorem exec_tapeLaunch_mode {i : Instr} {mode x : BitVec 2} (h : (i, mode) ∈ [(Instr.taperec f, 1), (.tapeplay f, if x = 3 then 3 else 2)]) :
    ∃ m : BitVec 2 → BitVec 2, m x = mode ∧ exec i s = .next (s.retire.tapeLaunch g f m) := by
  simp only [List.mem_cons, Prod.mk.injEq, List.not_mem_nil, or_false] at h
  obtain ⟨rfl, rfl⟩ | ⟨rfl, rfl⟩ := h
  · exact ⟨_, rfl, exec_taperec hc hs⟩
  · exact ⟨_, rfl, exec_tapeplay hc hs⟩

/-! ## TAPEDROP and TAPEINFO (R162, R163) -/

/-- What TAPEDROP and TAPEINFO emit. -/
def tapeCount (g : Firing) (n : Nat) : Val := Val.scalar (BitVec.ofNat 64 n) g.l.round provData

theorem exec_tapedropQuad (hidle : (s.engine (quadOf g.core)).record = none) :
    let bad (c t : Nat) (_ : U32) : Bool := dropTest f g.ctx c t
    exec (.tapedropQuad f) s = .next ((s.retire.modEngine (quadOf g.core) (TapeEngine.invalidated bad)).emit g f false
      (tapeCount g ((s.engine (quadOf g.core)).validHits bad))) := by
  refine congrArg Host.Outcome.next ((State.operate_scalars hc hs rfl rfl rfl).trans ?_)
  rw [State.invalidateOn_of_idle (s := s.retire) hidle]
  rfl

theorem exec_tapedropAll (hidle : ∀ e ∈ s.tapes, e.2.record = none) (hkeys : s.tapes.Pairwise (fun a b => a.1 < b.1)) :
    let bad (c t : Nat) (_ : U32) : Bool := dropTest f g.ctx c t
    ∃ u : State, exec (.tapedropAll f) s = .next (u.emit g f false (tapeCount g ((s.tapes.map (fun e => e.2.validHits bad)).sum))) ∧
      u = { s.retire with tapes := u.tapes } ∧ ∀ q, u.engine q = (s.engine q).invalidated bad := by
  intro bad
  obtain ⟨u, hinv, hu, hq⟩ := State.invalidate_of_idle (s := s.retire) (bad := bad) hidle hkeys
  refine ⟨u, congrArg Host.Outcome.next ((State.operate_scalars hc hs rfl rfl rfl).trans ?_), hu, hq⟩
  rw [hinv]
  rfl

theorem exec_tapeinfo : exec (.tapeinfo f) s = .next (s.retire.spend.emit g f false
    (tapeCount g (s.retire.tapeinfo f.fn.toNat (quadOf g.core) g.ctx (f.imm.toNat % 65536)))) :=
  congrArg Host.Outcome.next (State.operate_scalars hc hs rfl rfl rfl)

/-! ## TAPEEND, TAPEGRD and TAPEPAT (R141, R159 to R161) -/

section
variable (hrec : s.recording? g.core g.task = none)
include hrec

theorem exec_tapeend_plain : exec (.tapeend f) s = .next (s.retire.emit g f false g.l) := by
  have hrec' : s.retire.recording? g.core g.task = none := hrec
  refine congrArg Host.Outcome.next ((State.operate_scalars hc hs rfl rfl rfl).trans ?_)
  simp only [hrec']

theorem exec_tapegrd_plain (hp : s.retire.probing g = none) :
    exec (.tapegrd f) s = .next (s.retire.emit g f false (Val.scalar g.l.value g.l.round 0)) := by
  have hrec' : s.retire.recording? g.core g.task = none := hrec
  refine congrArg Host.Outcome.next ((State.operate_scalars hc hs rfl rfl rfl).trans ?_)
  simp only [hp, hrec']
  rfl

end

/-- The guard's own TAPEGRD in its probe frame, with the predicate recorded, lets the guard pass (R141). -/
theorem exec_tapegrd_passes {r : Replay} {tk : Task} {n : Nat} {x : TapeGuard} (hr : (s.engine (quadOf g.core)).replay? g.task = some r)
    (ht : s.task? g.task = some tk) (hp : r.probe = some (n, g.fp)) (hx : r.tape.entries[n]? = some (.guard x)) (hip : x.gip = g.ip)
    (hpred : x.pred = g.l.value) : exec (.tapegrd f) s = .next
      ((s.retire.freeProbe tk.ctx r).modReplay (quadOf g.core) tk.id (fun r => { r with probe := none, passed := r.passed ++ [n] })) := by
  have hprobing : s.retire.probing g = some (r, n, x) := by
    simp [State.probing, hr, hp, hx, hip, TapeEntry.guard?]
  refine congrArg Host.Outcome.next ((State.operate_scalars hc hs rfl rfl rfl).trans ?_)
  simp only [hprobing, State.retire_task_of, ht]
  exact if_pos hpred.symm

end

/-! ## The obligation -/

/-- Settles O47: each instruction by its lemma above. -/
theorem tapeOperatorResults : Obligations.TapeOperatorResults := by
  unfold Obligations.TapeOperatorResults
  intro s g f hc hs t q num bad held drop
  have hl : g.l.kind = .scalar := hs _ (List.mem_cons_self ..)
  refine ⟨fun hrec => ⟨exec_tapeend_plain hc hs hrec, exec_tapegrd_plain hc hs hrec⟩,
    ⟨retag (BitVec.ofNat 4 (1 + f.imm.toNat)) g.l, hl, rfl, rfl, rfl, congrArg Host.Outcome.next (State.operate_scalars hc hs rfl rfl rfl)⟩,
    ⟨retag 0 g.l, hl, rfl, rfl, rfl, congrArg Host.Outcome.next (State.operate_scalars hc hs rfl rfl rfl)⟩,
    exec_tapedropQuad hc hs, ?all, ⟨_, exec_tapeinfo hc hs, ?info⟩, ?launch,
    fun r tk n x hr ht hp hx hip => exec_tapegrd_passes hc hs hr ht hp hx hip⟩
  case all =>
    intro hidle hkeys
    obtain ⟨u, hexec, hu, hq⟩ := exec_tapedropAll (f := f) hc hs hidle hkeys
    exact ⟨u, hexec, hq, by rw [hu]; rfl, by rw [hu]; rfl, by rw [hu]; rfl, by rw [hu]; rfl⟩
  case info =>
    intro mine e none_
    refine ⟨fun h0 => ?state, fun h1 => ?size, fun h2 => ⟨fun y => State.tapeinfo_last_only (s := t) h2, State.tapeinfo_last_none (s := t) h2⟩⟩
    case state =>
      rw [show f.fn.toNat = 0 from congrArg BitVec.toNat h0]
      exact ⟨fun r => State.tapeinfo_recording (s := t), fun hnot => ⟨fun y => State.tapeinfo_valid (s := t) hnot, fun hnone =>
        ⟨fun r => State.tapeinfo_held (s := t) hnot hnone, State.tapeinfo_absent (s := t) hnot hnone⟩⟩⟩
    case size =>
      rw [show f.fn.toNat = 1 from congrArg BitVec.toNat h1, State.tapeinfo_size]
      exact ⟨fun y hy hv hr => by rw [State.usableTape_some (s := t) hy hv hr]; rfl,
        fun hnone => by rw [State.usableTape_none (s := t) hnone]; rfl⟩
  case launch =>
    intro ws fp tk hw hfp ht
    refine ⟨fun i hi hrange => ?range, fun i mode hi hrange => ?task⟩
    case range =>
      obtain ⟨m, hexec⟩ := exec_tapeLaunch hc hs i hi
      rw [hexec, State.tapeLaunch_range hw hfp hrange]
    case task =>
      obtain ⟨m, rfl, hexec⟩ := exec_tapeLaunch_mode hc hs hi
      rw [State.tapeLaunch_task hw hfp ht hrange] at hexec
      obtain ⟨hmode, hhost, hobj, hentry, hcont⟩ := tapeRecord_task (f := f) (m _) ws fp s.ids g.ctx tk.prio (coreStack g.core)
      exact ⟨fun hbad => hexec.trans (congrArg _ (if_pos hbad)), fun hok => ⟨_, rfl, rfl, hmode, hhost, rfl, hobj, hentry, hcont, rfl,
        hexec.trans (congrArg _ (if_neg (Bool.eq_false_iff.mp hok)))⟩⟩

end Sys2Proof.Machine

/-! SUPPORT. Replays and recordings at the tape engine of a quad: cursors, commands that are issued, probes, the ends of replays, and snapshots (R126, R133, R135, R140, R141, R143). -/

namespace Sys2Proof.Machine

variable {s : State} {quad task : Nat}

/-! ## Cursors (R126) -/

/-- A change to an engine is what it makes of the engine as it stands. -/
theorem State.modEngine_congr {q : Nat} {h k : TapeEngine → TapeEngine} (e : h (s.engine q) = k (s.engine q)) : s.modEngine q h = s.modEngine q k :=
  congrArg (s.setEngine q) e

section
variable {r : Replay} {rest : List Replay} (hw : (s.engine quad).waiting = r :: rest)
include hw

theorem exec_replayCursorGrant_free (hroom : (s.engine quad).replays.length < 4) :
    exec (.replayCursorGrant quad) s = .next (s.modEngine quad (fun e => { e with waiting := rest, replays := e.replays ++ [r] })) := by
  refine congrArg Host.Outcome.next (State.modEngine_congr ?_)
  simp only [hw, hroom, if_true]

/-- With four replays at work the first that waits goes on waiting. -/
theorem exec_replayCursorGrant_taken (hfull : 4 ≤ (s.engine quad).replays.length) :
    exec (.replayCursorGrant quad) s = .next (s.modEngine quad id) := by
  refine congrArg Host.Outcome.next (State.modEngine_congr ?_)
  simp only [hw, Nat.not_lt.mpr hfull, if_false, id]

end

/-! ## Commands of a replay (R140) -/

/-- The firing of a recorded command in the replay of a task, at entry i (R140): what comes from the entry, from the task and from the
values kept. -/
def Replay.firing (r : Replay) (quad : Nat) (t : Task) (i : Nat) (c : TapeCmd) : Firing :=
  { core := quadCore quad c.pos, fp := c.fp, ip := c.ip, ctx := t.ctx, obj := t.obj, task := t.id, port := c.port,
    l := (operandOf c.ops 0 t.rargs r.kept c.round).getD (Val.scalar 0 c.round provData)
    r := operandOf c.ops 1 t.rargs r.kept c.round, t := operandOf c.ops 2 t.rargs r.kept c.round,
    replay := some (quad, t.id, i), word := some c.word, recorded := false,
    named := c.named.map (fun p => (p.1, p.2.rebuild t.rargs r.kept c.round)) }

theorem State.issueEntry_cmd {r : Replay} {t : Task} {i : Nat} {c : TapeCmd} (hi : r.tape.entries[i]? = some (.cmd c)) :
    s.issueEntry quad r t i = (s.modReplay quad t.id (fun r => { r with issued := r.issued ++ [i] })).modCore (quadCore quad c.pos) (fun k =>
      { k with engine := k.engine ++ [((s.ctx t.ctx).cls, r.firing quad t i c)] }) := by
  unfold State.issueEntry
  rw [hi]
  rfl

@[simp] theorem OpDesc.rebuild_kind (d : OpDesc) (args : List U64) (kept : Table Val) (round : BitVec 8) : (d.rebuild args kept round).kind = d.kind := by
  unfold OpDesc.rebuild
  split <;> rfl

section
variable {d : OpDesc} {args : List U64} {kept : Table Val} {round : BitVec 8}

theorem OpDesc.rebuild_literal (h : d.src = 0) : (d.rebuild args kept round).value = d.lit := by simp [OpDesc.rebuild, h, Val.scalar]

theorem OpDesc.rebuild_argument (h : d.src = 1) : (d.rebuild args kept round).value = args[d.arg]?.getD 0 + d.lit := by
  simp [OpDesc.rebuild, h, Val.scalar]

theorem OpDesc.rebuild_output {v : Val} (h : d.src = 2) (hv : Table.find kept (2 * d.cmd) = some v) : (d.rebuild args kept round).value = v.value := by
  simp [OpDesc.rebuild, h, hv, Val.scalar]

/-- The left operand of a replayed command is its descriptor's value. -/
theorem Replay.firing_left {r : Replay} {t : Task} {i : Nat} {c : TapeCmd} (h : c.ops.find? (fun d => d.opix == 0) = some d) :
    (r.firing quad t i c).l = d.rebuild t.rargs r.kept c.round := by
  simp only [Replay.firing, operandOf, h, Option.map_some, Option.getD_some]

end

/-- A change to a task is what it makes of the task as it stands. -/
theorem State.modTask_congr {n : Nat} {h k : Task → Task} (e : ∀ t, s.task? n = some t → h t = k t) : s.modTask n h = s.modTask n k := by
  unfold State.modTask
  split
  next t ht => rw [e t ht]
  · rfl

/-- The end of a replay leaves the arguments of every task. -/
theorem State.endReplay_rargs {r : Replay} {outcome n : Nat} {t t' : Task} (ht : s.task? n = some t)
    (ht' : (s.endReplay quad r outcome).task? n = some t') : t'.rargs = t.rargs := by
  unfold State.endReplay at ht'
  rw [State.task_modTask, State.modEngine_task_of, State.modEngine_task_of] at ht'
  split at ht'
  next h =>
    rw [h, ht] at ht'
    obtain rfl := Option.some.inj ht'
    rfl
  · rw [Option.some.inj (ht.symm.trans ht')]

section
variable {r : Replay} {t : Task} (hr : (s.engine quad).replay? task = some r) (ht : s.task? task = some t)
include hr ht

/-- The lowest entry that may be issued is (R140). -/
theorem exec_replayIssue_lowest {i : Nat} (hf : r.fault = none) (hact : (s.ctx t.ctx).phase = .active) (hi : i < r.tape.entries.length)
    (hlow : ∀ j, j < i → s.entryReady quad r j = false) (hready : s.entryReady quad r i = true) :
    exec (.replayIssue quad task) s = .next (s.issueEntry quad r t i) := by
  have hfind : (List.range r.tape.entries.length).find? (s.entryReady quad r) = some i := by
    simpa [List.find?_range_eq_some, hready, hi] using hlow
  show execReplayIssue quad task s = _
  simp only [execReplayIssue, hr, ht, hf, hact, hfind, Option.isSome_none, ne_eq, not_true_eq_false, decide_false, Bool.or_self, Bool.false_eq_true,
    if_false]

/-! ## The ends of a replay (R143) -/

theorem exec_replayComplete_done (hf : r.fault = none) (hdone : ∀ i, i < r.tape.entries.length → s.entryDone r i = true) (hexit : r.tape.exit = none) :
    exec (.replayComplete quad task) s = .next ((s.endReplay quad r 1).modTask task (fun t' => { t' with
      ended := some ((r.tape.compv.map (fun d => d.rebuild t'.rargs r.kept 0)).getD (Val.scalar 0 0 7)), freed := true })) := by
  have hall : (List.range r.tape.entries.length).all (s.entryDone r) = true := by simpa using hdone
  show execReplayComplete quad task s = _
  simp only [execReplayComplete, hr, ht, hf, hexit, hall, Option.isSome_none, Bool.not_true, Bool.or_self, Bool.false_eq_true, if_false]
  refine congrArg Host.Outcome.next (State.modTask_congr fun t' ht' => ?_)
  rw [State.endReplay_rargs ht ht']
  cases r.tape.compv <;> rfl

section
variable {v : Val} (hf : r.fault = some v)
include hf

theorem exec_replayFault_parked (hp : r.probe = none) (hparked : s.replayParked task = true) :
    exec (.replayFault quad task) s = .next (((s.endReplay quad r 5).deliver t (quadCore quad 0) v).dropTask task) := by
  show execReplayFault quad task s = _
  simp [execReplayFault, hr, ht, hf, hparked, State.freeProbe, hp]

theorem exec_replayFault_atWork (hwork : s.replayParked task = false) : exec (.replayFault quad task) s = .next s := by
  show execReplayFault quad task s = _
  simp [execReplayFault, hr, ht, hf, hwork]

end
end

/-! ## Probes (R141) -/

/-- A guard before an entry that waits only on entries done is the first that has not passed. -/
theorem State.find_unpassed_guard {r : Replay} {i : Nat} {x : TapeGuard} (hx : r.tape.entries[i]? = some (.guard x)) (hnew : i ∉ r.passed)
    (hdone : ∀ j, j < i → s.entryDone r j = true) :
    (List.range r.tape.entries.length).find? (fun i => (r.tape.entries[i]?.bind TapeEntry.guard?).isSome && !r.passed.contains i) = some i := by
  obtain ⟨hlt, -⟩ := List.getElem?_eq_some_iff.mp hx
  have hearlier : ∀ j, j < i → ¬ ((r.tape.entries[j]?.bind TapeEntry.guard?).isSome && !r.passed.contains j) = true := by
    intro j hj
    have hj := hdone j hj
    unfold State.entryDone at hj
    split at hj
    next y _ => simp_all
    next c hc => simp [hc, TapeEntry.guard?]
    next hnone => simp [hnone]
  exact List.find?_range_eq_some.mpr ⟨by simp [hx, hnew, TapeEntry.guard?], List.mem_range.mpr hlt, fun j hj => by rw [Bool.eq_false_iff.mpr (hearlier j hj)]; rfl⟩

theorem exec_probeStart_guard {r : Replay} {i : Nat} {x : TapeGuard} (hr : (s.engine quad).replay? task = some r) (hf : r.fault = none)
    (hp : r.probe = none) (hact : (s.ctx r.tape.ctx).phase = .active) (hx : r.tape.entries[i]? = some (.guard x)) (hnew : i ∉ r.passed)
    (hdone : ∀ j, j < i → s.entryDone r j = true) : exec (.probeStart quad task) s = .next
      ((s.modReplay quad task (fun r => { r with probe := some (i, 0) })).allocate (quadCore quad x.pos) (.probe quad task)) := by
  have hall : (List.range i).all (s.entryDone r) = true := by simpa using hdone
  show execProbeStart quad task s = _
  simp only [execProbeStart, hr, State.find_unpassed_guard hx hnew hdone, hf, hp, hact, hall, hx, Option.isSome_none, ne_eq, not_true_eq_false,
    decide_false, Bool.not_true, Bool.or_self, Bool.false_eq_true, if_false]
  rfl

/-! ## Snapshots of a recording (R133, R135) -/

/-- Those that waited in a recording which has ended emit, in order. -/
theorem exec_guardSnapshot_freed {x : Firing × Fields × Bool} {rest : List (Firing × Fields × Bool)} (h : (s.engine quad).freed = x :: rest) :
    exec (.guardSnapshot quad) s = .next ((x :: rest).foldl State.guardPlain (s.modEngine quad (fun e => { e with freed := [] }))) := by
  show execGuardSnapshot quad s = _
  simp only [execGuardSnapshot, h]

section
variable {r : Recording} {t : Task} {g : Firing} {f : Fields} {isEnd : Bool} {rest : List (Firing × Fields × Bool)}

theorem exec_guardSnapshot_waiting (hfreed : (s.engine quad).freed = []) (hr : (s.engine quad).record = some r) (ht : s.task? r.task = some t)
    (hg : r.atGuard = (g, f, isEnd) :: rest) : exec (.guardSnapshot quad) s = .next (
      if s.recordQuiet quad r.task then s.takeSnapshot quad r t g f isEnd rest else s) := by
  show execGuardSnapshot quad s = _
  simp only [execGuardSnapshot, hfreed, hr, hg, ht]

/-- What TAPEGRD or TAPEEND emits with its snapshot (R135, R160): TAPEGRD's value descends from guard entry n. -/
def snapshotVal (t : Task) (g : Firing) (isEnd : Bool) (n : Nat) : Val :=
  if isEnd then g.l else { Val.scalar g.l.value g.l.round 0 with lin := { out := none, anc := [lineKey t.id n] } }

/-- The token of that value, which the snapshot holds as well where it is for a frame of the task. -/
def State.snapshotOut (s : State) (t : Task) (g : Firing) (f : Fields) (isEnd : Bool) (n : Nat) : Option (U32 × RawTok) :=
  (s.destFp g f.d0).map (fun fp =>
    (fp, { frame := 0, state := 0, port := f.d0.port, ip := f.d0.ip, slot := 0, gout := !isEnd, val := snapshotVal t g isEnd n }))

/-- The guard entry of a TAPEGRD with its snapshot (R133, R149). -/
def State.guardEntry (s : State) (t : Task) (g : Firing) (f : Fields) (x : Snapshot) : TapeGuard :=
  { gnum := (s.guardNo t g.ip).getD 0, gip := g.ip, ip := BitVec.ofNat 20 f.imm.toNat, cls := f.imm.toNat / 2 ^ 20 % 8, pos := quadPos g.core,
    pred := g.l.value, snap := x }

/-- A recording whose first waiting TAPEGRD or TAPEEND has its snapshot, with its GUARDMASK bits m. -/
def Recording.snapped (r : Recording) (rest : List (Firing × Fields × Bool)) (x : Snapshot) (m : BitVec 6) : Recording :=
  { r with mask := r.mask ||| m, atGuard := rest, entries := markKeep r.entries (x.toks.map SnapTok.desc) }

theorem State.takeSnapshot_error {e : Nat}
    (h : s.snapshot quad t (if isEnd then none else some r.entries.length) (rest.map Prod.fst) (s.snapshotOut t g f isEnd r.entries.length) = .error e) :
    s.takeSnapshot quad r t g f isEnd rest =
      ((s.setRecording quad { r with atGuard := rest }).endRecording quad e).emit g f false (snapshotVal t g isEnd r.entries.length) := by
  unfold State.snapshotOut snapshotVal at h
  unfold State.takeSnapshot
  simp only [h]
  rfl

section
variable {x : Snapshot} {m : BitVec 6}

theorem State.takeSnapshot_exit (h : s.snapshot quad t none (rest.map Prod.fst) (s.snapshotOut t g f true r.entries.length) = .ok (x, m)) :
    s.takeSnapshot quad r t g f true rest =
      ((s.setRecording quad { r.snapped rest x m with exit := some x }).closeRecording quad { r.snapped rest x m with exit := some x } t).emit
        g f false g.l := by
  unfold State.snapshotOut snapshotVal at h
  unfold State.takeSnapshot
  simp only [if_true] at h ⊢
  simp only [h]
  rfl

theorem State.takeSnapshot_guard
    (h : s.snapshot quad t (some r.entries.length) (rest.map Prod.fst) (s.snapshotOut t g f false r.entries.length) = .ok (x, m)) :
    let r' : Recording := { r.snapped rest x m with entries := (r.snapped rest x m).entries ++ [.guard (s.guardEntry t g f x)] }
    s.recordFull r' = false →
    s.takeSnapshot quad r t g f false rest = ((s.setRecording quad r').streamOut quad r').emit g f false (snapshotVal t g false r.entries.length) := by
  intro r' hroom
  unfold State.snapshotOut snapshotVal at h
  unfold State.takeSnapshot
  simp only [Bool.false_eq_true, if_false] at h ⊢
  simp only [h]
  exact if_neg (Bool.eq_false_iff.mp hroom)

end
end

@[simp] theorem length_markKeep (es : List TapeEntry) (ds : List OpDesc) : (markKeep es ds).length = es.length := List.length_mapIdx ..

/-! ## The obligation -/

/-- Settles O48: each event of the engine by its lemmas above. -/
theorem tapeEventResults : Obligations.TapeEventResults := by
  unfold Obligations.TapeEventResults
  refine fun s quad => ⟨fun r rest hw => ⟨exec_replayCursorGrant_free hw, ?taken⟩, ?replay,
    fun task r i x hr hf hp hact hx => exec_probeStart_guard hr hf hp hact hx,
    fun task r t v hr ht hf hp => ⟨exec_replayFault_parked hr ht hf hp, exec_replayFault_atWork hr ht hf⟩,
    fun x rest hfreed => exec_guardSnapshot_freed hfreed, ?snapshot⟩
  case taken =>
    refine fun hfull => ⟨_, exec_replayCursorGrant_taken hw hfull, fun n => ?_⟩
    rw [State.engine_modEngine]
    split
    next h => exact congrArg s.engine h
    · rfl
  case replay =>
    rintro _ r t hr ht rfl hf
    refine ⟨fun i c hact hi hlow hready hc => ?_, exec_replayComplete_done hr ht hf⟩
    refine ⟨r.firing quad t i c, rfl, rfl, rfl, rfl, rfl, rfl, rfl, rfl, ?named, fun d hd => ?left, ?exec⟩
    case named => simp [Replay.firing, Function.comp_def]
    case left =>
      rw [Replay.firing_left hd]
      exact ⟨d.rebuild_kind .., OpDesc.rebuild_literal, OpDesc.rebuild_argument, fun v => OpDesc.rebuild_output⟩
    case exec =>
      rw [exec_replayIssue_lowest hr ht hf hact hi hlow hready, State.issueEntry_cmd hc]
      rfl
  case snapshot =>
    intro r t g f isEnd rest n hfreed hr ht hg hn
    subst hn
    have hexec := exec_guardSnapshot_waiting hfreed hr ht hg
    refine ⟨fun h => hexec.trans (congrArg _ (if_neg (Bool.eq_false_iff.mp h))), fun h => ?_⟩
    have hsnap := hexec.trans (congrArg _ (if_pos h))
    refine ⟨snapshotVal t g isEnd r.entries.length, s.snapshotOut t g f isEnd r.entries.length, ?_⟩
    cases isEnd with
    | true =>
      exact ⟨rfl, rfl, fun _ => rfl, nofun, fun e he => hsnap.trans (congrArg _ (State.takeSnapshot_error he)), fun x m hx =>
        ⟨{ r.snapped rest x m with exit := some x }, rfl, rfl, fun _ => ⟨rfl, hsnap.trans (congrArg _ (State.takeSnapshot_exit hx))⟩, nofun⟩⟩
    | false =>
      refine ⟨rfl, rfl, nofun, fun _ => ⟨rfl, rfl⟩, fun e he => hsnap.trans (congrArg _ (State.takeSnapshot_error he)), fun x m hx =>
        ⟨{ r.snapped rest x m with entries := (r.snapped rest x m).entries ++ [.guard (s.guardEntry t g f x)] }, rfl, rfl, nofun, fun _ =>
          ⟨⟨s.guardEntry t g f x, ?_, rfl, rfl, rfl, rfl, rfl, rfl⟩, ?_, fun hroom => hsnap.trans (congrArg _ (State.takeSnapshot_guard hx hroom))⟩⟩⟩
      · simp [Recording.snapped]
      · simp [Recording.snapped]

end Sys2Proof.Machine

/-! SUPPORT. What a write through CTXROOT leaves as it was (R258). -/

namespace Sys2Proof.Machine

variable {s u : State} {core ctx va cmd : Nat} {bs : List Byte}

/-- A write through CTXROOT touches memory, the tapes that watch it, and writes on their way to replicas and over links. -/
theorem State.ctxWriteFor_storesInto (h : s.ctxWriteFor ctx va bs core cmd = .ok u) : s.storesInto u := by
  unfold State.ctxWriteFor at h
  split at h
  · obtain rfl := Except.ok.inj h
    exact State.writeChunks_storesInto ..
  · cases h

theorem State.ctxPut_storesInto : s.storesInto (s.ctxPut ctx va bs) := by
  unfold State.ctxPut
  split
  next h => exact State.ctxWriteFor_storesInto h
  · exact State.storesInto_refl

@[simp] theorem State.ctxPut_core_of (c : Nat) : (s.ctxPut ctx va bs).core c = s.core c := by
  rw [State.ctxPut_storesInto (s := s)]
  rfl

@[simp] theorem State.ctxPut_ctx_of (n : Nat) : (s.ctxPut ctx va bs).ctx n = s.ctx n := by
  rw [State.ctxPut_storesInto (s := s)]
  rfl

@[simp] theorem State.ctxPut_mod : (s.ctxPut ctx va bs).mod = s.mod := by
  rw [State.ctxPut_storesInto (s := s)]

end Sys2Proof.Machine

/-! SUPPORT. BRIDGE_CONSUME at a core that no stack has: the model reads the ring where `coreStack` puts the core, the statement where core / 256 does (R17, R173, R258). -/

namespace Sys2Proof.Machine

variable {s : State} {core p ctx b : Nat}

/-! ## Ports bound to a bridge queue (R173) -/

theorem State.pump_bridge (h : ((s.core core).port p).bound = some (.bridge b)) (n : Nat) : s.pump core p n = s := by
  cases n with
  | zero => rfl
  | succ n =>
    unfold State.pump
    simp only [h]

@[simp] theorem State.port_modPort (h : Port → Port) : ((s.modPort core p h).core core).port p = h ((s.core core).port p) := by
  unfold State.modPort
  rw [State.core_modCore_same]
  exact Table.look_put_same ..

/-- An entry enters a port that is bound to a bridge queue, and goes no further. -/
theorem State.fifo_portPush_bridge (h : ((s.core core).port p).bound = some (.bridge b)) (e : Entry) :
    (((s.portPush core p e).core core).port p).fifo = ((s.core core).port p).fifo ++ [e] := by
  unfold State.portPush
  rw [State.pump_bridge (b := b) (by simpa using h), State.port_modPort]

/-- An entry whose sideband has a reserved bit set is not taken (log 119). -/
theorem exec_bridgeConsume_reserved {q : Bridge} {bs w : List Byte} (hp : p < 8) (hbound : ((s.core core).port p).bound = some (.bridge b))
    (hctx : (s.core core).ctx = some ctx) (hq : s.bridge ctx b = some q)
    (hbs : s.ctxRead ctx (coreStack core) (q.ring + 64 * (q.rcnt % q.size)) 64 = .ok bs)
    (hw : s.ctxRead ctx (coreStack core) (q.ring + 64 * q.size + 2 * (q.rcnt % q.size)) 2 = .ok w) (hres : 2 ^ 11 ≤ leNat w) :
    exec (.bridgeConsume core p) s = .next s := by
  have hin : portIsOut p = false := decide_eq_false (by omega)
  have hnone : Entry.of bs (leNat w) = none := if_neg (by omega)
  show execBridgeConsume core p s = _
  simp [execBridgeConsume, hbound, hctx, hq, hin, hbs, hw, hnone]

/-! ## A core beyond the module's 4096 -/

/-- A page table of two pages of 2 MiB, the second with replicas in stacks 0 and 12, and in the first a bridge queue of 64 entries: its ring begins at
the second page and holds one entry. In stack 0 the sideband of that entry has the reserved bit 11 set; in stack 12 it is 0. -/
def replicatedRing : Memory :=
  [(0x1000, 0x01), (0x1001, 0x20), (0x2000, 0x01), (0x2001, 0x40), (0x3002, 0x20), (0x3008, 12), (0x3009, 1), (0x3010, 1),
    (0x4000, 0x1F), (0x4008, 0x5F), (0x400A, 0x20), (0x400D, 0x01), (0x400E, 0x10), (0x201001, 8)]

/-- The descriptor of that queue. -/
def replicatedBridge : Bridge := { ring := 0x200000, size := 64, wcnt := 1, rcnt := 0 }

/-- Core 4096 in context 0, with input port 0 bound to that queue. -/
def strayConsumer : State :=
  { (State.reset.modCtx 0 (fun c => { c with ctxroot := 1, bqbase := 3 })).modCore 4096 (fun k =>
      { k with ctx := some 0, ports := [(0, { Port.reset with bound := some (.bridge 0) })] }) with hbm := replicatedRing }

theorem strayConsumer_bridge : strayConsumer.bridge 0 0 = some replicatedBridge := by rfl

/-- Stack 0 is where `coreStack` puts core 4096. -/
theorem strayConsumer_data_stack0 : strayConsumer.ctxRead 0 0 0x200000 64 = .ok (List.replicate 64 0) := by rfl

theorem strayConsumer_sideband_stack0 : strayConsumer.ctxRead 0 0 0x201000 2 = .ok [0, 8] := by rfl

/-- Stack 16 is 4096 / 256; stack 12 is the nearest to it that has a replica. -/
theorem strayConsumer_data_stack16 : strayConsumer.ctxRead 0 16 0x200000 64 = .ok (List.replicate 64 0) := by rfl

theorem strayConsumer_sideband_stack16 : strayConsumer.ctxRead 0 16 0x201000 2 = .ok [0, 0] := by rfl

theorem exec_bridgeConsume_strayConsumer : exec (.bridgeConsume 4096 0) strayConsumer = .next strayConsumer :=
  exec_bridgeConsume_reserved (by decide) rfl rfl strayConsumer_bridge strayConsumer_data_stack0 strayConsumer_sideband_stack0 (by decide)

/-- Refutes O32: the statement has BRIDGE_CONSUME read the ring as stack core / 256 does, the model as `coreStack core`, which is core / 256 % 16. For
the 4096 cores of the module these are one stack, but the statement speaks of every number: at core 4096 the model reads the replica of stack 0, whose
sideband is malformed, and leaves the entry; the statement reads that of stack 12 and takes it. With `coreStack core`, or core < 4096, this
counterexample goes. -/
theorem not_streamControlResults : ¬ Obligations.StreamControlResults := by
  unfold Obligations.StreamControlResults
  intro h
  obtain ⟨-, hconsume⟩ := h.1 strayConsumer 4096 0 0 0 replicatedBridge rfl rfl strayConsumer_bridge
  obtain ⟨-, hentry⟩ := hconsume (by decide)
  obtain ⟨-, htakes⟩ := hentry (by decide) (by decide) _ _ strayConsumer_data_stack16 strayConsumer_sideband_stack16
  obtain ⟨e, -, -, -, -, -, hexec⟩ := htakes (by decide)
  have hsame := Host.Outcome.next.inj (exec_bridgeConsume_strayConsumer.symm.trans hexec)
  have hfifo := congrArg (fun t : State => ((t.core 4096).port 0).fifo) hsame
  rw [State.ctxPut_core_of, State.fifo_portPush_bridge (b := 0) rfl] at hfifo
  cases hfifo

end Sys2Proof.Machine

/-! SUPPORT. LOAD and UNLOAD, the install of code pages, quarantine and the freeing of aborted frames (R176 to R181). -/

namespace Sys2Proof.Machine

variable {s : State} {ctx core : Nat}

/-! ## LOAD and UNLOAD (R176, R177) -/

/-- A record in the log of a context leaves the module's own registers. -/
@[simp] theorem State.logFault_mod (r : FaultRec) : (s.logFault r).1.mod = s.mod := by
  unfold State.logFault
  dsimp only
  split
  · rfl
  · split
    · rfl
    next h => rw [State.modCtx_mod, State.ctxWriteFor_storesInto h]

theorem State.endRecording_mod (quad reason : Nat) : (s.endRecording quad reason).mod = s.mod := by
  unfold State.endRecording
  split
  · rfl
  · dsimp only
    split <;> simp

theorem State.invalidateOn_mod (quad : Nat) (bad : Nat → Nat → U32 → Bool) : (s.invalidateOn quad bad).1.mod = s.mod := by
  unfold State.invalidateOn
  dsimp only
  split
  · split
    · rw [State.endRecording_mod, State.modEngine_mod]
    · rfl
  · rfl

/-- Tapes that become invalid leave the module's own registers, its running digest among them. -/
theorem State.invalidate_mod (bad : Nat → Nat → U32 → Bool) : (s.invalidate bad).1.mod = s.mod := by
  unfold State.invalidate
  generalize s.tapes = tapes
  generalize 0 = n
  induction tapes generalizing s n with
  | nil => rfl
  | cons e tapes ih => exact (ih _).trans (State.invalidateOn_mod ..)

@[simp] theorem State.objEnd_ctx_same (n : Nat) :
    (s.objEnd ctx n).ctx ctx = { s.ctx ctx with objbusy := false, objres := BitVec.ofNat 3 n } := State.ctx_modCtx_same ..

@[simp] theorem State.objEnd_mod (n : Nat) : (s.objEnd ctx n).mod = s.mod := rfl

@[simp] theorem State.objEnd_obj_of (n : Nat) (obj : U32) : ((s.objEnd ctx n).ctx ctx).obj? obj = (s.ctx ctx).obj? obj := by
  rw [State.objEnd_ctx_same]
  rfl

/-- The context holds no object of an id (R177). -/
def State.dropObject (s : State) (ctx : Nat) (obj : U32) : State := s.modCtx ctx (fun c => { c with objs := c.objs.filter (fun x => x.obj != obj) })

/-- The context holds an object, and no other of its id (R177). -/
def State.holdObject (s : State) (ctx : Nat) (o : ObjRec) : State :=
  s.modCtx ctx (fun c => { c with objs := c.objs.filter (fun x => x.obj != o.obj) ++ [o] })

theorem find_without (objs : List ObjRec) (obj : U32) : (objs.filter (fun x => x.obj != obj)).find? (fun x => x.obj == obj) = none := by
  simp [List.find?_filter]

theorem State.obj_dropObject (s : State) (ctx : Nat) (obj : U32) : ((s.dropObject ctx obj).ctx ctx).obj? obj = none := by
  unfold State.dropObject
  rw [State.ctx_modCtx_same]
  exact find_without ..

theorem State.obj_holdObject (s : State) (ctx : Nat) (o : ObjRec) : ((s.holdObject ctx o).ctx ctx).obj? o.obj = some o := by
  have hfind (objs : List ObjRec) : (objs.filter (fun x => x.obj != o.obj) ++ [o]).find? (fun x => x.obj == o.obj) = some o := by
    rw [List.find?_append, find_without]
    simp
  unfold State.holdObject
  rw [State.ctx_modCtx_same]
  exact hfind _

/-- LOAD refuses the entry that OBJCTL names (R176): it lies beyond the table, is not asked for, or another entry has its id. -/
def State.entryRefused (s : State) (ctx : Nat) : Prop :=
  (s.ctx ctx).objnm1.toNat < (s.ctx ctx).objidx.toNat ∨ numAt (s.objTableEntry ctx (s.ctx ctx).objidx.toNat) 4 1 ≠ 1 ∨
    ∃ j ≤ (s.ctx ctx).objnm1.toNat, j ≠ (s.ctx ctx).objidx.toNat ∧ numAt (s.objTableEntry ctx j) 4 1 ≠ 0 ∧
      numAt (s.objTableEntry ctx j) 0 4 = numAt (s.objTableEntry ctx (s.ctx ctx).objidx.toNat) 0 4

/-- The model's search of the table finds an entry of the same id exactly where there is one. -/
theorem any_sameId_iff {t : Nat → List Byte} {n i : Nat} :
    ((List.range (n + 1)).any fun j => j != i && (numAt (t j) 4 1 != 0 && numAt (t j) 0 4 == numAt (t i) 0 4)) = true ↔
      ∃ j ≤ n, j ≠ i ∧ numAt (t j) 4 1 ≠ 0 ∧ numAt (t j) 0 4 = numAt (t i) 0 4 := by
  simp

section
variable (hbusy : (s.ctx ctx).objbusy = true)
include hbusy

section
variable (hop : (s.ctx ctx).objop = 1)
include hop

theorem exec_objLoad_refused (h : s.entryRefused ctx) : exec (.objLoad ctx) s = .next (s.objEnd ctx 1) := by
  unfold State.entryRefused at h
  show execObjLoad ctx s = _
  unfold execObjLoad
  simp only [any_sameId_iff]
  rw [if_neg (by simp [hbusy, hop]), if_pos h]

theorem exec_objLoad_error {n : Nat} (h : ¬s.entryRefused ctx)
    (hload : s.loadObject ctx (s.ctx ctx).objidx.toNat (s.objTableEntry ctx (s.ctx ctx).objidx.toNat) = .error n) :
    ∃ u : State, exec (.objLoad ctx) s = .next (u.objEnd ctx n) := by
  unfold State.entryRefused at h
  refine ⟨?u, ?run⟩
  case run =>
    show execObjLoad ctx s = _
    unfold execObjLoad
    simp only [any_sameId_iff, hload]
    rw [if_neg (by simp [hbusy, hop]), if_neg h]

theorem exec_objLoad_ok {o : ObjRec} {digest : List Byte} (h : ¬s.entryRefused ctx)
    (hload : s.loadObject ctx (s.ctx ctx).objidx.toNat (s.objTableEntry ctx (s.ctx ctx).objidx.toNat) = .ok (o, digest)) :
    ∃ tab va, exec (.objLoad ctx) s = .next ((State.ctxPut
      { ((s.measure 5 digest).invalidate (fun x _ b => x == ctx && b == o.obj)).1.holdObject ctx o with stackTab := tab } ctx va [2]).objEnd ctx 0) := by
  unfold State.entryRefused at h
  refine ⟨?tab, ?va, ?run⟩
  case run =>
    show execObjLoad ctx s = _
    unfold execObjLoad
    simp only [any_sameId_iff, hload]
    rw [if_neg (by simp [hbusy, hop]), if_neg h]
    rfl

end

section
variable (hop : (s.ctx ctx).objop = 2)
include hop

theorem exec_objUnload_inUse (h : (s.ctx ctx).objnm1.toNat < (s.ctx ctx).objidx.toNat ∨
      s.objInUse ctx (BitVec.ofNat 32 (numAt (s.objTableEntry ctx (s.ctx ctx).objidx.toNat) 0 4)) = true) :
    exec (.objUnload ctx) s = .next (s.objEnd ctx 1) := by
  show execObjUnload ctx s = _
  unfold execObjUnload
  dsimp only
  rw [if_neg (by simp [hbusy, hop]), if_pos (by simpa using h)]

theorem exec_objUnload_free {obj : U32} (hobj : obj = BitVec.ofNat 32 (numAt (s.objTableEntry ctx (s.ctx ctx).objidx.toNat) 0 4))
    (hi : (s.ctx ctx).objidx.toNat ≤ (s.ctx ctx).objnm1.toNat) (h : s.objInUse ctx obj = false) :
    ∃ (t : State) (va : Nat), exec (.objUnload ctx) s = .next (((t.dropObject ctx obj).ctxPut ctx va [0]).objEnd ctx 0) := by
  subst hobj
  refine ⟨?t, ?va, ?run⟩
  case run =>
    show execObjUnload ctx s = _
    unfold execObjUnload
    dsimp only
    rw [if_neg (by simp [hbusy, hop]), if_neg (by simpa [h] using hi)]
    rfl

end
end

/-! ## The install of code pages (R178 to R180) -/

/-- The older of the oldest page so far and another. -/
def olderPage (b : Option PageFrame) (p : PageFrame) : Option PageFrame :=
  match b with
  | none => some p
  | some x => if p.stamp < x.stamp then some p else some x

theorem oldestPage_eq (l : List PageFrame) : oldestPage l = l.foldl olderPage none := rfl

theorem foldl_olderPage_le {l : List PageFrame} {x p : PageFrame} (h : l.foldl olderPage (some x) = some p) :
    p.stamp ≤ x.stamp ∧ ∀ q ∈ l, p.stamp ≤ q.stamp := by
  induction l generalizing x with
  | nil =>
    obtain rfl := Option.some.inj h
    simp
  | cons y l ih =>
    have hstep : olderPage (some x) y = if y.stamp < x.stamp then some y else some x := rfl
    rw [List.foldl_cons, hstep] at h
    rw [List.forall_mem_cons]
    split at h
    · obtain ⟨hy, hl⟩ := ih h
      exact ⟨by omega, hy, hl⟩
    · obtain ⟨hx, hl⟩ := ih h
      exact ⟨hx, by omega, hl⟩

/-- The oldest page of a list is no younger than any of them (R178). -/
theorem oldestPage_le {l : List PageFrame} {p q : PageFrame} (h : oldestPage l = some p) (hq : q ∈ l) : p.stamp ≤ q.stamp := by
  rw [oldestPage_eq] at h
  cases l with
  | nil => cases hq
  | cons x l =>
    obtain ⟨hx, hl⟩ := foldl_olderPage_le (x := x) h
    rcases List.mem_cons.mp hq with rfl | hq
    · exact hx
    · exact hl q hq

/-- A core whose install of a page is at work (R178). -/
def startInstall (obj : U32) (page : Nat) (k : Core) : Core :=
  { k with installs := k.installs.map (fun i => if i.obj == obj && i.page == page then { i with active := true } else i) }

section
variable {obj : U32} {page : Nat} {x : Install} (hx : x ∈ (s.core core).installs) (hthis : (x.obj == obj && x.page == page) = true)
  (hidle : x.active = false)
include hx hthis hidle

theorem any_idleInstall : ((s.core core).installs.any fun i => i.obj == obj && i.page == page && !i.active) = true :=
  List.any_eq_true.mpr ⟨x, hx, by rw [hthis, hidle]; rfl⟩

theorem exec_installStart_room (h : (s.core core).pagesUsed < 16) :
    exec (.installStart core obj page) s = .next (s.setCore core (startInstall obj page (s.core core))) := by
  show execInstallStart core obj page s = _
  unfold execInstallStart
  dsimp only
  rw [any_idleInstall hx hthis hidle, if_neg (by decide), if_pos h]
  rfl

theorem exec_installStart_evicts {p : PageFrame} (h : 16 ≤ (s.core core).pagesUsed)
    (hold : oldestPage ((s.core core).pages.filter (s.evictable core)) = some p) :
    exec (.installStart core obj page) s = .next (s.setCore core (startInstall obj page
      { s.core core with pages := (s.core core).pages.filter (fun y => !(y.obj == p.obj && y.page == p.page)) })) := by
  show execInstallStart core obj page s = _
  unfold execInstallStart
  dsimp only
  rw [any_idleInstall hx hthis hidle, if_neg (by decide), if_neg (by omega), hold]
  rfl

end

/-- A list whose elements are numbered from k holds its element n at key k + n. -/
theorem Table.find_zipIdx {α : Type} (l : List α) (k n : Nat) : Table.find ((l.zipIdx k).map fun w => (w.2, w.1)) (k + n) = l[n]? := by
  induction l generalizing k n with
  | nil => rfl
  | cons a l ih =>
    rw [List.zipIdx_cons, List.map_cons, Table.find]
    cases n with
    | zero => simp
    | succ n =>
      rw [if_neg (by omega), show k + (n + 1) = k + 1 + n by omega, ih]
      rfl

/-- The page frame of a page that has been read (R179). -/
def State.installedPage (s : State) (core : Nat) (obj : U32) (page : Nat) (bs : List Byte) : PageFrame :=
  { ctx := (s.core core).ctx.getD 0, obj := obj, page := page, words := (pageWords bs).zipIdx.map (fun w => (w.2, w.1)), stamp := s.clock }

/-- Word n of a page is made of its 16 bytes there. -/
theorem State.find_installedPage (obj : U32) (page : Nat) (bs : List Byte) {n : Nat} (h : n < 256) :
    Table.find (s.installedPage core obj page bs).words n = some (wordOfBytes ((bs.drop (16 * n)).take 16)) := by
  have hn := Table.find_zipIdx (pageWords bs) 0 n
  rw [Nat.zero_add] at hn
  refine hn.trans ?_
  simp [pageWords, cut, h]

section
variable {obj : U32} {page : Nat} {x : Install} {o : ObjRec}
  (hx : (s.core core).installs.find? (fun i => i.obj == obj && i.page == page) = some x)
  (ho : (s.ctx ((s.core core).ctx.getD 0)).obj? obj = some o) (hactive : x.active = true) (hparked : x.parked = false)
include hx ho hactive hparked

/-- Bytes that cannot be read park the install (R180). -/
theorem exec_installComplete_unread {e : FaultClass}
    (hsrc : s.objBytes ((s.core core).ctx.getD 0) o.fromEp o.ep o.base (o.codeOff + 4096 * page) 4096 = .error e) :
    ∃ u : State, exec (.installComplete core obj page) s = .next (u.modCore core (fun k => { k with
      installs := k.installs.map (fun i => if i.obj == obj && i.page == page then { i with parked := true } else i) })) := by
  refine ⟨?u, ?run⟩
  case run =>
    show execInstallComplete core obj page s = _
    unfold execInstallComplete
    simp only [hx, ho, hactive, hparked, hsrc]
    rfl

section
variable {bs : List Byte} (hsrc : s.objBytes ((s.core core).ctx.getD 0) o.fromEp o.ep o.base (o.codeOff + 4096 * page) 4096 = .ok bs)
include hsrc

theorem exec_installComplete_badHash (h : sha512 (natLe 4 obj.toNat ++ natLe 4 page ++ bs) ≠ o.hashes[page]?.getD []) :
    exec (.installComplete core obj page) s = .next (s.installFails core ((s.core core).ctx.getD 0) obj page .codeHash 0 0 1) := by
  show execInstallComplete core obj page s = _
  unfold execInstallComplete
  simp only [hx, ho, hactive, hparked, hsrc, bne_iff_ne, ne_eq]
  rw [if_pos h]
  rfl

variable (hhash : sha512 (natLe 4 obj.toNat ++ natLe 4 page ++ bs) = o.hashes[page]?.getD [])
include hhash

theorem exec_installComplete_badWord {ip n : Nat} (h : pageReject o page (pageWords bs) = some (ip, n)) :
    exec (.installComplete core obj page) s = .next (s.installFails core ((s.core core).ctx.getD 0) obj page .codeIllegal ip n 3) := by
  show execInstallComplete core obj page s = _
  unfold execInstallComplete
  simp only [hx, ho, hactive, hparked, hsrc, hhash, bne_self_eq_false, h]
  rfl

theorem exec_installComplete_good (h : pageReject o page (pageWords bs) = none) :
    exec (.installComplete core obj page) s = .next (s.setCore core (Core.count { s.core core with
      pages := (s.core core).pages ++ [s.installedPage core obj page bs],
      installs := (s.core core).installs.filter (fun i => !(i.obj == obj && i.page == page)),
      dispatchQ := (s.core core).dispatchQ ++ x.mail } 7)) := by
  show execInstallComplete core obj page s = _
  unfold execInstallComplete
  simp only [hx, ho, hactive, hparked, hsrc, hhash, bne_self_eq_false, h]
  rfl

end
end

/-- Once the installs of a page are parked, each of them is. -/
theorem parked_of_mem_installs {is : List Install} {obj : U32} {page : Nat} {y : Install}
    (hy : y ∈ is.map (fun i => if i.obj == obj && i.page == page then { i with parked := true } else i))
    (hthis : (y.obj == obj && y.page == page) = true) : y.parked = true := by
  obtain ⟨i, -, rfl⟩ := List.mem_map.mp hy
  by_cases h : (i.obj == obj && i.page == page) = true
  · rw [if_pos h]
  · rw [if_neg h] at hthis
    exact absurd hthis h

/-! ## Quarantine (R181) -/

theorem exec_quarantineNotice {o : ObjRec} (hctx : (s.core core).ctx = some ctx)
    (ho : (s.ctx ctx).objs.find? (fun o => o.quar && !(s.core core).quar.contains o.obj) = some o) :
    exec (.quarantineNotice core) s = .next (s.notice core o.obj) := by
  show execQuarantineNotice core s = _
  unfold execQuarantineNotice
  simp only [hctx, ho]

/-- What a notice does to its core, where no allocation waits there and its quad records nothing: firings of the object go, its frames have ABORT. -/
theorem State.notice_core {obj : U32} (hnew : (s.core core).quar.contains obj = false) (hallocs : (s.core core).allocs = [])
    (hrec : (s.engine (quadOf core)).record = none) :
    ((s.notice core obj).core core).quar = obj :: (s.core core).quar ∧
    ((s.notice core obj).core core).light = (s.core core).light.filter (fun e => e.2.obj != obj) ∧
    ((s.notice core obj).core core).engine = (s.core core).engine.filter (fun e => e.2.obj != obj) ∧
    ((s.notice core obj).core core).frames = (s.core core).frames.map (fun r => if r.obj = obj then { r with abort := true } else r) := by
  unfold State.notice
  dsimp only
  simp only [hallocs, List.filter_nil, List.foldl_nil]
  rw [if_neg (by simpa using hnew), State.invalidateOn_of_idle (by simpa using hrec),
    State.modEngine_core, State.core_setCore, if_pos rfl]
  exact ⟨rfl, rfl, rfl, rfl⟩

section
variable {fp : U32} {fr : Frame} (hfr : (s.core core).anyFrame? fp = some fr)
include hfr

theorem exec_abortFree_waits (h : fr.abort = false ∨ s.atBoundary core fp = false) : exec (.abortFree core fp) s = .next s := by
  show execAbortFree core fp s = _
  unfold execAbortFree
  simp only [hfr]
  rw [if_pos (by simpa using h)]

variable (habort : fr.abort = true) (hbound : s.atBoundary core fp = true)
include habort hbound

theorem exec_abortFree_destroying (h : (s.ctx fr.ctx.toNat).phase = .destroying) :
    exec (.abortFree core fp) s = .next (s.freeFrame core fp) := by
  show execAbortFree core fp s = _
  simp [execAbortFree, hfr, habort, hbound, h]

theorem exec_abortFree_reports (h : (s.ctx fr.ctx.toNat).phase ≠ .destroying) (hfree : fr.freepend = false) :
    exec (.abortFree core fp) s = .next (
      if (((s.orphan core fp fr .quarantined).core core).frame? fp).isSome then (s.orphan core fp fr .quarantined).freeOrWait core fp
      else (s.orphan core fp fr .quarantined).freeNow core fp) := by
  show execAbortFree core fp s = _
  simp [execAbortFree, hfr, habort, hbound, h, hfree]

end

/-! ## The obligation -/

/-- Settles O56: each command and event by its lemmas above. -/
theorem objectResults : Obligations.ObjectResults := by
  unfold Obligations.ObjectResults
  refine ⟨fun s ctx core => ⟨fun hbusy hop => ⟨exec_objLoad_refused hbusy hop, fun hi hasked hdup => ?load⟩, fun hbusy hop =>
    ⟨exec_objUnload_inUse hbusy hop, fun hi hfree => ?unload⟩, fun obj page => ⟨fun x hx hthis hidle =>
      ⟨exec_installStart_room hx hthis hidle, fun p hfull hold => ⟨exec_installStart_evicts hx hthis hidle hfull hold, fun q hq hevict =>
        oldestPage_le hold (List.mem_filter.mpr ⟨hq, hevict⟩)⟩⟩, fun x o hx ho hactive hparked => ⟨fun e hsrc => ?unread, fun bs hsrc =>
          ⟨exec_installComplete_badHash hx ho hactive hparked hsrc, fun hhash =>
            ⟨fun ip n => exec_installComplete_badWord hx ho hactive hparked hsrc hhash, fun hgood => ?installed⟩⟩⟩⟩⟩,
    fun s core => ⟨fun cx o hctx ho => ⟨exec_quarantineNotice hctx ho, State.notice_core ?new⟩, fun fp fr hfr =>
      ⟨exec_abortFree_waits hfr, fun habort hbound => ⟨exec_abortFree_destroying hfr habort hbound, exec_abortFree_reports hfr habort hbound⟩⟩⟩⟩
  case load =>
    have hgo : ¬s.entryRefused ctx := not_or.mpr ⟨Nat.not_lt.mpr hi, not_or.mpr ⟨not_not.mpr hasked, hdup⟩⟩
    refine ⟨fun n hload => ?_, fun o digest hload => ?_⟩
    · obtain ⟨u, hexec⟩ := exec_objLoad_error hbusy hop hgo hload
      exact ⟨_, hexec, by simp, by simp⟩
    · obtain ⟨tab, va, hexec⟩ := exec_objLoad_ok hbusy hop hgo hload
      refine ⟨_, hexec, by simp, ?_, ?_⟩
      · rw [State.objEnd_obj_of, State.ctxPut_ctx_of]
        exact State.obj_holdObject ((s.measure 5 digest).invalidate _).1 ctx o
      · rw [State.objEnd_mod, State.ctxPut_mod]
        show (State.invalidate _ _).1.mod.digest = _
        rw [State.invalidate_mod, State.measure_digest]
  case unload =>
    obtain ⟨t, va, hexec⟩ := exec_objUnload_free hbusy hop rfl hi hfree
    refine ⟨_, hexec, by simp, ?_⟩
    rw [State.objEnd_obj_of, State.ctxPut_ctx_of]
    exact State.obj_dropObject t ctx _
  case unread =>
    obtain ⟨u, hexec⟩ := exec_installComplete_unread hx ho hactive hparked hsrc
    refine ⟨_, hexec, fun y hy hthis => ?_⟩
    rw [State.core_modCore_same] at hy
    exact parked_of_mem_installs hy hthis
  case installed =>
    refine ⟨_, s.installedPage core obj page bs, exec_installComplete_good hx ho hactive hparked hsrc hhash hgood, ?_, rfl, rfl, rfl,
      fun n => State.find_installedPage obj page bs, ?_, ?_⟩ <;>
    · rw [State.core_setCore, if_pos rfl]
      rfl
  case new =>
    have hquar := List.find?_some ho
    simp only [Bool.and_eq_true, Bool.not_eq_true'] at hquar
    exact hquar.2

end Sys2Proof.Machine

/-! SUPPORT. The operators that copy, choose and join plain operands, SEL, and the operators on nulls and kinds (R33, R132, R199 to R201, R208, R213, R229). -/

namespace Sys2Proof.Machine

variable {s : State} {g : Firing} {f : Fields}

/-! ## The selecting operators (R132, R200) -/

/-- Where no tape engine records the task, the selecting operand ends no recording and sets no guard bit (R132). -/
theorem State.selects_of_not_recording (h : s.recording? g.core g.task = none) (v : Option Val) : s.selects g v = s := by
  unfold State.selects
  simp only [h]

/-- A selecting operator on plain operands of accepted kinds has its own effect, in a task that no tape engine records. -/
theorem State.selecting_plain {n : Need} {k : State → Firing → Val → Option Val → State} (hc : s.cur = some g) (hp : g.plain)
    (hrec : s.recording? g.core g.task = none) (hk : kindsOk n g.l g.r g.t = true) : s.selecting n f k = k s.retire g g.l g.r := by
  unfold State.selecting
  rw [State.execute_some hc]
  dsimp only
  rw [State.selects_of_not_recording (s := s.retire) hrec, ite_self, State.checked, Need.check_plain hp hk]

/-- A predicate at R is accepted where a scalar is asked for there. -/
theorem kindsOk_scalarR {l r : Val} {markers : Bool} (h : r.kind = .scalar) :
    kindsOk { Need.any with kr := isScalar, markers := markers } l (some r) none = true := by
  simp [kindsOk, Need.any, anyKind, isScalar, h]

theorem nonZero_some (v : Val) : nonZero (some v) = decide (v.value ≠ 0) := by
  simp [nonZero, bne, beq_eq_decide]

/-! ## Copies, routes and joins on plain operands (R199 to R201, R208, R229) -/

section
variable (hc : s.cur = some g) (hp : g.plain)
include hc hp

theorem exec_nop_plain : exec (.nop f) s = .next (s.retire.emitBoth g f g.l) :=
  congrArg Host.Outcome.next (State.operate_plain hc hp (kindsOk_any ..))

theorem exec_sync_plain : exec (.sync f) s = .next (s.retire.emitBoth g f (g.l.since g.r.toList)) :=
  congrArg Host.Outcome.next (State.operate_plain hc hp (kindsOk_any ..))

theorem exec_drop_plain : exec (.drop f) s = .next s.retire := by
  obtain ⟨-, -, hnull⟩ := hp g.l (List.mem_cons_self ..)
  exact congrArg Host.Outcome.next ((State.execute_some hc).trans (if_neg fun h => hnull h.1))

theorem exec_fork_plain : exec (.fork f) s = .next ((forkCopies f g g.l (f.imm.toNat % 16) s.retire).emit g f true g.l) := by
  obtain ⟨-, -, hnull⟩ := hp g.l (List.mem_cons_self ..)
  have hk : kindsOk { Need.any with markers := true, nulls := true } g.l g.r g.t = true := kindsOk_any g.l ..
  exact congrArg Host.Outcome.next ((State.operate_plain hc hp hk).trans (if_neg hnull))

theorem exec_sel_plain {r t : Val} (hr : g.r = some r) (ht : g.t = some t) (hkt : t.kind = .scalar) :
    let c := if t.value = 0 then r else g.l
    exec (.sel f) s = .next (s.retire.emitBoth g f { c with
      prov := if t.prov = 0 then c.prov else provAll g.l g.r g.t
      lin := { out := c.lin.out, anc := ancestors g.vals } }) := by
  have hk : kindsOk { Need.any with kt := isScalar } g.l g.r g.t = true := by
    simp [kindsOk, Need.any, anyKind, isScalar, hr, ht, hkt]
  refine congrArg Host.Outcome.next ((State.operate_plain hc hp hk).trans ?_)
  simp [Firing.vals, hr, ht, nonZero_some]

section
variable {r : Val} (hr : g.r = some r) (ht : g.t = none) (hkr : r.kind = .scalar)
include hr ht hkr

theorem exec_sendto_plain : exec (.sendto f) s = .next (s.retire.emitBoth g f (g.l.since [r])) := by
  have hk : kindsOk { Need.any with kr := isScalar, markers := true } g.l g.r g.t = true := by
    rw [hr, ht]; exact kindsOk_scalarR hkr
  obtain ⟨-, hmark, -⟩ := hp g.l (List.mem_cons_self ..)
  refine congrArg Host.Outcome.next ((State.operate_plain hc hp hk).trans ?_)
  simp [hr, hmark, hkr]

variable (hrec : s.recording? g.core g.task = none)
include hrec

theorem State.selecting_scalarR {k : State → Firing → Val → Option Val → State} :
    s.selecting { Need.any with kr := isScalar } f k = k s.retire g g.l (some r) := by
  have hk : kindsOk { Need.any with kr := isScalar } g.l g.r g.t = true := by
    rw [hr, ht]; exact kindsOk_scalarR hkr
  rw [State.selecting_plain hc hp hrec hk, hr]

theorem exec_steer_plain : exec (.steer f) s =
    .next (if r.value ≠ 0 then s.retire.emit g f false (g.l.since [r]) else s.retire.emit g f true (g.l.since [r])) := by
  refine congrArg Host.Outcome.next ((State.selecting_scalarR hc hp hr ht hkr hrec).trans ?_)
  by_cases h : r.value = 0#64 <;> simp [nonZero_some, h]

theorem exec_gate_plain : exec (.gate f) s = .next (if r.value ≠ 0 then s.retire.emitBoth g f (g.l.since [r]) else s.retire) := by
  refine congrArg Host.Outcome.next ((State.selecting_scalarR hc hp hr ht hkr hrec).trans ?_)
  simp [nonZero_some]

theorem exec_filter_plain : exec (.filter f) s = .next
    (if r.value ≠ 0 then s.retire.emitBoth g f (g.l.since [r]) else s.retire.emitBoth g f (Val.nullOf g.l.round g.vals)) := by
  refine congrArg Host.Outcome.next ((State.selecting_scalarR hc hp hr ht hkr hrec).trans ?_)
  by_cases h : r.value = 0#64 <;> simp [nonZero_some, h]

end

end

/-! ## Nulls and kinds (R33, R213) -/

section
variable (hc : s.cur = some g) (hr : g.r = none) (ht : g.t = none) (hmark : g.l.kind ≠ .marker)
include hc hr ht hmark

/-- A lone operand that is no marker passes the checks of an operator that takes nulls and any KIND; a fault token passes those of a handler. -/
theorem State.operate_lone {handler : Bool} {k : State → Firing → Val → Option Val → Option Val → State} (h : handler = true ∨ g.l.kind ≠ .fault) :
    s.operate { Need.any with nulls := true, handler := handler } f k = k s.retire g g.l none none := by
  have hcheck : Need.check { Need.any with nulls := true, handler := handler } f g = .go g.l none none := by
    rcases h with h | h <;> simp [Need.check, Firing.vals, kindsOk, Need.any, anyKind, hr, ht, hmark, h]
  rw [State.operate, State.execute_some hc, State.checked, hcheck]

theorem exec_nullsetAll_lone (hfault : g.l.kind ≠ .fault) : exec (.nullsetAll f) s = .next (s.retire.emitBoth g f (Val.nullOf g.l.round [g.l])) :=
  congrArg Host.Outcome.next (State.operate_lone hc hr ht hmark (.inr hfault))

theorem exec_nullsetIfz_lone (hfault : g.l.kind ≠ .fault) : exec (.nullsetIfz f) s = .next
    (s.retire.emitBoth g f (if g.l.kind = .scalar ∧ g.l.value = 0 then Val.nullOf g.l.round [g.l] else g.l)) := by
  refine congrArg Host.Outcome.next ((State.operate_lone hc hr ht hmark (.inr hfault)).trans ?_)
  exact (apply_ite (s.retire.emitBoth g f) ..).symm

theorem exec_isnullNull_lone (hfault : g.l.kind ≠ .fault) : exec (.isnullNull f) s = .next
    (s.retire.emitBoth g f (Val.computed (if g.l.kind = .null then 1 else 0) g.l.round (provJoin [g.l.prov]) [g.l])) :=
  congrArg Host.Outcome.next (State.operate_lone hc hr ht hmark (.inr hfault))

theorem exec_isnullKind_lone : exec (.isnullKind f) s = .next
    (s.retire.emitBoth g f (Val.computed (BitVec.ofNat 64 g.l.kind.code) g.l.round (provJoin [g.l.prov]) [g.l])) :=
  congrArg Host.Outcome.next (State.operate_lone hc hr ht hmark (.inl rfl))

end

/-! ## The obligation -/

/-- Settles O15: each operator by its lemma above. -/
theorem routingResults : Obligations.RoutingResults := by
  unfold Obligations.RoutingResults
  refine ⟨fun s g f hc hp hrec => ⟨exec_nop_plain hc hp, exec_sync_plain hc hp, exec_drop_plain hc hp, exec_fork_plain hc hp, fun r hr ht hkr => ?routes⟩,
    fun s g f r t hc hp hr ht hkt => ?sel, fun s g f hc hr ht hmark => ⟨fun hfault => ?nullset, fun hfault => ?isnull, ?kind⟩⟩
  case routes =>
    exact ⟨exec_steer_plain hc hp hr ht hkr hrec, exec_gate_plain hc hp hr ht hkr hrec,
      ⟨Val.nullOf g.l.round g.vals, rfl, rfl, rfl, exec_filter_plain hc hp hr ht hkr hrec⟩, exec_sendto_plain hc hp hr ht hkr⟩
  case sel =>
    exact ⟨_, exec_sel_plain hc hp hr ht hkt, rfl, rfl, rfl, fun hprov => if_pos hprov⟩
  case nullset =>
    exact ⟨Val.nullOf g.l.round [g.l], rfl, rfl, rfl, exec_nullsetAll_lone hc hr ht hmark hfault, exec_nullsetIfz_lone hc hr ht hmark hfault⟩
  case isnull =>
    exact ⟨Val.computed _ _ _ _, rfl, rfl, rfl, exec_isnullNull_lone hc hr ht hmark hfault⟩
  case kind =>
    exact ⟨Val.computed _ _ _ _, rfl, rfl, rfl, exec_isnullKind_lone hc hr ht hmark⟩

end Sys2Proof.Machine

/-! SUPPORT. RET, FFREE and END in a resident frame (R204, R205, R215). -/

namespace Sys2Proof.Machine

variable {s : State} {g : Firing} {f : Fields} {fr : Frame}

/-! ## RET, FFREE and END in a resident frame (R204, R205, R215) -/

section
variable (hc : s.cur = some g) (hp : g.plain) (hfr : s.retire.frameOf g = some fr)
include hc hp hfr

/-- RET looks at FREEPEND first, then at ROOT. -/
theorem exec_ret_plain : exec (.ret f) s = .next (
    if fr.freepend then s.retire.fault g f .doubleFree 0
    else if fr.root then s.retire.fault g f .frameRoot 0
    else ((s.retire.send g.core g.ctx { fp := fr.pfp, ip := fr.rip, port := fr.rport, val := g.l } fr.owes).modFrameOf
      g (fun x => { x with owes := false })).freeOrWait g.core g.fp) := by
  obtain ⟨-, hmark, -⟩ := hp g.l (List.mem_cons_self ..)
  have hk : kindsOk { Need.any with handler := true, markers := true } g.l g.r g.t = true := kindsOk_any g.l ..
  refine congrArg Host.Outcome.next ((State.operate_plain hc hp hk).trans ?_)
  simp only [hfr, if_neg hmark]

/-- FFREE.SELF looks at FREEPEND first, then at ROOT. -/
theorem exec_ffreeSelf_plain : exec (.ffreeSelf f) s = .next (
    if fr.freepend then s.retire.fault g f .doubleFree 0
    else if fr.root then s.retire.fault g f .frameRoot 0
    else s.retire.freeOrWait g.core g.fp) := by
  refine congrArg Host.Outcome.next ((State.operate_plain hc hp (kindsOk_any ..)).trans ?_)
  simp only [hfr]

/-- END in a frame that is being freed, or that is no root. -/
theorem exec_endOp_refused (h : fr.freepend = true ∨ fr.root = false) :
    exec (.endOp f) s = .next (s.retire.fault g f (if fr.freepend then .doubleFree else .notRoot) 0) := by
  obtain ⟨-, hmark, -⟩ := hp g.l (List.mem_cons_self ..)
  have hk : kindsOk { Need.any with handler := true, markers := true } g.l g.r g.t = true := kindsOk_any g.l ..
  refine congrArg Host.Outcome.next ((State.operate_plain hc hp hk).trans ?_)
  cases hfree : fr.freepend with
  | true => simp [hfr, hmark, hfree]
  | false => simp [hfr, hmark, hfree, h.resolve_left (by simp [hfree])]

/-- END in a root frame that is no worker. -/
theorem exec_endOp_ends (hfree : fr.freepend = false) (hroot : fr.root = true) (hworker : fr.worker = none) :
    exec (.endOp f) s = .next ((s.retire.modTask g.task (fun t => { t with ended := some g.l })).freeOrWait g.core g.fp) := by
  obtain ⟨-, hmark, -⟩ := hp g.l (List.mem_cons_self ..)
  have hk : kindsOk { Need.any with handler := true, markers := true } g.l g.r g.t = true := kindsOk_any g.l ..
  refine congrArg Host.Outcome.next ((State.operate_plain hc hp hk).trans ?_)
  simp [hfr, hmark, hfree, hroot, hworker]

/-- FFREE.FP asks the core that its operand names. -/
theorem exec_ffreeFp_plain (hr : g.r = none) (ht : g.t = none) (hfree : fr.freepend = false) (hl : g.l.kind = .scalar) {dst : Nat}
    (hdst : s.retire.fpCore g.ctx (g.l.value.extractLsb' 32 32) = some dst) :
    exec (.ffreeFp f) s = .next (s.retire.post g.core dst (.free (g.l.value.extractLsb' 32 32) g)) := by
  have hk : kindsOk { Need.any with kl := isScalar } g.l g.r g.t = true := by
    simp [kindsOk, isScalar, hr, ht, hl]
  have hnot : s.retire.freePending g = false := by
    simp [State.freePending, hfr, hfree]
  refine congrArg Host.Outcome.next ((State.operate_plain hc hp hk).trans ?_)
  simp only [hnot, hdst]
  rfl

end

/-! ## The obligation -/

/-- Settles O17: each operator by its lemma above, on FREEPEND and ROOT. -/
theorem frameEndResults : Obligations.FrameEndResults := by
  unfold Obligations.FrameEndResults
  intro s g f fr hc hp hr ht hfr
  have hret := exec_ret_plain (f := f) hc hp hfr
  have hffree := exec_ffreeSelf_plain (f := f) hc hp hfr
  refine ⟨fun hfree => ?freeing, fun hfree hroot => ⟨?root, exec_endOp_ends hc hp hfr hfree hroot⟩, fun hfree hroot => ⟨?notRoot, ?frees, ?returns⟩,
    fun hfree hl dst hdst => exec_ffreeFp_plain hc hp hfr hr ht hfree hl hdst⟩
  case freeing =>
    simp [hret, hffree, exec_endOp_refused hc hp hfr (.inl hfree), hfree]
  case root =>
    simp [hret, hffree, hfree, hroot]
  case notRoot =>
    simp [exec_endOp_refused hc hp hfr (.inr hroot), hfree]
  case frees =>
    simp [hffree, hfree, hroot]
  case returns =>
    simp [hret, hfree, hroot]

end Sys2Proof.Machine

/-! SUPPORT. FALLOC of an object that is pending, from a context whose region leaves the module: the model holds the request on `coreStack` of the target core, the statement on the core's number / 256 (R167, R170, R202). -/

namespace Sys2Proof.Machine

variable {s : State} {g : Firing} {f : Fields}

/-! ## Partitions that hold an item (R170, R172) -/

theorem Stack.part_setPart (k : Stack) (p : Partition) : (k.setPart p).part p.ctx = p := by
  simp [Stack.setPart, Stack.part]

theorem Stack.part_ctx (k : Stack) (ctx : Nat) : (k.part ctx).ctx = ctx := by
  unfold Stack.part
  cases h : k.parts.find? (fun p => p.ctx == ctx) with
  | none => rfl
  | some p => simpa using List.find?_some h

/-- An item joins the hold queue of a partition that has room and at whose edge nothing waits. -/
theorem State.part_hold_same {stack ctx : Nat} {x : Held} (hedge : (s.part stack ctx).edge = [])
    (hroom : (s.part stack ctx).hold.length < (s.ctx ctx).holdRoom) :
    ((s.hold stack ctx x).part stack ctx).hold = (s.part stack ctx).hold ++ [x] := by
  have hctx : (s.part stack ctx).ctx = ctx := Stack.part_ctx ..
  unfold State.hold
  simp only [hedge, List.isEmpty_nil, hroom, decide_true, Bool.and_self, if_true]
  let p : Partition := { s.part stack ctx with hold := (s.part stack ctx).hold ++ [x], edge := [] }
  show (((s.modStack stack fun k => k.setPart p).stack stack).part ctx).hold = _
  have hpart : ((s.stack stack).setPart p).part ctx = p := hctx ▸ Stack.part_setPart (s.stack stack) p
  rw [State.stack_modStack_same, hpart]

/-- An item held on one stack leaves every other stack as it was. -/
theorem State.stack_hold_ne {stack n ctx : Nat} {x : Held} (h : stack ≠ n) : (s.hold stack ctx x).stack n = s.stack n := by
  unfold State.hold State.setPart State.event
  dsimp only
  split
  · rw [State.stack_modStack, if_neg h]
  · split <;> simp only [State.stack_modStack, if_neg h]

/-- An item held on a stack where there is room for it is not held on another one. -/
theorem State.hold_ne_hold {t : State} {a b ctx : Nat} {x y : Held} (hab : a ≠ b) (hsame : s.stack b = t.stack b) (hedge : (t.part b ctx).edge = [])
    (hroom : (t.part b ctx).hold.length < (t.ctx ctx).holdRoom) : s.hold a ctx x ≠ t.hold b ctx y := fun h => by
  have hparts := congrArg (fun u : State => (u.part b ctx).hold) h
  have hleft : (s.hold a ctx x).part b ctx = t.part b ctx :=
    congrArg (fun k : Stack => k.part ctx) ((State.stack_hold_ne hab).trans hsame)
  simp [hleft, State.part_hold_same hedge hroom] at hparts

theorem Ctx.holdRoom_pos (c : Ctx) : 0 < c.holdRoom := by
  unfold Ctx.holdRoom
  omega

/-! ## FALLOC of an object that is pending (R170, R202) -/

/-- The state in which a child frame is asked for: SPREAD's cursor has moved to the target, and LIVE of the parent has grown (R168, R202). -/
def State.asked (s : State) (g : Firing) (f : Fields) (v : Nat) (parent : U32) : State :=
  (s.modCore g.core (fun k => if f.qual.toNat % 16 = 2 then { k with cursor := v } else k)).liveInc g.ctx parent

theorem State.liveInc_eq_cores (ctx : Nat) (fp : U32) : s.liveInc ctx fp = { s with cores := (s.liveInc ctx fp).cores } := by
  unfold State.liveInc
  split <;> rfl

theorem State.asked_stack (v : Nat) (parent : U32) (n : Nat) : (s.asked g f v parent).stack n = s.stack n := by
  unfold State.asked
  rw [State.liveInc_eq_cores]
  rfl

/-- FALLOC asks for an object that is pending on the target's partition: the request is held on the stack of the target core. -/
theorem exec_falloc_held {fr : Frame} {parent : U32} {v p : Nat} (hc : s.cur = some g) (hp : g.plain)
    (hkinds : kindsOk (childNeed f) g.l g.r g.t = true) (hfr : s.retire.frameOf g = some fr) (hparent : childParent g f fr = some parent)
    (htarget : s.retire.childTarget g.ctx g.core g.task (f.qual.toNat % 16) g.l.value = some (v, p))
    (hheld : s.retire.allocState g g.obj p = .held) :
    exec (.falloc f) s = .next ((s.retire.asked g f v parent).hold (coreStack p) g.ctx (.alloc p (.firing g (.falloc f)
      (childFrame fr parent f g.obj (f.qual.toNat / 16) (f.qual.toNat % 16) (s.vcoreOf g.core) g.l.round)))) := by
  refine congrArg Host.Outcome.next ((State.operate_plain hc hp hkinds).trans ?_)
  unfold State.allocChild
  simp only [hfr, hparent, htarget, hheld, if_true]
  rfl

/-! ## A target core beyond the module's 4096 -/

/-- FALLOC with no destinations and policy PIN. -/
def strayFalloc : Fields :=
  { fn := 0, ty := .i64, ar := .monadic, np := .absorb, slot := 0, d0 := { mode := .discard, port := false, ip := 0 },
    d1 := { mode := .discard, port := false, ip := 0 }, pri := 0, rm := .rne, sat := false, scope := .core, mx := false, qual := 5, imm := 0 }

/-- A firing of the scalar 0, in frame 0 of core 0. -/
def strayFiring : Firing := { bootFiring 0 with r := none, t := none }

/-- Object 0, with one page. -/
def strayObject : ObjRec :=
  { obj := 0, index := 0, fromEp := false, ep := 0, base := 0, codeOff := 0, npages := 1, ninstr := 256, entries := [], shapes := [],
    taped := false, tmpls := [], hashes := [], quar := false }

/-- Context 0 with its region at row 64, beyond the 64 rows of cores of the package, and object 0 pending on its partition of stack 0. -/
def strayParent : State :=
  { ((State.reset.place0 0).modCtx 0 (fun c => { c with y0 := 64, objs := [strayObject] })).setPart 0
      { ctx := 0, states := [(0, .pending)], reqs := [], switch := none, hold := [], edge := [] } with cur := some strayFiring }

/-- PIN on virtual core 0 names physical core 4096. -/
theorem strayParent_target : strayParent.retire.childTarget 0 0 0 (strayFalloc.qual.toNat % 16) 0 = some (0, 4096) := by rfl

/-- The partition of core 4096 is that of `coreStack 4096`, stack 0. -/
theorem strayParent_held : strayParent.retire.allocState strayFiring 0 4096 = .held := by decide

/-- Stack 16 is 4096 / 256: nothing is held there, and nothing waits at its edge. -/
theorem strayParent_stack16 : (strayParent.part 16 0).hold = [] ∧ (strayParent.part 16 0).edge = [] := ⟨rfl, rfl⟩

/-- That state after FALLOC has counted its child in the frame `parent` names. -/
def strayAsked (parent : U32) : State := strayParent.retire.asked strayFiring strayFalloc 0 parent

theorem strayAsked_stack (parent : U32) (n : Nat) : (strayAsked parent).stack n = strayParent.stack n := State.asked_stack ..

theorem strayAsked_part (parent : U32) (n : Nat) : (strayAsked parent).part n 0 = strayParent.part n 0 :=
  congrArg (fun k : Stack => k.part 0) (strayAsked_stack parent n)

/-! ## The obligation -/

/-- Refutes O18: the statement has the request for a pending object held on stack p / 256 of the target core p, the model on `coreStack p`, which is
p / 256 % 16. For the 4096 cores of the module these are one stack, but the statement speaks of every state: in one whose context has its region at row
64 the policy PIN finds core 4096, the model holds the request on stack 0, and the statement on stack 16. With `coreStack p`, or p < 4096, this
counterexample goes. -/
theorem not_childFrameResults : ¬ Obligations.ChildFrameResults := by
  unfold Obligations.ChildFrameResults
  intro h
  have hplain : strayFiring.plain := by decide
  obtain ⟨-, hchild⟩ := h strayParent strayFiring strayFalloc bootFrame rfl hplain rfl rfl rfl (.inr rfl) (.falloc strayFalloc) 0
    (List.mem_cons_self ..) nofun nofun
  obtain ⟨-, htarget⟩ := hchild (by decide)
  obtain ⟨-, child, -, -, -, -, -, -, -, -, -, -, -, -, hheld, -⟩ := htarget 0 4096 strayParent_target
  have hexec := exec_falloc_held (g := strayFiring) (f := strayFalloc) rfl hplain rfl rfl rfl strayParent_target strayParent_held
  have hsame := Host.Outcome.next.inj (hexec.symm.trans (hheld strayParent_held))
  obtain ⟨hhold, hedge⟩ := strayParent_stack16
  have hedge' : ((strayAsked child.pfp).part 16 0).edge = [] := by
    rw [strayAsked_part, hedge]
  have hroom : ((strayAsked child.pfp).part 16 0).hold.length < ((strayAsked child.pfp).ctx 0).holdRoom := by
    rw [strayAsked_part, hhold]
    exact Ctx.holdRoom_pos _
  exact State.hold_ne_hold (b := 16) (by decide) ((strayAsked_stack 0 16).trans (strayAsked_stack child.pfp 16).symm) hedge' hroom hsame

end Sys2Proof.Machine

/-! SUPPORT. The two dispatch slots of a core, the turns of lower classes, and the divider's emission (R182 to R184, R217). -/

namespace Sys2Proof.Machine

variable {s : State} {core c : Nat} {g : Firing} {pre post : List (Nat × Firing)}

/-! ## The order of the classes (R183, R184) -/

/-- The classes above one come before it. -/
theorem classes_split (hc : c ≤ 3) : ∃ hi lo, [3, 2, 1, 0] = hi ++ c :: lo ∧ ∀ x ∈ hi, c < x := by
  interval_cases c
  · exact ⟨[3, 2, 1], [], rfl, by decide⟩
  · exact ⟨[3, 2], [0], rfl, by decide⟩
  · exact ⟨[3], [1, 0], rfl, by decide⟩
  · exact ⟨[], [2, 1, 0], rfl, by decide⟩

/-- A slot looks first at the classes above a class, and where a lower class is due (R184) only at those below the counted one. -/
theorem classOrder_split {due : Bool} {last : Nat} (hc : c ≤ 3) (hdue : due = true → c < last) :
    ∃ hi lo, classOrder due last = hi ++ c :: lo ∧ ∀ x ∈ hi, c < x ∧ (due = true → x < last) := by
  obtain ⟨hi, lo, hsplit, hhi⟩ := classes_split hc
  cases due with
  | false => exact ⟨hi, lo, hsplit, fun x hx => ⟨hhi x hx, nofun⟩⟩
  | true =>
    have hlast : c < last := hdue rfl
    refine ⟨hi.filter (fun x => decide (x < last)), lo.filter (fun x => decide (x < last)) ++ [3, 2, 1, 0].filter (fun x => decide (last ≤ x)), ?_, ?_⟩
    · simp [classOrder, hsplit, hlast]
    · intro x hx
      obtain ⟨hx, hlt⟩ := List.mem_filter.mp hx
      exact ⟨hhi x hx, fun _ => of_decide_eq_true hlt⟩

/-- No turn of a lower class is due before 64 dispatches (R184). -/
theorem turnDue_of_lt {l : List (Nat × Firing)} {turn last : Nat} (h : turn < 64) : turnDue l turn last = false := by
  simp [turnDue, Nat.not_le.mpr h]

/-! ## The light slot (R183) -/

theorem takeClass_absent {l : List (Nat × Firing)} (h : ∀ e ∈ l, e.1 ≠ c) : takeClass c l = none := by
  induction l with
  | nil => rfl
  | cons e l ih =>
    obtain ⟨he, hl⟩ := List.forall_mem_cons.mp h
    rw [takeClass, if_neg he, ih hl]
    rfl

theorem takeClass_first (h : ∀ e ∈ pre, e.1 ≠ c) : takeClass c (pre ++ (c, g) :: post) = some (g, pre ++ post) := by
  induction pre with
  | nil => exact if_pos rfl
  | cons e pre ih =>
    obtain ⟨he, hpre⟩ := List.forall_mem_cons.mp h
    rw [List.cons_append, takeClass, if_neg he, ih hpre]
    rfl

/-- The first class of an order that holds an entry gives its first one. -/
theorem takeHead_first {l rest : List (Nat × Firing)} {hi lo : List Nat} (hhi : ∀ x ∈ hi, ∀ e ∈ l, e.1 ≠ x) (htake : takeClass c l = some (g, rest)) :
    takeHead l (hi ++ c :: lo) = some (c, g, rest) := by
  induction hi with
  | nil => simp only [List.nil_append, takeHead, htake]
  | cons x hi ih =>
    obtain ⟨hx, hhi⟩ := List.forall_mem_cons.mp hhi
    simp only [List.cons_append, takeHead, takeClass_absent hx, ih hhi]

/-- The light slot takes the first entry of the highest class that holds one, where a lower class is due of those below the counted one. -/
theorem takeHead_highest {due : Bool} {last : Nat} (hc : c ≤ 3) (hdue : due = true → c < last) (hpre : ∀ e ∈ pre, e.1 ≠ c)
    (hothers : ∀ e ∈ pre ++ post, (due = true → e.1 < last) → e.1 ≤ c) :
    takeHead (pre ++ (c, g) :: post) (classOrder due last) = some (c, g, pre ++ post) := by
  obtain ⟨hi, lo, horder, hhi⟩ := classOrder_split hc hdue
  rw [horder]
  refine takeHead_first (fun x hx e he => ?_) (takeClass_first hpre)
  obtain ⟨hcx, hlast⟩ := hhi x hx
  rintro rfl
  rcases List.mem_append.mp he with he | he
  · exact Nat.not_le.mpr hcx (hothers e (List.mem_append_left _ he) hlast)
  · rcases List.mem_cons.mp he with rfl | he
    · exact Nat.lt_irrefl _ hcx
    · exact Nat.not_le.mpr hcx (hothers e (List.mem_append_right _ he) hlast)

/-! ## The engine slot (R183) -/

/-- The unit of a waiting firing accepts it. -/
def State.ableAt (s : State) (core : Nat) (e : Nat × Firing) : Prop :=
  ∃ opc f, s.formOf e.2 = some (opc, f) ∧ (s.core core).accepts e.2 opc f = true

/-- What the search does at an entry whose unit does not accept it: the entry stays, and its unit may be closed to those behind it. -/
theorem State.takeUnit_cons_of_not_able {e : Nat × Firing} {l : List (Nat × Firing)} (full : List Engine) (h : e.1 = c → ¬s.ableAt core e) :
    ∃ full', s.takeUnit core c full (e :: l) = (s.takeUnit core c full' l).map (fun p => (p.1, e :: p.2)) ∧
      ∀ u ∈ full', u ∈ full ∨ (e.1 = c ∧ ∃ opc f, s.formOf e.2 = some (opc, f) ∧ unitOf opc f = u) := by
  by_cases he : e.1 = c
  case neg => exact ⟨full, by simp [State.takeUnit, he], fun u hu => .inl hu⟩
  case pos =>
    cases hform : s.formOf e.2 with
    | none => exact ⟨full, by simp [State.takeUnit, he, hform], fun u hu => .inl hu⟩
    | some x =>
      obtain ⟨opc, f⟩ := x
      have hrefused : (s.core core).accepts e.2 opc f = false := Bool.eq_false_iff.mpr fun hok => h he ⟨opc, f, hform, hok⟩
      by_cases hfull : unitOf opc f ∈ full
      · exact ⟨full, by simp [State.takeUnit, he, hform, hfull], fun u hu => .inl hu⟩
      · refine ⟨unitOf opc f :: full, by simp [State.takeUnit, he, hform, hfull, hrefused], fun u hu => ?_⟩
        rcases List.mem_cons.mp hu with rfl | hu
        · exact .inr ⟨he, opc, f, rfl, rfl⟩
        · exact .inl hu

/-- A class none of whose entries is accepted by its unit gives nothing. -/
theorem State.takeUnit_absent {l : List (Nat × Firing)} (full : List Engine) (h : ∀ e ∈ l, e.1 = c → ¬s.ableAt core e) :
    s.takeUnit core c full l = none := by
  induction l generalizing full with
  | nil => rfl
  | cons e l ih =>
    obtain ⟨he, hl⟩ := List.forall_mem_cons.mp h
    obtain ⟨full', htake, -⟩ := State.takeUnit_cons_of_not_able (l := l) full he
    rw [htake, ih full' hl]
    rfl

/-- An entry that its unit accepts goes past entries of its class for other units that do not. -/
theorem State.takeUnit_first {opc : Nat} {f : Fields} (hform : s.formOf g = some (opc, f)) (hok : (s.core core).accepts g opc f = true)
    (full : List Engine) (hfull : unitOf opc f ∉ full)
    (hpre : ∀ e ∈ pre, e.1 = c → ¬s.ableAt core e ∧ ∀ o h, s.formOf e.2 = some (o, h) → unitOf o h ≠ unitOf opc f) :
    s.takeUnit core c full (pre ++ (c, g) :: post) = some (g, pre ++ post) := by
  induction pre generalizing full with
  | nil => simp [State.takeUnit, hform, hfull, hok]
  | cons e pre ih =>
    obtain ⟨he, hpre⟩ := List.forall_mem_cons.mp hpre
    obtain ⟨full', htake, hunits⟩ := State.takeUnit_cons_of_not_able (l := pre ++ (c, g) :: post) full fun hcls => (he hcls).1
    have hfull' : unitOf opc f ∉ full' := fun hu => by
      rcases hunits _ hu with hu | ⟨hcls, o, h, ho, hunit⟩
      · exact hfull hu
      · exact (he hcls).2 o h ho hunit
    rw [List.cons_append, htake, ih full' hfull' hpre]
    rfl

/-- The first class of an order with an entry that may go gives it. -/
theorem State.takeEngine_first {l rest : List (Nat × Firing)} {hi lo : List Nat} (hhi : ∀ x ∈ hi, ∀ e ∈ l, e.1 = x → ¬s.ableAt core e)
    (htake : s.takeUnit core c [] l = some (g, rest)) : s.takeEngine core l (hi ++ c :: lo) = some (c, g, rest) := by
  induction hi with
  | nil => simp only [List.nil_append, State.takeEngine, htake]
  | cons x hi ih =>
    obtain ⟨hx, hhi⟩ := List.forall_mem_cons.mp hhi
    simp only [List.cons_append, State.takeEngine, State.takeUnit_absent [] hx, ih hhi]

/-- The engine slot takes the first entry that its unit accepts from the highest class that has one. -/
theorem State.takeEngine_highest {opc last : Nat} {f : Fields} (hc : c ≤ 3) (hform : s.formOf g = some (opc, f))
    (hok : (s.core core).accepts g opc f = true) (hothers : ∀ e ∈ pre ++ post, c < e.1 → ¬s.ableAt core e)
    (hpre : ∀ e ∈ pre, e.1 = c → ¬s.ableAt core e ∧ ∀ o h, s.formOf e.2 = some (o, h) → unitOf o h ≠ unitOf opc f) :
    s.takeEngine core (pre ++ (c, g) :: post) (classOrder false last) = some (c, g, pre ++ post) := by
  obtain ⟨hi, lo, horder, hhi⟩ := classOrder_split (due := false) (last := last) hc nofun
  rw [horder]
  refine State.takeEngine_first (fun x hx e he => ?_) (State.takeUnit_first hform hok [] List.not_mem_nil hpre)
  obtain ⟨hcx, -⟩ := hhi x hx
  rintro rfl
  rcases List.mem_append.mp he with he | he
  · exact hothers e (List.mem_append_left _ he) hcx
  · rcases List.mem_cons.mp he with rfl | he
    · exact absurd hcx (Nat.lt_irrefl _)
    · exact hothers e (List.mem_append_right _ he) hcx

/-! ## What a dispatch leaves -/

theorem State.dispatches_of_active {ctx : Nat} (hcur : s.cur = none) (hstop : (s.core core).stopped = false) (hctx : (s.core core).ctx = some ctx)
    (hactive : (s.ctx ctx).phase = .active) : s.dispatches core = true := by
  simp [State.dispatches, hcur, hstop, hctx, hactive]

/-- A firing put into its cycle of execution from a core: its page is stamped and PERF counter n counts it. -/
def State.dispatched (s : State) (core : Nat) (k : Core) (g : Firing) (n : Nat) : State :=
  { s.setCore core ((k.stampPage g s.clock).count n) with cur := some g }

theorem State.core_dispatched (x : Nat) (k : Core) (n : Nat) :
    (s.dispatched core k g n).core x = if core = x then (k.stampPage g s.clock).count n else s.core x :=
  State.core_setCore ..

@[simp] theorem State.core_dispatched_same (k : Core) (n : Nat) : (s.dispatched core k g n).core core = (k.stampPage g s.clock).count n :=
  (State.core_dispatched core k n).trans (if_pos rfl)

theorem State.core_dispatched_ne {x : Nat} (k : Core) (n : Nat) (h : x ≠ core) : (s.dispatched core k g n).core x = s.core x :=
  (State.core_dispatched x k n).trans (if_neg h.symm)

/-- A core whose light slot has taken an entry of a class: what still waits, and the count of R184. -/
def Core.lightTaken (k : Core) (rest : List (Nat × Firing)) (c : Nat) : Core :=
  { k with light := rest, lightTurn := nextTurn rest k.lightDue k.lightTurn k.lightLast c, lightLast := c, lightDue := false }

/-- A core whose engine slot has taken an entry of a class: a dispatch past a higher class counts as the turn of a lower one. -/
def Core.engineTaken (k : Core) (rest : List (Nat × Firing)) (c : Nat) : Core :=
  { k with
    engine := rest, engTurn := nextTurn rest (k.engDue || k.engine.any (fun e => decide (c < e.1))) k.engTurn k.engLast c, engLast := c,
    engDue := false }

section
variable (k : Core) (now n : Nat)

@[simp] theorem Core.light_stamped : ((k.stampPage g now).count n).light = k.light := rfl
@[simp] theorem Core.engine_stamped : ((k.stampPage g now).count n).engine = k.engine := rfl
@[simp] theorem Core.frames_stamped : ((k.stampPage g now).count n).frames = k.frames := rfl
@[simp] theorem Core.inbox_stamped : ((k.stampPage g now).count n).inbox = k.inbox := rfl

/-- A dispatched firing counts once. -/
theorem Core.perf_stamped : Table.look 0 ((k.stampPage g now).count n).perf n = Table.look 0 k.perf n + 1 := Table.look_put_same ..

end

/-- A firing has gone into execution from a slot of its core: what now waits in the two slots, PERF counter n has counted it, and the frames and inbox
of the core, the other cores and the memories are as before. -/
def State.wentTo (s u : State) (core : Nat) (g : Firing) (light engine : List (Nat × Firing)) (n : Nat) : Prop :=
  u.cur = some g ∧ (u.core core).light = light ∧ (u.core core).engine = engine ∧ (u.core core).frames = (s.core core).frames ∧
    (u.core core).inbox = (s.core core).inbox ∧ Table.look 0 (u.core core).perf n = Table.look 0 (s.core core).perf n + 1 ∧
    (∀ x, x ≠ core → u.core x = s.core x) ∧ u.hbm = s.hbm ∧ u.vault = s.vault

theorem State.wentTo_lightTaken (rest : List (Nat × Firing)) :
    s.wentTo (s.dispatched core ((s.core core).lightTaken rest c) g 0) core g rest (s.core core).engine 0 := by
  refine ⟨rfl, by simp [Core.lightTaken], by simp [Core.lightTaken], by simp [Core.lightTaken], by simp [Core.lightTaken], ?_, fun x => State.core_dispatched_ne _ 0, rfl, rfl⟩
  rw [State.core_dispatched_same, Core.perf_stamped]
  rfl

theorem State.wentTo_engineTaken (rest : List (Nat × Firing)) :
    s.wentTo (s.dispatched core ((s.core core).engineTaken rest c) g 1) core g (s.core core).light rest 1 := by
  refine ⟨rfl, by simp [Core.engineTaken], by simp [Core.engineTaken], by simp [Core.engineTaken], by simp [Core.engineTaken], ?_, fun x => State.core_dispatched_ne _ 1, rfl, rfl⟩
  rw [State.core_dispatched_same, Core.perf_stamped]
  rfl

/-- The light slot of a core that dispatches, with no turn that must come first. -/
theorem exec_lightDispatch_takes {rest : List (Nat × Firing)} (hgo : s.dispatches core = true)
    (hturn : (turnDue (s.core core).light (s.core core).lightTurn (s.core core).lightLast && !(s.core core).lightDue) = false)
    (htake : takeHead (s.core core).light (classOrder (s.core core).lightDue (s.core core).lightLast) = some (c, g, rest)) :
    exec (.lightDispatch core) s = .next (s.dispatched core ((s.core core).lightTaken rest c) g 0) := by
  show execLightDispatch core s = _
  simp only [execLightDispatch, hgo, hturn, htake]
  rfl

/-- A slot whose turn of a lower class has fallen due and has not come dispatches nothing (R184). -/
theorem exec_lightDispatch_waits (hturn : turnDue (s.core core).light (s.core core).lightTurn (s.core core).lightLast = true)
    (hdue : (s.core core).lightDue = false) : exec (.lightDispatch core) s = .next s := by
  refine congrArg Host.Outcome.next (if_pos ?_)
  simp [hturn, hdue]

theorem exec_dispatchTurn_light (hturn : turnDue (s.core core).light (s.core core).lightTurn (s.core core).lightLast = true) :
    exec (.dispatchTurn core false) s = .next (s.modCore core (fun k => { k with lightDue := true })) := by
  show Host.Outcome.next (s.setCore core _) = _
  simp [hturn, State.modCore]

/-! ## What stands between an engine command and its execution (R127, R141) -/

/-- A firing in a frame that is no probe's breaks no rule of probes (R141). -/
theorem State.probeBreach_none {opc : Nat} (h : ∀ fr, s.frameOf g = some fr → fr.probe = false) : s.probeBreach g opc = none := by
  unfold State.probeBreach
  split
  next fr hfr => simp [h fr hfr]
  · rfl

/-- Where no tape engine records the task, nothing is captured (R127). -/
theorem State.capture_of_not_recording (h : s.recording? core g.task = none) (w : U128) : s.capture core g w = (s, g) := by
  unfold State.capture
  simp only [h]

theorem State.frameOf_setCore {k : Core} (hframes : k.frames = (s.core core).frames) (hgen : k.unitGen = (s.core core).unitGen) :
    (s.setCore core k).frameOf g = s.frameOf g := by
  unfold State.frameOf
  rw [State.core_setCore]
  split
  next h => rw [← h, Core.frame?, Core.frame?, hframes, hgen]
  · rfl

/-- A firing that carries its word has its form from it, in every state. -/
theorem State.formOf_of_word {w : U128} (hw : g.word = some w) (t : State) : t.formOf g = s.formOf g := by
  unfold State.formOf
  simp only [hw]

/-- The engine slot of a core that dispatches, for a command that is neither recorded nor a probe's. -/
theorem exec_engineDispatch_takes {rest : List (Nat × Firing)} {opc : Nat} {f : Fields} {w : U128} (hgo : s.dispatches core = true)
    (hturn : (turnDue (s.core core).engine (s.core core).engTurn (s.core core).engLast && !(s.core core).engDue) = false)
    (htake : s.takeEngine core (s.core core).engine (classOrder (s.core core).engDue (s.core core).engLast) = some (c, g, rest))
    (hform : s.formOf g = some (opc, f)) (hw : g.word = some w) (hrec : s.recording? core g.task = none)
    (hprobe : ∀ fr, s.frameOf g = some fr → fr.probe = false) :
    exec (.engineDispatch core) s = .next (s.dispatched core ((s.core core).engineTaken rest c) g 1) := by
  have hbreach (k : Core) (hframes : k.frames = (s.core core).frames) (hgen : k.unitGen = (s.core core).unitGen) :
      (s.setCore core k).probeBreach g opc = none :=
    State.probeBreach_none (by rw [State.frameOf_setCore hframes hgen]; exact hprobe)
  have hcapture (k : Core) : (s.setCore core k).capture core g w = (s.setCore core k, g) :=
    State.capture_of_not_recording (s := s.setCore core k) hrec w
  show execEngineDispatch core s = _
  simp only [execEngineDispatch, hgo, hturn, htake]
  rw [State.formOf_of_word (s := s) hw, hform, hw]
  dsimp only
  rw [hbreach]
  · simp only [hcapture]
    rfl
  · rfl
  · rfl

/-! ## The obligation -/

/-- Settles O43: what each slot takes, by the lemmas about the order of classes, and what the dispatch leaves. -/
theorem dispatchResults : Obligations.DispatchResults := by
  unfold Obligations.DispatchResults
  intro s core ctx c g pre post hcur hstop hctx hactive hc k went able
  have hgo : s.dispatches core = true := State.dispatches_of_active hcur hstop hctx hactive
  refine ⟨fun hlight hpre => ⟨fun hcount hdue hothers => ?highest, fun hdue hlast hothers => ?turn, fun hcount hdue hlast => ?waits⟩,
    fun opc f w hengine hform hw hok hcount hdue hothers hpre hrec hprobe => ?engine, fun d rest hdiv => ?divider⟩
  case highest =>
    have htake : takeHead k.light (classOrder k.lightDue k.lightLast) = some (c, g, pre ++ post) := by
      rw [hlight, hdue]
      exact takeHead_highest hc nofun hpre fun e he _ => hothers e he
    exact ⟨_, exec_lightDispatch_takes hgo (by rw [turnDue_of_lt hcount]; rfl) htake, State.wentTo_lightTaken _⟩
  case turn =>
    have htake : takeHead k.light (classOrder k.lightDue k.lightLast) = some (c, g, pre ++ post) := by
      rw [hlight, hdue]
      exact takeHead_highest hc (fun _ => hlast) hpre fun e he hlow => hothers e he (hlow rfl)
    exact ⟨_, exec_lightDispatch_takes hgo (by rw [hdue, Bool.not_true, Bool.and_false]) htake, State.wentTo_lightTaken _⟩
  case waits =>
    have hturn : turnDue k.light k.lightTurn k.lightLast = true := by
      simp [turnDue, lowerWaits, hcount, hlight, hlast]
    exact ⟨exec_lightDispatch_waits hturn hdue, exec_dispatchTurn_light hturn⟩
  case engine =>
    have htake : s.takeEngine core k.engine (classOrder k.engDue k.engLast) = some (c, g, pre ++ post) := by
      rw [hengine, hdue]
      exact State.takeEngine_highest hc hform hok (fun e he => (hothers e he).2) hpre
    exact ⟨_, exec_engineDispatch_takes hgo (by rw [turnDue_of_lt hcount]; rfl) htake hform hw hrec hprobe, State.wentTo_engineTaken _⟩
  case divider =>
    show execDividerEmit core s = _
    unfold execDividerEmit
    rw [hdiv]

end Sys2Proof.Machine

/-! SUPPORT. The bits of extended patterns, of shifts, counts and fields (R83, R226, R230, R231). -/

namespace Sys2Proof.Machine

/-! ## Patterns with ones or copies of their top bit above them (R83) -/

/-- Ones from bit w up to bit m above a pattern of w bits. -/
theorem testBit_add_ones {x w m k : Nat} (hx : x < 2 ^ w) (hw : w ≤ m) (hk : k < m) :
    (x + (2 ^ m - 2 ^ w)).testBit k = (decide (w ≤ k) || x.testBit k) := by
  have hones : 2 ^ m - 2 ^ w = 2 ^ w * (2 ^ (m - w) - 1) := by rw [Nat.mul_sub, ← pow_add, mul_one, Nat.add_sub_cancel' hw]
  rw [hones, add_comm, Nat.testBit_two_pow_mul_add _ hx, Nat.testBit_two_pow_sub_one]
  rcases Nat.lt_or_ge k w with h | h
  · rw [if_pos h, decide_eq_false h.not_ge, Bool.false_or]
  · rw [if_neg h.not_gt, decide_eq_true h, Bool.true_or, decide_eq_true (by omega)]

/-- The bits of the word that the low n bits of x make, with copies of the highest of them above where c holds. -/
theorem getLsbD_signFill {c : Prop} [Decidable c] {x n k : Nat} (hn : 0 < n) (hn64 : n ≤ 64) (hk : k < 64) :
    (BitVec.ofNat 64 (if c ∧ 2 ^ (n - 1) ≤ x % 2 ^ n then x % 2 ^ n + (2 ^ 64 - 2 ^ n) else x % 2 ^ n)).getLsbD k =
      if k < n then x.testBit k else decide c && x.testBit (n - 1) := by
  have hlt : x % 2 ^ n < 2 ^ n := Nat.mod_lt _ (Nat.two_pow_pos n)
  have htop : x.testBit (n - 1) = decide (2 ^ (n - 1) ≤ x % 2 ^ n) := by rw [testBit_eq_decide_le_mod, Nat.sub_add_cancel hn]
  rw [BitVec.getLsbD_ofNat, decide_eq_true hk, Bool.true_and, htop, ← Bool.decide_and]
  split
  next h =>
    rw [testBit_add_ones hlt hn64 hk, Nat.testBit_mod_two_pow]
    by_cases hkn : k < n <;> simp [hkn, h, Nat.not_le.mpr, Nat.le_of_not_lt]
  next h =>
    rw [Nat.testBit_mod_two_pow]
    by_cases hkn : k < n <;> simp [hkn, h]

theorem tyWidth_pos (t : EType) : 0 < tyWidth t := by cases t <;> decide
theorem tyWidth_le (t : EType) : tyWidth t ≤ 64 := by cases t <;> decide

/-- The bits of an extended pattern (R83). -/
theorem getLsbD_extend (t : EType) (n : Nat) {k : Nat} (hk : k < 64) :
    (extend t n).getLsbD k = if k < tyWidth t then n.testBit k else tySigned t && n.testBit (tyWidth t - 1) := by
  rw [extend_eq, ← apply_ite, getLsbD_signFill (tyWidth_pos t) (tyWidth_le t) hk, Bool.decide_eq_true]

/-! ## Shifts (R226) -/

theorem testBit_shr (w x n k : Nat) : (shiftBits 1 w x n).testBit k = (decide (k + n < w) && x.testBit (k + n)) := by
  have hdef : shiftBits 1 w x n = if w ≤ n then 0 else x % 2 ^ w / 2 ^ n := rfl
  rw [hdef]
  split
  next h => rw [Nat.zero_testBit, decide_eq_false (by omega), Bool.false_and]
  next h => rw [Nat.testBit_div_two_pow, Nat.testBit_mod_two_pow]

section
variable {w x n k : Nat} (hk : k < w)
include hk

theorem testBit_mod_of_lt : (x % 2 ^ w).testBit k = x.testBit k := by
  rw [Nat.testBit_mod_two_pow, decide_eq_true hk, Bool.true_and]

theorem testBit_shl : (shiftBits 0 w x n).testBit k = (decide (n ≤ k) && x.testBit (k - n)) := by
  have hdef : shiftBits 0 w x n = if w ≤ n then 0 else x % 2 ^ w * 2 ^ n % 2 ^ w := rfl
  rw [hdef]
  split
  next h => rw [Nat.zero_testBit, decide_eq_false (by omega), Bool.false_and]
  next h => rw [testBit_mod_of_lt hk, Nat.testBit_mul_two_pow, testBit_mod_of_lt (by omega)]

/-- Bits that SAR takes from beyond the top are copies of the sign. -/
theorem testBit_sar : (shiftBits 2 w x n).testBit k = x.testBit (min (k + n) (w - 1)) := by
  have hdef : shiftBits 2 w x n = if x % 2 ^ w < 2 ^ (w - 1) then x % 2 ^ w / 2 ^ min n (w - 1)
      else x % 2 ^ w / 2 ^ min n (w - 1) + (2 ^ w - 2 ^ (w - min n (w - 1))) := rfl
  have hsign : x.testBit (w - 1) = decide (2 ^ (w - 1) ≤ x % 2 ^ w) := by
    rw [testBit_eq_decide_le_mod, Nat.sub_add_cancel (by omega)]
  have hshifted : x % 2 ^ w / 2 ^ min n (w - 1) < 2 ^ (w - min n (w - 1)) := by
    rw [Nat.div_lt_iff_lt_mul (Nat.two_pow_pos _), ← pow_add, Nat.sub_add_cancel (by omega)]
    exact Nat.mod_lt _ (Nat.two_pow_pos w)
  have hbit : (x % 2 ^ w / 2 ^ min n (w - 1)).testBit k = (decide (k + min n (w - 1) < w) && x.testBit (k + min n (w - 1))) := by
    rw [Nat.testBit_div_two_pow, Nat.testBit_mod_two_pow]
  rcases Nat.lt_or_ge (k + min n (w - 1)) w with hplace | hplace
  · rw [decide_eq_true hplace, Bool.true_and] at hbit
    have hmin : min (k + n) (w - 1) = k + min n (w - 1) := by omega
    rw [hdef, hmin]
    split
    · exact hbit
    · rw [testBit_add_ones hshifted (Nat.sub_le ..) hk, decide_eq_false (by omega), Bool.false_or, hbit]
  · rw [decide_eq_false hplace.not_gt, Bool.false_and] at hbit
    have hmin : min (k + n) (w - 1) = w - 1 := by omega
    rw [hdef, hmin, hsign]
    split
    next h => rw [hbit, decide_eq_false h.not_ge]
    next h => rw [testBit_add_ones hshifted (Nat.sub_le ..) hk, decide_eq_true (by omega), Bool.true_or, decide_eq_true (not_lt.mp h)]

theorem testBit_rol : (shiftBits 3 w x n).testBit k = x.testBit ((k + (w - n % w)) % w) := by
  have hdef : shiftBits 3 w x n = x % 2 ^ w * 2 ^ (n % w) % 2 ^ w + x % 2 ^ w / 2 ^ (w - n % w) := rfl
  have hs : n % w < w := Nat.mod_lt _ (by omega)
  generalize n % w = s at hdef hs
  have hhigh : x % 2 ^ w * 2 ^ s % 2 ^ w = 2 ^ s * (x % 2 ^ w % 2 ^ (w - s)) := by
    have hpow : 2 ^ w = 2 ^ s * 2 ^ (w - s) := by rw [← pow_add, Nat.add_sub_cancel' hs.le]
    calc x % 2 ^ w * 2 ^ s % 2 ^ w = 2 ^ s * (x % 2 ^ w) % (2 ^ s * 2 ^ (w - s)) := by rw [← hpow, mul_comm]
      _ = 2 ^ s * (x % 2 ^ w % 2 ^ (w - s)) := Nat.mul_mod_mul_left ..
  have hlow : x % 2 ^ w / 2 ^ (w - s) < 2 ^ s := by
    rw [Nat.div_lt_iff_lt_mul (Nat.two_pow_pos _), ← pow_add, Nat.add_sub_cancel' hs.le]
    exact Nat.mod_lt _ (Nat.two_pow_pos w)
  rw [hdef, hhigh, Nat.testBit_two_pow_mul_add _ hlow]
  split
  next h =>
    rw [Nat.testBit_div_two_pow, testBit_mod_of_lt (by omega), Nat.mod_eq_of_lt (by omega)]
  next h =>
    rw [testBit_mod_of_lt (by omega), testBit_mod_of_lt (by omega), show k + (w - s) = k - s + w by omega,
      Nat.add_mod_right, Nat.mod_eq_of_lt (by omega)]

end

/-! ## Counts (R230) -/

theorem bitOf_eq_testBit (x k : Nat) : bitOf x k = x.testBit k := by
  rw [bitOf, Nat.testBit_eq_decide_div_mod_eq, beq_eq_decide]

/-- CLZ is the place, from the top, of the highest one bit. -/
theorem clzBits_spec (w x : Nat) : clzBits w x ≤ w ∧ (∀ k, k < clzBits w x → x.testBit (w - 1 - k) = false) ∧
    (clzBits w x < w → x.testBit (w - 1 - clzBits w x) = true) := by
  have hbit {k : Nat} (hk : k < w) : x.testBit k = (x % 2 ^ w).testBit k := (testBit_mod_of_lt hk).symm
  unfold clzBits
  split
  next h =>
    refine ⟨le_rfl, fun k hk => ?_, fun hlt => absurd hlt (lt_irrefl w)⟩
    rw [hbit (by omega), h, Nat.zero_testBit]
  next h =>
    have hlog : (x % 2 ^ w).log2 < w := (Nat.log2_lt h).mpr (Nat.mod_lt _ (Nat.two_pow_pos w))
    refine ⟨by omega, fun k hk => ?_, fun _ => ?_⟩
    · rw [hbit (by omega)]
      exact Nat.testBit_lt_two_pow (Nat.lt_log2_self.trans_le (Nat.pow_le_pow_right two_pos (by omega)))
    · rw [show w - 1 - (w - 1 - (x % 2 ^ w).log2) = (x % 2 ^ w).log2 by omega, hbit hlog]
      exact Nat.testBit_log2 h

/-- CTZ is the place of the lowest one bit. -/
theorem ctzBits_spec (w x : Nat) : ctzBits w x ≤ w ∧ (∀ k, k < ctzBits w x → x.testBit k = false) ∧
    (ctzBits w x < w → x.testBit (ctzBits w x) = true) := by
  unfold ctzBits
  simp only [bitOf_eq_testBit]
  cases hfind : (List.range w).find? (fun i => x.testBit i) with
  | none =>
    have hnone := List.find?_range_eq_none.mp hfind
    exact ⟨le_rfl, fun k hk => by simpa using hnone k hk, fun hlt => absurd hlt (lt_irrefl w)⟩
  | some i =>
    obtain ⟨hi, hmem, hbelow⟩ := List.find?_range_eq_some.mp hfind
    exact ⟨(List.mem_range.mp hmem).le, fun k hk => by simpa using hbelow k hk, fun _ => hi⟩

/-- POPC counts each one bit as 1. -/
theorem popBits_eq_sum (w x : Nat) : popBits w x = ((List.range w).map (fun k => if x.testBit k then 1 else 0)).sum := by
  simp [popBits, bitOf_eq_testBit, List.sum_map_ite]

/-! ## Fields (R231) -/

/-- The bits of the field of n bits from p replaced by the low bits of b. -/
theorem testBit_insertField (a b p n k : Nat) : (a / 2 ^ (p + n) * 2 ^ (p + n) + b % 2 ^ n * 2 ^ p + a % 2 ^ p).testBit k =
    if p ≤ k ∧ k < p + n then b.testBit (k - p) else a.testBit k := by
  have hnest : a / 2 ^ (p + n) * 2 ^ (p + n) + b % 2 ^ n * 2 ^ p = 2 ^ p * (2 ^ n * (a / 2 ^ (p + n)) + b % 2 ^ n) := by
    rw [pow_add 2 p n]; ring
  rw [hnest, Nat.testBit_two_pow_mul_add _ (Nat.mod_lt a (Nat.two_pow_pos p)),
    Nat.testBit_two_pow_mul_add _ (Nat.mod_lt b (Nat.two_pow_pos n))]
  rcases Nat.lt_or_ge k p with hbelow | hfrom
  · rw [if_pos hbelow, if_neg (by omega), testBit_mod_of_lt hbelow]
  · rw [if_neg hfrom.not_gt]
    rcases Nat.lt_or_ge (k - p) n with hin | habove
    · rw [if_pos hin, if_pos (by omega), testBit_mod_of_lt hin]
    · rw [if_neg habove.not_gt, if_neg (by omega), Nat.testBit_div_two_pow, show k - p - n + (p + n) = k by omega]

end Sys2Proof.Machine

/-! SUPPORT. The integers that results are: wrapped, brought to the range of a type, quotients and remainders, and immediates (R84, R219, R224, R225, R227). -/

namespace Sys2Proof.Machine

variable {t : EType} {x y e : Int}

/-! ## The range of a type (R84) -/

theorem tyMin_le_zero (t : EType) : tyMin t ≤ 0 := by cases t <;> decide
theorem zero_le_tyMax (t : EType) : 0 ≤ tyMax t := by cases t <;> decide

/-- A signed type reaches one further below zero than above it. -/
theorem tyMax_of_signed (h : tySigned t = true) : tyMax t = -tyMin t - 1 := by
  simp [tyMax, tyMin, h]

theorem tyMin_of_unsigned (h : tySigned t = false) : tyMin t = 0 := by simp [tyMin, h]

/-- A word is read as the integer that agrees with it on the w low bits (R84). -/
theorem decodeInt_congr {m n : Nat} (h : m % 2 ^ tyWidth t = n % 2 ^ tyWidth t) : decodeInt t m = decodeInt t n := by
  rw [decodeInt_eq, decodeInt_eq, h]

/-! ## Saturation (R84, R227) -/

/-- The integer of a type's range that is nearest to e. -/
def nearestInt (t : EType) (e : Int) : Int := max (tyMin t) (min e (tyMax t))

theorem nearestInt_mem (t : EType) (e : Int) : tyMin t ≤ nearestInt t e ∧ nearestInt t e ≤ tyMax t :=
  ⟨le_max_left .., max_le ((tyMin_le_zero t).trans (zero_le_tyMax t)) (min_le_right ..)⟩

/-- Saturation gives the nearest integer of the range, with ISAT where that is another one. -/
theorem fitInt_saturates (t : EType) (e : Int) :
    fitInt t true e = (wrapInt t (nearestInt t e), if nearestInt t e = e then 0 else flagISAT) := by
  have hzero := tyMin_le_zero t
  have hmax := zero_le_tyMax t
  unfold fitInt nearestInt
  simp only [Bool.true_and, decide_eq_true_eq]
  split
  next hlow => rw [min_eq_left (by omega), max_eq_left (by omega), if_neg (by omega)]
  next hlow =>
    split
    next hhigh => rw [min_eq_right (by omega), max_eq_right (by omega), if_neg (by omega)]
    next hhigh => rw [min_eq_left (by omega), max_eq_right (by omega), if_pos rfl]

/-! ## Quotients and remainders (R225) -/

/-- The quotient of a type: rounded toward zero, with the corners of R225. -/
def tyQuot (t : EType) (x y : Int) : Int :=
  if y = 0 then (if tySigned t then -1 else tyMax t) else if tySigned t ∧ x = tyMin t ∧ y = -1 then x else x.tdiv y

/-- The remainder of a type: with the sign of the dividend, and the corners of R225. -/
def tyRem (t : EType) (x y : Int) : Int :=
  if y = 0 then x else if tySigned t ∧ x = tyMin t ∧ y = -1 then 0 else x.tmod y

theorem intDivRem_eq (t : EType) (x y : Int) : intDivRem t x y = (tyQuot t x y, tyRem t x y) := by
  unfold intDivRem tyQuot tyRem
  rw [Int.tmod_def]
  split
  · rfl
  · split <;> rfl

/-- What lies between zero and an integer of the range lies in the range. -/
theorem range_of_between (hx : tyMin t ≤ x ∧ x ≤ tyMax t) (h : 0 ≤ e ∧ e ≤ x ∨ x ≤ e ∧ e ≤ 0) : tyMin t ≤ e ∧ e ≤ tyMax t := by
  have hmin := tyMin_le_zero t
  have hmax := zero_le_tyMax t
  omega

/-- A remainder lies between zero and its dividend. -/
theorem tmod_between (x y : Int) : 0 ≤ x.tmod y ∧ x.tmod y ≤ x ∨ x ≤ x.tmod y ∧ x.tmod y ≤ 0 := by
  have hle : (x.tmod y).natAbs ≤ x.natAbs := by rw [Int.natAbs_tmod]; exact Nat.mod_le ..
  rcases le_total 0 x with h | h
  · have hsign := Int.tmod_nonneg y h
    omega
  · have hsign : 0 ≤ (-x).tmod y := Int.tmod_nonneg y (by omega)
    rw [Int.neg_tmod] at hsign
    omega

theorem tyRem_mem (hx : tyMin t ≤ x ∧ x ≤ tyMax t) (y : Int) : tyMin t ≤ tyRem t x y ∧ tyRem t x y ≤ tyMax t := by
  unfold tyRem
  split
  · exact hx
  · split
    · exact ⟨tyMin_le_zero t, zero_le_tyMax t⟩
    · exact range_of_between hx (tmod_between x y)

/-- A quotient by a positive divisor lies between zero and its dividend. -/
theorem tdiv_between (hy : 0 ≤ y) (x : Int) : 0 ≤ x.tdiv y ∧ x.tdiv y ≤ x ∨ x ≤ x.tdiv y ∧ x.tdiv y ≤ 0 := by
  have hle : (x.tdiv y).natAbs ≤ x.natAbs := by rw [Int.natAbs_tdiv]; exact Nat.div_le_self ..
  rcases le_total 0 x with h | h
  · have hsign := Int.tdiv_nonneg h hy
    omega
  · have hsign : 0 ≤ (-x).tdiv y := Int.tdiv_nonneg (by omega) hy
    rw [Int.neg_tdiv] at hsign
    omega

/-- A quotient by a divisor below -1 is at most half its dividend. -/
theorem two_mul_natAbs_tdiv_le (hy : y < -1) (x : Int) : 2 * (x.tdiv y).natAbs ≤ x.natAbs := by
  rw [Int.natAbs_tdiv]
  calc 2 * (x.natAbs / y.natAbs) ≤ y.natAbs * (x.natAbs / y.natAbs) := Nat.mul_le_mul_right _ (by omega)
    _ ≤ x.natAbs := Nat.mul_div_le ..

/-- The only quotient beyond the range is that of the least integer by -1, which is a corner of its own. -/
theorem tyQuot_mem (hx : tyMin t ≤ x ∧ x ≤ tyMax t) (hy : tyMin t ≤ y) : tyMin t ≤ tyQuot t x y ∧ tyQuot t x y ≤ tyMax t := by
  have hmax := zero_le_tyMax t
  have hmin := tyMin_le_zero t
  unfold tyQuot
  split
  next =>
    split
    next hs =>
      have hrange := tyMax_of_signed hs
      omega
    next => exact ⟨hmin.trans hmax, le_rfl⟩
  next hzero =>
    split
    next => exact hx
    next hcorner =>
      rcases lt_or_ge y 0 with hneg | hpos
      · have hs : tySigned t = true := by
          by_contra hs
          rw [tyMin_of_unsigned (by simpa using hs)] at hy
          omega
        have hrange := tyMax_of_signed hs
        rcases eq_or_ne y (-1) with rfl | hbig
        · have hx' : x ≠ tyMin t := fun h => hcorner ⟨hs, h, rfl⟩
          rw [Int.tdiv_neg, Int.tdiv_one]
          omega
        · have hhalf := two_mul_natAbs_tdiv_le (by omega : y < -1) x
          omega
      · exact range_of_between hx (tdiv_between hpos x)

/-! ## Immediates (R219) -/

/-- An immediate as a word is congruent to the integer that it is. -/
theorem immWord_emod (t : EType) (imm : U32) :
    (immWord t imm : Int) % 2 ^ tyWidth t = (if tySigned t then imm.toInt else imm.toNat) % 2 ^ tyWidth t := by
  unfold immWord
  split
  · have hword : ((imm.signExtend 64).toNat : Int) % 2 ^ 64 = imm.toInt % 2 ^ 64 := by
      rw [← BitVec.toInt_signExtend_of_le (by decide : 32 ≤ 64), BitVec.toInt_eq_toNat_bmod]
      exact Int.bmod_emod.symm
    have hdvd : (2 ^ tyWidth t : Int) ∣ 2 ^ 64 := pow_dvd_pow 2 (tyWidth_le t)
    rw [← Int.emod_emod_of_dvd _ hdvd, hword, Int.emod_emod_of_dvd _ hdvd]
  · rfl

end Sys2Proof.Machine

/-! SUPPORT. What the scalar integer operators emit on scalars, and what DIV and REM leave in the divider (R216 to R232). -/

namespace Sys2Proof.Machine

variable {s : State} {g : Firing} {f : Fields} {o : Host.Outcome State Fault Refusal}

/-! ## Scalars emitted to both destinations (R216) -/

/-- The outcome is s with the scalar x emitted to both destinations, in the round of the firing. -/
def EmitsScalar (s : State) (g : Firing) (f : Fields) (o : Host.Outcome State Fault Refusal) (x : U64) : Prop :=
  ∃ v : Val, o = .next (s.emitBoth g f v) ∧ v.kind = .scalar ∧ v.round = g.l.round ∧ v.value = x

/-- The integer that a wrapped result is (R83, R84). -/
theorem EmitsScalar.wrapped {e : Int} (h : EmitsScalar s g f o (extend f.ty (wrapInt f.ty e))) :
    ∃ (v : Val) (k : Int), o = .next (s.emitBoth g f v) ∧ v.kind = .scalar ∧ v.round = g.l.round ∧ v.value = BitVec.ofInt 64 k ∧
      tyMin f.ty ≤ k ∧ k ≤ tyMax f.ty ∧ k % (2 ^ tyWidth f.ty : Int) = e % 2 ^ tyWidth f.ty := by
  obtain ⟨v, ho, hkind, hround, hvalue⟩ := h
  obtain ⟨k, hword, hmin, hmax, hmod⟩ := extend_wrapInt f.ty e
  exact ⟨v, k, ho, hkind, hround, hvalue.trans hword, hmin, hmax, hmod⟩

/-- The bits of a word that is emitted. -/
theorem EmitsScalar.bits {x : U64} {b : Nat → Bool} (h : EmitsScalar s g f o x) (hbits : ∀ k, k < 64 → x.getLsbD k = b k) :
    ∃ v : Val, o = .next (s.emitBoth g f v) ∧ v.kind = .scalar ∧ v.round = g.l.round ∧ ∀ k, k < 64 → v.value.getLsbD k = b k := by
  obtain ⟨v, ho, hkind, hround, hvalue⟩ := h
  exact ⟨v, ho, hkind, hround, fun k hk => by rw [hvalue, hbits k hk]⟩

/-- The bits of a pattern that is emitted extended (R83). -/
theorem EmitsScalar.extended {n : Nat} {b : Nat → Bool} (h : EmitsScalar s g f o (extend f.ty n))
    (hbits : ∀ k, k < tyWidth f.ty → n.testBit k = b k) :
    ∃ v : Val, o = .next (s.emitBoth g f v) ∧ v.kind = .scalar ∧ v.round = g.l.round ∧ (∀ k, k < tyWidth f.ty → v.value.getLsbD k = b k) ∧
      (∀ k, tyWidth f.ty ≤ k → k < 64 → v.value.getLsbD k = (tySigned f.ty && v.value.getLsbD (tyWidth f.ty - 1))) := by
  obtain ⟨v, ho, hkind, hround, hvalue⟩ := h
  have hpos := tyWidth_pos f.ty
  have hle := tyWidth_le f.ty
  refine ⟨v, ho, hkind, hround, fun k hk => ?_, fun k hk hk64 => ?_⟩
  · rw [hvalue, getLsbD_extend _ _ (by omega), if_pos hk, hbits k hk]
  · rw [hvalue, getLsbD_extend _ _ hk64, if_neg hk.not_gt, getLsbD_extend _ _ (by omega), if_pos (by omega)]

/-- ISAT is set in FPSTAT where saturation gives another integer. -/
theorem State.setFlags_isat (ctx : Nat) (p : Prop) [Decidable p] : s.setFlags ctx (if p then 0 else flagISAT) =
    if p then s else s.modCtx ctx (fun c => { c with fpstat := c.fpstat ||| flagISAT }) := by
  split <;> rfl

/-- The integer of an exact result that wraps, or saturates under sat (R84, R227). -/
theorem EmitsScalar.fitted {sat : Bool} {e : Int}
    (h : EmitsScalar (s.setFlags g.ctx (fitInt f.ty sat e).2) g f o (extend f.ty (fitInt f.ty sat e).1)) :
    ∃ (v : Val) (k : Int), v.kind = .scalar ∧ v.round = g.l.round ∧ v.value = BitVec.ofInt 64 k ∧ tyMin f.ty ≤ k ∧ k ≤ tyMax f.ty ∧
      (sat = false → k % (2 ^ tyWidth f.ty : Int) = e % 2 ^ tyWidth f.ty ∧ o = .next (s.emitBoth g f v)) ∧
      (sat = true → k = max (tyMin f.ty) (min e (tyMax f.ty)) ∧
        o = .next ((if k = e then s else s.modCtx g.ctx (fun c => { c with fpstat := c.fpstat ||| flagISAT })).emitBoth g f v)) := by
  cases sat with
  | false =>
    obtain ⟨v, k, ho, hkind, hround, hvalue, hmin, hmax, hmod⟩ := EmitsScalar.wrapped (s := s) h
    exact ⟨v, k, hkind, hround, hvalue, hmin, hmax, fun _ => ⟨hmod, ho⟩, nofun⟩
  | true =>
    rw [fitInt_saturates, State.setFlags_isat, extend_wrapInt_fits _ (nearestInt_mem ..)] at h
    obtain ⟨v, ho, hkind, hround, hvalue⟩ := h
    obtain ⟨hmin, hmax⟩ := nearestInt_mem f.ty e
    exact ⟨v, nearestInt f.ty e, hkind, hround, hvalue, hmin, hmax, nofun, fun _ => ⟨rfl, ho⟩⟩

/-! ## The shared operations on scalars -/

section
variable (hc : s.cur = some g) (hs : g.scalars)
include hc hs

theorem scalarInt_emits (ident : U64) (op : Nat → Nat → Nat × Flags) (prov : Val → Option Val → BitVec 4) :
    EmitsScalar (s.retire.setFlags g.ctx (op g.l.value.toNat (operandR f.ty f g.r)).2) g f (scalarInt f s ident op prov)
      (extend f.ty (op g.l.value.toNat (operandR f.ty f g.r)).1) :=
  ⟨_, scalarInt_scalars hc hs, rfl, rfl, rfl⟩

theorem onInts_emits (ident : U64) (op : Int → Int → Int) (prov : Val → Option Val → BitVec 4) :
    EmitsScalar s.retire g f (scalarInt f s ident (onInts f.ty op) prov)
      (extend f.ty (wrapInt f.ty (op (decodeInt f.ty g.l.value.toNat) (decodeInt f.ty (operandR f.ty f g.r))))) :=
  scalarInt_emits hc hs ident (onInts f.ty op) prov

theorem onBits_emits (ident : U64) (op : Nat → Nat → Nat) (prov : Val → Option Val → BitVec 4) :
    EmitsScalar s.retire g f (scalarInt f s ident (onBits f.ty op) prov)
      (extend f.ty (op (g.l.value.toNat % 2 ^ tyWidth f.ty) (operandR f.ty f g.r % 2 ^ tyWidth f.ty) % 2 ^ tyWidth f.ty)) :=
  scalarInt_emits hc hs ident (onBits f.ty op) prov

theorem scalarUnary_emits (op : Nat → U64 × Flags) :
    EmitsScalar (s.retire.setFlags g.ctx (op g.l.value.toNat).2) g f (scalarUnary f s op) (op g.l.value.toNat).1 :=
  ⟨_, congrArg Host.Outcome.next (State.operate_scalars hc hs rfl rfl rfl), rfl, rfl, rfl⟩

/-- A monadic operator that sets no flag. -/
theorem scalarUnary_emits_noFlag (op : Nat → U64) : EmitsScalar s.retire g f (scalarUnary f s (fun a => (op a, 0))) (op g.l.value.toNat) :=
  scalarUnary_emits hc hs fun a => (op a, 0)

theorem scalarShift_emits (op : Nat) : EmitsScalar s.retire g f (scalarShift op f s)
    (extend f.ty (shiftBits op (tyWidth f.ty) g.l.value.toNat (shiftAmount f.ty f g.r))) :=
  ⟨_, congrArg Host.Outcome.next (State.operate_scalars hc hs rfl rfl rfl), rfl, rfl, rfl⟩

/-! ## Integer arithmetic (R224) -/

theorem exec_min_emits : EmitsScalar s.retire g f (exec (.min f) s)
    (extend f.ty (wrapInt f.ty (min (decodeInt f.ty g.l.value.toNat) (decodeInt f.ty (operandR f.ty f g.r))))) := by
  rw [min_comm, min_def_lt]
  exact onInts_emits hc hs (maxWord f.ty) (fun x y => if y < x then y else x) provTwo

theorem exec_max_emits : EmitsScalar s.retire g f (exec (.max f) s)
    (extend f.ty (wrapInt f.ty (max (decodeInt f.ty g.l.value.toNat) (decodeInt f.ty (operandR f.ty f g.r))))) := by
  rw [max_def_lt]
  exact onInts_emits hc hs (minWord f.ty) (fun x y => if x < y then y else x) provTwo

/-- MULH's floor is the quotient of integers by a positive divisor. -/
theorem exec_mulh_emits : EmitsScalar s.retire g f (exec (.mulh f) s)
    (extend f.ty (wrapInt f.ty (decodeInt f.ty g.l.value.toNat * decodeInt f.ty (operandR f.ty f g.r) / 2 ^ tyWidth f.ty))) := by
  rw [← Int.fdiv_eq_ediv_of_nonneg _ (by positivity)]
  exact onInts_emits hc hs 0 (fun x y => Int.fdiv (x * y) (2 ^ tyWidth f.ty)) provTwo

end

/-- Settles O11: operands by their range, each arithmetic operator as a wrapped integer, each bitwise one bit by bit. -/
theorem integerArithmeticResults : Obligations.IntegerArithmeticResults := by
  unfold Obligations.IntegerArithmeticResults
  refine ⟨fun t v => ?operand, fun s g f hc hs => ?arithmetic, fun s g f hc hs => ?bitwise⟩
  case operand =>
    obtain ⟨hmin, hmax, hmod⟩ := decodeInt_spec t v.toNat
    exact ⟨hmin, hmax, hmod, fun u hu => decodeInt_congr hu⟩
  case arithmetic =>
    simp only [List.mem_cons, Prod.mk.injEq, List.not_mem_nil, or_false]
    rintro i e (⟨rfl, rfl⟩ | ⟨rfl, rfl⟩ | ⟨rfl, rfl⟩ | ⟨rfl, rfl⟩ | ⟨rfl, rfl⟩ | ⟨rfl, rfl⟩)
    · exact (onInts_emits hc hs 0 (· + ·) (provSum false f.ty)).wrapped
    · exact (onInts_emits hc hs 0 (· - ·) (provSum true f.ty)).wrapped
    · exact (onInts_emits hc hs 1 (· * ·) provTwo).wrapped
    · exact (exec_mulh_emits hc hs).wrapped
    · exact (exec_min_emits hc hs).wrapped
    · exact (exec_max_emits hc hs).wrapped
  case bitwise =>
    simp only [List.mem_cons, Prod.mk.injEq, List.not_mem_nil, or_false]
    rintro i b (⟨rfl, rfl⟩ | ⟨rfl, rfl⟩ | ⟨rfl, rfl⟩ | ⟨rfl, rfl⟩)
    · refine (onBits_emits hc hs (allOnes f.ty) (· &&& ·) provTwo).extended fun k hk => ?_
      rw [testBit_mod_of_lt hk, Nat.testBit_and, testBit_mod_of_lt hk, testBit_mod_of_lt hk]
    · refine (onBits_emits hc hs 0 (· ||| ·) provTwo).extended fun k hk => ?_
      rw [testBit_mod_of_lt hk, Nat.testBit_or, testBit_mod_of_lt hk, testBit_mod_of_lt hk]
    · refine (onBits_emits hc hs 0 (· ^^^ ·) provTwo).extended fun k hk => ?_
      rw [testBit_mod_of_lt hk, Nat.testBit_xor, testBit_mod_of_lt hk, testBit_mod_of_lt hk]
    · refine (onBits_emits hc hs 0 (fun x y => x &&& (2 ^ tyWidth f.ty - 1 - y)) provTwo).extended fun k hk => ?_
      rw [testBit_mod_of_lt hk, Nat.testBit_and, testBit_mod_of_lt hk, Nat.sub_sub, add_comm 1,
        Nat.testBit_two_pow_sub_succ (Nat.mod_lt _ (Nat.two_pow_pos _)), decide_eq_true hk, Bool.true_and, testBit_mod_of_lt hk]

/-! ## Saturation and comparison (R227, R228) -/

/-- TST: a bit below w that both operands have (R228). -/
theorem and_mod_ne_zero_iff (a b w : Nat) : (a &&& b) % 2 ^ w ≠ 0 ↔ ∃ k, k < w ∧ a.testBit k ∧ b.testBit k := by
  constructor
  · intro h
    obtain ⟨k, hk⟩ := Nat.exists_testBit_of_ne_zero h
    simp only [Nat.testBit_mod_two_pow, Nat.testBit_and, Bool.and_eq_true, decide_eq_true_eq] at hk
    obtain ⟨hlt, ha, hb⟩ := hk
    exact ⟨k, hlt, ha, hb⟩
  · rintro ⟨k, hlt, ha, hb⟩ h
    have hk := testBit_mod_of_lt (x := a &&& b) hlt
    rw [h, Nat.zero_testBit, Nat.testBit_and, ha, hb] at hk
    exact absurd hk (by decide)

/-- The condition of CMP by FN (R228). -/
def CmpHolds (fn : Nat) (t : EType) (a b : Nat) : Prop :=
  match fn with
  | 0 => decodeInt t a = decodeInt t b
  | 1 => decodeInt t a ≠ decodeInt t b
  | 2 => decodeInt t a < decodeInt t b
  | 3 => decodeInt t a ≤ decodeInt t b
  | 4 => decodeInt t a > decodeInt t b
  | 5 => decodeInt t a ≥ decodeInt t b
  | _ => ∃ k, k < tyWidth t ∧ a.testBit k ∧ b.testBit k

theorem intTest_iff (t : EType) (a b : Nat) : ∀ fn, intTest fn t a b = true ↔ CmpHolds fn t a b
  | 0 | 1 | 2 | 3 | 4 | 5 => decide_eq_true_iff
  | _ + 6 => bne_iff_ne.trans (and_mod_ne_zero_iff a b (tyWidth t))

section
variable (hc : s.cur = some g) (hs : g.scalars)
include hc hs

theorem exec_abs_emits : EmitsScalar (s.retire.setFlags g.ctx (fitInt f.ty f.sat ((decodeInt f.ty g.l.value.toNat).natAbs : Int)).2) g f
    (exec (.abs f) s) (extend f.ty (fitInt f.ty f.sat ((decodeInt f.ty g.l.value.toNat).natAbs : Int)).1) :=
  scalarUnary_emits hc hs fun a =>
    (extend f.ty (fitInt f.ty f.sat ((decodeInt f.ty a).natAbs : Int)).1, (fitInt f.ty f.sat ((decodeInt f.ty a).natAbs : Int)).2)

theorem exec_neg_emits : EmitsScalar (s.retire.setFlags g.ctx (fitInt f.ty f.sat (-decodeInt f.ty g.l.value.toNat)).2) g f
    (exec (.neg f) s) (extend f.ty (fitInt f.ty f.sat (-decodeInt f.ty g.l.value.toNat)).1) :=
  scalarUnary_emits hc hs fun a => (extend f.ty (fitInt f.ty f.sat (-decodeInt f.ty a)).1, (fitInt f.ty f.sat (-decodeInt f.ty a)).2)

theorem exec_cmp_emits : EmitsScalar s.retire g f (exec (.cmp f) s)
    (if intTest f.fn.toNat f.ty g.l.value.toNat (operandR f.ty f g.r) then 1 else 0) :=
  ⟨_, congrArg Host.Outcome.next (State.operate_scalars hc hs rfl rfl rfl), rfl, rfl, rfl⟩

end

/-- Settles O12: each saturating operator as an exact result that fits or saturates, CMP by its condition. -/
theorem saturatingAndCompareResults : Obligations.SaturatingAndCompareResults := by
  unfold Obligations.SaturatingAndCompareResults
  refine ⟨fun s g f hc hs => ?saturating, fun s g f hc hs _ => ?compare⟩
  case saturating =>
    simp only [List.mem_cons, Prod.mk.injEq, List.not_mem_nil, or_false]
    rintro i sat e (⟨rfl, rfl, rfl⟩ | ⟨rfl, rfl, rfl⟩ | ⟨rfl, rfl, rfl⟩ | ⟨rfl, rfl, rfl⟩)
    · exact (exec_abs_emits hc hs).fitted
    · exact (exec_neg_emits hc hs).fitted
    · exact EmitsScalar.fitted (scalarInt_emits hc hs 0 (fun a b => fitInt f.ty true (decodeInt f.ty a + decodeInt f.ty b)) provTwo)
    · exact EmitsScalar.fitted (scalarInt_emits hc hs 0 (fun a b => fitInt f.ty true (decodeInt f.ty a - decodeInt f.ty b)) provTwo)
  case compare =>
    obtain ⟨v, ho, hkind, hround, hvalue⟩ := exec_cmp_emits (f := f) hc hs
    have hiff := intTest_iff f.ty g.l.value.toNat (operandR f.ty f g.r) f.fn.toNat
    exact ⟨v, ho, hkind, hround, fun hp => hvalue.trans (if_pos (hiff.mpr hp)), fun hp => hvalue.trans (if_neg (mt hiff.mp hp))⟩

/-! ## Quotients and remainders (R217, R225) -/

section
variable (hc : s.cur = some g) (hs : g.scalars)
include hc hs

/-- A divider operator on scalars has its own effect. -/
theorem State.divides_scalars {k : State → Firing → Val → Option Val → State} : s.divides f k = k s.retire g g.l g.r := by
  rw [State.divides, State.execute_some hc, Need.check_plain hs.plain (kindsOk_scalars hs rfl rfl rfl)]

/-- DIV and REM leave an integer of their type in the divider, and no flag. -/
theorem scalarDivRem_waits (rem : Bool) : ∃ v : Val,
    scalarDivRem rem f s = .next (s.retire.modCore g.core (fun k =>
      { k with divider := k.divider ++ [{ fire := g, d0 := f.d0, d1 := f.d1, val := v, flags := 0 }] })) ∧
    v.kind = .scalar ∧ v.round = g.l.round ∧ v.value = BitVec.ofInt 64
      ((if rem then tyRem else tyQuot) f.ty (decodeInt f.ty g.l.value.toNat) (decodeInt f.ty (operandR f.ty f g.r))) := by
  obtain ⟨hxmin, hxmax, -⟩ := decodeInt_spec f.ty g.l.value.toNat
  obtain ⟨hymin, -, -⟩ := decodeInt_spec f.ty (operandR f.ty f g.r)
  refine ⟨_, congrArg Host.Outcome.next (State.divides_scalars hc hs), rfl, rfl, ?_⟩
  show extend _ (wrapInt _ _) = _
  rw [intDivRem_eq]
  cases rem
  · exact extend_wrapInt_fits _ (tyQuot_mem ⟨hxmin, hxmax⟩ hymin)
  · exact extend_wrapInt_fits _ (tyRem_mem ⟨hxmin, hxmax⟩ _)

end

/-- Settles O13: quotient and remainder are integers of the type, so the divider holds them as they are. -/
theorem divisionResults : Obligations.DivisionResults := by
  unfold Obligations.DivisionResults
  intro s g f hc hs
  simp only [List.mem_cons, Prod.mk.injEq, List.not_mem_nil, or_false]
  rintro i e (⟨rfl, rfl⟩ | ⟨rfl, rfl⟩)
  · exact scalarDivRem_waits hc hs false
  · exact scalarDivRem_waits hc hs true

/-! ## Shifts, counts, fields and immediates (R223, R226, R230 to R232) -/

/-- The word of BFX (R231). -/
def bfxWord (f : Fields) (a : Nat) : U64 :=
  BitVec.ofNat 64 (if f.fn = 1 ∧ 2 ^ (bfLen f - 1) ≤ a / 2 ^ bfPos f % 2 ^ bfLen f then
    a / 2 ^ bfPos f % 2 ^ bfLen f + (2 ^ 64 - 2 ^ bfLen f) else a / 2 ^ bfPos f % 2 ^ bfLen f)

/-- The word of BFI (R231). -/
def bfiWord (f : Fields) (a b : Nat) : U64 :=
  BitVec.ofNat 64 (a / 2 ^ (bfPos f + bfLen f) * 2 ^ (bfPos f + bfLen f) + b % 2 ^ bfLen f * 2 ^ bfPos f + a % 2 ^ bfPos f)

/-- The word of SEXT (R232). -/
def sextWord (t : EType) (a : Nat) : U64 :=
  BitVec.ofNat 64 (if 2 ^ (tyWidth t - 1) ≤ a % 2 ^ tyWidth t then a % 2 ^ tyWidth t + (2 ^ 64 - 2 ^ tyWidth t) else a % 2 ^ tyWidth t)

section
variable (hc : s.cur = some g) (hs : g.scalars)
include hc hs

theorem exec_clz_emits : EmitsScalar s.retire g f (exec (.clz f) s) (BitVec.ofNat 64 (clzBits (tyWidth f.ty) g.l.value.toNat)) :=
  scalarUnary_emits_noFlag hc hs fun a => BitVec.ofNat 64 (clzBits (tyWidth f.ty) a)

theorem exec_ctz_emits : EmitsScalar s.retire g f (exec (.ctz f) s) (BitVec.ofNat 64 (ctzBits (tyWidth f.ty) g.l.value.toNat)) :=
  scalarUnary_emits_noFlag hc hs fun a => BitVec.ofNat 64 (ctzBits (tyWidth f.ty) a)

theorem exec_popc_emits : EmitsScalar s.retire g f (exec (.popc f) s) (BitVec.ofNat 64 (popBits (tyWidth f.ty) g.l.value.toNat)) :=
  scalarUnary_emits_noFlag hc hs fun a => BitVec.ofNat 64 (popBits (tyWidth f.ty) a)

theorem exec_bfx_emits : EmitsScalar s.retire g f (exec (.bfx f) s) (bfxWord f g.l.value.toNat) :=
  scalarUnary_emits_noFlag hc hs (bfxWord f)

theorem exec_bfi_emits : EmitsScalar s.retire g f (exec (.bfi f) s) (bfiWord f g.l.value.toNat ((g.r.map Val.value).getD 0).toNat) :=
  ⟨_, congrArg Host.Outcome.next (State.operate_scalars hc hs rfl rfl rfl), rfl, rfl, rfl⟩

theorem exec_sext_emits : EmitsScalar s.retire g f (exec (.sext f) s) (sextWord f.ty g.l.value.toNat) :=
  scalarUnary_emits_noFlag hc hs (sextWord f.ty)

theorem exec_zext_emits : EmitsScalar s.retire g f (exec (.zext f) s) (BitVec.ofNat 64 (g.l.value.toNat % 2 ^ tyWidth f.ty)) :=
  scalarUnary_emits_noFlag hc hs fun a => BitVec.ofNat 64 (a % 2 ^ tyWidth f.ty)

theorem exec_moviHi_emits : EmitsScalar s.retire g f (exec (.moviHi f) s) (f.imm ++ field g.l.value 0 32) :=
  ⟨_, congrArg Host.Outcome.next (State.operate_scalars hc hs rfl rfl rfl), rfl, rfl, rfl⟩

end

/-- MOVI.LO emits its immediate with PROV NONE, whatever the KIND of its operand (R221, R223). -/
theorem exec_moviLo_plain (hc : s.cur = some g) (hp : g.plain) : exec (.moviLo f) s =
    .next (s.retire.emitBoth g f (Val.computed (extend f.ty (immWord f.ty f.imm)) g.l.round 0 [g.l])) :=
  congrArg Host.Outcome.next (State.operate_plain hc hp (kindsOk_any ..))

section
variable {k : Nat} (hk : k < 64)
include hk

/-- Below its length the field itself, above it copies of its top bit under FN 1 and zeros else. -/
theorem getLsbD_bfxWord (f : Fields) (x : U64) : (bfxWord f x.toNat).getLsbD k =
    if k < bfLen f then x.getLsbD (k + bfPos f) else f.fn == 1 && x.getLsbD (bfPos f + bfLen f - 1) := by
  have hpos : 0 < bfLen f := Nat.succ_pos _
  have hle : bfLen f ≤ 64 := Nat.succ_le_of_lt (Nat.mod_lt _ (by decide))
  rw [bfxWord, getLsbD_signFill hpos hle hk, Nat.testBit_div_two_pow, Nat.testBit_div_two_pow, beq_eq_decide,
    show bfLen f - 1 + bfPos f = bfPos f + bfLen f - 1 by omega]
  rfl

theorem getLsbD_bfiWord (f : Fields) (x y : U64) : (bfiWord f x.toNat y.toNat).getLsbD k =
    if bfPos f ≤ k ∧ k < bfPos f + bfLen f then y.getLsbD (k - bfPos f) else x.getLsbD k := by
  rw [bfiWord, BitVec.getLsbD_ofNat, decide_eq_true hk, Bool.true_and, testBit_insertField]
  rfl

theorem getLsbD_sextWord (t : EType) (x : U64) : (sextWord t x.toNat).getLsbD k = x.getLsbD (min k (tyWidth t - 1)) := by
  have hfill := getLsbD_signFill (c := True) (x := x.toNat) (tyWidth_pos t) (tyWidth_le t) hk
  simp only [true_and, decide_true, Bool.true_and] at hfill
  rw [sextWord, hfill]
  split
  next h => rw [min_eq_left (by omega)]; rfl
  next h => rw [min_eq_right (by omega)]; rfl

theorem getLsbD_zext (t : EType) (x : U64) :
    (BitVec.ofNat 64 (x.toNat % 2 ^ tyWidth t)).getLsbD k = (decide (k < tyWidth t) && x.getLsbD k) := by
  rw [BitVec.getLsbD_ofNat, decide_eq_true hk, Bool.true_and, Nat.testBit_mod_two_pow]
  rfl

end

theorem getLsbD_moviHiWord (imm : U32) (x : U64) (k : Nat) :
    (imm ++ field x 0 32).getLsbD k = if k < 32 then x.getLsbD k else imm.getLsbD (k - 32) := by
  split
  next h => rw [getLsbD_append_lo _ _ _ h, BitVec.getLsbD_extractLsb', decide_eq_true h, Bool.true_and, Nat.zero_add]
  next h => rw [getLsbD_append_hi _ _ _ (by omega)]

/-- Settles O14: each operator by the word that it emits and the bits of that word. -/
theorem shiftAndFieldResults : Obligations.ShiftAndFieldResults := by
  unfold Obligations.ShiftAndFieldResults
  refine ⟨fun s g f hc hs => ?shift, fun s g f hc hs => ⟨?clz, ?ctz, ?popc⟩, fun s g f hc hs => ?field, fun s g f hc hp => ?moviLo⟩
  case shift =>
    simp only [List.mem_cons, Prod.mk.injEq, List.not_mem_nil, or_false]
    rintro i b (⟨rfl, rfl⟩ | ⟨rfl, rfl⟩ | ⟨rfl, rfl⟩ | ⟨rfl, rfl⟩)
    · exact EmitsScalar.extended (scalarShift_emits hc hs 0) fun k hk => testBit_shl hk
    · exact EmitsScalar.extended (scalarShift_emits hc hs 1) fun k _ => testBit_shr ..
    · exact EmitsScalar.extended (scalarShift_emits hc hs 2) fun k hk => testBit_sar hk
    · exact EmitsScalar.extended (scalarShift_emits hc hs 3) fun k hk => testBit_rol hk
  case clz =>
    obtain ⟨v, ho, hkind, -, hvalue⟩ := exec_clz_emits (f := f) hc hs
    exact ⟨v, _, ho, hkind, hvalue, clzBits_spec ..⟩
  case ctz =>
    obtain ⟨v, ho, hkind, -, hvalue⟩ := exec_ctz_emits (f := f) hc hs
    exact ⟨v, _, ho, hkind, hvalue, ctzBits_spec ..⟩
  case popc =>
    obtain ⟨v, ho, hkind, -, hvalue⟩ := exec_popc_emits (f := f) hc hs
    exact ⟨v, ho, hkind, hvalue.trans (congrArg _ (popBits_eq_sum ..))⟩
  case field =>
    simp only [List.mem_cons, Prod.mk.injEq, List.not_mem_nil, or_false]
    rintro i b (⟨rfl, rfl⟩ | ⟨rfl, rfl⟩ | ⟨rfl, rfl⟩ | ⟨rfl, rfl⟩ | ⟨rfl, rfl⟩) -
    · exact (exec_bfx_emits hc hs).bits fun k hk => getLsbD_bfxWord hk f _
    · exact (exec_bfi_emits hc hs).bits fun k hk => getLsbD_bfiWord hk f _ _
    · exact (exec_sext_emits hc hs).bits fun k hk => getLsbD_sextWord hk f.ty _
    · exact (exec_zext_emits hc hs).bits fun k hk => getLsbD_zext hk f.ty _
    · exact (exec_moviHi_emits hc hs).bits fun k _ => getLsbD_moviHiWord ..
  case moviLo =>
    obtain ⟨hmin, hmax, hmod⟩ := decodeInt_spec f.ty (immWord f.ty f.imm)
    exact ⟨_, _, exec_moviLo_plain hc hp, rfl, rfl, rfl, extend_ofInt .., hmin, hmax, hmod.trans (immWord_emod ..)⟩

end Sys2Proof.Machine

/-! SUPPORT. The accesses of LDG and STG, and the entries that XLATE and CAPCUT.CUT make, once the split-phase unit gives them their turn (R252, R255, R258, R285, R289). -/

namespace Sys2Proof.Machine

/-! ## Bytes of a number (R7) -/

theorem leNat_eq_foldr (bs : List Byte) : leNat bs = bs.foldr (fun b k => b.toNat + 256 * k) 0 := by
  induction bs with
  | nil => rfl
  | cons b t ih => exact congrArg (b.toNat + 256 * ·) ih

theorem natLe_eq_map (n x : Nat) : natLe n x = (List.range n).map (fun k => BitVec.ofNat 8 (x / 256 ^ k)) := by
  induction n generalizing x with
  | zero => rfl
  | succ n ih => simp [natLe, ih, List.range_succ_eq_map, Nat.div_div_eq_div_mul, Nat.pow_succ']

variable {s u w : State} {c : Cmd} {f : Fields} {core id n : Nat} {e : Cap}

/-! ## The capability of a command at work (R255, R256) -/

/-- The fields of a capability's token make up its value (R33). -/
theorem field_capToken (v : U64) : field v 46 18 ++ field v 38 8 ++ field v 0 38 = v := by
  refine BitVec.eq_of_getLsbD_eq fun i hi => ?_
  simp only [field, BitVec.getLsbD_append, BitVec.getLsbD_extractLsb']
  grind

/-- A command that has adopted no GEN uses that of its operand. -/
theorem State.capOf_of_aux (haux : c.aux = 0) (k : Nat) (v : U64) : s.capOf c k v = s.capOperand c.fire v := by
  have hgen : c.genOf k v = field v 38 8 := if_pos (by omega)
  rw [State.capOf, hgen, field_capToken]

/-- LDG takes its offset from R, else from IMM (R289). -/
theorem scalarOffset_load (g : Firing) : scalarOffset f g true = (g.r.map (fun x => x.value.toNat)).getD f.imm.toNat := by
  cases h : g.r <;> simp [scalarOffset, h]

/-- STG takes its offset from the third operand, else from IMM (R289). -/
theorem scalarOffset_store (g : Firing) : scalarOffset f g false = (g.t.map (fun x => x.value.toNat)).getD f.imm.toNat := by
  cases h : g.t <;> simp [scalarOffset, h]

/-- An access within the range, permitted and aligned passes the checks (R255, R289). -/
theorem State.scalarCheck_ok {load : Bool} (haux : c.aux = 0) (hcap : s.capOperand c.fire c.fire.l.value = .ok n e)
    (hrange : scalarOffset f c.fire load + scalarBytes f ≤ e.extent) (hperm : e.permits (if load then .read else .write) = true)
    (halign : scalarOffset f c.fire load % scalarBytes f = 0) : s.scalarCheck c f load = .ok n := by
  simp [State.scalarCheck, State.capOf_of_aux haux, hcap, Nat.not_lt.mpr hrange, hperm, halign]

/-! ## LDG and STG (R258, R289) -/

section
variable (hcheck : s.scalarCheck c f true = .ok n)
include hcheck

theorem State.scalarWork_load_waits (hhalf : s.sideHalf (.cap c.fire.core n) (scalarOffset f c.fire true) (scalarBytes f) = true) :
    s.scalarWork c f true = s.sideUse (.cap c.fire.core n) (scalarOffset f c.fire true) (scalarBytes f) .read := by
  simp [State.scalarWork, hcheck, hhalf]

variable (hhalf : s.sideHalf (.cap c.fire.core n) (scalarOffset f c.fire true) (scalarBytes f) = false)
  (hu : s.sideUse (.cap c.fire.core n) (scalarOffset f c.fire true) (scalarBytes f) .read = u)
include hhalf hu

theorem State.scalarWork_load_ok {bs : List Byte}
    (hread : u.sideRead (.cap c.fire.core n) (scalarOffset f c.fire true) (scalarBytes f) = .ok bs) :
    s.scalarWork c f true = u.answer c f (both (c.scalar (extend f.ty (leNat bs)))) := by
  subst hu
  simp [State.scalarWork, hcheck, hhalf, hread]

theorem State.scalarWork_load_park {x : FaultClass} {va dev : Nat}
    (hread : u.sideRead (.cap c.fire.core n) (scalarOffset f c.fire true) (scalarBytes f) = .park x va dev) :
    s.scalarWork c f true = u.park c x va dev .read (2, 0) := by
  subst hu
  simp [State.scalarWork, hcheck, hhalf, hread]

end

/-- A store that has been written is answered at once, or waits for the replicas that lack it. -/
theorem State.scalarWork_store {r : Val} (hcheck : s.scalarCheck c f false = .ok n) (hr : c.fire.r = some r)
    (hw : s.sideUse (.cap c.fire.core n) (scalarOffset f c.fire false) (scalarBytes f) .write = w)
    (hwrite : w.sideWrite (.cap c.fire.core n) (scalarOffset f c.fire false) (natLe (scalarBytes f) r.value.toNat) c.fire.core c.id
      (w.ownTape c.fire) = .ok u) :
    s.scalarWork c f false = if u.unperformed c.fire.core c.id then u.modCmd c.fire.core c.id (fun c => { c with phase := .propagating })
      else u.answer c f [(false, c.scalar 0)] := by
  subst hw
  simp [State.scalarWork, hcheck, hr, theVal, hwrite]

/-! ## XLATE and CAPCUT.CUT (R252, R285) -/

/-- The entry that XLATE makes of its range, of a root and a page set. -/
def xlateCap (f : Fields) (g : Firing) (root : BitVec 28) (pset : Nat) (gen : BitVec 8) : Cap :=
  { vbase := g.l.value.toNat, extent := xlateExtent f g, root := root, pset := BitVec.ofNat 16 pset, gen := gen, valid := true,
    u := bitAt f.qual 2, w := bitAt f.qual 1, r := bitAt f.qual 0, busy := 0, taint := [] }

/-- The entry that CAPCUT.CUT makes of a part of its parent p. -/
def cutCap (f : Fields) (p : Cap) (off len : Nat) (gen : BitVec 8) : Cap :=
  { vbase := p.vbase + off, extent := len, root := p.root, pset := p.pset, gen := gen, valid := true,
    u := p.u && bitAt f.qual 2, w := p.w && bitAt f.qual 1, r := p.r && bitAt f.qual 0, busy := 0,
    taint := clipRanges p.taint (p.vbase + off) len }

/-- The token of entry m of the command's core, with a GEN (R33). -/
def State.capVal (s : State) (c : Cmd) (m : Nat) (gen : BitVec 8) : Val :=
  { c.scalar (capToken (s.vcoreOf c.fire.core) m gen) with kind := .cap }

/-- Entry m of the command's core is written. -/
def State.putCap (s : State) (c : Cmd) (m : Nat) (x : Cap) : State :=
  s.modCore c.fire.core (fun k => { k with caps := Table.put k.caps m x })

theorem xlateExtent_eq (g : Firing) : xlateExtent f g = (g.r.map (fun x => x.value.toNat)).getD f.imm.toNat := by
  cases h : g.r <;> simp [xlateExtent, h]

theorem State.xlateWork_ok {m pset : Nat} (hn : xlateExtent f c.fire ≠ 0) (hva : c.fire.l.value.toNat + xlateExtent f c.fire ≤ 2 ^ 48)
    (hpset : s.rangePset (s.ctx c.fire.ctx).ctxroot.toNat c.fire.l.value.toNat (xlateExtent f c.fire) = some pset)
    (howned : s.ownedArea c.fire.l.value.toNat (xlateExtent f c.fire) = false) (hfree : (s.core c.fire.core).freeCap = some m) :
    s.xlateWork c f = (s.putCap c m (xlateCap f c.fire (s.ctx c.fire.ctx).ctxroot pset ((s.core c.fire.core).cap m).gen)).answer c f
      (both (s.capVal c m ((s.core c.fire.core).cap m).gen)) := by
  have hfits : ¬(2 ^ 48 ≤ c.fire.l.value.toNat ∨ xlateExtent f c.fire = 0 ∨ 2 ^ 48 < c.fire.l.value.toNat + xlateExtent f c.fire) := by omega
  unfold State.xlateWork
  simp only [if_neg hfits, hpset, howned, hfree]
  rfl

theorem State.capcutWork_ok {r t : Val} {m : Nat} (hr : c.fire.r = some r) (ht : c.fire.t = some t)
    (hfree : (s.core c.fire.core).freeCap = some m) :
    s.capcutWork c f = (s.putCap c m (cutCap f ((s.core c.fire.core).cap (field c.fire.l.value 46 6).toNat) r.value.toNat t.value.toNat
      ((s.core c.fire.core).cap m).gen)).answer c f [(false, s.capVal c m ((s.core c.fire.core).cap m).gen)] := by
  unfold State.capcutWork
  simp only [hfree, hr, ht]
  rfl

/-! ## SPLIT_PHASE_COMPLETE (R260, R261) -/

section
variable (hcmd : (s.core core).cmd? id = some c) (hmay : s.splitMay c = true)
include hcmd hmay

theorem exec_splitPhaseComplete_ldg (hi : c.instr = .ldg f) : exec (.splitPhaseComplete core id) s = .next (s.scalarWork c f true) := by
  show execSplitPhaseComplete core id s = _
  simp [execSplitPhaseComplete, hcmd, hi, hmay]

theorem exec_splitPhaseComplete_stg (hi : c.instr = .stg f) (hphase : c.phase = .work) :
    exec (.splitPhaseComplete core id) s = .next (s.scalarWork c f false) := by
  show execSplitPhaseComplete core id s = _
  simp [execSplitPhaseComplete, hcmd, hi, hmay, State.stgStep, hphase]

theorem exec_splitPhaseComplete_xlate (hi : c.instr = .xlate f) : exec (.splitPhaseComplete core id) s = .next (s.xlateWork c f) := by
  show execSplitPhaseComplete core id s = _
  simp [execSplitPhaseComplete, hcmd, hi, hmay]

theorem exec_splitPhaseComplete_capcutCut (hi : c.instr = .capcutCut f) :
    exec (.splitPhaseComplete core id) s = .next (s.capcutWork c f) := by
  show execSplitPhaseComplete core id s = _
  simp [execSplitPhaseComplete, hcmd, hi, hmay]

end

end Sys2Proof.Machine

/-! SUPPORT. The agents of capability entries, publication, page sets, translation windows and replicas (R256 to R258, R264, R285). -/

namespace Sys2Proof.Machine

variable {s : State} {core id ctx n : Nat} {c : Cmd} {f : Fields} {k : Core}

/-! ## CAP_ENTRY_FREE (R285) -/

/-- A core once its capability entry n has been freed: the entry is invalid with the next GEN, and no window holds a page filled through it. -/
def Core.capFreed (k : Core) (n : Nat) : Core :=
  { k with
    caps := Table.put k.caps n { k.cap n with valid := false, gen := (k.cap n).gen + 1, taint := [] }
    win := k.win.filter (fun w => w.cap != n)
    gens := k.gens.map (fun g => (g.1, { g.2 with win := g.2.win.filter (fun w => w.cap != n) })) }

theorem Core.cap_capFreed (k : Core) (n : Nat) :
    (k.capFreed n).cap n = { k.cap n with valid := false, gen := (k.cap n).gen + 1, taint := [] } := Table.look_put_same ..

theorem Core.win_capFreed (k : Core) (n : Nat) : ∀ w ∈ (k.capFreed n).win, w.cap ≠ n := by
  intro w hw
  simpa using (List.mem_filter.mp hw).2

/-- The answer of a CAPCUT.FREE. -/
def State.answerFree (s : State) (c : Cmd) : State :=
  match c.fields with
  | some f => s.answer c f [(false, c.scalar 0)]
  | none => s

theorem exec_capEntryFree_frees (hwaits : ∃ c ∈ (s.core core).freeing n, (s.core core).barred 16 c.id = false) (huse : s.capInUse core n = false) :
    exec (.capEntryFree core n) s =
      .next (((s.core core).freeing n).foldl State.answerFree (s.modCore core (fun k => k.capFreed n))) := by
  have hgo : (((s.core core).freeing n).all (fun c => (s.core core).barred 16 c.id) || s.capInUse core n) = false := by
    simpa [huse] using hwaits
  show execCapEntryFree core n s = _
  unfold execCapEntryFree
  simp only [hgo]
  rfl

theorem exec_capEntryFree_stays
    (h : (∀ c ∈ (s.core core).freeing n, (s.core core).barred 16 c.id = true) ∨ s.capInUse core n = true) :
    exec (.capEntryFree core n) s = .next s := by
  have hstay : (((s.core core).freeing n).all (fun c => (s.core core).barred 16 c.id) || s.capInUse core n) = true := by
    simpa using h
  show execCapEntryFree core n s = _
  unfold execCapEntryFree
  simp only [hstay, if_true]

/-! ## PUBLISH_SWAP (R264) -/

section
variable (hcmd : (s.core core).cmd? id = some c) (hi : c.instr = .publishGlb f)
include hcmd hi

theorem exec_publishSwap_misshapen (hshape : s.publishShape ((s.core core).cap (field c.fire.l.value 46 6).toNat)
      ((s.core core).cap (field (theVal c.fire.r).value 46 6).toNat) = false) :
    exec (.publishSwap core id) s = .next (s.failWith c f .publishShape 0 0 0) := by
  show execPublishSwap core id s = _
  simp only [execPublishSwap, hcmd, hi, hshape]
  rfl

/-- With no taint in the table of the core the swap takes place. -/
theorem exec_publishSwap_swaps {a b : Cap} (ha : (s.core core).cap (field c.fire.l.value 46 6).toNat = a)
    (hb : (s.core core).cap (field (theVal c.fire.r).value 46 6).toNat = b) (hshape : s.publishShape a b = true)
    (htaint : ∀ x ∈ (s.core core).caps, x.2.taint = []) :
    exec (.publishSwap core id) s = .next ((((List.range (a.extent / 2 ^ 21)).foldl (fun t k => t.swapPage a b k) s).clearWindows c.fire.ctx
      (fun _ w => w.meets a.vbase a.extent || w.meets b.vbase b.extent)).answer c f
        [(false, c.scalar (BitVec.ofNat 64 (a.extent / 2 ^ 21)))]) := by
  have hclean : (s.core core).caps.any (fun e => e.2.valid && !(clipRanges e.2.taint b.vbase b.extent).isEmpty) = false := by
    simp only [List.any_eq_false]
    intro x hx
    simp [htaint x hx, clipRanges]
  show execPublishSwap core id s = _
  simp only [execPublishSwap, hcmd, hi, ha, hb, hshape, hclean]
  rfl

end

/-! ## The bump of a page set (R256) -/

/-- Clearing windows leaves the capability table of every core of the context as it was. -/
theorem State.mem_clearWindows {bad : Nat → WinEntry → Bool} (hk : (core, k) ∈ s.cores) (hctx : k.ctx = some ctx) :
    ∃ k', (core, k') ∈ (s.clearWindows ctx bad).cores ∧ k'.ctx = some ctx ∧ k'.caps = k.caps :=
  ⟨_, List.mem_map.mpr ⟨_, hk, if_pos hctx⟩, hctx, rfl⟩

/-- Clearing windows leaves the cores outside the context as they were. -/
theorem State.mem_clearWindows_other {bad : Nat → WinEntry → Bool} (hk : (core, k) ∈ s.cores) (hctx : k.ctx ≠ some ctx) :
    (core, k) ∈ (s.clearWindows ctx bad).cores :=
  List.mem_map.mpr ⟨_, hk, if_neg hctx⟩

/-- A capability table after GEN of every entry of a page set has advanced. -/
def capsBumped (p : BitVec 16) (l : Table Cap) : Table Cap :=
  l.map (fun x => if x.2.pset = p then (x.1, { x.2 with gen := x.2.gen + 1 }) else x)

/-- GEN of every entry of a page set advances on every core of a context. -/
def State.psetBumped (s : State) (ctx : Nat) (p : BitVec 16) : State :=
  { s with cores := s.cores.map (fun e => if e.2.ctx = some ctx then (e.1, { e.2 with caps := capsBumped p e.2.caps }) else e) }

theorem State.mem_psetBumped {p : BitVec 16} (hk : (core, k) ∈ s.cores) (hctx : k.ctx = some ctx) :
    (core, { k with caps := capsBumped p k.caps }) ∈ (s.psetBumped ctx p).cores :=
  List.mem_map.mpr ⟨_, hk, if_pos hctx⟩

theorem State.mem_psetBumped_other {p : BitVec 16} (hk : (core, k) ∈ s.cores) (hctx : k.ctx ≠ some ctx) :
    (core, k) ∈ (s.psetBumped ctx p).cores :=
  List.mem_map.mpr ⟨_, hk, if_neg hctx⟩

theorem exec_pageSetBump_asked (hbump : (s.ctx ctx).bump = 1) : exec (.pageSetBump ctx) s =
    .next (((s.clearWindows ctx (fun core w => (s.core core).ofPset (s.ctx ctx).pset w.cap)).psetBumped ctx (s.ctx ctx).pset).modCtx ctx
      (fun c => { c with bump := 2 })) :=
  congrArg Host.Outcome.next (if_neg (not_not.mpr hbump))

theorem exec_bumpDone_run (hbump : (s.ctx ctx).bump = 2) : exec (.bumpDone ctx) s =
    .next (if s.cores.any (fun e => e.2.ctx == some ctx && s.oldAccess e.1 (s.ctx ctx).pset) then s
      else s.modCtx ctx (fun c => { c with bump := 0 })) :=
  congrArg Host.Outcome.next (if_neg (not_not.mpr hbump))

/-! ## TRANSLATION_WINDOW_FILL and REPLICA_PROPAGATE (R257, R258) -/

theorem exec_translationWindowFill_split {cap leaf log pset : Nat} {va : U64} (hvalid : ((s.core core).cap cap).valid = true)
    (hlo : ((s.core core).cap cap).vbase ≤ va.toNat) (hhi : va.toNat < ((s.core core).cap cap).vbase + ((s.core core).cap cap).extent)
    (hwants : s.wantsPage core 16 cap va.toNat = true) (hwalk : walk s.hbm ((s.core core).cap cap).root.toNat va.toNat = .ok leaf log pset) :
    exec (.translationWindowFill core 16 cap va) s = .next (s.modCore core (fun k => { k with
      win := winInsert k.win 16 { cap := cap, page := va.toNat / 2 ^ log, log := log, leaf := BitVec.ofNat 64 leaf } })) := by
  show execTranslationWindowFill core 16 cap va s = _
  simp [execTranslationWindowFill, hvalid, Nat.not_lt.mpr hlo, Nat.not_le.mpr hhi, hwants, hwalk, State.modCore]

theorem exec_replicaPropagate_takes {stack : Nat} {p : Propagation} {rest : List Propagation} (htake : takeProp stack s.props = some (p, rest)) :
    exec (.replicaPropagate stack) s =
      .next { s with hbm := s.hbm.writeBytes (stack * 2 ^ 36 + p.off) p.bytes, props := rest } := by
  show execReplicaPropagate stack s = _
  simp [execReplicaPropagate, htake]

/-! ## The obligation -/

/-- Settles O29: each command at work passes its checks, so that its turn is one equation of the unit; each agent is one equation of its event. -/
theorem splitPhaseWork : Obligations.SplitPhaseWork := by
  unfold Obligations.SplitPhaseWork
  refine ⟨fun s core id c f n e hcmd hphase haux hmay => ⟨fun hcap => ⟨?ldg, ?stg⟩, ?xlate, ?cut⟩,
    fun s => ⟨?free, ?publish, ?bump, ?bumpDone, ?fill, ?propagate⟩⟩
  case ldg =>
    intro hi hrange hperm halign
    simp only [← scalarOffset_load] at hrange halign ⊢
    have hcheck : s.scalarCheck c f true = .ok n := State.scalarCheck_ok haux hcap hrange hperm halign
    rw [exec_splitPhaseComplete_ldg hcmd hmay hi]
    exact ⟨fun hhalf => congrArg _ (State.scalarWork_load_waits hcheck hhalf),
      fun bs hhalf hread => ⟨_, rfl, congrArg _ (leNat_eq_foldr bs ▸ State.scalarWork_load_ok hcheck hhalf rfl hread)⟩,
      fun x va dev hhalf hread => congrArg _ (State.scalarWork_load_park hcheck hhalf rfl hread)⟩
  case stg =>
    intro r hi hr hrange hperm halign
    simp only [← scalarOffset_store] at hrange halign ⊢
    intro u hwrite
    rw [← natLe_eq_map] at hwrite
    have hcheck : s.scalarCheck c f false = .ok n := State.scalarCheck_ok haux hcap hrange hperm halign
    rw [exec_splitPhaseComplete_stg hcmd hmay hi hphase, State.scalarWork_store hcheck hr rfl hwrite]
    exact ⟨fun h => congrArg _ (if_neg (by simp [h])), fun h => congrArg _ (if_pos h)⟩
  case xlate =>
    intro m pset hi hn hva hpset howned hfree
    simp only [← xlateExtent_eq] at hn hva hpset howned ⊢
    rw [exec_splitPhaseComplete_xlate hcmd hmay hi, State.xlateWork_ok hn hva hpset howned hfree]
    exact ⟨xlateCap .., s.capVal c m _, rfl, rfl, rfl, rfl, rfl, rfl, rfl, rfl, rfl, rfl, rfl, rfl, rfl⟩
  case cut =>
    intro r t m hi hr ht hfree
    rw [exec_splitPhaseComplete_capcutCut hcmd hmay hi, State.capcutWork_ok hr ht hfree]
    exact ⟨cutCap .., s.capVal c m _, rfl, rfl, rfl, rfl, rfl, rfl, rfl, rfl, rfl⟩
  case free =>
    intro core n
    refine ⟨fun hwaits huse => ⟨_, exec_capEntryFree_frees hwaits huse, ?_⟩, exec_capEntryFree_stays⟩
    rw [State.core_modCore_same]
    exact ⟨Core.cap_capFreed .., Core.win_capFreed _ _, rfl, rfl⟩
  case publish =>
    intro core id c f hcmd hi
    exact ⟨exec_publishSwap_misshapen hcmd hi, exec_publishSwap_swaps hcmd hi rfl rfl⟩
  case bump =>
    intro ctx hbump
    refine ⟨_, exec_pageSetBump_asked hbump, by rw [State.ctx_modCtx_same], fun core k hk hctx => ?_, fun core k hk hctx =>
      State.mem_psetBumped_other (State.mem_clearWindows_other hk hctx) hctx⟩
    obtain ⟨k', hk', hctx', hcaps⟩ := State.mem_clearWindows hk hctx
    exact ⟨_, State.mem_psetBumped hk' hctx', congrArg (capsBumped _) hcaps⟩
  case bumpDone =>
    intro ctx hbump
    rw [exec_bumpDone_run hbump]
    refine ⟨fun hnone => congrArg _ (if_neg ?_), fun e he hctx hold => congrArg _ (if_pos ?_)⟩
    · simpa using hnone
    · exact List.any_eq_true.mpr ⟨e, he, by simp [hctx, hold]⟩
  case fill =>
    intro core cap va leaf log pset e hvalid hlo hhi hwants hwalk
    exact exec_translationWindowFill_split hvalid hlo hhi hwants hwalk
  case propagate =>
    intro stack p rest htake
    exact exec_replicaPropagate_takes htake

end Sys2Proof.Machine

/-! SUPPORT. CAPCUT.CUT beyond the range of its parent: the record that the model writes names no access, the record of the statement a read (R285, R425, R427). -/

namespace Sys2Proof.Machine

variable {s : State} {g : Firing} {f : Fields} {n : Nat} {e : Cap}

/-- A cut that does not lie within its parent raises CAP_RANGE, with the address and no access in its record. -/
theorem exec_capcutCut_beyond (hc : s.cur = some g) (hp : g.plain) (hkinds : kindsOk { Need.scalars with kl := isCap } g.l g.r g.t = true)
    (hcap : s.retire.capOperand g g.l.value = .ok n e) (hrange : optVal g.t = 0 ∨ e.extent < optVal g.r + optVal g.t) :
    exec (.capcutCut f) s = .next (s.retire.fault g f .capRange (e.vbase + optVal g.r)) := by
  show execCapcutCut f s = _
  rw [execCapcutCut, State.operate_plain hc hp hkinds]
  simp only [hcap, if_pos hrange]

/-! ## A cut of no bytes -/

/-- A destination that discards. -/
def nowhere : Dest := { mode := .discard, port := false, ip := 0 }

/-- CAPCUT.CUT with no destinations. -/
def emptyCut : Fields := { Fields.ofDests nowhere nowhere with ar := .triadic }

/-- A firing of capability 0 of core 0, with offset 0 and extent 0. -/
def emptyCutFiring : Firing := { bootFiring 0 with l := { Val.zero with kind := .cap }, r := some Val.zero, t := some Val.zero }

/-- A capability of 64 bytes. -/
def smallCap : Cap := { Cap.reset with extent := 64, valid := true, r := true }

/-- A page table of one page of 2 MiB at virtual address 0, which permits every access. -/
def onePage : Memory := [(0x1000, 0x01), (0x1001, 0x20), (0x2000, 0x01), (0x2001, 0x40), (0x4000, 0x1F)]

/-- Context 0 with a fault log of one record at 0x10000 of that page, and that firing in execution. -/
def emptyCutter : State :=
  { ((State.reset.place0 0).modCtx 0 (fun c => { c with ctxroot := 1, flog := 0x10000, flogn := 1 })).modCore 0
      (fun k => { k with caps := [(0, smallCap)] }) with cur := some emptyCutFiring, hbm := onePage }

theorem emptyCutter_cap : emptyCutter.capOperand emptyCutFiring emptyCutFiring.l.value = .ok 0 smallCap := by rfl

/-- Byte 56 of the record, the first of D2 (R425), holds the access of R427: none of a fault without one. -/
theorem emptyCutter_fault : (emptyCutter.retire.fault emptyCutFiring emptyCut .capRange 0).hbm.read 0x10038 = 0 := by decide

/-- It holds 1 for a read. -/
theorem emptyCutter_accessFault : (emptyCutter.retire.accessFault emptyCutFiring emptyCut .capRange 0 .read).hbm.read 0x10038 = 1 := by decide

/-! ## The obligation -/

/-- Refutes O27: the statement has CAPCUT.CUT beyond its parent's range write a CAP_RANGE record whose D2 gives a read, the model one whose D2 is 0: it
takes the check of R285 for no access and raises the fault without one. A context with a mapped fault log, where capability 0 has 64 bytes and a cut of
extent 0 fires, holds the two records apart at the first byte of D2. With `State.fault` in place of `State.accessFault` in that clause, this
counterexample goes. -/
theorem not_capabilityCommands : ¬ Obligations.CapabilityCommands := by
  unfold Obligations.CapabilityCommands
  intro h
  have hplain : emptyCutFiring.plain := by decide
  obtain ⟨hscalars, -⟩ := h.1 emptyCutter emptyCutFiring emptyCut 0 smallCap rfl hplain rfl emptyCutter_cap
  obtain ⟨-, -, -, hbeyond⟩ := hscalars (by decide)
  have hexec := exec_capcutCut_beyond (s := emptyCutter) (g := emptyCutFiring) (f := emptyCut) rfl hplain rfl emptyCutter_cap (.inl rfl)
  have hsame := Host.Outcome.next.inj (hexec.symm.trans (hbeyond (.inl rfl)))
  have hbyte := congrArg (fun t : State => t.hbm.read 0x10038) hsame
  exact absurd (emptyCutter_fault.symm.trans (hbyte.trans emptyCutter_accessFault)) (by decide)

end Sys2Proof.Machine

/-! SUPPORT. SBIND.PEER to a core that no stack has: the model compares stacks as `coreStack` gives them, the statement as the core's number / 256 (R17, R288). -/

namespace Sys2Proof.Machine

variable {s : State} {g : Firing} {f : Fields} {c p q : Nat}

/-- An output port is bound to a free input port of a core of the same stack. -/
theorem exec_sbindPeer_binds (hc : s.cur = some g) (hs : g.scalars) (hp : portRef g.l.value = some p) (hout : portIsOut p = true)
    (hphys : (s.ctx g.ctx).phys (optVal g.r % 4096) = some c) (hstack : coreStack c = coreStack g.core)
    (hfree : ((s.core g.core).port p).bound = none) (hq : optVal g.r / 4096 % 8 = q) (hpeer : ((s.core c).port q).bound = none) :
    exec (.sbindPeer f) s = .next ((s.retire.modPort c q (fun x => { x with bound := some (.peer g.core p), seen := 0, obj := g.obj })).bindPort
      g f p (.peer c q)) := by
  show execSbindPeer f s = _
  rw [execSbindPeer, State.operate_scalars hc hs rfl rfl rfl]
  simp [State.withPort, hp, hphys, hout, hstack, hfree, hq, hpeer]

/-! ## A peer beyond the module's 4096 cores -/

/-- SBIND.PEER with no destinations. -/
def strayBind : Fields := { Fields.ofDests nowhere nowhere with ar := .dyadic }

/-- A firing on output port 8 of core 0 and input port 0 of virtual core 0. -/
def strayBindFiring : Firing := { bootFiring 0 with l := { Val.zero with value := 8 }, r := some Val.zero, t := none }

/-- Context 0 with its region at row 64, beyond the 64 rows of cores of the package, and that firing in execution. -/
def strayBinder : State := { (State.reset.place0 0).modCtx 0 (fun c => { c with y0 := 64 }) with cur := some strayBindFiring }

theorem strayBinder_phys : (strayBinder.ctx 0).phys 0 = some 4096 := by rfl

/-- The model binds the port to core 4096, which `coreStack` puts on stack 0. -/
theorem exec_sbindPeer_strayBinder : exec (.sbindPeer strayBind) strayBinder =
    .next ((strayBinder.retire.modPort 4096 0 (fun x => { x with bound := some (.peer 0 8), seen := 0, obj := 0 })).bindPort strayBindFiring
      strayBind 8 (.peer 4096 0)) :=
  exec_sbindPeer_binds (g := strayBindFiring) rfl (by decide) rfl rfl strayBinder_phys rfl rfl rfl rfl

theorem strayBinder_bound : ((((strayBinder.retire.modPort 4096 0 (fun x => { x with bound := some (.peer 0 8), seen := 0, obj := 0 })).bindPort
    strayBindFiring strayBind 8 (.peer 4096 0)).core 0).port 8).bound = some (.peer 4096 0) := by decide

theorem strayBinder_refused : (((strayBinder.retire.fault strayBindFiring strayBind .bridgeRequired 0).core 0).port 8).bound = none := by decide

/-! ## The obligation -/

/-- Refutes O31: the statement has SBIND.PEER compare the stacks of the two cores as core / 256, the model as `coreStack`, which is core / 256 % 16. For
the 4096 cores of the module these are one stack, but the statement speaks of every state: in one whose context has its region at row 64, virtual core 0
is core 4096, to which the model binds the port of core 0 and which the statement refuses with BRIDGE_REQUIRED. With `coreStack`, or c < 4096 and
g.core < 4096, this counterexample goes. -/
theorem not_portBindingResults : ¬ Obligations.PortBindingResults := by
  unfold Obligations.PortBindingResults
  intro h
  obtain ⟨-, hport⟩ := h.1 strayBinder strayBindFiring strayBind rfl (by decide)
  obtain ⟨-, -, hpeer, -⟩ := hport (by decide)
  obtain ⟨hfar, -⟩ := hpeer 4096 strayBinder_phys (by decide)
  have hsame := Host.Outcome.next.inj (exec_sbindPeer_strayBinder.symm.trans (hfar (by decide)))
  have hbound := congrArg (fun t : State => ((t.core 0).port 8).bound) hsame
  rw [strayBinder_bound, strayBinder_refused] at hbound
  cases hbound

end Sys2Proof.Machine

/-! SUPPORT. The work of copies that nothing holds back: what COPY_COMPLETE and NVME_COMPLETION make of each (R262, R267, R272, R283, R284, R287, R290, R479, R491). -/

namespace Sys2Proof.Machine

variable {s u w : State} {c : Cmd} {f : Fields} {core id : Nat}

/-- Command c, number id of a core, is at work with fields f; nothing holds it back, and its vaults can be reached (R240, R256, R275, R434). -/
structure State.AtWork (s : State) (core id : Nat) (c : Cmd) (f : Fields) : Prop where
  cmd : (s.core core).cmd? id = some c
  fields : c.fields = some f
  phase : c.phase = .work
  may : s.splitMay c = true
  fresh : s.capStale c = false
  up : s.partsUp c = true

theorem Core.id_of_cmd? {k : Core} (h : k.cmd? id = some c) : c.id = id := by
  simpa using List.find?_some h

/-! ## COPY_COMPLETE and NVME_COMPLETION (R263, R479) -/

/-- The gate of the storage link is open, or the command was in flight when it closed (R491). -/
def State.nvmeOpen (s : State) (id : Nat) : Prop := s.mod.gates.getLsbD 9 = true ∨ id ∈ s.mod.draining

theorem State.nvmeOpen_iff : s.nvmeOpen id ↔ (bitAt s.mod.gates 9 || s.mod.draining.contains id) = true := by
  rw [Bool.or_eq_true, List.contains_iff_mem]
  rfl

section
variable (h : s.AtWork core id c f)
include h

/-- The event that belongs to a command lets it do its work; the other one leaves it. -/
theorem State.copyStep_work (nvme : Bool) : s.copyStep c f nvme = if s.storageCmd c = nvme then s.copyWork c f else s := by
  unfold State.copyStep
  simp only [h.phase, h.up, h.fresh]
  by_cases hn : s.storageCmd c = nvme <;> simp [hn]

theorem exec_copyComplete_work (hi : isCopy c.instr = true) (hst : s.storageCmd c = false) :
    exec (.copyComplete core id) s = .next (s.copyWork c f) := by
  show execCopyComplete core id s = _
  simp [execCopyComplete, h.cmd, h.fields, h.may, hi, State.copyStep_work h, hst]

theorem exec_copyComplete_storage (hst : s.storageCmd c = true) : exec (.copyComplete core id) s = .next s := by
  show execCopyComplete core id s = _
  simp [execCopyComplete, h.cmd, h.fields, State.copyStep_work h, hst]

theorem exec_nvmeCompletion_closed (hgate : ¬s.nvmeOpen id) (x : NvmeStatus) : exec (.nvmeCompletion core id x) s = .next s := by
  have hshut : (bitAt s.mod.gates 9 || s.mod.draining.contains c.id) = false := by
    rwa [← Bool.not_eq_true, Core.id_of_cmd? h.cmd, ← State.nvmeOpen_iff]
  show execNvmeCompletion core id x s = _
  simp only [execNvmeCompletion, h.cmd, h.fields, hshut, Bool.and_false, Bool.not_false, if_true]

theorem exec_nvmeCompletion_open (hi : isCopy c.instr = true) (hst : s.storageCmd c = true) (hgate : s.nvmeOpen id) (x : NvmeStatus) :
    exec (.nvmeCompletion core id x) s = .next (match x with
      | .success => s.copyWork c f
      | .lbaOutOfRange => s.failWith c f .epRange 0 0 0
      | .otherError => s.failWith c f .memPoison 0 0 0) := by
  have hopen : (bitAt s.mod.gates 9 || s.mod.draining.contains c.id) = true := by
    rwa [Core.id_of_cmd? h.cmd, ← State.nvmeOpen_iff]
  show execNvmeCompletion core id x s = _
  simp only [execNvmeCompletion, h.cmd, h.fields, hi, h.may, hst, h.phase, hopen]
  cases x <;> simp [State.copyStep_work h, hst]

/-- A copy at work is done by COPY_COMPLETE, or, of a storage transfer, by an NVMe completion that the gate lets through (R263, R479). -/
theorem exec_work (hi : isCopy c.instr = true) (hgate : s.storageCmd c = true → s.nvmeOpen id) :
    exec (if s.storageCmd c then .nvmeCompletion core id .success else .copyComplete core id) s = .next (s.copyWork c f) := by
  cases hst : s.storageCmd c with
  | true => exact exec_nvmeCompletion_open h hi hst (hgate hst) .success
  | false => exact exec_copyComplete_work h hi hst

end

/-- A command without a memory side is done by COPY_COMPLETE. -/
theorem exec_copyComplete_near (h : s.AtWork core id c f) (hi : isCopy c.instr = true) (hm : s.memSide c = none) :
    exec (.copyComplete core id) s = .next (s.copyWork c f) :=
  exec_copyComplete_work h hi (by simp [State.storageCmd, hm])

/-! ## TFILL and TCOPY (R283, R284) -/

theorem State.copyWork_tfill {v : View} (hi : c.instr = .tfill f) (hv : s.viewFlight c.fire.ctx c.fire.l.value = some v) :
    s.copyWork c f = (s.setViewRows v (List.replicate v.n (List.replicate v.tile.cols (fillValue f c.fire)))).answer c f
      (both (c.pass c.fire.l)) := by
  simp only [State.copyWork, hi, hv]

theorem State.copyWork_tcopy {v w : View} {r : Val} (hi : c.instr = .tcopy f) (hr : c.fire.r = some r)
    (hv : s.viewFlight c.fire.ctx c.fire.l.value = some v) (hw : s.viewFlight c.fire.ctx r.value = some w) :
    s.copyWork c f = (if f.mx then (s.setViewRows w (s.viewRows v)).setScales w (s.scaleBytes v) else s.setViewRows w (s.viewRows v)).answer c f
      (both (c.pass r)) := by
  simp only [State.copyWork, hi, hr, theVal, Option.getD_some, hv, hw]

/-! ## Bytes written over runs (R258, R262) -/

/-- The split-phase unit uses runs of a side, in order (R257). -/
def State.useRuns (s : State) (x : Side) (k : Access) (rs : List (Nat × Nat)) : State := rs.foldl (fun u r => u.sideUse x r.1 r.2 k) s

theorem State.useRuns_eq {x : Side} {k : Access} {rs : List (Nat × Nat)} : s.useRuns x k rs = rs.foldl (fun u r => u.sideUse x r.1 r.2 k) s := rfl

/-- A copy whose writes replicas lack waits for them (R258). -/
theorem State.copyDone_waits (v : Val) (h : s.unperformed c.fire.core c.id = true) :
    s.copyDone c f v = s.modCmd c.fire.core c.id (fun c => { c with phase := .propagating }) := if_pos h

theorem State.copyDone_answers (v : Val) (h : s.unperformed c.fire.core c.id = false) : s.copyDone c f v = s.answer c f (both (c.pass v)) :=
  if_neg (by simp [h])

/-- A copy that has written nothing yet writes all its bytes, where every run translates. -/
theorem State.copyWrite_ok {x : Side} {rs : List (Nat × Nat)} {bs : List Byte} {v : Val} (hrow : c.row = 0)
    (hu : s.useRuns x .write (dropRuns 0 rs) = u) (hw : u.writeRuns x c.fire.core c.id (u.ownTape c.fire) (dropRuns 0 rs) bs 0 = .ok w) :
    s.copyWrite c f x rs bs v = w.copyDone c f v := by
  simp only [State.copyWrite, hrow, List.drop_zero, ← State.useRuns_eq, hu, hw]

/-! ## FETCH (R267, R268, R287) -/

/-- What a FETCH reads of its memory side: its runs, or with NULLPAD what of them lies within the range (R267, R268). -/
def State.copyReads (s : State) (c : Cmd) (f : Fields) (m : MemSide) : List (Nat × Nat) :=
  (s.copyRuns c f m).map (fun x => (x.1, min x.2 ((if c.nullpads f then m.extent else runsEnd (s.copyRuns c f m)) - x.1)))

theorem State.copyReads_eq {m : MemSide} : s.copyReads c f m =
    (s.copyRuns c f m).map (fun x => (x.1, min x.2 ((if c.nullpads f then m.extent else runsEnd (s.copyRuns c f m)) - x.1))) := rfl

section
variable {m : MemSide} {r : Val} (hm : s.memSide c = some m) (hdata : c.data = [])
include hm hdata

theorem State.fetchWork_waits (hhalf : (s.copyReads c f m).any (fun x => s.sideHalf m.side x.1 x.2) = true) :
    s.fetchWork c f = s.useRuns m.side .read (s.copyReads c f m) := by
  by_cases hcap : (theVal c.fire.r).kind = .cap <;>
    simp only [State.fetchWork, hm, hdata, hcap, if_true, if_false, ← State.copyReads_eq, ← State.useRuns_eq, hhalf]

variable (hhalf : (s.copyReads c f m).any (fun x => s.sideHalf m.side x.1 x.2) = false)
  (hu : s.useRuns m.side .read (s.copyReads c f m) = u)
include hhalf hu

theorem State.fetchWork_parks {e : FaultClass} {va dev : Nat} (hread : u.readRuns m.side (s.copyReads c f m) [] = .error (e, va, dev)) :
    s.fetchWork c f = u.park c e va dev .read (2, 0) := by
  by_cases hcap : (theVal c.fire.r).kind = .cap <;>
    simp only [State.fetchWork, hm, hdata, hcap, if_true, if_false, ← State.copyReads_eq, ← State.useRuns_eq, hhalf, hu, hread, Bool.false_eq_true]

variable (hr : c.fire.r = some r) (hvfy : f.qual.getLsbD 2 = false)
  {runs : List (List Byte)} (hread : u.readRuns m.side (s.copyReads c f m) [] = .ok runs)
include hr hvfy hread

theorem State.fetchWork_tile {v : View} (hk : r.kind = .tile) (hv : u.viewFlight c.fire.ctx r.value = some v) :
    s.fetchWork c f = (u.fillView v f (transposed f) runs).answer c f (both (c.pass r)) := by
  simp only [State.fetchWork, hm, hdata, hr, theVal, Option.getD_some, hk, reduceCtorEq, if_false, ← State.copyReads_eq, ← State.useRuns_eq, hhalf, hu,
    hread, hvfy, Bool.false_eq_true, Bool.not_false, if_true, hv]

theorem State.fetchWork_cap (hk : r.kind = .cap) :
    s.fetchWork c f = u.copyWrite c f (.cap c.fire.core (field r.value 46 6).toNat) [(0, runs.flatten.length)] runs.flatten r := by
  simp only [State.fetchWork, hm, hdata, hr, theVal, Option.getD_some, hk, if_true, ← State.copyReads_eq, ← State.useRuns_eq, hhalf, hu,
    hread, hvfy, Bool.false_eq_true, if_false, Bool.not_false]

end

theorem State.copyWork_fetch (hi : c.instr = .fetchGlb f ∨ c.instr = .fetchEp f) : s.copyWork c f = s.fetchWork c f := by
  rcases hi with hi | hi <;> simp only [State.copyWork, hi]

/-! ## PUT (R267, R287) -/

theorem State.copyWork_put {m : MemSide} {v : View} {r : Val} (hi : c.instr = .putGlb f ∨ c.instr = .putEp f) (hm : s.memSide c = some m)
    (hr : c.fire.r = some r) (hv : s.viewFlight c.fire.ctx c.fire.l.value = some v) (hdata : c.data = []) :
    s.copyWork c f = s.copyWrite c f m.side (s.copyRuns c f m) (s.viewRuns v f.mx) r := by
  have hwork : s.copyWork c f = s.putWork c f := by
    rcases hi with hi | hi <;> simp only [State.copyWork, hi]
  simp only [hwork, State.putWork, hm, hv, hdata, hr, theVal, Option.getD_some, List.isEmpty_nil, if_true]

/-! ## FETCH.PORT and PUT.PORT (R267, R272, R287) -/

section
variable {p : Nat} {v : View} {r : Val} {e : Entry}

/-- Without MX every row of a view that moves through a port is one of its elements. -/
theorem View.portRows_getD (v : View) {i : Nat} (h : i < v.n) : (v.portRows false)[i]?.getD 0 = lineBytes v.tile.etype v.tile.cols := by
  simp [View.portRows, h]

@[simp] theorem View.length_portRows (v : View) : (v.portRows false).length = v.n := by simp [View.portRows]

section
variable (hi : c.instr = .fetchPort f) (hp : portRef c.fire.l.value = some p) (hr : c.fire.r = some r)
  (hv : s.viewFlight c.fire.ctx r.value = some v) (hturn : (s.core c.fire.core).portTurn pullsFrom p c.id = true) {rest : List Entry}
  (hfifo : ((s.core c.fire.core).port p).fifo = e :: rest) (hpop : s.portPop c.fire.core p = some (e, u)) (hmark : e.mark = false)
include hi hp hr hv hturn hfifo hpop hmark

/-- An entry that does not end its row adds its bytes to it. -/
theorem State.copyWork_fetchPort_within (heor : e.eor = false) :
    s.copyWork c f = u.modCmd c.fire.core c.id (fun d => { d with data := c.data ++ e.data }) := by
  simp only [State.copyWork, State.fetchPortWork, hi, hp, hr, theVal, Option.getD_some, hv, hturn, hfifo, hpop, hmark, heor, Bool.false_and,
    Bool.false_eq_true, if_false, Bool.not_true, Bool.not_false, if_true]

variable (heor : e.eor = true) (hmx : f.mx = false) (hrow : c.row < v.n)
include heor hmx hrow

theorem State.copyWork_fetchPort_shape (hlen : (c.data ++ e.data).length ≠ (lineBytes v.tile.etype v.tile.cols + 63) / 64 * 64) :
    s.copyWork c f = u.failWith c f .streamShape 0 0 0 := by
  simp only [State.copyWork, State.fetchPortWork, hi, hp, hr, theVal, Option.getD_some, hv, hturn, hfifo, hpop, hmark, heor, hmx,
    View.portRows_getD v hrow, Bool.false_and, Bool.false_eq_true, if_false, Bool.not_true, ne_eq, hlen, not_false_eq_true, if_true]

/-- The entry that ends a row writes it, and the last row ends the command. -/
theorem State.copyWork_fetchPort_row (hlen : (c.data ++ e.data).length = (lineBytes v.tile.etype v.tile.cols + 63) / 64 * 64)
    (hw : u.setViewRow v c.row (unpackRow v.tile.etype v.tile.cols ((c.data ++ e.data).take (lineBytes v.tile.etype v.tile.cols))) = w) :
    s.copyWork c f = if c.row + 1 = v.n then w.answer c f (both (c.pass r))
      else w.modCmd c.fire.core c.id (fun d => { d with row := d.row + 1, data := [] }) := by
  simp only [State.copyWork, State.fetchPortWork, hi, hp, hr, theVal, Option.getD_some, hv, hturn, hfifo, hpop, hmark, heor, hmx, hrow,
    View.portRows_getD v hrow, View.length_portRows, Bool.false_and, Bool.false_eq_true, if_false, Bool.not_true, ne_eq, hlen, not_true, if_true,
    hw]

end

/-- PUT.PORT gives its port entry number row of the entries of its rows, and the last one ends the command. -/
theorem State.copyWork_putPort {ne : Nat} (hi : c.instr = .putPort f) (hr : c.fire.r = some r) (hp : portRef r.value = some p)
    (hv : s.viewFlight c.fire.ctx c.fire.l.value = some v) (hmx : f.mx = false) (hne : (lineBytes v.tile.etype v.tile.cols + 63) / 64 = ne)
    (hturn : (s.core c.fire.core).portTurn pushesTo p c.id = true) (hroom : s.portRoom c.fire.core p ≠ 0) (hrow : c.row < v.n * ne)
    (he : (rowEntries (packRow v.tile.etype (s.viewRow v (c.row / ne))) c.fire.l.round ne)[c.row % ne]? = some e) :
    s.copyWork c f = if c.row + 1 = v.n * ne then ((s.portPush c.fire.core p e).answer c f (both (c.pass r))).settle c.fire.core p
      else (s.portPush c.fire.core p e).modCmd c.fire.core c.id (fun d => { d with row := d.row + 1 }) := by
  simp only [State.copyWork, State.putPortWork, hi, hr, theVal, Option.getD_some, hp, hv, hmx, hne, hturn, hroom, hrow, he, Bool.not_true,
    Bool.false_or, decide_false, Bool.false_eq_true, if_false, if_true, Nat.add_zero]

end

/-! ## LDV and STV (R241, R242, R290) -/

section
variable {offs : List (Nat × Nat)} {v w : View} {r : Val}

/-- PERF 5 of the vault's core counts the passes of a lane-face command (R241, R451). -/
def State.countPasses (s : State) (c : Cmd) (f : Fields) (v : View) (offs : List (Nat × Nat)) : State :=
  s.modCore ((s.laneTile c).getD v).core (fun k =>
    { k with perf := Table.put k.perf 5 (Table.look 0 k.perf 5 + BitVec.ofNat 64 (lanePasses (laneWidth f) offs)) })

/-- The bytes of LDV's row: the old ones, where the active lanes put what they load in lane order. -/
def State.loadedRow (s : State) (f : Fields) (v w : View) (offs : List (Nat × Nat)) : List Byte :=
  (offs.map (fun o => (o.1 * laneWidth f, s.vaultBytes v.core o.2 (laneWidth f)))).foldl
    (fun b p => b.take p.1 ++ p.2 ++ b.drop (p.1 + laneWidth f))
    (packRow w.tile.etype (s.viewRow w 0) ++ List.replicate (32 * laneWidth f) 0)

/-- The bytes that STV's lanes take: those of its row, and zeros beyond them. -/
def State.storedRow (s : State) (f : Fields) (v : View) : List Byte :=
  packRow v.tile.etype (s.viewRow v 0) ++ List.replicate (32 * laneWidth f) 0

variable (hr : c.fire.r = some r) (hv : s.viewFlight c.fire.ctx c.fire.l.value = some v) (hw : s.viewFlight c.fire.ctx r.value = some w)
  (hturn : s.laneTurn c = true) (hoffs : s.laneOffsets c f = .ok offs) (hu : s.countPasses c f v offs = u)
include hr hv hw hturn hoffs hu

theorem State.copyWork_ldv (hi : c.instr = .ldv f) :
    s.copyWork c f = (u.setViewRow w 0 (unpackRow w.tile.etype w.tile.cols
      ((u.loadedRow f v w offs).take (lineBytes w.tile.etype w.tile.cols)))).answer c f (both (c.pass r)) := by
  subst hu
  simp only [State.copyWork, State.laneWork, hi, hturn, if_true, hoffs, hv, hr, theVal, Option.getD_some, hw]
  rfl

theorem State.copyWork_stv (hi : c.instr = .stv f) :
    s.copyWork c f = (offs.foldl (fun t o => t.setVaultBytes w.core o.2 (((u.storedRow f v).drop (o.1 * laneWidth f)).take (laneWidth f)))
      u).answer c f (both (c.pass r)) := by
  subst hu
  simp only [State.copyWork, State.laneWork, hi, hturn, if_true, hoffs, hv, hr, theVal, Option.getD_some, hw]
  rfl

end

/-! ## The obligation -/

/-- Settles O28: the event that belongs to a copy at work runs `State.copyWork`, which is one equation for each operator and each end of its accesses. -/
theorem copyWork : Obligations.CopyWork := by
  unfold Obligations.CopyWork
  intro s core id c f hcmd hfields hphase hmay hfresh hup
  have h : s.AtWork core id c f := ⟨hcmd, hfields, hphase, hmay, hfresh, hup⟩
  refine ⟨?tfill, ?tcopy, fun hgate => ⟨?fetch, ?put⟩, ?fetchPort, ?putPort, ?lanes, ?storage⟩
  case tfill =>
    intro v hi hv
    rw [exec_copyComplete_near h (by rw [hi]; rfl) (by simp [State.memSide, hi]), State.copyWork_tfill hi hv]
    rfl
  case tcopy =>
    intro v w r hi hr hv hw
    rw [exec_copyComplete_near h (by rw [hi]; rfl) (by simp [State.memSide, hi]), State.copyWork_tcopy hi hr hv hw]
    rfl
  case fetch =>
    intro m r hi hm hr hvfy hdata hrow
    rw [exec_work h (by rcases hi with hi | hi <;> rw [hi] <;> rfl) hgate, State.copyWork_fetch hi]
    refine ⟨fun hhalf => congrArg _ (State.fetchWork_waits hm hdata hhalf),
      fun e va dev hhalf hread => congrArg _ (State.fetchWork_parks hm hdata hhalf rfl hread),
      fun runs hhalf hread => ⟨fun v hk hv => congrArg _ (State.fetchWork_tile hm hdata hhalf rfl hr hvfy hread hk hv), fun hk w hw => ?_⟩⟩
    have hdone : s.fetchWork c f = w.copyDone c f r :=
      (State.fetchWork_cap hm hdata hhalf rfl hr hvfy hread hk).trans (State.copyWrite_ok hrow rfl hw)
    rw [hdone]
    exact ⟨fun hu => congrArg _ (State.copyDone_answers r hu), fun hu => congrArg _ (State.copyDone_waits r hu)⟩
  case put =>
    intro m v r u hi hm hr hv hdata hrow _ _ hw
    rw [exec_work h (by rcases hi with hi | hi <;> rw [hi] <;> rfl) hgate, State.copyWork_put hi hm hr hv hdata,
      State.copyWrite_ok hrow rfl hw]
    exact ⟨fun hu => congrArg _ (State.copyDone_answers r hu), fun hu => congrArg _ (State.copyDone_waits r hu)⟩
  case fetchPort =>
    intro p v r e rest u hi hp hr hv hturn hfifo hpop hmark
    rw [exec_copyComplete_near h (by rw [hi]; rfl) (by simp [State.memSide, hi])]
    refine ⟨fun heor => congrArg _ (State.copyWork_fetchPort_within hi hp hr hv hturn hfifo hpop hmark heor),
      fun heor hmx hrow => ⟨fun hlen => congrArg _ (State.copyWork_fetchPort_shape hi hp hr hv hturn hfifo hpop hmark heor hmx hrow hlen),
        fun hlen => ?_⟩⟩
    rw [State.copyWork_fetchPort_row hi hp hr hv hturn hfifo hpop hmark heor hmx hrow hlen rfl]
    exact ⟨fun hlast => congrArg _ (if_pos hlast), fun hmore => congrArg _ (if_neg hmore)⟩
  case putPort =>
    intro p v r e hi hr hp hv hmx ne hturn hroom hrow he
    rw [exec_copyComplete_near h (by rw [hi]; rfl) (by simp [State.memSide, hi]),
      State.copyWork_putPort hi hr hp hv hmx rfl hturn hroom hrow he]
    exact ⟨fun hlast => congrArg _ (if_pos hlast), fun hmore => congrArg _ (if_neg hmore)⟩
  case lanes =>
    intro offs v w r hi hr hv hw hturn hoffs
    rw [exec_copyComplete_near h (by rcases hi with hi | hi <;> rw [hi] <;> rfl) (by rcases hi with hi | hi <;> simp [State.memSide, hi])]
    exact ⟨fun hi => congrArg _ (State.copyWork_ldv hr hv hw hturn hoffs rfl hi),
      fun hi => congrArg _ (State.copyWork_stv hr hv hw hturn hoffs rfl hi)⟩
  case storage =>
    intro hst hi
    exact ⟨exec_copyComplete_storage h hst,
      fun hopen => ⟨exec_nvmeCompletion_open h hi hst hopen .lbaOutOfRange, exec_nvmeCompletion_open h hi hst hopen .otherError⟩,
      fun hbit hdrain => exec_nvmeCompletion_closed h (not_or.mpr ⟨ne_true_of_eq_false hbit, hdrain⟩)⟩

end Sys2Proof.Machine

/-! SUPPORT. AG_ROW at a core that no stack has: the model reads a row as the stack where `coreStack` puts the core, the statement as stack core / 256 (R17, R25, R271). -/

namespace Sys2Proof.Machine

variable {s : State} {g : Firing} {f : Fields} {core n opc : Nat}

/-- A read generator that is not a multicast's, between rows and with rows left, begins its next row where nothing stops or holds it. -/
theorem exec_agRow_begins {a : AddrGen} (ha : (s.core core).gen n = a) (hrun : a.run = some g) (hform : s.formOf g = some (opc, f))
    (hrunning : a.running = true) (hparked : a.parked = none) (hagain : a.again = false) (hwrite : a.write = false) (hdata : a.data = [])
    (hstop : a.stopReq = []) (hleft : a.next < a.total) (hphase : (s.ctx g.ctx).phase = .active) (hheld : (s.core core).barred n s.ids = false)
    (hport : a.port.isSome = true) : exec (.agRow core n) s = .next (s.agRead core n g f) := by
  show execAgRow core n s = _
  simp [execAgRow, ha, hrun, hform, hrunning, hparked, hagain, hwrite, hdata, hstop, hleft, Ctx.saving, hphase, hheld, AddrGen.permitted, hport]

/-! ## A generator beyond the module's 4096 cores -/

/-- AGRUN with no destinations. -/
def strayRun : Fields := Fields.ofDests nowhere nowhere

/-- A firing of that AGRUN at core 4096. -/
def strayRunFiring : Firing := { bootFiring 0 with core := 4096, word := encode (.agrun strayRun) }

/-- A read generator bound to port 0, before its one row of 32 bytes at the start of capability 0. -/
def strayGen : AddrGen :=
  { AddrGen.reset with
    loaded := true, cap := { Val.zero with kind := .cap }, rowb := 32, strides := [32], extm1 := [0], running := true,
    run := some strayRunFiring, port := some 0 }

/-- Core 4096 in context 0 with that generator; capability 0 gives 64 bytes of the HBM of stack 0. No link is up. -/
def strayReader : State :=
  { (State.reset.modCtx 0 (fun c => { c with phase := .active })).modCore 4096 (fun k =>
      { k with
        ctx := some 0, caps := [(0, { smallCap with root := 1 })], gens := [(0, strayGen)],
        ports := [(0, { Port.reset with bound := some (.gen 0) })] }) with hbm := onePage }

theorem strayReader_form : strayReader.formOf strayRunFiring = some (0x69, strayRun) := by rfl

theorem strayReader_row : strayReader.xlate 1 [] 0 .read 0 32 = .ok [{ va := 0, len := 32, leaf := 0x1F, log := 21 }] := by rfl

theorem exec_agRow_strayReader : exec (.agRow 4096 0) strayReader = .next (strayReader.agRead 4096 0 strayRunFiring strayRun) :=
  exec_agRow_begins (a := strayGen) rfl rfl strayReader_form rfl rfl rfl rfl rfl rfl (by decide) rfl rfl rfl

/-- The model reads the row as stack 0, where `coreStack` puts core 4096, and moves it into the port. -/
theorem strayReader_moves : (((strayReader.agRead 4096 0 strayRunFiring strayRun).core 4096).gen 0).next = 1 := by decide

/-! ## The obligation -/

/-- Refutes O30: the statement has a read generator read its row as stack core / 256 does, the model as `coreStack core`, which is core / 256 % 16. For
the 4096 cores of the module these are one stack, but the statement speaks of every number: at core 4096 the model reads the HBM of stack 0 from stack 0
and moves the row; the statement reads it from stack 16, which no link that is up joins to stack 0, and waits. With `coreStack core`, or core < 4096,
this counterexample goes. -/
theorem not_generatorResults : ¬ Obligations.GeneratorResults := by
  unfold Obligations.GeneratorResults
  intro h
  obtain ⟨-, -, -, hread, -⟩ := h.2 strayReader 4096 0 strayRunFiring 0x69 strayRun strayReader_form rfl rfl rfl rfl rfl rfl (fun hw => by cases hw)
  obtain ⟨-, hreach⟩ := hread rfl (by decide) rfl rfl rfl rfl rfl rfl
  obtain ⟨-, hwaits, -⟩ := hreach (by decide) (by decide) rfl
  have hsame := Host.Outcome.next.inj (exec_agRow_strayReader.symm.trans (hwaits _ strayReader_row (by decide)))
  have hnext := congrArg (fun t : State => ((t.core 4096).gen 0).next) hsame
  exact absurd (strayReader_moves.symm.trans hnext) (by decide)

end Sys2Proof.Machine

/-! SUPPORT. The machine right after module reset (R384, R386, R390, R433, R441, R470, R472, R487). -/

namespace Sys2Proof.Machine

/-- Settles O6: every table of the reset state is empty, so that each entry reads as its reset value. -/
theorem resetState : Obligations.ResetState := by
  unfold Obligations.ResetState
  have hmem : State.reset.memOk := by
    have hnil : Memory.wf [] := ⟨rfl, by simp⟩
    exact ⟨hnil, hnil, hnil, hnil⟩
  refine ⟨hmem, rfl, rfl, rfl, rfl, rfl, rfl, rfl, rfl, rfl, fun n => ?stack, fun x => ?ctx, fun c => ?core, fun l side => rfl⟩
  case stack => exact ⟨rfl, rfl, rfl, rfl, fun _ => ⟨rfl, rfl⟩⟩
  case ctx => exact ⟨rfl, rfl, rfl, rfl, rfl, rfl, rfl, rfl⟩
  case core => exact ⟨rfl, rfl, rfl, rfl, rfl, fun _ => rfl, fun _ => rfl⟩

end Sys2Proof.Machine

/-! SUPPORT. Locks: LOCKQ at its node, LOCK_GRANT and LOCKR (R370, R380). -/

namespace Sys2Proof.Machine

variable {s : State} {core id : Nat} {c : Cmd} {f : Fields}

/-! ## UPDATE_APPLY of the commands of an owner node (R367, R434) -/

/-- UPDATE_APPLY of a command of the unit that is no barrier's. -/
theorem exec_updateApply_node (hc : (s.core core).cmd? id = some c) (hf : c.fields = some f) (hb : isBarrier c.instr = false) :
    exec (.updateApply core id) s = .next (s.nodeStep c f) := by
  show execUpdateApply core id s = _
  simp [execUpdateApply, hc, hf, hb]

/-- A LOCKQ on its way to its node, where its port lets it act. -/
theorem State.nodeStep_lockq (hi : c.instr = .lockq f) (hphase : c.phase = .covered) (hmay : s.syncMay c = true) :
    s.nodeStep c f = s.lockqWork c f := by
  simp [State.nodeStep, hi, hphase, hmay]

/-- A LOCKR where its port lets it act. -/
theorem State.nodeStep_lockr (hi : c.instr = .lockr f) (hmay : s.syncMay c = true) : s.nodeStep c f = s.lockrWork c f := by
  simp [State.nodeStep, hi, hmay]

/-! ## The lock bank (R370, R380) -/

/-- A LOCKQ whose target has a place joins the waiters of its entry. -/
theorem State.lockqWork_fine {x : Spot} (hreach : s.targetReach c f true = .fine) (hspot : (s.targetUse c f).spotOf c f = .ok x) :
    s.lockqWork c f =
      (let u := (s.targetUse c f).modCmd c.fire.core c.id (fun c => { c with phase := .queued })
       u.modLock (u.nodeOf c.fire.ctx x) (lockEntry (u.lockAddr c f x) c.fire.ctx) (fun k =>
         { k with waiters := k.waiters ++ [(c.fire.core, c.id)] })) := by
  simp [State.lockqWork, hreach, hspot]

/-- A free entry goes to its next waiting request. -/
theorem exec_lockGrant_grants {node entry : Nat} {rest : List (Nat × Nat)} (hfree : (s.lock node entry).held = none)
    (hwait : (s.lock node entry).waiters = (core, id) :: rest) (hc : (s.core core).cmd? id = some c) (hf : c.fields = some f) :
    exec (.lockGrant node entry) s =
      .next ((s.modLock node entry (fun k => { seq := k.seq + 1, held := some c.fire.ctx, waiters := rest })).answer c f
        (both (c.scalar (s.nodeId node ++ BitVec.ofNat 8 entry ++ (0 : BitVec 8) ++ (s.lock node entry).seq)))) := by
  show execLockGrant node entry s = _
  simp only [execLockGrant, hfree, hwait, hc, hf]
  rfl

section

variable {node : Nat} (hnode : s.tokenNode c.fire.ctx c.fire.l.value = some node)

include hnode

/-- LOCKR with the token of the grant frees the entry, once its covered set is performed. -/
theorem State.lockrWork_frees (hheld : (s.lock node (c.fire.l.value.extractLsb' 40 8).toNat).held ≠ none)
    (hseq : (s.lock node (c.fire.l.value.extractLsb' 40 8).toNat).seq = c.fire.l.value.extractLsb' 0 32 + 1)
    (hcov : s.covered c = true) (hab : c.aborted = false) :
    s.lockrWork c f =
      (s.modLock node (c.fire.l.value.extractLsb' 40 8).toNat (fun k => { k with held := none })).answer c f [(false, c.scalar 0)] := by
  have hown : ((s.lock node (field c.fire.l.value 40 8).toNat).held.isNone ||
      (s.lock node (field c.fire.l.value 40 8).toNat).seq != field c.fire.l.value 0 32 + 1) = false := by
    simp only [field, hseq, bne_self_eq_false, Bool.or_false, Option.isNone_eq_false_iff]
    exact Option.isSome_iff_ne_none.mpr hheld
  unfold State.lockrWork
  simp only [hnode, hown, hcov, hab]
  rfl

/-- LOCKR of an entry that is not held under the token's sequence raises LOCK_STATE. -/
theorem State.lockrWork_state (h : (s.lock node (c.fire.l.value.extractLsb' 40 8).toNat).held = none ∨
      (s.lock node (c.fire.l.value.extractLsb' 40 8).toNat).seq ≠ c.fire.l.value.extractLsb' 0 32 + 1) :
    s.lockrWork c f = s.failWith c f .lockState 0 0 0 := by
  have hlost : ((s.lock node (field c.fire.l.value 40 8).toNat).held.isNone ||
      (s.lock node (field c.fire.l.value 40 8).toNat).seq != field c.fire.l.value 0 32 + 1) = true := by
    rw [Bool.or_eq_true, Option.isNone_iff_eq_none, bne_iff_ne]
    exact h
  unfold State.lockrWork
  simp only [hnode, hlost, if_true]

end

/-- Settles O39: each clause is the work of the command at its node, reached through UPDATE_APPLY or LOCK_GRANT. -/
theorem lockResults : Obligations.LockResults := by
  unfold Obligations.LockResults
  refine ⟨?queue, ?grant, ?release⟩
  case queue =>
    intro s core id c f x hc hi hphase hmay hreach hspot
    have hf : c.fields = some f := by rw [Cmd.fields, hi]; rfl
    dsimp only
    rw [exec_updateApply_node hc hf (by rw [hi]; rfl), State.nodeStep_lockq hi hphase hmay, State.lockqWork_fine hreach hspot]
  case grant =>
    intro s node entry core id rest c f hfree hwait hc hf
    exact exec_lockGrant_grants hfree hwait hc hf
  case release =>
    intro s core id node c f hc hi hmay hab hcov hnode
    have hf : c.fields = some f := by rw [Cmd.fields, hi]; rfl
    dsimp only
    rw [exec_updateApply_node hc hf (by rw [hi]; rfl), State.nodeStep_lockr hi hmay]
    refine ⟨fun hheld hseq => ?_, fun hbad => ?_⟩
    · rw [State.lockrWork_frees hnode hheld hseq hcov hab]; rfl
    · rw [State.lockrWork_state hnode hbad]

end Sys2Proof.Machine

/-! SUPPORT. Transaction barriers: what UPDATE_APPLY makes of each command at the barrier's own core, the release of waiters and TBWAIT_RETRY (R359 to R363, R374 to R376). -/

namespace Sys2Proof.Machine

variable {s : State} {core id : Nat} {c : Cmd} {f : Fields} {v : View}

/-! ## Commands that reach their barrier (R357, R360) -/

/-- A handle that passes R51 names a core of the region. -/
theorem State.phys_of_view {ctx : Nat} {h : U64} {sh : Bool} (hv : s.view ctx h sh = .ok v) : (s.ctx ctx).phys (hVcore h) = some v.core := by
  have hf := State.viewFlight_of_view hv
  unfold State.viewFlight at hf
  obtain ⟨k, hk, rfl⟩ := Option.map_eq_some_iff.mp hf
  exact hk

section

variable (hcov : s.covered c = true) (hv : s.view c.fire.ctx c.fire.l.value true = .ok v) (hcore : v.core = c.fire.core)

include hcov hv hcore

/-- A barrier command at the barrier's own core does its work once its covered set is performed. -/
theorem State.barrierStep_own : s.barrierStep c f = s.barrierWork c f v := by
  have hp := State.phys_of_view hv
  rw [hcore] at hp
  simp [State.barrierStep, hcov, hp, State.viewFlight_of_view hv]

/-- UPDATE_APPLY of a barrier command that waits for no room of the pool. -/
theorem exec_updateApply_barrier (hc : (s.core core).cmd? id = some c) (hf : c.fields = some f) (hb : isBarrier c.instr = true) (hphase : c.phase = .covered) :
    exec (.updateApply core id) s = .next (s.barrierWork c f v) := by
  show execUpdateApply core id s = _
  simp [execUpdateApply, hc, hf, hb, hphase, State.barrierStep_own hcov hv hcore]

/-- TBWAIT_RETRY of a TBWAIT that found the pool full. -/
theorem exec_tbwaitRetry_queued (hc : (s.core core).cmd? id = some c) (hi : c.instr = .tbwait f) (hphase : c.phase = .queued) :
    exec (.tbwaitRetry core id) s = .next (s.barrierWork c f v) := by
  show execTbwaitRetry core id s = _
  simp [execTbwaitRetry, hc, hi, hphase, State.barrierStep_own hcov hv hcore]

end

/-! ## Each command at its barrier (R360 to R363) -/

section

variable (hact : v.barAt ∈ v.tile.bars)

/-- TBINIT of an active barrier. -/
theorem State.barrierWork_tbinit_active (hi : c.instr = .tbinit f) (hact : v.barAt ∈ v.tile.bars) :
    s.barrierWork c f v = s.failWith c f .tbActive 0 0 0 := by
  simp [State.barrierWork, hi, hact]

/-- TBINIT of an inactive barrier. -/
theorem State.barrierWork_tbinit (hi : c.instr = .tbinit f) (hact : v.barAt ∉ v.tile.bars) :
    s.barrierWork c f v =
      ((s.setTxBar v.core v.barAt {
          phase := 0, parr := c.aux % 2 ^ 20, psec := 0, arst := c.aux % 2 ^ 20, act := true, ovr := false, strict := c.aux.testBit 20,
          owner := (s.core v.core).vcore.toNat, wq := 0xFFFF }).modTile v.core v.index (fun t => { t with bars := t.bars ++ [v.barAt] })).answer
        c f (both (c.pass c.fire.l)) := by
  simp [State.barrierWork, hi, hact, bitOf_eq_testBit, State.vcoreOf]

/-- TBEXP, TBWAIT and TBINV of an inactive barrier. -/
theorem State.barrierWork_inactive (hi : c.instr = .tbexp f ∨ c.instr = .tbwait f ∨ c.instr = .tbinv f) (hact : v.barAt ∉ v.tile.bars) :
    s.barrierWork c f v = s.failWith c f .tbInactive 0 0 0 := by
  rcases hi with hi | hi | hi <;> simp [State.barrierWork, hi, hact]

include hact

/-- TBEXP adds its sectors to PSEC. -/
theorem State.barrierWork_tbexp (hi : c.instr = .tbexp f) (hfit : (s.txBar v.core v.barAt).psec + c.aux < 2 ^ 31) :
    s.barrierWork c f v =
      (s.setTxBar v.core v.barAt { s.txBar v.core v.barAt with psec := (s.txBar v.core v.barAt).psec + c.aux }).answer c f
        [(false, c.scalar (BitVec.ofNat 64 (s.txBar v.core v.barAt).phase)), (true, c.pass c.fire.l)] := by
  have hroom : ¬(2 ^ 31 ≤ (s.txBar v.core v.barAt).psec + (c.aux : Int)) := by omega
  simp only [State.barrierWork, hi, List.contains_iff_mem.mpr hact, hroom]
  rfl

/-- TBARR.ARR, TBARR.TX and TBARR.ARRTX of an active barrier. -/
theorem State.barrierWork_tbarrArr (hi : c.instr = .tbarrArr f) :
    s.barrierWork c f v = s.tbarrWork c f v.core v.barAt (s.txBar v.core v.barAt) true none := by
  simp [State.barrierWork, hi, hact]

theorem State.barrierWork_tbarrTx (hi : c.instr = .tbarrTx f) :
    s.barrierWork c f v = s.tbarrWork c f v.core v.barAt (s.txBar v.core v.barAt) false (some c.aux) := by
  simp [State.barrierWork, hi, hact]

theorem State.barrierWork_tbarrArrtx (hi : c.instr = .tbarrArrtx f) :
    s.barrierWork c f v = s.tbarrWork c f v.core v.barAt (s.txBar v.core v.barAt) true (some c.aux) := by
  simp [State.barrierWork, hi, hact]

theorem State.barrierWork_tbwait (hi : c.instr = .tbwait f) :
    s.barrierWork c f v = s.tbwaitWork c f v.core v.barAt (s.txBar v.core v.barAt) := by
  simp [State.barrierWork, hi, hact]

theorem State.barrierWork_tbinv (hi : c.instr = .tbinv f) :
    s.barrierWork c f v = (s.tbInvalidate v.core v.index v.barAt).answer c f (both (c.pass c.fire.l)) := by
  simp [State.barrierWork, hi, hact]

end

/-! ## Arrivals and sectors (R361, R362, R375) -/

section

variable {b : TxBar} {off : Nat}

/-- An arrival that PARR has no room for. -/
theorem State.tbarrWork_noArrival {n : Option Nat} (h : b.parr = 0) :
    s.tbarrWork c f core off b true n = s.failWith c f .tbArrival c.fire.l.value.toNat 0 0 := by
  simp [State.tbarrWork, h]

/-- An arrival without sectors. -/
theorem State.tbarrWork_arrival (h : b.parr ≠ 0) :
    s.tbarrWork c f core off b true none =
      (s.phaseDone core off { b with parr := b.parr - 1 }).answer c f [(false, c.scalar (BitVec.ofNat 64 b.phase)), (true, c.pass c.fire.l)] := by
  simp [State.tbarrWork, h]

/-- Sectors that PSEC has are taken from it, STRICT or not. -/
theorem TxBar.tx_fits {n : Nat} (h : (n : Int) ≤ b.psec) : b.tx n = ({ b with psec := b.psec - n }, none, false) := by
  have hstrict : ¬(b.psec < n) := by omega
  have hover : ¬(b.psec - n < 0) := by omega
  simp [TxBar.tx, hstrict, hover]

/-- Sectors that PSEC has, without an arrival. -/
theorem State.tbarrWork_sectors {n : Nat} {r : Val} (hr : c.fire.r = some r) (h : (n : Int) ≤ b.psec) :
    s.tbarrWork c f core off b false (some n) =
      (s.phaseDone core off { b with psec := b.psec - n }).answer c f
        [(false, c.scalar (BitVec.ofNat 64 b.phase)), (true, c.pass r)] := by
  simp [State.tbarrWork, theVal, hr, TxBar.tx_fits h]

/-- Sectors that PSEC has, with an arrival. -/
theorem State.tbarrWork_arrivalSectors {n : Nat} {r : Val} (hr : c.fire.r = some r) (harr : b.parr ≠ 0) (h : (n : Int) ≤ b.psec) :
    s.tbarrWork c f core off b true (some n) =
      (s.phaseDone core off { b with parr := b.parr - 1, psec := b.psec - n }).answer c f
        [(false, c.scalar (BitVec.ofNat 64 b.phase)), (true, c.pass r)] := by
  simp [State.tbarrWork, theVal, hr, harr, TxBar.tx_fits (b := { b with parr := b.parr - 1 }) h]

/-! ## Waiters (R363, R376) -/

/-- TBWAIT for a phase that is not in progress answers at once. -/
theorem State.tbwaitWork_past (h : b.phase ≠ c.aux) : s.tbwaitWork c f core off b = s.answer c f (both (c.pass c.fire.l)) := by
  simp [State.tbwaitWork, h]

/-- A TBWAIT joins the waiters of its barrier that stand in a pool with room. -/
theorem State.tbwaitWork_joins (h : b.phase = c.aux) (hroom : (s.core core).waiters.length < 1024)
    (hother : ∃ w ∈ (s.core core).waiters, w.bar = off ∧ w.released = false) :
    s.tbwaitWork c f core off b = (s.finish c true).modCore core (fun k => { k with waiters := k.waiters ++
      [{ bar := off, phase := BitVec.ofNat 4 b.phase, released := false, d0 := f.d0, d1 := f.d1, fire := c.fire }] }) := by
  have hfirst : (s.core core).waiters.all (fun w => w.bar != off || w.released) = false := by
    obtain ⟨w, hw, hbar, hrel⟩ := hother
    exact List.all_eq_false.mpr ⟨w, hw, by simp [hbar, hrel]⟩
  have hlen : ¬(1024 ≤ (s.core core).waiters.length) := by omega
  simp [State.tbwaitWork, h, hlen, hfirst]

end

/-- TB_WAITER_RELEASE of a waiter whose object is not quarantined. -/
theorem exec_tbWaiterRelease_sends {w : Waiter} {rest : List Waiter} (ht : takeReleased (s.core core).waiters = some (w, rest))
    (hq : w.fire.obj ∉ (s.core w.fire.core).quar) :
    exec (.tbWaiterRelease core) s = .next ((s.modCore core (fun k => { k with waiters := rest })).emitBoth w.fire (Fields.ofDests w.d0 w.d1)
      { w.fire.l with prov := 7, lin := Lineage.none }) := by
  have hq' : ((s.modCore core (fun k => { k with waiters := rest })).core w.fire.core).quar.contains w.fire.obj = false := by
    rw [List.contains_eq_mem, decide_eq_false_iff_not, State.core_modCore]
    split
    · rename_i h; rw [h]; exact hq
    · exact hq
  show execTbWaiterRelease core s = _
  simp only [execTbWaiterRelease, ht, hq']
  rfl

/-! ## The obligation -/

/-- Settles O40: every command finds its barrier at its own core and does its work there; an arrival or its sectors leave a barrier of which
`phaseDone` says whether the next phase begins. -/
theorem transactionBarrierResults : Obligations.TransactionBarrierResults := by
  unfold Obligations.TransactionBarrierResults
  refine ⟨fun s core id c f v hc hown hphase hcov hv hcore => ?commands, fun s core => ⟨fun w rest => exec_tbWaiterRelease_sends, ?retry⟩⟩
  case commands =>
    subst hcore
    have does (i : Instr) (hi : c.instr = i) (hf : i.form.map (fun x => x.2.2) = some f) (hb : isBarrier i = true) {u : State}
        (hwork : s.barrierWork c f v = u) : exec (.updateApply v.core id) s = .next u := by
      subst hi hwork
      exact exec_updateApply_barrier hcov hv hown.symm hc hf hb hphase
    intro off b active pass l phase next
    refine ⟨fun hi hact => ?initActive, fun hi hact => ?init, fun i hmem hi hact => ?inactive, fun hact => ⟨fun hi hfit => ?exp, fun hi harr => ?arr,
      fun hi harr => ?noArr, fun r hr hsec => ⟨fun hi => ?tx, fun hi harr => ?arrtx⟩, fun hi hne => ?past, fun hi heq hroom hother => ?joins, fun hi => ?inv⟩⟩
    case initActive => exact does _ hi rfl rfl (State.barrierWork_tbinit_active hi hact)
    case init => exact does _ hi rfl rfl (State.barrierWork_tbinit hi hact)
    case inactive =>
      simp only [List.mem_cons, List.not_mem_nil, or_false] at hmem
      have hf : i.form.map (fun x => x.2.2) = some f := by rcases hmem with rfl | rfl | rfl <;> rfl
      have hb : isBarrier i = true := by rcases hmem with rfl | rfl | rfl <;> rfl
      exact does i hi hf hb (State.barrierWork_inactive (hi ▸ hmem) hact)
    case exp => exact does _ hi rfl rfl (State.barrierWork_tbexp hact hi hfit)
    case arr => exact does _ hi rfl rfl ((State.barrierWork_tbarrArr hact hi).trans (State.tbarrWork_arrival harr))
    case noArr => exact does _ hi rfl rfl ((State.barrierWork_tbarrArr hact hi).trans (State.tbarrWork_noArrival harr))
    case tx => exact does _ hi rfl rfl ((State.barrierWork_tbarrTx hact hi).trans (State.tbarrWork_sectors hr hsec))
    case arrtx => exact does _ hi rfl rfl ((State.barrierWork_tbarrArrtx hact hi).trans (State.tbarrWork_arrivalSectors hr harr hsec))
    case past => exact does _ hi rfl rfl ((State.barrierWork_tbwait hact hi).trans (State.tbwaitWork_past hne))
    case joins =>
      exact ⟨{ bar := off, phase := BitVec.ofNat 4 b.phase, released := false, d0 := f.d0, d1 := f.d1, fire := c.fire }, rfl, rfl, rfl, rfl, rfl, rfl,
        does _ hi rfl rfl ((State.barrierWork_tbwait hact hi).trans (State.tbwaitWork_joins heq hroom hother))⟩
    case inv => exact does _ hi rfl rfl (State.barrierWork_tbinv hact hi)
  case retry =>
    intro id c f v hc hi hphase hcov hown hv hcore hact hne
    subst hcore
    exact (exec_tbwaitRetry_queued hcov hv hown.symm hc hi hphase).trans
      (congrArg Host.Outcome.next ((State.barrierWork_tbwait hact hi).trans (State.tbwaitWork_past hne)))

end Sys2Proof.Machine

/-! SUPPORT. ATOM, RED, CAS and REL at the owner node of their element (R358, R367, R371, R379, R382). -/

namespace Sys2Proof.Machine

variable {s : State} {core id : Nat} {c : Cmd} {f : Fields} {x : Spot}

/-! ## Integers of a type by their patterns (R84) -/

/-- A pattern of w bits is found again from the integer that it is read as. -/
theorem decodeInt_inj {t : EType} {a b : Nat} (ha : a < 2 ^ tyWidth t) (hb : b < 2 ^ tyWidth t) (h : decodeInt t a = decodeInt t b) : a = b := by
  have hmod := (decodeInt_spec t a).2.2
  rw [h, (decodeInt_spec t b).2.2] at hmod
  have hnat : b % 2 ^ tyWidth t = a % 2 ^ tyWidth t := by exact_mod_cast hmod
  rwa [Nat.mod_eq_of_lt ha, Nat.mod_eq_of_lt hb, eq_comm] at hnat

/-- An operand is read by its low bits alone. -/
theorem decodeInt_lowBits (t : EType) (n : Nat) : decodeInt t (n % 2 ^ tyWidth t) = decodeInt t n := by
  simp only [decodeInt_eq, Nat.mod_mod]

/-- The new element of an integer ATOM or RED by FN (R379): the sum modulo 2^w, the lesser, the greater, the bits of both, of either, of one of them,
or the operand. -/
def AtomMakes (t : EType) (fn old r new : Nat) : Prop :=
  (fn = 0 → (new : Int) = (decodeInt t old + decodeInt t r) % 2 ^ tyWidth t) ∧ (fn = 1 → decodeInt t new = min (decodeInt t old) (decodeInt t r)) ∧
  (fn = 2 → decodeInt t new = max (decodeInt t old) (decodeInt t r)) ∧
  (fn = 3 → ∀ k, new.testBit k = (old.testBit k && (r % 2 ^ tyWidth t).testBit k)) ∧
  (fn = 4 → ∀ k, new.testBit k = (old.testBit k || (r % 2 ^ tyWidth t).testBit k)) ∧
  (fn = 5 → ∀ k, new.testBit k = (old.testBit k ^^ (r % 2 ^ tyWidth t).testBit k)) ∧ (fn = 6 → new = r % 2 ^ tyWidth t)

/-- The update of an integer element by FN is the one that its properties say. -/
theorem atomNew_eq {t : EType} {fn old r new : Nat} (rm : Rounding) (h : AtomMakes t fn old r new) (hfn : fn ≤ 6) (hold : old < 2 ^ tyWidth t)
    (hnew : new < 2 ^ tyWidth t) : atomNew fn t rm false old (lowBits t r) = (new, 0) := by
  obtain ⟨hadd, hmin, hmax, hand, hor, hxor, hswap⟩ := h
  have hr : r % 2 ^ tyWidth t < 2 ^ tyWidth t := Nat.mod_lt _ (Nat.two_pow_pos _)
  have hdec : decodeInt t (lowBits t r) = decodeInt t r := decodeInt_lowBits t r
  interval_cases fn
  · have hsum : wrapInt t (decodeInt t old + decodeInt t r) = new := by rw [wrapInt, ← hadd rfl, Int.toNat_natCast]
    simp [atomNew, fitInt, hdec, hsum]
  · have hleast : (if decodeInt t r < decodeInt t old then lowBits t r else old) = new := by
      split
      · exact decodeInt_inj hr hnew (by rw [hmin rfl, hdec]; omega)
      · exact decodeInt_inj hold hnew (by rw [hmin rfl]; omega)
    simp only [atomNew, hdec, hleast]
  · have hmost : (if decodeInt t old < decodeInt t r then lowBits t r else old) = new := by
      split
      · exact decodeInt_inj hr hnew (by rw [hmax rfl, hdec]; omega)
      · exact decodeInt_inj hold hnew (by rw [hmax rfl]; omega)
    simp only [atomNew, hdec, hmost]
  · exact congrArg (·, 0) (Nat.eq_of_testBit_eq fun k => by rw [Nat.testBit_and, hand rfl, lowBits])
  · exact congrArg (·, 0) (Nat.eq_of_testBit_eq fun k => by rw [Nat.testBit_or, hor rfl, lowBits])
  · exact congrArg (·, 0) (Nat.eq_of_testBit_eq fun k => by rw [Nat.testBit_xor, hxor rfl, lowBits])
  · exact congrArg (·, 0) (hswap rfl).symm

/-- FADD of finite elements with a sum that is not 0 is the rounding of that sum (R95, R379). -/
theorem atomNew_fadd {t : EType} {old v : Nat} {a b : Rat} (rm : Rounding) (sat : Bool) (ha : floatRat t old = some a) (hb : floatRat t v = some b)
    (hsum : a + b ≠ 0) :
    ∃ p q : Nat, 0 < p ∧ 0 < q ∧ |a + b| = (p : Rat) / q ∧ atomNew 7 t rm sat old v = roundTo t rm false 0 (.mag (decide (a + b < 0)) (.ratio p q)) := by
  obtain ⟨na, n, u, hl, rfl⟩ := floatRat_eq_some.mp ha
  obtain ⟨nb, m, w, hr, rfl⟩ := floatRat_eq_some.mp hb
  obtain ⟨e, he, -, hmag⟩ := numAdd_fin rm na nb n u m w
  obtain ⟨p, q, hp, hq, habs, rfl⟩ := hmag hsum
  refine ⟨p, q, hp, hq, habs, ?_⟩
  simp only [atomNew, hl, hr, he, rounded_noFlag]

/-! ## One read and one write at the owner node (R367) -/

/-- Flags leave what is on its way to replicas. -/
@[simp] theorem State.unperformed_setFlags (ctx : Nat) (fl : Flags) (n k : Nat) : (s.setFlags ctx fl).unperformed n k = s.unperformed n k := by
  unfold State.setFlags
  split <;> rfl

@[simp] theorem State.setFlags_zero (ctx : Nat) : s.setFlags ctx 0 = s := if_pos rfl

@[simp] theorem theVal_value (v : Option Val) : (theVal v).value = (v.map Val.value).getD 0 := by cases v <;> rfl

/-- The operators that update one element. -/
def isUpdate : Instr → Bool
  | .atom _ | .red _ | .cas _ | .rel _ => true
  | _ => false

/-- UPDATE_APPLY of an update that waits for nothing any more. -/
theorem exec_updateApply_update (hc : (s.core core).cmd? id = some c) (hf : c.fields = some f) (hi : isUpdate c.instr = true)
    (hphase : c.phase = .covered ∨ c.phase = .owner) (hmay : s.syncMay c = true) (hab : c.aborted = false) (hcov : s.covered c = true) :
    exec (.updateApply core id) s = .next (s.updateWork c f) := by
  have hstep : s.updateStep c f = s.updateWork c f := by
    rcases hphase with h | h <;> simp [State.updateStep, h, hcov, hab]
  have hnode : s.nodeStep c f = s.updateStep c f ∧ isBarrier c.instr = false := by
    unfold isUpdate at hi
    split at hi
    all_goals simp_all [State.nodeStep, isBarrier]
  rw [exec_updateApply_node hc hf hnode.2, hnode.1, hstep]

section

variable (hreach : s.targetReach c f true = .fine) (hspot : (s.targetUse c f).spotOf c f = .ok x)
  (hup : (s.targetUse c f).spotUp c.fire.core x = true) (hleft : c.phase = .owner ∨ ∀ y, c.instr ≠ .red y)

include hreach hspot hup hleft

/-- An update at its place, whose element every replica holds at once. -/
theorem State.updateWork_performed {old new : Nat} {fl : Flags} {writes : Bool}
    (hold : leNat ((s.targetUse c f).spotRead x (syncWidth c.instr f)) % 2 ^ tyWidth f.ty = old)
    (hnew : updateOf c.instr f ((c.fire.r.map Val.value).getD 0).toNat old = (new, fl, writes))
    (hdone : (if writes then (s.targetUse c f).spotWrite x (natLe (syncWidth c.instr f) new) c else s.targetUse c f).unperformed c.fire.core c.id = false) :
    s.updateWork c f =
      ((if writes then (s.targetUse c f).spotWrite x (natLe (syncWidth c.instr f) new) c else s.targetUse c f).setFlags c.fire.ctx fl).updateDone c f old := by
  unfold State.updateWork
  simp only [hreach, hspot, lowBits, hold, theVal_value, hnew, State.unperformed_setFlags]
  refine (if_neg fun h => ?_).trans ?_
  · obtain ⟨hred, hcovered⟩ := Bool.and_eq_true_iff.mp h
    rcases hleft with howner | hno
    · rw [howner] at hcovered; cases hcovered
    · split at hred
      · exact hno _ ‹_›
      · cases hred
  · rw [if_neg (by simp [hup]), if_neg (by simp [hdone])]

end

/-! ## The tokens of an update (R371, R379, R382) -/

section

variable {old r : Nat}

theorem updateOf_atom : updateOf (.atom f) f r old =
    ((atomNew f.fn.toNat f.ty f.rm f.sat old (lowBits f.ty r)).1, (atomNew f.fn.toNat f.ty f.rm f.sat old (lowBits f.ty r)).2, true) := rfl

theorem updateOf_red : updateOf (.red f) f r old =
    ((atomNew f.fn.toNat f.ty f.rm f.sat old (lowBits f.ty r)).1, (atomNew f.fn.toNat f.ty f.rm f.sat old (lowBits f.ty r)).2, true) := rfl

theorem State.updateDone_rel (hi : c.instr = .rel f) : s.updateDone c f old = s.answer c f [(false, c.scalar 0)] := by
  simp only [State.updateDone, Cmd.updateOut, hi]

theorem State.updateDone_cas_equal (hi : c.instr = .cas f) (h : old = lowBits f.ty (((c.fire.r.map Val.value).getD 0).toNat / 2 ^ 32)) :
    s.updateDone c f old = s.answer c f [(false, c.scalar (extend f.ty old)), (true, c.scalar 1)] := by
  simp only [State.updateDone, Cmd.updateOut, hi, theVal_value, if_pos h]

theorem State.updateDone_cas_differ (hi : c.instr = .cas f) (h : old ≠ lowBits f.ty (((c.fire.r.map Val.value).getD 0).toNat / 2 ^ 32)) :
    s.updateDone c f old = s.answer c f [(false, c.scalar (extend f.ty old)), (true, c.scalar 0)] := by
  simp only [State.updateDone, Cmd.updateOut, hi, theVal_value, if_neg h]

theorem State.updateDone_atom (hi : c.instr = .atom f) :
    s.updateDone c f old = s.answer c f [(false, c.scalar (extend f.ty old)), (true, c.scalar (extend f.ty old))] := by
  simp only [State.updateDone, Cmd.updateOut, hi, both]

theorem State.updateDone_red (hi : c.instr = .red f) :
    s.updateDone c f old = (s.finish c true).modCtx c.fire.ctx (fun k => { k with redcnt := k.redcnt - 1 }) := by
  simp only [State.updateDone, hi]

end

/-! ## The obligation -/

/-- Settles O38: the update is one read and one write at its place, of the element that its operator makes of the old one, and its end gives the
tokens of its operator. -/
theorem updateResults : Obligations.UpdateResults := by
  unfold Obligations.UpdateResults
  intro s core id c f x hc hmay hab hcov hreach hspot u n w old r put out hup hread hput
  have hold : old < 2 ^ tyWidth f.ty := Nat.mod_lt _ (Nat.two_pow_pos _)
  have works (i : Instr) (hi : c.instr = i) (hupd : isUpdate i = true) (hf : i.form.map (fun y => y.2.2) = some f) (hw : syncWidth i f = n)
      (hphase : c.phase = .covered ∧ (∀ y, i ≠ .red y) ∨ c.phase = .owner) {new : Nat} {fl : Flags} {writes : Bool}
      (hnew : updateOf i f r old = (new, fl, writes)) :
      exec (.updateApply core id) s = .next (((if writes then put new else u).setFlags c.fire.ctx fl).updateDone c f old) := by
    subst hi
    have hdone : (if writes then put new else u).unperformed c.fire.core c.id = false := by cases writes; exacts [hread, hput new]
    have hat := State.updateWork_performed (f := f) (x := x) hreach hspot hup (hphase.symm.imp_right And.right) (by rw [hw]) hnew (by rw [hw]; exact hdone)
    rw [hw] at hat
    rw [exec_updateApply_update hc hf hupd (hphase.imp_left And.left) hmay hab hcov, hat]
  refine ⟨fun hi hphase => ?rel, fun hi hphase => ⟨fun heq => ?equal, fun hne => ?differ⟩, fun fn new hint hsat hfn hmakes hle hnew => ?int,
    fun a b hfn hi hphase ht ha hb hsum => ?float⟩
  case rel =>
    rw [works _ hi rfl rfl rfl (.inl ⟨hphase, fun _ => nofun⟩) rfl, State.updateDone_rel hi, State.setFlags_zero]
    rfl
  case equal =>
    rw [works _ hi rfl rfl rfl (.inl ⟨hphase, fun _ => nofun⟩) (if_pos heq), State.updateDone_cas_equal hi heq, State.setFlags_zero]
    rfl
  case differ =>
    rw [works _ hi rfl rfl rfl (.inl ⟨hphase, fun _ => nofun⟩) (if_neg hne), State.updateDone_cas_differ hi hne, State.setFlags_zero]
    rfl
  case int =>
    have hatom : atomNew f.fn.toNat f.ty f.rm f.sat old (lowBits f.ty r) = (new, 0) := by
      rw [hfn, hsat]
      exact atomNew_eq f.rm hmakes hle hold hnew
    have hupd (i : Instr) (hi : i = .atom f ∨ i = .red f) : updateOf i f r old = (new, 0, true) := by
      rcases hi with rfl | rfl
      · rw [updateOf_atom, hatom]
      · rw [updateOf_red, hatom]
    refine ⟨fun hi hphase => ?_, fun hi hphase => ?_⟩
    · rw [works _ hi rfl rfl rfl (.inl ⟨hphase, fun _ => nofun⟩) (hupd _ (.inl rfl)), State.updateDone_atom hi, State.setFlags_zero]
      rfl
    · rw [works _ hi rfl rfl rfl (.inr hphase) (hupd _ (.inr rfl)), State.updateDone_red hi, State.setFlags_zero]
      rfl
  case float =>
    obtain ⟨p, q, hp, hq, habs, hadd⟩ := atomNew_fadd f.rm f.sat ha hb hsum
    refine ⟨p, q, hp, hq, habs, ?_⟩
    have hatom : updateOf (.atom f) f r old = ((roundTo f.ty f.rm false 0 (.mag (decide (a + b < 0)) (.ratio p q))).1,
        (roundTo f.ty f.rm false 0 (.mag (decide (a + b < 0)) (.ratio p q))).2, true) := by
      rw [updateOf_atom, hfn, ← hadd]
      rfl
    rw [works _ hi rfl rfl rfl (.inl ⟨hphase, fun _ => nofun⟩) hatom, State.updateDone_atom hi]
    rfl

end Sys2Proof.Machine

/-! SUPPORT. BAR and COLL: arrivals at the channels of a scope and the end of a generation (R364 to R366, R377, R383). -/

namespace Sys2Proof.Machine

variable {s t : State} {core id : Nat} {c : Cmd} {f : Fields} {v : View}

/-! ## Channels (R364) -/

/-- The channel with a number of a scope as a context has it, for BAR or for COLL. -/
def ScopeChan.isAt (inst ctx : Nat) (coll : Bool) (chan : Nat) (x : ScopeChan) : Bool :=
  x.inst == inst && x.ctx == ctx && x.coll == coll && x.chan == chan

/-- A channel before its first arrival. -/
def ScopeChan.opened (inst ctx : Nat) (coll : Bool) (chan n sig : Nat) : ScopeChan :=
  { inst := inst, ctx := ctx, coll := coll, chan := chan, n := n, sig := sig, arrivals := [] }

section

variable {inst ctx chan n sig : Nat} {coll : Bool} {me : Nat × Nat × Nat × List Byte} {o : ScopeChan}

/-- What an arrival makes of a channel, by the channel as it finds it. -/
theorem State.joinChan_eq (ho : (s.chans.find? (ScopeChan.isAt inst ctx coll chan)).getD (ScopeChan.opened inst ctx coll chan n sig) = o) :
    s.joinChan inst ctx coll chan n sig me =
      if o.n ≠ n ∨ o.sig ≠ sig ∨ (coll && o.arrivals.any (fun a => a.2.2.1 == me.2.2.1)) then none
      else if o.arrivals.length + 1 = n then
        some ({ s with chans := s.chans.filter (fun y => !ScopeChan.isAt inst ctx coll chan y) }, some { o with arrivals := o.arrivals ++ [me] })
      else
        some ({ s with chans := s.chans.filter (fun y => !ScopeChan.isAt inst ctx coll chan y) ++ [{ o with arrivals := o.arrivals ++ [me] }] }, none) := by
  subst ho
  unfold State.joinChan
  simp only [List.length_append, List.length_singleton]
  rfl

/-- An arrival that does not agree with those before it, or of a rank that has arrived. -/
theorem State.joinChan_mismatch (ho : s.chans.find? (ScopeChan.isAt inst ctx coll chan) = some o)
    (h : o.n ≠ n ∨ o.sig ≠ sig ∨ (coll = true ∧ ∃ a ∈ o.arrivals, a.2.2.1 = me.2.2.1)) : s.joinChan inst ctx coll chan n sig me = none := by
  rw [State.joinChan_eq (o := o) (by rw [ho]; rfl), if_pos]
  simpa using h

section

variable (ho : s.chans.find? (ScopeChan.isAt inst ctx coll chan) = some o) (hn : o.n = n) (hsig : o.sig = sig)
  (hrank : coll = true → ∀ a ∈ o.arrivals, a.2.2.1 ≠ me.2.2.1)

include ho hn hsig hrank

/-- An arrival that agrees but does not make N waits in the channel. -/
theorem State.joinChan_waits (h : o.arrivals.length + 1 ≠ n) :
    s.joinChan inst ctx coll chan n sig me =
      some ({ s with chans := s.chans.filter (fun y => !ScopeChan.isAt inst ctx coll chan y) ++ [{ o with arrivals := o.arrivals ++ [me] }] }, none) := by
  rw [State.joinChan_eq (o := o) (by rw [ho]; rfl), if_neg, if_neg h]
  simp only [hn, hsig, ne_eq, not_true_eq_false, false_or, Bool.and_eq_true, List.any_eq_true, beq_iff_eq, not_and, not_exists]
  exact hrank

/-- The arrival that makes N ends the generation. -/
theorem State.joinChan_ends (h : o.arrivals.length + 1 = n) :
    s.joinChan inst ctx coll chan n sig me =
      some ({ s with chans := s.chans.filter (fun y => !ScopeChan.isAt inst ctx coll chan y) }, some { o with arrivals := o.arrivals ++ [me] }) := by
  rw [State.joinChan_eq (o := o) (by rw [ho]; rfl), if_neg, if_pos h]
  simp only [hn, hsig, ne_eq, not_true_eq_false, false_or, Bool.and_eq_true, List.any_eq_true, beq_iff_eq, not_and, not_exists]
  exact hrank

end

section

variable (ho : s.chans.find? (ScopeChan.isAt inst ctx coll chan) = none)

include ho

/-- The first arrival of several waits in the channel. -/
theorem State.joinChan_opens (h : n ≠ 1) :
    s.joinChan inst ctx coll chan n sig me =
      some ({ s with chans := s.chans.filter (fun y => !ScopeChan.isAt inst ctx coll chan y) ++
        [{ inst := inst, ctx := ctx, coll := coll, chan := chan, n := n, sig := sig, arrivals := [me] }] }, none) := by
  rw [State.joinChan_eq (o := ScopeChan.opened inst ctx coll chan n sig) (by rw [ho]; rfl), if_neg (by simp [ScopeChan.opened]), if_neg (by simpa [ScopeChan.opened] using h.symm)]
  rfl

/-- The only arrival of a generation ends it. -/
theorem State.joinChan_alone (h : n = 1) :
    s.joinChan inst ctx coll chan n sig me =
      some ({ s with chans := s.chans.filter (fun y => !ScopeChan.isAt inst ctx coll chan y) },
        some { inst := inst, ctx := ctx, coll := coll, chan := chan, n := n, sig := sig, arrivals := [me] }) := by
  rw [State.joinChan_eq (o := ScopeChan.opened inst ctx coll chan n sig) (by rw [ho]; rfl), if_neg (by simp [ScopeChan.opened]), if_pos (by simp [ScopeChan.opened, h])]
  rfl

end

/-- The arrival of a command is that at the channel of its scope. -/
theorem State.arriveAt_eq {rank : Nat} {bs : List Byte} (h : s.instanceOf c f coll = some (inst, ctx)) :
    s.arriveAt c f coll sig rank bs = s.joinChan inst ctx coll (chanOf f) (arrivalsOf f) sig (c.fire.core, c.id, rank, bs) := by
  simp only [State.arriveAt, h]

end

/-! ## BAR_ARRIVAL (R377) -/

section

variable (hc : (s.core core).cmd? id = some c) (hi : c.instr = .bar f) (hphase : c.phase = .covered) (hcov : s.covered c = true)

include hc hi hphase hcov

theorem exec_barArrival_mismatch (h : s.arriveAt c f false 0 0 [] = none) : exec (.barArrival core id) s = .next (s.failWith c f .barMismatch 0 0 0) := by
  show execBarArrival core id s = _
  simp [execBarArrival, hc, hi, hphase, hcov, h]

theorem exec_barArrival_waits (h : s.arriveAt c f false 0 0 [] = some (t, none)) :
    exec (.barArrival core id) s = .next (t.modCmd core id (fun c => { c with phase := .channel })) := by
  show execBarArrival core id s = _
  simp [execBarArrival, hc, hi, hphase, hcov, h]

theorem exec_barArrival_ends {x : ScopeChan} (h : s.arriveAt c f false 0 0 [] = some (t, some x)) :
    exec (.barArrival core id) s = .next (t.barEnd x) := by
  show execBarArrival core id s = _
  simp [execBarArrival, hc, hi, hphase, hcov, h]

end

/-- The end of a generation reaches a command that is still there. -/
theorem State.endArrival_cmd {rank : Nat} {bs : List Byte} {e : Option (List Nat × BitVec 6)} {k : State → Cmd → Fields → State}
    (hc : (s.core core).cmd? id = some c) (hf : c.fields = some f) : s.endArrival (core, id, rank, bs) e k = k s c f := by
  simp only [State.endArrival, hc, hf]

/-- A generation of BAR with one arrival answers its command. -/
theorem State.barEnd_single {x : ScopeChan} {rank : Nat} {bs : List Byte} (hx : x.arrivals = [(core, id, rank, bs)])
    (hc : (s.core core).cmd? id = some c) (hf : c.fields = some f) : s.barEnd x = s.answer c f (both (c.pass c.fire.l)) := by
  rw [State.barEnd, hx, List.foldl_cons, List.foldl_nil, State.endArrival_cmd hc hf]

/-! ## COLL_ARRIVAL (R366, R383) -/

section

variable (hc : (s.core core).cmd? id = some c) (hi : c.instr = .coll f) (hphase : c.phase = .covered) (hcov : s.covered c = true)
  (hv : s.collView c = some v) {rank : Nat} (hrank : optVal c.fire.r = rank)

include hc hi hphase hcov hv hrank

theorem exec_collArrival_mismatch (h : s.arriveAt c f true (collSig f v.tile.cols) rank (packRow f.ty (s.viewRow v 0)) = none) :
    exec (.collArrival core id) s = .next (s.failWith c f .collMismatch 0 0 0) := by
  show execCollArrival core id s = _
  simp [execCollArrival, hc, hi, hphase, hcov, hv, hrank, h]

theorem exec_collArrival_waits (h : s.arriveAt c f true (collSig f v.tile.cols) rank (packRow f.ty (s.viewRow v 0)) = some (t, none)) :
    exec (.collArrival core id) s = .next (t.modCmd core id (fun c => { c with phase := .channel })) := by
  show execCollArrival core id s = _
  simp [execCollArrival, hc, hi, hphase, hcov, hv, hrank, h]

theorem exec_collArrival_ends {x : ScopeChan}
    (h : s.arriveAt c f true (collSig f v.tile.cols) rank (packRow f.ty (s.viewRow v 0)) = some (t, some x)) :
    exec (.collArrival core id) s = .next (t.collEnd f v.tile.cols x) := by
  show execCollArrival core id s = _
  simp [execCollArrival, hc, hi, hphase, hcov, hv, hrank, h]

end

/-! ## The row that a generation of COLL makes (R366) -/

/-- The row of a rank among the arrivals of a generation. -/
def rankRow (t : EType) (cols : Nat) (arrivals : List (Nat × Nat × Nat × List Byte)) (r : Nat) : List Nat :=
  match arrivals.find? (fun a => a.2.2.1 == r) with
  | some a => unpackRow t cols a.2.2.2
  | none => []

theorem rankRow_of_find {t : EType} {cols r : Nat} {l : List (Nat × Nat × Nat × List Byte)} {a : Nat × Nat × Nat × List Byte}
    (h : l.find? (fun a => a.2.2.1 == r) = some a) : rankRow t cols l r = unpackRow t cols a.2.2.2 := by
  rw [rankRow, h]

/-- The row and the flags of a generation. -/
def collOut (f : Fields) (cols : Nat) (x : ScopeChan) : List Nat × Flags :=
  if f.fn.toNat = 5 then (rankRow f.ty cols x.arrivals 0, 0) else collTree f x.n ((List.range x.n).map (rankRow f.ty cols x.arrivals))

/-- A command of COLL takes the row into its view and the flags into its context, and answers with L. -/
def State.collTake (s : State) (out : List Nat × Flags) (c : Cmd) (f : Fields) : State :=
  (match s.collView c with
    | some w => (s.setViewRow w 0 out.1).setFlags c.fire.ctx out.2
    | none => s).answer c f (both (c.pass c.fire.l))

theorem State.collEnd_eq {cols : Nat} {x : ScopeChan} : s.collEnd f cols x =
    x.arrivals.foldl (fun s a => s.endArrival a (some (collOut f cols x)) (fun s c g => s.collTake (collOut f cols x) c g)) s := rfl

/-- Without flags the command takes the row alone. -/
theorem State.collTake_noFlags {out : List Nat} : s.collTake (out, 0) c f =
    (match s.collView c with
      | some w => s.setViewRow w 0 out
      | none => s).answer c f (both (c.pass c.fire.l)) := by
  unfold State.collTake
  cases s.collView c <;> simp only [State.setFlags_zero]

/-- A generation of one arrival without flags gives its command the row. -/
theorem State.collEnd_single {cols rank : Nat} {bs : List Byte} {x : ScopeChan} {out : List Nat} (hx : x.arrivals = [(core, id, rank, bs)])
    (hout : collOut f cols x = (out, 0)) (hv : s.collView c = some v) (hc : (s.core core).cmd? id = some c) (hf : c.fields = some f) :
    s.collEnd f cols x = (s.setViewRow v 0 out).answer c f (both (c.pass c.fire.l)) := by
  rw [State.collEnd_eq, hx, List.foldl_cons, List.foldl_nil, hout, State.endArrival_cmd hc hf, State.collTake_noFlags, hv]

/-- The row of a generation of rank 0 alone is its own. -/
theorem collOut_single {cols : Nat} {bs : List Byte} {x : ScopeChan} (hn : x.n = 1) (hx : x.arrivals = [(core, id, 0, bs)]) :
    collOut f cols x = (unpackRow f.ty cols bs, 0) := by
  have hrow : rankRow f.ty cols x.arrivals 0 = unpackRow f.ty cols bs := by rw [hx]; rfl
  rw [collOut, hn, hrow]
  split
  · rfl
  · show collTree f 1 [rankRow f.ty cols x.arrivals 0] = _
    rw [hrow]
    rfl

/-! ### Integer rows -/

section

variable {a b : List Nat} {g : Nat → Nat → Nat} (h : ∀ x y, collElem f x y = (g x y, 0))

include h

/-- One pass over two rows combines their elements. -/
theorem collPass_two : collPass f [a, b] = ([List.zipWith g a b], 0) := by
  have hflags (l : List (Nat × Nat)) : (l.map (fun p => collElem f p.1 p.2)).foldl (fun (a : Flags) x => a ||| x.2) 0 = 0 := by
    induction l with
    | nil => rfl
    | cons p l ih => simpa [h] using ih
  have helems : ((a.zip b).map (fun p => collElem f p.1 p.2)).map Prod.fst = List.zipWith g a b := by
    rw [List.map_map, List.map_zip_eq_zipWith]
    exact congrFun (congrFun (congrArg List.zipWith (funext fun x => funext fun y => congrArg Prod.fst (h x y))) a) b
  simp only [collPass, joinRow, hflags, helems]
  rfl

/-- The tree of two rows is one pass. -/
theorem collTree_two : collTree f 2 [a, b] = (List.zipWith g a b, 0) := by
  simp only [collTree, collPass_two h]
  rfl

/-- The row of a generation of two, by the rows of its ranks. -/
theorem collOut_pair {cols : Nat} {x : ScopeChan} (hn : x.n = 2) (hfn : f.fn.toNat ≠ 5) (h0 : rankRow f.ty cols x.arrivals 0 = a)
    (h1 : rankRow f.ty cols x.arrivals 1 = b) : collOut f cols x = (List.zipWith g a b, 0) := by
  rw [collOut, if_neg hfn, hn, ← collTree_two h, ← h0, ← h1]
  rfl

end

@[simp] theorem length_unpackRow (t : EType) (n : Nat) (bs : List Byte) : (unpackRow t n bs).length = n := by simp [unpackRow]

/-- An element of an unpacked row has the bits of its type. -/
theorem unpackRow_lt {t : EType} {n j : Nat} {bs : List Byte} (hj : j < n) : (unpackRow t n bs)[j]?.getD 0 < 2 ^ tyWidth t := by
  have hlt (k : Nat) : k % 2 ^ tyWidth t < 2 ^ tyWidth t := Nat.mod_lt _ (Nat.two_pow_pos _)
  simp [unpackRow, hj, hlt]

/-- Rows of one length combined element by element. -/
theorem zipWith_getD {g : Nat → Nat → Nat} {a b : List Nat} {j : Nat} (ha : j < a.length) (hb : j < b.length) :
    (List.zipWith g a b)[j]?.getD 0 = g (a[j]?.getD 0) (b[j]?.getD 0) := by
  simp [ha, hb]

/-- What SUM, OR and AND of COLL make of two patterns of an integer type (R366, R383). -/
def collRules (w : Nat) : List (Nat × (Int → Int → Int → Prop)) :=
  [(0, fun x y z => z % 2 ^ w = (x + y) % 2 ^ w), (3, fun x y z => z.toNat = (x % 2 ^ w).toNat ||| (y % 2 ^ w).toNat),
    (4, fun x y z => z.toNat = (x % 2 ^ w).toNat &&& (y % 2 ^ w).toNat)]

/-- SUM, OR and AND combine two patterns by their rule, in either order, without flags. -/
theorem exists_collElem {e : Int → Int → Int → Prop} (ht : tyFloat f.ty = false) (hsat : f.sat = false)
    (hmem : (f.fn.toNat, e) ∈ collRules (tyWidth f.ty)) :
    ∃ g : Nat → Nat → Nat, (∀ x y, collElem f x y = (g x y, 0)) ∧
      ∀ x y : Nat, x < 2 ^ tyWidth f.ty → y < 2 ^ tyWidth f.ty → e x y (g x y) ∧ e y x (g x y) := by
  have hmod {x : Nat} (hx : x < 2 ^ tyWidth f.ty) : ((x : Int) % 2 ^ tyWidth f.ty).toNat = x := by
    have hcast : ((x : Int) % 2 ^ tyWidth f.ty) = ((x % 2 ^ tyWidth f.ty : Nat) : Int) := by push_cast; rfl
    rw [hcast, Int.toNat_natCast, Nat.mod_eq_of_lt hx]
  simp only [collRules, List.mem_cons, List.not_mem_nil, or_false, Prod.mk.injEq] at hmem
  rcases hmem with ⟨hfn, rfl⟩ | ⟨hfn, rfl⟩ | ⟨hfn, rfl⟩
  · refine ⟨intElem 0x80 f.ty, fun x y => ?_, fun x y _ _ => ?_⟩
    · simp only [collElem, hfn, hsat]
      exact vecBinary_int ht (.inl rfl) 0 f.rm 0 x y
    · have hsum : (intElem 0x80 f.ty x y : Int) % 2 ^ tyWidth f.ty = (x + y) % 2 ^ tyWidth f.ty := by
        rw [intElem_vadd ht, wrapInt_emod, Int.add_emod, (decodeInt_spec f.ty x).2.2, (decodeInt_spec f.ty y).2.2, ← Int.add_emod]
      exact ⟨hsum, hsum.trans (by rw [add_comm])⟩
  · refine ⟨(· ||| ·), fun x y => by simp only [collElem, hfn], fun x y hx hy => ?_⟩
    simp only [hmod hx, hmod hy, Int.toNat_natCast, true_and]
    exact Nat.or_comm x y
  · refine ⟨(· &&& ·), fun x y => by simp only [collElem, hfn], fun x y hx hy => ?_⟩
    simp only [hmod hx, hmod hy, Int.toNat_natCast, true_and]
    exact Nat.and_comm x y

/-! ## The obligation -/

/-- Settles O41: an arrival finds its channel as `joinChan` says; a generation that is complete answers each of its arrivals, with the row that the
tree of R366 makes of the rows that they brought. -/
theorem scopedBarrierResults : Obligations.ScopedBarrierResults := by
  unfold Obligations.ScopedBarrierResults
  intro s core id c f hc hcore hid hphase hcov n chan h waits
  subst hcore hid
  refine ⟨fun inst ctx hi hinst => ?bar, fun inst ctx v r hi hinst hv hr => ?coll⟩
  case bar =>
    have harrive := State.arriveAt_eq (sig := 0) (rank := 0) (bs := []) hinst
    have hf : c.fields = some f := by rw [Cmd.fields, hi]; rfl
    intro key others
    refine ⟨fun o ho => ⟨fun hbad => ?_, fun hn hsig => ⟨fun hlt => ?_, fun hlast => ?_⟩⟩, fun ho => ⟨fun hone => ?_, fun hmany => ?_⟩⟩
    · exact exec_barArrival_mismatch hc hi hphase hcov (harrive.trans (State.joinChan_mismatch ho (hbad.imp_right Or.inl)))
    · exact exec_barArrival_waits hc hi hphase hcov (harrive.trans (State.joinChan_waits ho hn hsig nofun hlt.ne))
    · exact exec_barArrival_ends hc hi hphase hcov (harrive.trans (State.joinChan_ends ho hn hsig nofun hlast))
    · rw [exec_barArrival_ends hc hi hphase hcov (harrive.trans (State.joinChan_alone ho hone))]
      exact congrArg Host.Outcome.next (State.barEnd_single rfl hc hf)
    · exact exec_barArrival_waits hc hi hphase hcov (harrive.trans (State.joinChan_opens ho hmany))
  case coll =>
    have hview : s.collView c = some v := State.viewFlight_of_view hv
    have hf : c.fields = some f := by rw [Cmd.fields, hi]; rfl
    intro key others rank mine row ends
    have hrank : optVal c.fire.r = rank := by rw [hr]; rfl
    have hkey : key = ScopeChan.isAt inst ctx true (chanOf f) := by
      funext x
      show (x.inst == inst && x.ctx == ctx && x.coll && x.chan == chan) = (x.inst == inst && x.ctx == ctx && x.coll == true && x.chan == chan)
      rw [beq_true]
    have hothers : others = s.chans.filter (fun y => !ScopeChan.isAt inst ctx true (chanOf f) y) := by rw [← hkey]
    have harrive := State.arriveAt_eq (sig := collSig f v.tile.cols) (rank := rank) (bs := mine) hinst
    have hends {x : ScopeChan} {out : List Nat} (hout : collOut f v.tile.cols x = (out, 0)) :
        { s with chans := others }.collEnd f v.tile.cols x = ends x.arrivals out := by
      rw [State.collEnd_eq, hout]
      simp only [State.collTake_noFlags]
      rfl
    rw [hkey]
    refine ⟨fun ho => ⟨fun hone hzero => ?alone, fun hmany => ?opens⟩, fun o ho => ⟨fun hbad => ?mismatch, fun hn hsig hfree => ?agree⟩⟩
    case alone =>
      rw [exec_collArrival_ends hc hi hphase hcov hview hrank (harrive.trans (State.joinChan_alone ho hone)), ← hothers]
      exact congrArg Host.Outcome.next (State.collEnd_single rfl (collOut_single hone (by rw [hzero])) hview hc hf)
    case opens =>
      rw [hothers]
      exact exec_collArrival_waits hc hi hphase hcov hview hrank (harrive.trans (State.joinChan_opens ho hmany))
    case mismatch =>
      exact exec_collArrival_mismatch hc hi hphase hcov hview hrank
        (harrive.trans (State.joinChan_mismatch ho (hbad.imp_right (Or.imp_right fun h => ⟨rfl, h⟩))))
    case agree =>
      intro all
      have hlast (h : o.arrivals.length + 1 = n) {out : List Nat} (hout : collOut f v.tile.cols { o with arrivals := all } = (out, 0)) :
          exec (.collArrival c.fire.core c.id) s = .next (ends all out) := by
        rw [exec_collArrival_ends hc hi hphase hcov hview hrank (harrive.trans (State.joinChan_ends ho hn hsig (fun _ => hfree) h)), ← hothers]
        exact congrArg Host.Outcome.next (hends hout)
      refine ⟨fun hlt => ?waits, fun core0 id0 bs h hbcast hroot => ?bcast, fun core0 id0 rank0 bs htwo hother hranks ht hsat fn e hmem hfn => ?pair⟩
      case waits =>
        rw [hothers]
        exact exec_collArrival_waits hc hi hphase hcov hview hrank (harrive.trans (State.joinChan_waits ho hn hsig (fun _ => hfree) hlt.ne))
      case bcast =>
        refine hlast h ?_
        rw [collOut, if_pos (by rw [hbcast]; rfl), rankRow_of_find hroot]
      case pair =>
        subst hfn
        obtain ⟨g, hg, he⟩ := exists_collElem ht hsat hmem
        have hlen : o.arrivals.length + 1 = n := by rw [hother, htwo]; rfl
        have hfn : f.fn.toNat ≠ 5 := by
          simp only [List.mem_cons, List.not_mem_nil, or_false, Prod.mk.injEq] at hmem
          omega
        have hrow (j : Nat) (hj : j < v.tile.cols) (bs : List Byte) : (row bs)[j]?.getD 0 < 2 ^ tyWidth f.ty := unpackRow_lt hj
        have hall : all = [(core0, id0, rank0, bs), (c.fire.core, c.id, rank, mine)] := by
          show o.arrivals ++ [_] = _
          rw [hother]
          rfl
        have hranks : rank0 = 0 ∧ rank = 1 ∨ rank0 = 1 ∧ rank = 0 := by omega
        rcases hranks with ⟨h0, h1⟩ | ⟨h0, h1⟩
        · refine ⟨List.zipWith g (row bs) (row mine), by simp [row], fun j hj => ?_, hlast hlen (collOut_pair hg (hn.trans htwo) hfn ?_ ?_)⟩
          · rw [zipWith_getD (by simpa [row] using hj) (by simpa [row] using hj)]
            exact (he _ _ (hrow j hj bs) (hrow j hj mine)).1
          · rw [hall, h0]
            rfl
          · rw [hall, h0, h1]
            rfl
        · refine ⟨List.zipWith g (row mine) (row bs), by simp [row], fun j hj => ?_, hlast hlen (collOut_pair hg (hn.trans htwo) hfn ?_ ?_)⟩
          · rw [zipWith_getD (by simpa [row] using hj) (by simpa [row] using hj)]
            exact (he _ _ (hrow j hj mine) (hrow j hj bs)).2
          · rw [hall, h0, h1]
            rfl
          · rw [hall, h0]
            rfl

end Sys2Proof.Machine

/-! SUPPORT. LOCKQ with a third operand: the model takes a scalar there (R53, R372), the statement about acceptance any KIND. -/

namespace Sys2Proof.Machine

/-- LOCKQ without destinations. -/
def lockThird : Fields := { Fields.ofDests nowhere nowhere with ar := .triadic }

/-- A firing of it on a lock in the vault of virtual core 1, with a tile handle as its third operand. -/
def lockThirdFiring : Firing :=
  { bootFiring 0 with r := some { Val.zero with kind := .tile, value := 1 <<< 52 }, t := some { Val.zero with kind := .tile } }

/-- Context 0 active on four cores, the LOCKQ in its cycle at core 0. -/
def lockThirdState : State := { State.reset.place0 0 with cur := some lockThirdFiring }

/-- The lock is looked at when the request arrives at its node. -/
theorem lockThird_reach : lockThirdState.targetReach (Cmd.start 0 lockThirdFiring (.lockq lockThird) .sync) lockThird false = .later := by decide

/-- The model raises KIND. -/
theorem exec_lockq_lockThird : exec (.lockq lockThird) lockThirdState = .next (lockThirdState.retire.fault lockThirdFiring lockThird .kind 0) := by rfl

/-- No command has entered the unit. -/
theorem lockThird_noCommand : ((lockThirdState.retire.fault lockThirdFiring lockThird .kind 0).core 0).cmds = [] := by decide

/-- Refutes O37: the statement has a LOCKQ enter the unit with a third operand of any KIND, the model takes a scalar there and raises KIND for a
tile handle. With `isScalar` for LOCKQ's third operand, as for ATOM's R, this counterexample goes. -/
theorem not_synchronisationAcceptance : ¬ Obligations.SynchronisationAcceptance := by
  unfold Obligations.SynchronisationAcceptance
  intro h
  have hplain : lockThirdFiring.plain := by decide
  obtain ⟨htargets, -⟩ := h.1 lockThirdState lockThirdFiring lockThird rfl hplain
  obtain ⟨haccepts, -⟩ := htargets (.lockq lockThird) isScalar isTarget anyKind [] (by simp) (by decide)
  obtain ⟨u, c, hexec, hmem, -⟩ := haccepts (.inr lockThird_reach)
  have hsame := Host.Outcome.next.inj (exec_lockq_lockThird.symm.trans hexec)
  rw [← hsame] at hmem
  rw [show lockThirdFiring.core = 0 from rfl, lockThird_noCommand] at hmem
  exact absurd hmem List.not_mem_nil

end Sys2Proof.Machine

/-! SUPPORT. The acceptance of matrix operators, their markers, and the marker items at the head of a queue (R320 to R324, R331, R332, R336 to R345). -/

namespace Sys2Proof.Machine

variable {s : State} {g : Firing} {f : Fields} {i : Instr} {opc core : Nat} {v : Option View}

/-! ## The operators -/

/-- The matrix operators with their opcodes (R334). -/
def matOperators (f : Fields) : List (Nat × Instr) :=
  [(0xA0, .mbind f), (0xA1, .munbind f), (0xA2, .macc f), (0xA3, .mrowAcc f), (0xA3, .mrowOut f), (0xA4, .mma f), (0xA5, .mmag f), (0xA6, .msclSet f),
    (0xA6, .msclClr f), (0xA7, .mrd f), (0xA8, .moutKeep f), (0xA8, .moutClr f), (0xA9, .mclr f), (0xAA, .mresc f), (0xAB, .mdrainCur f), (0xAB, .mdrainAll f)]

theorem exec_matrix (h : (opc, i) ∈ matOperators f) : exec i s = .next (matOperator f i s) ∧ (i.form.map Prod.fst).getD 0 = opc := by
  simp only [matOperators, List.mem_cons, List.not_mem_nil, or_false, Prod.mk.injEq] at h
  rcases h with ⟨rfl, rfl⟩ | ⟨rfl, rfl⟩ | ⟨rfl, rfl⟩ | ⟨rfl, rfl⟩ | ⟨rfl, rfl⟩ | ⟨rfl, rfl⟩ | ⟨rfl, rfl⟩ | ⟨rfl, rfl⟩ | ⟨rfl, rfl⟩ | ⟨rfl, rfl⟩ |
    ⟨rfl, rfl⟩ | ⟨rfl, rfl⟩ | ⟨rfl, rfl⟩ | ⟨rfl, rfl⟩ | ⟨rfl, rfl⟩ | ⟨rfl, rfl⟩ <;> exact ⟨rfl, rfl⟩

/-- A matrix operator whose checks pass takes its effect. -/
def State.matAccept (s : State) (opc : Nat) (f : Fields) (g : Firing) (i : Instr) (v : Option View) : State :=
  if opc = 0xA5 then s.gangCmd g i v
  else if matQueued opc then s.matItem opc f g i v
  else if opc = 0xAB then s.drainCmd g i (f.fn.toNat == 1)
  else if opc = 0xA2 then (s.modCore g.core (fun k => { k with sel := f.fn.toNat == 1 })).emitBoth g f (passVal g g.l)
  else if opc = 0xA1 then s.modCore g.core (fun k => { k with mat := k.mat.map (fun b => { b with closing := some g }) })
  else
    match v with
    | none => s
    | some x =>
      ((s.tilesUse [(x.core, x.index)]).modCore g.core (fun k => { k with mat := some {
        handle := g.l, core := x.core, index := x.index, etype := x.tile.etype, kb := x.tile.rows, nb := x.tile.cols, mx := f.mx, closing := none } })).emitBoth
          g f (passVal g g.l)

/-- On plain operands of its KINDs the checks of R332 decide. -/
theorem matOperator_plain (hc : s.cur = some g) (hp : g.plain) (hopc : (i.form.map Prod.fst).getD 0 = opc) (hk : kindsOk (matNeed opc f) g.l g.r g.t = true) :
    (∀ e d, s.matCheck opc f g = .error (e, d) → matOperator f i s = s.retire.fault g f e d) ∧
    (∀ v, s.matCheck opc f g = .ok v → matOperator f i s = s.retire.matAccept opc f g i v) := by
  have hmark : (g.vals.all (fun v => v.kind ≠ .fault) && (g.l :: g.r.toList).any (fun v => v.kind == .marker)) = false := by
    rw [Bool.and_eq_false_iff, List.any_eq_false]
    refine .inr fun v hv => ?_
    have hmem : v ∈ g.vals := by
      simp only [Firing.vals, List.mem_cons, List.mem_append] at hv ⊢
      tauto
    simpa using (hp v hmem).2.1
  have hop : matOperator f i s = match s.matCheck opc f g with
      | .error (e, d) => s.retire.fault g f e d
      | .ok v => s.retire.matAccept opc f g i v := by
    unfold matOperator
    rw [State.execute_some hc]
    dsimp only
    rw [hmark, hopc]
    simp only [State.checked, Need.check_plain hp hk]
    rfl
  exact ⟨fun e d h => by rw [hop, h], fun v h => by rw [hop, h]⟩

/-- A marker in L makes an item of the queue of the selected accumulator, without a check (R323). -/
theorem matOperator_marker (hc : s.cur = some g) (hl : g.l.kind = .marker) (hf : ∀ v ∈ g.vals, v.kind ≠ .fault) :
    matOperator f i s = { s.retire with ids := s.ids + 1 }.modAcc g.core (s.core g.core).sel (fun x => { x with
      queue := x.queue ++ [MatItem.start s.ids g i true] }) := by
  have hmark : (g.vals.all (fun v => v.kind ≠ .fault) && (g.l :: g.r.toList).any (fun v => v.kind == .marker)) = true := by
    rw [Bool.and_eq_true, List.all_eq_true]
    exact ⟨fun v hv => decide_eq_true (hf v hv), by simp [hl]⟩
  unfold matOperator
  rw [State.execute_some hc]
  dsimp only
  rw [hmark, if_pos rfl, if_pos hl]
  rfl

/-! ## Items of a queue (R320, R322, R324) -/

@[simp] theorem State.tile_modAcc (c : Nat) (a : Bool) (h : Accum → Accum) (n k : Nat) : ((s.modAcc c a h).core n).tile k = (s.core n).tile k := by
  rw [State.modAcc, State.core_modCore]
  split
  · next e =>
      subst e
      cases a <;> rfl
  · rfl

/-- The item that an operator makes, by the state of the generator that it starts from. -/
def MatItem.accepted (s : State) (opc : Nat) (g : Firing) (i : Instr) (v : Option View) (seed : U64) : MatItem :=
  { MatItem.start s.ids g i false with
    tiles := v.toList.map (fun x => (x.core, x.index)), seed := seed, binding := if opc = 0xA3 ∨ opc = 0xA4 then (s.core g.core).openB else none }

/-- t has the memories of s, and its cores but for their generators and their tiles. -/
def State.tilesOnly (s t : State) : Prop :=
  t.vault = s.vault ∧ t.hbm = s.hbm ∧ ∀ n, ∃ lfsr tiles, t.core n = { s.core n with lfsr := lfsr, tiles := tiles }

theorem State.tilesOnly_draws (c n : Nat) : s.tilesOnly (s.newId.draws c n).1 := by
  refine ⟨rfl, rfl, fun m => ?_⟩
  rw [State.draws, State.core_modCore]
  split
  · next e => subst e; exact ⟨_, _, rfl⟩
  · exact ⟨_, _, rfl⟩

theorem State.tilesOnly.modTile {t : State} (h : s.tilesOnly t) (c k : Nat) (hk : Tile → Tile) : s.tilesOnly (t.modTile c k hk) := by
  obtain ⟨hvault, hhbm, hcore⟩ := h
  refine ⟨hvault, hhbm, fun n => ?_⟩
  obtain ⟨lfsr, tiles, h⟩ := hcore n
  obtain ⟨tiles', h'⟩ := State.core_modTile t c k hk n
  exact ⟨lfsr, tiles', by rw [h', h]⟩

/-- Draws leave every tile. -/
theorem State.tile_draws (c n m k : Nat) : ((s.newId.draws c n).1.core m).tile k = (s.core m).tile k := by
  rw [State.draws, State.core_modCore]
  split
  · next e => subst e; rfl
  · rfl

/-- An item that draws at its start, behind an MROW.OUT that still draws (R92). -/
def State.drawsLate (s : State) (opc : Nat) (f : Fields) (g : Firing) : Bool :=
  decide (matDraws opc f g ≠ 0) && ((s.core g.core).acc (s.core g.core).sel).queue.any (fun x => srMrow x.instr)

/-- The state after the draws of an item. -/
def State.itemDrawn (s : State) (opc : Nat) (f : Fields) (g : Firing) : State :=
  (s.newId.draws g.core (if s.drawsLate opc f g then 0 else matDraws opc f g)).1

/-- An item joins the end of the queue of the selected accumulator; before that its draws are taken, and its tile is in use and, for MRD, in shadow. -/
theorem State.matItem_spec : ∃ (t : State) (seed : U64), s.matItem opc f g i v = t.enqueue g.core (MatItem.accepted s opc g i v seed) ∧ s.tilesOnly t ∧
    ∀ x, v = some x → ((t.core x.core).tile x.index).busy = ((s.core x.core).tile x.index).busy + 1 ∧
      (opc = 0xA7 → ((t.core x.core).tile x.index).shadow = true) := by
  let seed : U64 := if s.drawsLate opc f g then 0 else (s.core g.core).lfsr
  have hdrawn : s.tilesOnly (s.itemDrawn opc f g) := State.tilesOnly_draws ..
  have htile (n k : Nat) : ((s.itemDrawn opc f g).core n).tile k = (s.core n).tile k := State.tile_draws ..
  cases v with
  | none =>
    refine ⟨s.itemDrawn opc f g, seed, ?_, hdrawn, nofun⟩
    unfold State.matItem
    rw [ite_self]
    rfl
  | some x =>
    have hused := hdrawn.modTile x.core x.index (fun t => { t with busy := t.busy + 1 })
    by_cases hopc : opc = 0xA7
    · refine ⟨_, seed, ?_, hused.modTile x.core x.index (fun t => { t with shadow := true }), ?_⟩
      · unfold State.matItem
        rw [if_pos hopc]
        rfl
      · rintro _ ⟨⟩
        simp [htile]
    · refine ⟨_, seed, ?_, hused, ?_⟩
      · unfold State.matItem
        rw [if_neg hopc]
        rfl
      · rintro _ ⟨⟩
        simp [htile, hopc]

/-- What the acceptance of an item leaves in the queue, in memory and of its tile. -/
theorem State.matItem_queued : ∃ seed : U64,
    (((s.matItem opc f g i v).core g.core).acc (s.core g.core).sel).queue =
      ((s.core g.core).acc (s.core g.core).sel).queue ++ [MatItem.accepted s opc g i v seed] ∧
    (s.matItem opc f g i v).vault = s.vault ∧ (s.matItem opc f g i v).hbm = s.hbm ∧
    ∀ x, v = some x → (((s.matItem opc f g i v).core x.core).tile x.index).busy = ((s.core x.core).tile x.index).busy + 1 ∧
      (opc = 0xA7 → (((s.matItem opc f g i v).core x.core).tile x.index).shadow = true) := by
  obtain ⟨t, seed, hitem, ⟨hvault, hhbm, hcore⟩, htile⟩ := State.matItem_spec (s := s) (opc := opc) (f := f) (g := g) (i := i) (v := v)
  obtain ⟨lfsr, tiles, hown⟩ := hcore g.core
  have hsel : (t.core g.core).sel = (s.core g.core).sel := by rw [hown]
  have hacc : (t.core g.core).acc (s.core g.core).sel = (s.core g.core).acc (s.core g.core).sel := by
    rw [hown]
    cases (s.core g.core).sel <;> rfl
  refine ⟨seed, ?_, by rw [hitem]; exact hvault, by rw [hitem]; exact hhbm, fun x hx => ?_⟩
  · rw [hitem, State.enqueue, hsel, State.acc_modAcc, hacc]
  · rw [hitem, State.enqueue, State.tile_modAcc]
    exact htile x hx

/-! ## The other operators (R320, R331, R336, R337, R345) -/

theorem matAccept_queued (hlow : 0xA3 ≤ opc) (hhigh : opc ≤ 0xAA) (hgang : opc ≠ 0xA5) : s.matAccept opc f g i v = s.matItem opc f g i v := by
  have hq : matQueued opc = true := by simp [matQueued, hlow, hhigh]
  unfold State.matAccept
  rw [if_neg hgang, if_pos hq]

/-- The command of an MDRAIN (R345). -/
def State.drainWait (s : State) (g : Firing) (i : Instr) (all : Bool) : Cmd :=
  let k := s.core g.core
  { Cmd.start s.ids g i .matrix with
    phase := .queued,
    covers := (if all then k.acc0.queue ++ k.acc1.queue else (k.acc k.sel).queue).map MatItem.id ++
      (s.gangs.filter (fun c => c.fire.core == g.core && (all || c.aux == (if k.sel then 1 else 0)))).map Cmd.id,
    aux := if all && k.mat.isSome && k.openB.isNone then 1 else 0 }

theorem State.drainCmd_eq (all : Bool) : s.drainCmd g i all =
    ({ s with ids := s.ids + 1 }.modCore g.core (fun k => { k with cmds := k.cmds ++ [s.drainWait g i all] })).matSettle g.core := rfl

/-- MDRAIN.CUR covers the items of the selected accumulator and its gangs that no queue holds yet. -/
theorem State.mem_covers_drainWait {n : Nat} : n ∈ (s.drainWait g i false).covers ↔
    (∃ x ∈ ((s.core g.core).acc (s.core g.core).sel).queue, x.id = n) ∨
      ∃ x ∈ s.gangs, x.id = n ∧ x.fire.core = g.core ∧ x.aux = (if (s.core g.core).sel then 1 else 0) := by
  simp only [State.drainWait, Bool.false_eq_true, if_false, Bool.false_or, List.mem_append, List.mem_map, List.mem_filter, Bool.and_eq_true, beq_iff_eq]
  constructor
  · rintro (h | ⟨x, ⟨hx, hcore, haux⟩, hid⟩)
    · exact .inl h
    · exact .inr ⟨x, hx, hid, hcore, haux⟩
  · rintro (h | ⟨x, hx, hid, hcore, haux⟩)
    · exact .inl h
    · exact .inr ⟨x, ⟨hx, hcore, haux⟩, hid⟩

/-! ## MARKER_ITEM (R323, R341) -/

/-- A marker item at the head of a queue that holds no result of its round takes itself out and emits the marker. -/
theorem exec_markerItem_head {n : Nat} {a : Bool} (ha : accBit n = a) {it : MatItem} {fn : Option Nat} (hhead : s.matHead core a = some it)
    (hmark : it.marker = true) (hform : it.instr.form = some (opc, fn, f)) (hq : it.fire.obj ∉ (s.core core).quar) (hcore : it.fire.core = core)
    (hheld : ∀ h ∈ ((s.core core).acc a).held, h.fire.l.round ≠ it.fire.l.round) :
    ∃ u : State, ((u.core core).acc a).queue = ((s.core core).acc a).queue.filter (fun x => x.id != it.id) ∧ u.vault = s.vault ∧
      exec (.markerItem core n) s = .next ((u.emitBoth it.fire f (Val.marker it.fire.l.round 7)).matSettle core) := by
  have hnone : ((s.core core).acc a).held.filter (fun h => h.fire.l.round == it.fire.l.round) = [] := by
    simpa [List.filter_eq_nil_iff] using hheld
  let u : State := (s.itemGone core a it.id).modAcc core a (fun x => { x with held := x.held.filter (fun h => h.fire.l.round != it.fire.l.round) })
  have hquar : (u.core it.fire.core).quar.contains it.fire.obj = false := by
    rw [hcore, List.contains_eq_mem, decide_eq_false_iff_not]
    have hu : (u.core core).quar = (s.core core).quar := by
      simp only [u, State.itemGone, State.modAcc, State.core_modCore_same]
      cases a <;> rfl
    rwa [hu]
  refine ⟨u, by simp [u, State.itemGone], rfl, ?_⟩
  show execMarkerItem core n s = _
  unfold execMarkerItem
  rw [ha]
  simp only [hhead, hform, hmark, hnone, List.foldl_nil, State.matEmit]
  rw [if_neg (by simp), if_neg (by rw [hquar]; simp)]
  rfl

/-! ## The obligation -/

/-- Settles O35: the checks of R332 decide over a matrix operator, and each operator that passes them takes the effect of its opcode; a marker makes an
item without a check, which leaves at the head of its queue. -/
theorem matrixAcceptance : Obligations.MatrixAcceptance := by
  unfold Obligations.MatrixAcceptance
  refine ⟨fun s g f i opc hc hp hop hk => ?operators, fun s g f hc hl hf i hi => ?marker, fun s core n it opc fn f => ?item⟩
  case operators =>
    intro k h
    obtain ⟨hexec, hopc⟩ := exec_matrix hop
    obtain ⟨hfails, haccepts⟩ := matOperator_plain (f := f) (i := i) hc hp hopc hk
    refine ⟨fun e d he => by rw [hexec, hfails e d he], fun v hv => ?_⟩
    rw [hexec, haccepts v hv]
    refine ⟨_, rfl, fun hlow hhigh hgang => ?queued, fun hA5 => ?gang, fun hA2 => ?select, fun hA1 => ?unbind, fun x hA0 hx => ?bind, fun hAB => ?drain⟩
    case queued =>
      obtain ⟨seed, hqueue, hvault, hhbm, htile⟩ := State.matItem_queued (s := s.retire) (opc := opc) (f := f) (g := g) (i := i) (v := v)
      rw [matAccept_queued hlow hhigh hgang]
      exact ⟨MatItem.accepted s.retire opc g i v seed, hqueue, rfl, rfl, rfl, rfl, rfl, rfl, rfl, hvault, hhbm, htile⟩
    case gang =>
      subst hA5
      refine ⟨{ Cmd.start s.ids g i .matrix with
        phase := .queued, tiles := v.toList.map (fun x => (x.core, x.index)), aux := if k.sel then 1 else 0 }, ?_, rfl, rfl, rfl⟩
      cases v <;> rfl
    case select =>
      subst hA2
      have hfn : (f.fn == 1) = (f.fn.toNat == 1) := by
        rw [beq_eq_decide, beq_eq_decide, decide_eq_decide]
        exact BitVec.toNat_eq
      rw [hfn]
      rfl
    case unbind => subst hA1; rfl
    case bind => subst hA0 hx; rfl
    case drain =>
      subst hAB
      exact ⟨s.retire.drainWait g i (f.fn.toNat == 1), rfl, rfl, rfl, fun hfn n => by rw [hfn]; exact State.mem_covers_drainWait, rfl⟩
  case marker =>
    obtain ⟨⟨opc, i⟩, hmem, rfl⟩ := List.mem_map.mp (show i ∈ (matOperators f).map Prod.snd from hi)
    refine ⟨MatItem.start s.ids g i true, rfl, rfl, rfl, rfl, ?_⟩
    rw [(exec_matrix hmem).1, matOperator_marker hc hl hf]
  case item =>
    intro hhead hmark hform hq hcore hheld
    have ha : accBit n = decide (n % 2 = 1) := by rw [accBit, beq_eq_decide]
    exact exec_markerItem_head ha hhead hmark hform hq hcore hheld

end Sys2Proof.Machine

/-! SUPPORT. The time operators on plain operands (R385, R386, R393, R411 to R415), and what a bound that grows leaves of a stack. -/

namespace Sys2Proof.Machine

variable {s : State} {g : Firing} {f : Fields}

/-! ## Events and bounds (R385, R390, R433) -/

/-- An event reaches a stack in its channels and its count of lost events alone. -/
theorem State.stack_event (s : State) (n chan ctx src : Nat) (arg : U32) (m : Nat) :
    ∃ c e, (s.event n chan ctx src arg).stack m = { s.stack m with chans := c, evlost := e } := by
  rw [State.event, State.stack_modStack]
  split
  · next h =>
      subst h
      dsimp only
      split <;> exact ⟨_, _, rfl⟩
  · exact ⟨_, _, rfl⟩

/-- The check of a bound changes stacks and nothing else. -/
theorem State.limitCheck_eq (s : State) (n : Nat) : ∃ tab, s.limitCheck n = { s with stackTab := tab } := by
  unfold State.limitCheck
  dsimp only
  split
  · split <;> exact ⟨_, rfl⟩
  · exact ⟨_, rfl⟩

/-- Of a stack it changes the mark that the bound was passed, and raises an event. -/
theorem State.stack_limitCheck (s : State) (n m : Nat) :
    ∃ h c e, (s.limitCheck n).stack m = { s.stack m with limitHit := h, chans := c, evlost := e } := by
  unfold State.limitCheck
  dsimp only
  have hmark (b : Bool) : ∃ h, (s.modStack n fun k => { k with limitHit := b }).stack m = { s.stack m with limitHit := h } := by
    rw [State.stack_modStack]
    split
    · next h =>
        subst h
        exact ⟨_, rfl⟩
    · exact ⟨_, rfl⟩
  split
  · split
    · exact ⟨_, _, _, rfl⟩
    · obtain ⟨c, e, hevent⟩ := State.stack_event (s.modStack n fun k => { k with limitHit := true }) n 10 0xFFF (n * 256) (s.stack n).errReg m
      obtain ⟨h, hk⟩ := hmark true
      exact ⟨h, c, e, by rw [hevent, hk]⟩
  · obtain ⟨h, hk⟩ := hmark false
    exact ⟨h, _, _, hk⟩

/-- A bound that grows holds at its highest value. -/
theorem errAdd_toNat (e : U32) (n : Nat) : (errAdd e n).toNat = if e = 0xFFFFFFFF then 2 ^ 32 - 1 else min (2 ^ 32 - 1) (e.toNat + n) := by
  unfold errAdd
  split
  · next h => rw [h]; rfl
  · rw [BitVec.toNat_ofNat, Nat.mod_eq_of_lt (by omega)]
    rfl

/-- A turn of `State.spread`: the bound of one stack. -/
def State.grow (c : Nat) (s : State) (n : Nat) : State := (s.modStack n (fun k => { k with err := errAdd k.err c })).limitCheck n

theorem State.grow_eq (c : Nat) (s : State) (n : Nat) : ∃ tab, s.grow c n = { s with stackTab := tab } :=
  State.limitCheck_eq (s.modStack n fun k => { k with err := errAdd k.err c }) n

theorem State.stack_grow (c : Nat) (s : State) (n m : Nat) :
    ((s.grow c n).stack m).time = (s.stack m).time ∧ ((s.grow c n).stack m).err = if n = m then errAdd (s.stack m).err c else (s.stack m).err := by
  obtain ⟨_, _, _, hlimit⟩ := State.stack_limitCheck (s.modStack n fun k => { k with err := errAdd k.err c }) n m
  rw [State.grow, hlimit, State.stack_modStack]
  split
  · next h =>
      subst h
      exact ⟨rfl, rfl⟩
  · exact ⟨rfl, rfl⟩

theorem State.foldl_grow_eq (c : Nat) (ns : List Nat) (s : State) : ∃ tab, ns.foldl (State.grow c) s = { s with stackTab := tab } := by
  induction ns generalizing s with
  | nil => exact ⟨_, rfl⟩
  | cons n ns ih =>
    obtain ⟨tab, hgrow⟩ := State.grow_eq c s n
    rw [List.foldl_cons, hgrow]
    exact ih _

theorem State.stack_foldl_grow (c : Nat) {ns : List Nat} (hnodup : ns.Nodup) (s : State) (m : Nat) :
    ((ns.foldl (State.grow c) s).stack m).time = (s.stack m).time ∧
    ((ns.foldl (State.grow c) s).stack m).err = if m ∈ ns then errAdd (s.stack m).err c else (s.stack m).err := by
  induction ns generalizing s with
  | nil => exact ⟨rfl, rfl⟩
  | cons n ns ih =>
    obtain ⟨hn, hns⟩ := List.nodup_cons.mp hnodup
    obtain ⟨htime, herr⟩ := ih hns (s.grow c n)
    obtain ⟨htime1, herr1⟩ := State.stack_grow c s n m
    refine ⟨htime.trans htime1, ?_⟩
    rw [List.foldl_cons, herr, herr1]
    by_cases h : n = m
    · subst h
      simp [hn]
    · simp [h, Ne.symm h]

/-- The bounds of every stack and of I/O die 1 cover a step of the reference (R387, R415). -/
theorem State.spread_eq (s : State) (c : Nat) : ∃ tab, s.spread c = { s with stackTab := tab, mod := { s.mod with io1Err := errAdd s.mod.io1Err c } } :=
  State.foldl_grow_eq c (List.range 16) (s.modMod fun m => { m with io1Err := errAdd m.io1Err c })

theorem State.stack_spread (s : State) (c : Nat) {n : Nat} (hn : n < 16) :
    ((s.spread c).stack n).time = (s.stack n).time ∧ ((s.spread c).stack n).err = errAdd (s.stack n).err c := by
  obtain ⟨htime, herr⟩ := State.stack_foldl_grow c List.nodup_range (s.modMod fun m => { m with io1Err := errAdd m.io1Err c }) n
  rw [if_pos (List.mem_range.mpr hn)] at herr
  exact ⟨htime, herr⟩

/-! ## TIME_STAT (R386) -/

theorem bit1_getLsbD (b : Bool) : (bit1 b).getLsbD 0 = b := by cases b <;> rfl

section
variable (k : Stack) (id : Nat)

theorem Stack.timeStat_locked : (k.timeStat id).getLsbD 4 = k.locked :=
  (getLsbD_append_hi _ _ 4 (by decide)).trans ((getLsbD_append_hi _ _ 1 (by decide)).trans ((getLsbD_append_lo _ _ 0 (by decide)).trans (bit1_getLsbD _)))

theorem Stack.timeStat_hold : (k.timeStat id).getLsbD 5 = k.hold :=
  (getLsbD_append_hi _ _ 5 (by decide)).trans ((getLsbD_append_hi _ _ 2 (by decide)).trans ((getLsbD_append_hi _ _ 1 (by decide)).trans
    ((getLsbD_append_lo _ _ 0 (by decide)).trans (bit1_getLsbD _))))

theorem Stack.timeStat_slewing : (k.timeStat id).getLsbD 6 = k.slewing :=
  (getLsbD_append_hi _ _ 6 (by decide)).trans ((getLsbD_append_hi _ _ 3 (by decide)).trans ((getLsbD_append_hi _ _ 2 (by decide)).trans
    ((getLsbD_append_hi _ _ 1 (by decide)).trans ((getLsbD_append_lo _ _ 0 (by decide)).trans (bit1_getLsbD _)))))

theorem Stack.timeStat_gm : (k.timeStat id).getLsbD 7 = k.gm :=
  (getLsbD_append_hi _ _ 7 (by decide)).trans ((getLsbD_append_hi _ _ 4 (by decide)).trans ((getLsbD_append_hi _ _ 3 (by decide)).trans
    ((getLsbD_append_hi _ _ 2 (by decide)).trans ((getLsbD_append_hi _ _ 1 (by decide)).trans ((getLsbD_append_lo _ _ 0 (by decide)).trans (bit1_getLsbD _))))))

/-- TIME_STAT without its flags and its domain. -/
def Stack.timeFields (k : Stack) (id : Nat) : BitVec 56 :=
  (0 : BitVec 16) ++ k.epoch ++ (0 : BitVec 6) ++ k.uplink ++ k.depth ++ BitVec.ofNat 4 id ++ (0 : BitVec 4)

theorem Stack.timeStat_above {i : Nat} (n : Nat) (h : 8 ≤ i) : (k.timeStat id).extractLsb' i n = (k.timeFields id).extractLsb' (i - 3 - 1 - 1 - 1 - 1 - 1) n :=
  (BitVec.extractLsb'_append_eq_of_le (by omega)).trans <| (BitVec.extractLsb'_append_eq_of_le (by omega)).trans <|
    (BitVec.extractLsb'_append_eq_of_le (by omega)).trans <| (BitVec.extractLsb'_append_eq_of_le (by omega)).trans <|
    (BitVec.extractLsb'_append_eq_of_le (by omega)).trans <| BitVec.extractLsb'_append_eq_of_le (by omega)

theorem Stack.timeStat_id : (k.timeStat id).extractLsb' 12 4 = BitVec.ofNat 4 id :=
  (k.timeStat_above id 4 (by decide)).trans <| (BitVec.extractLsb'_append_eq_of_le (by decide)).trans BitVec.extractLsb'_append_eq_right

theorem Stack.timeStat_depth : (k.timeStat id).extractLsb' 16 4 = k.depth :=
  (k.timeStat_above id 4 (by decide)).trans <| (BitVec.extractLsb'_append_eq_of_le (by decide)).trans <|
    (BitVec.extractLsb'_append_eq_of_le (by decide)).trans BitVec.extractLsb'_append_eq_right

theorem Stack.timeStat_uplink : (k.timeStat id).extractLsb' 20 6 = k.uplink :=
  (k.timeStat_above id 6 (by decide)).trans <| (BitVec.extractLsb'_append_eq_of_le (by decide)).trans <|
    (BitVec.extractLsb'_append_eq_of_le (by decide)).trans <| (BitVec.extractLsb'_append_eq_of_le (by decide)).trans BitVec.extractLsb'_append_eq_right

theorem Stack.timeStat_epoch : (k.timeStat id).extractLsb' 32 16 = k.epoch :=
  (k.timeStat_above id 16 (by decide)).trans <| (BitVec.extractLsb'_append_eq_of_le (by decide)).trans <|
    (BitVec.extractLsb'_append_eq_of_le (by decide)).trans <| (BitVec.extractLsb'_append_eq_of_le (by decide)).trans <|
    (BitVec.extractLsb'_append_eq_of_le (by decide)).trans <| (BitVec.extractLsb'_append_eq_of_le (by decide)).trans BitVec.extractLsb'_append_eq_right

/-- LOCK by the bound of each domain (R393). -/
theorem Stack.locked_iff (h : k.dom.toNat ≤ 3) :
    k.locked = true ↔ k.hold = false ∧ ∃ p ∈ [((1 : BitVec 3), 15), (2, 320), (3, 3200)], k.dom = p.1 ∧ k.errReg.toNat ≤ p.2 := by
  have hdom : k.dom = 0 ∨ k.dom = 1 ∨ k.dom = 2 ∨ k.dom = 3 := by
    generalize k.dom = d at h
    revert h
    revert d
    decide
  rw [Stack.locked, Bool.and_eq_true, Bool.not_eq_true']
  refine and_congr_right fun _ => ?_
  rcases hdom with h | h | h | h <;> simp [inLock, lockBound, h]

end

/-! ## TIMERD, TIMECMP, TIMEWAIT and TIMEADJ on plain operands (R411 to R415) -/

section
variable (hc : s.cur = some g)
include hc

theorem exec_timerdNow_plain (hp : g.plain) : exec (.timerdNow f) s = .next ((s.retire.emit g f false (dataScalar g (s.stackOf g).timeReg)).emit g f true
    (dataScalar g ((0 : BitVec 32) ++ (s.stackOf g).errReg))) :=
  congrArg Host.Outcome.next (State.operate_plain hc hp (kindsOk_any _ _ _))

theorem exec_timerdStat_plain (hp : g.plain) : exec (.timerdStat f) s = .next (s.retire.emitBoth g f (dataScalar g ((s.stackOf g).timeStat (coreStack g.core)))) :=
  congrArg Host.Outcome.next (State.operate_plain hc hp (kindsOk_any _ _ _))

theorem exec_timecmp_scalars (hs : g.scalars) : exec (.timecmp f) s = .next (s.retire.emitBoth g f (Val.computed
    (BitVec.ofNat 64 (timeOrder g.l.value.toNat (theVal g.r).value.toNat ((g.t.map fun v => v.value.toNat).getD f.imm.toNat))) g.l.round
    (provJoin (g.vals.map Val.prov)) g.vals)) := by
  refine congrArg Host.Outcome.next ((State.operate_scalars hc hs rfl rfl rfl).trans ?_)
  simp only [Firing.vals]
  cases g.t <;> rfl

/-- TIMEWAIT takes a free wait of its core, or queues for one. -/
theorem State.timewait_eq (hp : g.plain) {r : Val} (hr : g.r = some r) (hk : r.kind = .scalar) {d : State → Firing → Val → Nat} {n : Nat}
    (hd : d s.retire g r = n) :
    let w : Wait := { deadline := min (2 ^ 64 - 1) n, sure := f.qual.getLsbD 0, d0 := f.d0, d1 := f.d1, fire := g }
    let u := s.operate waitNeed f (fun s g l r _ => s.timewait g f l (d s g (theVal r)))
    ((s.core g.core).waits.length < 256 → u = s.retire.modCore g.core (fun k => { k with waits := k.waits ++ [w] })) ∧
    (256 ≤ (s.core g.core).waits.length → u = s.retire.modCore g.core (fun k => { k with waitRetry := k.waitRetry ++ [w] })) := by
  have hkinds : kindsOk waitNeed g.l g.r g.t = true := by
    rw [hr]
    cases g.t <;> simp [kindsOk, waitNeed, Need.any, anyKind, isScalar, hk]
  intro w u
  have hu : u = s.retire.timewait g f g.l n := by
    refine (State.operate_plain hc hp hkinds).trans ?_
    rw [hr, ← hd]
    rfl
  rw [hu]
  exact ⟨fun h => congrArg (s.retire.setCore g.core) (if_pos h), fun h => congrArg (s.retire.setCore g.core) (if_neg (Nat.not_lt.mpr h))⟩

/-- What TIMEADJ.SLEW does with an amount that it may take. -/
def State.slewBy (f : Fields) (s : State) (g : Firing) (x : U64) : State :=
  if 2 ^ 40 < x.toInt.natAbs then s.fault g f .operandRange 0
  else (s.modMod (fun m => { m with ioResid := m.ioResid + x.toInt })).emit g f false (dataScalar g 0)

/-- What TIMEADJ.STEP does with an amount that it may take. -/
def State.stepBy (f : Fields) (s : State) (g : Firing) (x : U64) : State :=
  if x.toNat = 0 ∨ 2 ^ 56 < x.toNat then s.fault g f .operandRange 0
  else ((s.modMod (fun m => { m with io0Time := m.io0Time + x.toNat, ioEpoch := m.ioEpoch + 1 })).spread x.toNat).emit g f false (dataScalar g 0)

omit hc in
theorem exec_timeadj : exec (.timeadjSlew f) s = s.timeadj f (State.slewBy f) ∧ exec (.timeadjStep f) s = s.timeadj f (State.stepBy f) := ⟨rfl, rfl⟩

/-- TIMEADJ on scalars: a supervisor context, and a reference that follows none outside, or a fault. -/
theorem State.timeadj_eq (hs : g.scalars) (k : State → Firing → U64 → State) :
    ((s.ctx g.ctx).sup = false → s.timeadj f k = .next (s.retire.fault g f .privilege 0)) ∧
    ((s.ctx g.ctx).sup = true → 1 < s.mod.ioDom.toNat → s.mod.ioGm = false → s.timeadj f k = .next (s.retire.fault g f .timeFollower 0)) ∧
    ((s.ctx g.ctx).sup = true → s.mod.ioDom.toNat ≤ 1 ∨ s.mod.ioGm = true → s.timeadj f k = .next (k s.retire g g.l.value)) := by
  have hop := State.operate_scalars (f := f) (n := .scalars) (k := fun s g l _ _ =>
    if !(s.ctx g.ctx).sup then s.fault g f .privilege 0
    else if 1 < s.mod.ioDom.toNat ∧ !s.mod.ioGm then s.fault g f .timeFollower 0
    else k s g l.value) hc hs rfl rfl rfl
  refine ⟨fun hsup => ?_, fun hsup hdom hgm => ?_, fun hsup h => ?_⟩
  · exact congrArg Host.Outcome.next (hop.trans (if_pos (congrArg not hsup)))
  · exact congrArg Host.Outcome.next ((hop.trans (if_neg (Bool.eq_false_iff.mp (congrArg not hsup)))).trans (if_pos ⟨hdom, congrArg not hgm⟩))
  · refine congrArg Host.Outcome.next ((hop.trans (if_neg (Bool.eq_false_iff.mp (congrArg not hsup)))).trans (if_neg ?_))
    rintro ⟨hdom, hgm⟩
    rcases h with h | h
    · exact absurd hdom (Nat.not_lt.mpr h)
    · exact Bool.eq_false_iff.mp (congrArg not h) hgm

end

theorem timeOrder_eq (a b e : Nat) :
    (a + e < b → timeOrder a b e = 0) ∧ (b + e < a → timeOrder a b e = 1) ∧ (b ≤ a + e → a ≤ b + e → timeOrder a b e = 2) := by
  unfold timeOrder
  refine ⟨fun h => if_pos h, fun h => (if_neg (by omega)).trans (if_pos h), fun h1 h2 => (if_neg (by omega)).trans (if_neg (by omega))⟩

/-- A step of the reference: its TIME and EPOCH, and the bounds that cover it. -/
theorem State.stepped (s : State) (c : Nat) :
    let u := (s.modMod (fun m => { m with io0Time := m.io0Time + c, ioEpoch := m.ioEpoch + 1 })).spread c
    u.mod = { s.mod with io0Time := s.mod.io0Time + c, ioEpoch := s.mod.ioEpoch + 1, io1Err := errAdd s.mod.io1Err c } ∧ u.cores = s.cores ∧ u.hbm = s.hbm := by
  intro u
  obtain ⟨tab, hu⟩ := State.spread_eq (s.modMod (fun m => { m with io0Time := m.io0Time + c, ioEpoch := m.ioEpoch + 1 })) c
  exact ⟨(congrArg State.mod hu).trans rfl, (congrArg State.cores hu).trans rfl, (congrArg State.hbm hu).trans rfl⟩

/-! ## The results -/

/-- Settles O49: each operator by its lemma above. -/
theorem timeOperatorResults : Obligations.TimeOperatorResults := by
  intro s g f hc t k out
  have htime : k.timeReg.toNat = k.time % 2 ^ 64 := BitVec.toNat_ofNat ..
  refine ⟨fun hp => ⟨⟨k.timeReg, (0 : BitVec 32) ++ k.errReg, htime, ?_, exec_timerdNow_plain hc hp⟩, ?_, ?_⟩, fun hs => ⟨?_, ?_, ?_⟩⟩
  · rw [← errAdd_toNat, BitVec.toNat_append]
    exact Nat.zero_or _
  · refine ⟨k.timeStat (coreStack g.core), BitVec.extractLsb'_append_eq_right, k.timeStat_hold _, k.timeStat_slewing _, ?_, k.timeStat_gm _, ?_,
      k.timeStat_depth _, k.timeStat_uplink _, k.timeStat_epoch _, exec_timerdStat_plain hc hp⟩
    · intro hdom
      rw [Stack.timeStat_locked]
      exact k.locked_iff hdom
    · rw [Stack.timeStat_id, BitVec.toNat_ofNat]
      exact Nat.mod_eq_of_lt (Nat.mod_lt _ (by decide))
  · intro r hr hkind i d hi w
    simp only [List.mem_cons, List.not_mem_nil, or_false, Prod.mk.injEq] at hi
    rcases hi with ⟨rfl, rfl⟩ | ⟨rfl, rfl⟩
    · obtain ⟨hfree, hfull⟩ := State.timewait_eq hc hp hr hkind (f := f) (d := fun _ _ v => v.value.toNat) rfl
      exact ⟨fun h => congrArg Host.Outcome.next (hfree h), fun h => congrArg Host.Outcome.next (hfull h)⟩
    · obtain ⟨hfree, hfull⟩ := State.timewait_eq hc hp hr hkind (f := f) (d := fun u g v => (u.stackOf g).timeReg.toNat + v.value.toNat)
        (congrArg (· + r.value.toNat) htime)
      exact ⟨fun h => congrArg Host.Outcome.next (hfree h), fun h => congrArg Host.Outcome.next (hfull h)⟩
  · intro r hr e a b
    obtain ⟨hbefore, hafter, hneither⟩ := timeOrder_eq a b e
    have hvalue (n : Nat) (h : timeOrder a b e = n) : BitVec.ofNat 64 (timeOrder a b e) = BitVec.ofNat 64 n := congrArg _ h
    refine ⟨Val.computed (BitVec.ofNat 64 (timeOrder a b e)) g.l.round (provJoin (g.vals.map Val.prov)) g.vals, rfl, rfl, fun h => hvalue 0 (hbefore h),
      fun h => hvalue 1 (hafter h), fun h1 h2 => hvalue 2 (hneither h1 h2), ?_⟩
    have hcmp := exec_timecmp_scalars (f := f) hc hs
    rw [hr] at hcmp
    exact hcmp
  · intro hsup i hi
    simp only [List.mem_cons, List.not_mem_nil, or_false] at hi
    rcases hi with rfl | rfl
    · exact exec_timeadj.1.trans ((State.timeadj_eq hc hs _).1 hsup)
    · exact exec_timeadj.2.trans ((State.timeadj_eq hc hs _).1 hsup)
  · intro hsup
    obtain ⟨-, hslewFollows, hslew⟩ := State.timeadj_eq (f := f) hc hs (State.slewBy f)
    obtain ⟨-, hstepFollows, hstep⟩ := State.timeadj_eq (f := f) hc hs (State.stepBy f)
    refine ⟨fun hdom hgm i hi => ?_, fun href => ⟨fun h => ?_, fun h => ?_, fun h => ?_, fun h0 h => ?_⟩⟩
    · simp only [List.mem_cons, List.not_mem_nil, or_false] at hi
      rcases hi with rfl | rfl
      · exact hslewFollows hsup hdom hgm
      · exact hstepFollows hsup hdom hgm
    · exact (hslew hsup href).trans (congrArg Host.Outcome.next (if_pos h))
    · exact (hslew hsup href).trans (congrArg Host.Outcome.next (if_neg (Nat.not_lt.mpr h)))
    · exact (hstep hsup href).trans (congrArg Host.Outcome.next (if_pos h))
    · obtain ⟨hmod, hcores, hhbm⟩ := s.retire.stepped g.l.value.toNat
      have hnot : ¬(g.l.value.toNat = 0 ∨ 2 ^ 56 < g.l.value.toNat) := by omega
      refine ⟨_, (hstep hsup href).trans (congrArg Host.Outcome.next (if_neg hnot)), ?_, ?_, hcores, hhbm, fun n hn => ?_⟩
      · rw [hmod]
        rfl
      · rw [hmod]
        exact errAdd_toNat _ _
      · obtain ⟨htime, herr⟩ := State.stack_spread
          (s.retire.modMod (fun m => { m with io0Time := m.io0Time + g.l.value.toNat, ioEpoch := m.ioEpoch + 1 })) g.l.value.toNat hn
        exact ⟨htime, by rw [herr]; exact errAdd_toNat _ _⟩

end Sys2Proof.Machine

/-! SUPPORT. Waits, holdover, the time exchange and the module reference (R385, R388 to R394, R414). -/

namespace Sys2Proof.Machine

variable {s : State}

/-! ## Waits (R414) -/

/-- The wait so far and the next one: the one of lesser deadline, the first of equals. -/
def soonerWait (b : Option (Nat × Wait)) (p : Nat × Wait) : Option (Nat × Wait) :=
  match b with
  | none => some p
  | some x => if p.2.deadline < x.2.deadline then some p else b

theorem nextWait_eq_foldl (k : Stack) (ws : List Wait) :
    nextWait k ws = ((ws.zipIdx.map fun p => (p.2, p.1)).filter fun p => k.reached p.2).foldl soonerWait none := rfl

/-- A later wait is found before one of lesser deadline. -/
theorem foldl_soonerWait_above {d : Nat} {ps : List (Nat × Wait)} {b : Option (Nat × Wait)} (hps : ∀ p ∈ ps, d < p.2.deadline)
    (hb : ∀ x ∈ b, d < x.2.deadline) : ∀ x ∈ ps.foldl soonerWait b, d < x.2.deadline := by
  induction ps generalizing b with
  | nil => exact hb
  | cons p ps ih =>
    refine ih (fun q hq => hps q (.tail _ hq)) fun x hx => ?_
    cases b with
    | none =>
      cases hx
      exact hps p (.head _)
    | some y =>
      simp only [soonerWait] at hx
      split at hx
      · cases hx
        exact hps p (.head _)
      · exact hb x hx

/-- A wait of least deadline stays the one that is found. -/
theorem foldl_soonerWait_least {n : Nat} {w : Wait} {ps : List (Nat × Wait)} (hps : ∀ p ∈ ps, w.deadline ≤ p.2.deadline) :
    ps.foldl soonerWait (some (n, w)) = some (n, w) := by
  induction ps with
  | nil => rfl
  | cons p ps ih =>
    have hp : soonerWait (some (n, w)) p = some (n, w) := if_neg (Nat.not_lt.mpr (hps p (.head _)))
    rw [List.foldl_cons, hp]
    exact ih fun q hq => hps q (.tail _ hq)

/-- The waits of a list that have been reached, with their places. -/
def reachedFrom (k : Stack) (ws : List Wait) (n : Nat) : List (Nat × Wait) := ((ws.zipIdx n).map fun p => (p.2, p.1)).filter fun p => k.reached p.2

theorem mem_reachedFrom {k : Stack} {ws : List Wait} {n : Nat} {p : Nat × Wait} (h : p ∈ reachedFrom k ws n) : p.2 ∈ ws ∧ k.reached p.2 = true := by
  obtain ⟨hmem, hreach⟩ := List.mem_filter.mp h
  obtain ⟨q, hq, rfl⟩ := List.mem_map.mp hmem
  exact ⟨List.fst_mem_of_mem_zipIdx hq, hreach⟩

/-- The wait of least deadline among those reached, the first of equals. -/
theorem nextWait_eq {k : Stack} {pre post : List Wait} {w : Wait} (hw : k.reached w = true)
    (hpre : ∀ x ∈ pre, k.reached x = true → w.deadline < x.deadline) (hpost : ∀ x ∈ post, k.reached x = true → w.deadline ≤ x.deadline) :
    nextWait k (pre ++ w :: post) = some (pre.length, w) := by
  have hsplit : reachedFrom k (pre ++ w :: post) 0 = reachedFrom k pre 0 ++ (pre.length, w) :: reachedFrom k post (pre.length + 1) := by
    simp [reachedFrom, List.zipIdx_append, List.zipIdx_cons, hw]
  have habove : ∀ x ∈ (reachedFrom k pre 0).foldl soonerWait none, w.deadline < x.2.deadline :=
    foldl_soonerWait_above (fun p hp => hpre p.2 (mem_reachedFrom hp).1 (mem_reachedFrom hp).2) (by simp)
  have hleast : (reachedFrom k post (pre.length + 1)).foldl soonerWait (some (pre.length, w)) = some (pre.length, w) :=
    foldl_soonerWait_least fun p hp => hpost p.2 (mem_reachedFrom hp).1 (mem_reachedFrom hp).2
  rw [nextWait_eq_foldl]
  show (reachedFrom k (pre ++ w :: post) 0).foldl soonerWait none = _
  rw [hsplit, List.foldl_append, List.foldl_cons]
  generalize (reachedFrom k pre 0).foldl soonerWait none = b at habove
  have hturn : soonerWait b (pre.length, w) = some (pre.length, w) := by
    cases b with
    | none => rfl
    | some x => exact if_pos (habove x rfl)
  rw [hturn, hleast]

theorem nextWait_none {k : Stack} {ws : List Wait} (h : ∀ x ∈ ws, k.reached x ≠ true) : nextWait k ws = none := by
  have hnil : reachedFrom k ws 0 = [] := List.eq_nil_iff_forall_not_mem.mpr fun p hp => h p.2 (mem_reachedFrom hp).1 (mem_reachedFrom hp).2
  rw [nextWait_eq_foldl]
  show (reachedFrom k ws 0).foldl soonerWait none = none
  rw [hnil]
  rfl

/-- The condition of a wait: TIME has reached the deadline, with SURE by the bound too. -/
theorem Stack.reached_iff (k : Stack) (w : Wait) : k.reached w = true ↔
    if w.sure then k.errReg ≠ 0xFFFFFFFF ∧ w.deadline + k.errReg.toNat ≤ k.time % 2 ^ 64 else w.deadline ≤ k.time % 2 ^ 64 := by
  have htime : k.timeReg.toNat = k.time % 2 ^ 64 := BitVec.toNat_ofNat ..
  rw [← htime, Stack.reached]
  split <;> simp

theorem exec_timewaitRelease_eq (core : Nat) {ctx : Nat} (hctx : (s.core core).ctx = some ctx) (hph : (s.ctx ctx).phase = .active) {i : Nat} {w : Wait}
    (hnext : nextWait (s.stack (coreStack core)) (s.core core).waits = some (i, w)) {ws : List Wait} (hws : (s.core core).waits.eraseIdx i = ws) :
    exec (.timewaitRelease core) s = .next ((s.modCore core (fun k => { k with waits := ws })).emitBoth w.fire (Fields.ofDests w.d0 w.d1) w.fire.l) := by
  subst hws
  show execTimewaitRelease core s = _
  unfold execTimewaitRelease
  dsimp only
  split
  · next cx j v hcx hjv =>
      cases hctx.symm.trans hcx
      cases hnext.symm.trans hjv
      exact congrArg Host.Outcome.next (if_neg (not_not.mpr hph))
  · next h => exact absurd hnext (h _ _ _ hctx)

theorem exec_timewaitRelease_none (core : Nat) (h : nextWait (s.stack (coreStack core)) (s.core core).waits = none) : exec (.timewaitRelease core) s = .next s := by
  show execTimewaitRelease core s = _
  unfold execTimewaitRelease
  dsimp only
  rw [h]
  cases (s.core core).ctx <;> rfl

theorem exec_timewaitRetry_free (core : Nat) {w : Wait} {rest : List Wait} (hr : (s.core core).waitRetry = w :: rest) (hl : (s.core core).waits.length < 256) :
    exec (.timewaitRetry core) s = .next (s.modCore core (fun k => { k with waits := k.waits ++ [w], waitRetry := rest })) := by
  refine congrArg Host.Outcome.next (congrArg (s.setCore core) ?_)
  dsimp only
  rw [hr]
  exact if_pos hl

/-! ## Holdover and the end of a slew (R388, R389) -/

theorem exec_holdoverEnter_eq (n : Nat) : exec (.holdoverEnter n) s = .next (if (s.stack n).hold = true ∨ (s.stack n).time < (s.stack n).lastExch + 64000 then s
    else s.modStack n (fun k => { k with hold := true, lastTick := k.time })) := rfl

theorem Stack.locked_of_hold {k : Stack} (h : k.hold = true) : k.locked = false := by rw [Stack.locked, h]; rfl

theorem exec_holdoverTick_eq (n : Nat) : exec (.holdoverTick n) s = .next (if (!(s.stack n).hold) = true ∨ (s.stack n).time < (s.stack n).lastTick + 50000 then s
    else (s.modStack n (fun k => { k with err := errAdd k.err 1, lastTick := k.lastTick + 50000 })).limitCheck n) := rfl

theorem exec_slewComplete_eq (n : Nat) : exec (.slewComplete n) s = .next (if ((s.stack n).slewing && (s.stack n).residual == 0) = true then
    (s.modStack n (fun k => { k with slewing := false })).limitCheck n else s) := rfl

/-- One more holds at the highest value too. -/
theorem errAdd_one_toNat (e : U32) : (errAdd e 1).toNat = min (2 ^ 32 - 1) (e.toNat + 1) := by
  rw [errAdd_toNat]
  split
  · next h => rw [h]; rfl
  · rfl

/-! ## Link ends (R392, R398, R401) -/

theorem State.modLink_modLink (l side : Nat) (f h : LinkEnd → LinkEnd) : (s.modLink l side f).modLink l side h = s.modLink l side (fun e => h (f e)) := by
  show ({ s with links := Table.put (Table.put s.links (2 * l + side) (f (s.link l side))) (2 * l + side) (h ((s.modLink l side f).link l side)) } : State) = _
  rw [Table.put_put_same, State.link_modLink_same]
  rfl

section
variable {l side : Nat} {x : Flit} {rest : List Flit} (hw : (s.link l side).wire = x :: rest) {h : Flit → Option (State → State)}
include hw

/-- An unsequenced flit is taken in at once. -/
theorem State.receive_unsequenced {k : State → State} (hx : h x = some k) (hseq : x.body.sequenced = false) :
    s.receive l side h = k (s.modLink l side (fun e => { e with wire := rest })) := by
  unfold State.receive
  simp only [hw, hx, hseq, Bool.not_false, if_true]

/-- A sequenced flit of the expected SEQ is taken in while an acknowledgement is not due. -/
theorem State.receive_expected {k : State → State} (hx : h x = some k) (hseq : x.body.sequenced = true) (hexp : x.seq = (s.link l side).rxSeq)
    (hcount : (s.link l side).rxCount < 64) :
    s.receive l side h = k (s.modLink l side (fun e => { e with wire := rest, rxSeq := (e.rxSeq + 1) % 4096, rxCount := e.rxCount + 1, nakked := false })) := by
  unfold State.receive
  simp only [hw, hx, hseq, hexp, Nat.not_le.mpr hcount, Bool.not_true, Bool.false_eq_true, ne_eq, not_true_eq_false, or_self, if_false]

/-- Another sequenced flit is not. -/
theorem State.receive_unexpected (hseq : x.body.sequenced = true) (hexp : x.seq ≠ (s.link l side).rxSeq ∨ 64 ≤ (s.link l side).rxCount) :
    s.receive l side h = s := by
  unfold State.receive
  simp only [hw, hseq, Bool.not_true, Bool.false_eq_true, if_false, if_pos hexp]
  cases h x <;> rfl

end

/-! ## The time exchange (R391, R392) -/

theorem exec_syncExchange_tree {l : Nat} (h1 : 12 ≤ l) (h2 : l < 24) :
    exec (.syncExchange l) s = .next (s.modLink l 0 (fun e => { e with out := e.out ++ [{ tag := 0, seq := 0, body := .time (.sync 0) }] })) := by
  have hup : treeUp l = some 0 := if_pos ⟨h1, h2⟩
  have hnode : linkNode l 0 ≠ 16 := by
    rw [linkNode, if_neg (Nat.not_lt.mpr h1), if_pos h2]
    omega
  show execSyncExchange l s = _
  unfold execSyncExchange
  simp only [hup, if_neg hnode]
  rfl

section
variable {l side : Nat} {x : Flit} {rest : List Flit} (hw : (s.link l side).wire = x :: rest)
include hw

theorem exec_timeMessage_sync {t1 : Nat} (hx : x.body = .time (.sync t1)) :
    exec (.timeMessage l side) s = .next (((s.modLink l side (fun e => { e with wire := rest })).modLink l side
      (fun e => { e with t1 := t1, t2 := s.timeOf (linkNode l side) })).toSend l side 0 (.time .delayReq)) :=
  congrArg Host.Outcome.next ((State.receive_unsequenced hw (by rw [hx]) (by rw [hx]; rfl)).trans rfl)

theorem exec_timeMessage_delayReq (hx : x.body = .time .delayReq) :
    exec (.timeMessage l side) s = .next ((s.modLink l side (fun e => { e with wire := rest })).toSend l side 0
      (.time (.reply (s.timeOf (linkNode l side)) (s.errOf (linkNode l side)).toNat))) :=
  congrArg Host.Outcome.next ((State.receive_unsequenced hw (by rw [hx]) (by rw [hx]; rfl)).trans rfl)

/-- The offset that a reply gives (R392). -/
def State.offsetAt (s : State) (l side t4 : Nat) : Int :=
  calibrated ((s.timeOf (linkNode l side) : Int) - s.timeOf (linkNode l (1 - side)))
    (((((s.link l side).t2 : Int) - (s.link l side).t1) - ((t4 : Int) - (s.link l side).t3)) / 2)

theorem exec_timeMessage_reply {t4 sent : Nat} (hx : x.body = .time (.reply t4 sent)) (hnode : linkNode l side < 16) :
    exec (.timeMessage l side) s = .next (((s.modLink l side (fun e => { e with wire := rest })).modStack (linkNode l side) (fun k =>
      k.exchanged l (s.domOf (linkNode l (1 - side))) (s.offsetAt l side t4) (BitVec.ofNat 32 (max sent (s.errOf (linkNode l (1 - side))).toNat)))).limitCheck
        (linkNode l side)) := by
  refine congrArg Host.Outcome.next ((State.receive_unsequenced hw (by rw [hx]) (by rw [hx]; rfl)).trans ?_)
  simp only [State.link_modLink_same]
  exact if_pos hnode

end

/-- A stack after an exchange (R388, R389, R392, R393). -/
theorem Stack.exchanged_eq (k : Stack) (l : Nat) (up : BitVec 3 × Bool × Nat) (off : Int) (err : U32) :
    let k' := k.exchanged l up off err
    k'.hold = false ∧ k'.uplink = BitVec.ofNat 6 l ∧ (k'.dom ≠ 0 → k'.err = errAdd err 3) ∧ (k'.dom = 0 → k'.err = 0xFFFFFFFF) ∧
      k'.time = (k.correct (-off)).time ∧ k'.residual = (k.correct (-off)).residual ∧ k'.epoch = (k.correct (-off)).epoch ∧ k'.lastExch = k'.time := by
  intro k'
  simp only [k', Stack.exchanged]
  split_ifs <;> simp_all

theorem Stack.correct_slew (k : Stack) {c : Int} (h : c < 16000000) :
    (k.correct c).time = k.time ∧ (k.correct c).residual = c ∧ (k.correct c).epoch = k.epoch := by
  rw [Stack.correct, if_neg (show ¬milli ≤ c from Int.not_le.mpr h)]
  exact ⟨rfl, rfl, rfl⟩

theorem Stack.correct_step (k : Stack) {c : Int} (h : 16000000 ≤ c) :
    (k.correct c).time = k.time + c.toNat ∧ (k.correct c).residual = 0 ∧ (k.correct c).epoch = k.epoch + 1 := by
  rw [Stack.correct, if_pos (show milli ≤ c from h)]
  exact ⟨rfl, rfl, rfl⟩

theorem Stack.locked_of_dom {k : Stack} (h : k.dom = 0) : k.locked = false := by
  rw [Stack.locked, h]
  exact Bool.and_false _

/-! ## The module reference (R391, R394) -/

/-- A reference that is less than 1 ms behind slews (R388, R394). -/
theorem State.discipline_slew (dom : BitVec 3) {off : Int} {err : Nat} (hoff : -16000000 < off) (herr : err < 2 ^ 32) :
    ∃ u : State, s.discipline dom off err = u ∧ u.mod.ioResid = -off ∧ u.mod.ioErr = BitVec.ofNat 32 err ∧ u.mod.io0Time = s.mod.io0Time ∧ u.stackTab = s.stackTab := by
  have hslew : ¬milli ≤ -off := by
    rw [milli]
    omega
  have hmin : min 0xFFFFFFFF err = err := by omega
  refine ⟨s.modMod fun m => m.discipline dom off err, if_neg hslew, ?_⟩
  simp only [State.mod_modMod, Module.discipline, if_neg hslew, hmin]
  split <;> exact ⟨rfl, rfl, rfl, rfl⟩

theorem exec_podSyncExchange_eq (off : Int) (err tiers : Nat) : exec (.podSyncExchange off err tiers) s = .next (
    if s.mod.domReq ≠ 2 ∨ s.mod.gmReq ∨ !bitAt s.mod.gates 8 ∨ 2 < tiers then s else s.discipline 2 off (err + 3 * tiers)) := rfl

theorem exec_ptpMessage_eq (off : Int) (err : Nat) : exec (.ptpMessage off err) s = .next (
    if s.mod.domReq ≠ 3 ∨ s.mod.gmReq ∨ !bitAt s.mod.gates 10 then s else s.discipline 3 off err) := rfl

/-! ## Stack clocks (R22, R23) -/

theorem State.clockRelease_none {n : Nat} (h : (s.stack n).pendMhz = none) : s.clockRelease n = s := by
  unfold State.clockRelease
  simp only [h]

theorem State.clockRelease_held {n m : Nat} (h : (s.stack n).pendMhz = some m)
    (hheld : (s.clockHeld n || ((s.stack n).clamp.isSome && decide ((s.stack n).curMhz < m))) = true) : s.clockRelease n = s := by
  unfold State.clockRelease
  simp only [h, hheld, if_true]

theorem State.clockRelease_free {n m : Nat} (h : (s.stack n).pendMhz = some m) (hheld : s.clockHeld n = false) (hclamp : (s.stack n).clamp = none) :
    s.clockRelease n = s.modStack n (fun k => k.startClock m) := by
  unfold State.clockRelease
  simp [h, hheld, hclamp]

section
variable {n mhz : Nat}

theorem exec_clockChangeRequest_ignored (h : mhz < (s.stack n).minMhz ∨ (s.stack n).maxMhz < mhz) :
    exec (.clockChangeRequest n mhz) s = .next (s.modMod (fun m => { m with clockLog := m.clockLog ++ [(n, mhz)] })) :=
  congrArg Host.Outcome.next (if_pos h)

theorem exec_clockChangeRequest_taken (h1 : (s.stack n).minMhz ≤ mhz) (h2 : mhz ≤ (s.stack n).maxMhz) :
    exec (.clockChangeRequest n mhz) s = .next ((s.modStack n (fun k => { k with pendMhz := some mhz })).clockRelease n) :=
  congrArg Host.Outcome.next (if_neg (by omega))

end

/-! ## What the events leave of a stack -/

/-- HOLDOVER_TICK in holdover (R389). -/
theorem exec_holdoverTick_hold {n : Nat} (hhold : (s.stack n).hold = true) (htime : (s.stack n).lastTick + 50000 ≤ (s.stack n).time) :
    ∃ u : State, exec (.holdoverTick n) s = .next u ∧ (u.stack n).lastTick = (s.stack n).lastTick + 50000 ∧
      (u.stack n).err.toNat = min (2 ^ 32 - 1) ((s.stack n).err.toNat + 1) ∧ (u.stack n).time = (s.stack n).time ∧ u.mod = s.mod := by
  let a : State := s.modStack n (fun k => { k with err := errAdd k.err 1, lastTick := k.lastTick + 50000 })
  have hgo : ¬((!(s.stack n).hold) = true ∨ (s.stack n).time < (s.stack n).lastTick + 50000) := by
    rw [hhold]
    simpa using htime
  obtain ⟨_, _, _, hlimit⟩ := State.stack_limitCheck a n n
  obtain ⟨tab, hu⟩ := State.limitCheck_eq a n
  refine ⟨a.limitCheck n, (exec_holdoverTick_eq n).trans (congrArg Host.Outcome.next (if_neg hgo)), ?_, ?_, ?_, (congrArg State.mod hu).trans rfl⟩
  · rw [hlimit, State.stack_modStack_same]
  · rw [hlimit, State.stack_modStack_same]
    exact errAdd_one_toNat _
  · rw [hlimit, State.stack_modStack_same]

/-- SLEW_COMPLETE of a slew whose residual is removed (R388). -/
theorem exec_slewComplete_done {n : Nat} (hslew : (s.stack n).slewing = true) (hres : (s.stack n).residual = 0) :
    ∃ u : State, exec (.slewComplete n) s = .next u ∧ (u.stack n).slewing = false ∧ (u.stack n).residual = 0 ∧
      (u.stack n).time = (s.stack n).time ∧ (u.stack n).err = (s.stack n).err := by
  let a : State := s.modStack n (fun k => { k with slewing := false })
  obtain ⟨_, _, _, hlimit⟩ := State.stack_limitCheck a n n
  refine ⟨a.limitCheck n, (exec_slewComplete_eq n).trans (congrArg Host.Outcome.next (if_pos (by simp [hslew, hres]))), ?_⟩
  rw [hlimit, State.stack_modStack_same]
  exact ⟨rfl, hres, rfl, rfl⟩

/-- A reply corrects the downstream stack (R388, R389, R392). -/
theorem exec_timeMessage_corrects {l side : Nat} {x : Flit} {rest : List Flit} (hw : (s.link l side).wire = x :: rest) {t4 sent : Nat}
    (hx : x.body = .time (.reply t4 sent)) (hnode : linkNode l side < 16) :
    let node := linkNode l side
    let off := s.offsetAt l side t4
    let err := max sent (s.errOf (linkNode l (1 - side))).toNat
    let k := s.stack node
    err < 2 ^ 32 - 4 →
    ∃ u : State, exec (.timeMessage l side) s = .next u ∧ (u.stack node).hold = false ∧ (u.stack node).uplink = BitVec.ofNat 6 l ∧
      ((u.stack node).dom ≠ 0 → (u.stack node).err = BitVec.ofNat 32 (err + 3)) ∧ ((u.stack node).dom = 0 → (u.stack node).err = 0xFFFFFFFF ∧ (u.stack node).locked = false) ∧
      (-off < 16000000 → (u.stack node).time = k.time ∧ (u.stack node).residual = -off ∧ (u.stack node).epoch = k.epoch) ∧
      (16000000 ≤ -off → (u.stack node).time = k.time + (-off).toNat ∧ (u.stack node).residual = 0 ∧ (u.stack node).epoch = k.epoch + 1) ∧
      (u.stack node).lastExch = (u.stack node).time := by
  intro node off err k herr
  have hadd : errAdd (BitVec.ofNat 32 err) 3 = BitVec.ofNat 32 (err + 3) := by
    have hnat : (BitVec.ofNat 32 err).toNat = err := by rw [BitVec.toNat_ofNat, Nat.mod_eq_of_lt (by omega)]
    have hne : BitVec.ofNat 32 err ≠ 0xFFFFFFFF := fun h => by
      have : err = 4294967295 := hnat.symm.trans (congrArg BitVec.toNat h)
      omega
    rw [errAdd, if_neg hne, hnat, Nat.min_eq_right (by omega)]
  let a : State := (s.modLink l side (fun e => { e with wire := rest })).modStack node (fun k => k.exchanged l (s.domOf (linkNode l (1 - side))) off (BitVec.ofNat 32 err))
  obtain ⟨_, _, _, hlimit⟩ := State.stack_limitCheck a node node
  obtain ⟨hhold, huplink, hdom, hdom0, htime, hres, hepoch, hlast⟩ := k.exchanged_eq l (s.domOf (linkNode l (1 - side))) off (BitVec.ofNat 32 err)
  rw [hadd] at hdom
  refine ⟨a.limitCheck node, exec_timeMessage_reply hw hx hnode, ?_⟩
  rw [hlimit, State.stack_modStack_same]
  refine ⟨hhold, huplink, hdom, fun h => ⟨hdom0 h, Stack.locked_of_dom h⟩, fun h => ?_, fun h => ?_, hlast⟩
  · obtain ⟨h1, h2, h3⟩ := k.correct_slew h
    exact ⟨htime.trans h1, hres.trans h2, hepoch.trans h3⟩
  · obtain ⟨h1, h2, h3⟩ := k.correct_step h
    exact ⟨htime.trans h1, hres.trans h2, hepoch.trans h3⟩

/-- A request that nothing holds becomes the target (R22). -/
theorem exec_clockChangeRequest_starts {n mhz : Nat} (h1 : (s.stack n).minMhz ≤ mhz) (h2 : mhz ≤ (s.stack n).maxMhz) (hclamp : (s.stack n).clamp = none)
    (hheld : s.clockHeld n = false) :
    exec (.clockChangeRequest n mhz) s = .next (s.modStack n (fun k => { k with targetMhz := mhz, moving := true, pendMhz := none })) := by
  let a : State := s.modStack n (fun k => { k with pendMhz := some mhz })
  have hfree : a.clockRelease n = a.modStack n (fun k => k.startClock mhz) :=
    State.clockRelease_free (by rw [State.stack_modStack_same]) hheld (by rw [State.stack_modStack_same]; exact hclamp)
  exact (exec_clockChangeRequest_taken h1 h2).trans (congrArg Host.Outcome.next (hfree.trans (State.modStack_modStack n _ _)))

/-- A request that a clamp or a width reduction holds is pending (R23, R409). -/
theorem exec_clockChangeRequest_held {n mhz : Nat} (h1 : (s.stack n).minMhz ≤ mhz) (h2 : mhz ≤ (s.stack n).maxMhz)
    (hheld : s.clockHeld n = true ∨ ((s.stack n).clamp ≠ none ∧ (s.stack n).curMhz < mhz)) :
    exec (.clockChangeRequest n mhz) s = .next (s.modStack n (fun k => { k with pendMhz := some mhz })) := by
  have hb : (s.clockHeld n || ((s.stack n).clamp.isSome && decide ((s.stack n).curMhz < mhz))) = true := by
    simpa [Option.isSome_iff_ne_none] using hheld
  exact (exec_clockChangeRequest_taken h1 h2).trans (congrArg Host.Outcome.next
    (State.clockRelease_held (m := mhz) (by rw [State.stack_modStack_same]) (by rw [State.stack_modStack_same]; exact hb)))

/-- A clamp that stops acting lets a held request take effect, or the clock goes back to its target (R23). -/
theorem exec_clampRelease_clamped {n : Nat} (hclamp : (s.stack n).clamp ≠ none) (hheld : s.clockHeld n = false) :
    let k := s.stack n
    ∃ u : State, exec (.clampRelease n) s = .next u ∧ (u.stack n).clamp = none ∧
      (∀ m, k.pendMhz = some m → (u.stack n).targetMhz = m ∧ (u.stack n).pendMhz = none ∧ (u.stack n).moving = true) ∧
      (k.pendMhz = none → (u.stack n).targetMhz = k.targetMhz ∧ (u.stack n).moving = (k.moving || k.curMhz != k.targetMhz)) := by
  intro k
  let a : State := s.modStack n (fun k => { k with clamp := none, moving := k.moving || k.curMhz != k.targetMhz })
  have ha : a.stack n = { k with clamp := none, moving := k.moving || k.curMhz != k.targetMhz } := State.stack_modStack_same _ _ _
  refine ⟨a.clockRelease n, congrArg Host.Outcome.next (if_neg (by simpa using hclamp)), ?_⟩
  cases hp : k.pendMhz with
  | none =>
    rw [State.clockRelease_none (s := a) (by rw [ha]; exact hp), ha]
    exact ⟨rfl, fun m h => (by cases h), fun _ => ⟨rfl, rfl⟩⟩
  | some m =>
    rw [State.clockRelease_free (s := a) (by rw [ha]; exact hp) hheld (by rw [ha]), State.stack_modStack_same, ha]
    refine ⟨rfl, fun m' h => ?_, fun h => (by cases h)⟩
    cases h
    exact ⟨rfl, rfl, rfl⟩

/-! ## The results -/

/-- Settles O50: each event by its lemma above. -/
theorem timeEventResults : Obligations.TimeEventResults := by
  refine ⟨fun s => ⟨?waits, ?retry, ?holdover, fun l h1 h2 => exec_syncExchange_tree h1 h2, ?messages, ?reference⟩, ?clocks⟩
  case waits =>
    intro core ctx w pre post hctx hph hws k holds
    have hreach (x : Wait) : k.reached x = true ↔ holds x := k.reached_iff x
    refine ⟨fun hw hpre hpost => ?_, fun hnone => exec_timewaitRelease_none core (nextWait_none fun x hx h => hnone x hx ((hreach x).mp h))⟩
    have hnext : nextWait k (s.core core).waits = some (pre.length, w) := by
      rw [hws]
      exact nextWait_eq ((hreach w).mpr hw) (fun x hx h => hpre x hx ((hreach x).mp h)) fun x hx h => hpost x hx ((hreach x).mp h)
    have herase : (s.core core).waits.eraseIdx pre.length = pre ++ post := by
      rw [hws]
      simp [List.eraseIdx_append_of_length_le]
    exact exec_timewaitRelease_eq core hctx hph hnext herase
  case retry => exact fun core w rest hr hl => exec_timewaitRetry_free core hr hl
  case holdover =>
    intro n k
    refine ⟨fun hhold htime => ?_, fun h => congrArg Host.Outcome.next (if_pos h), exec_holdoverTick_hold, fun h => congrArg Host.Outcome.next (if_pos ?_),
      fun _ => exec_slewComplete_done, fun h => congrArg Host.Outcome.next (if_neg ?_)⟩
    · have henter : exec (.holdoverEnter n) s = .next (s.modStack n (fun k => { k with hold := true, lastTick := k.time })) :=
        (exec_holdoverEnter_eq n).trans (congrArg Host.Outcome.next (if_neg (by rw [not_or, Nat.not_lt]; exact ⟨Bool.eq_false_iff.mp hhold, htime⟩)))
      refine ⟨henter, fun u hu => ?_⟩
      cases henter.symm.trans hu
      rw [State.stack_modStack_same]
      exact Stack.locked_of_hold rfl
    · exact h.imp_left (congrArg not)
    · rcases h with h | h
      · simp [k] at h
        simp [h]
      · simp [k] at h
        simp [h]
  case messages =>
    intro l side x rest hw node a reply
    exact ⟨fun t1 hx => exec_timeMessage_sync hw hx, fun hx => exec_timeMessage_delayReq hw hx, fun t4 sent hx hnode => exec_timeMessage_corrects hw hx hnode⟩
  case reference =>
    intro off err tiers hoff herr hgm
    refine ⟨fun hdom hgate htiers => ?_, fun hdom => congrArg Host.Outcome.next (if_pos (.inl hdom)), fun hdom hgate => ?_,
      fun hdom => congrArg Host.Outcome.next (if_pos (.inl hdom))⟩
    · have hgo : ¬(s.mod.domReq ≠ 2 ∨ s.mod.gmReq ∨ (!bitAt s.mod.gates 8) = true ∨ 2 < tiers) := by
        simpa [hdom, hgm, bitAt, hgate] using htiers
      obtain ⟨u, hu, hmod⟩ := s.discipline_slew 2 hoff (err := err + 3 * tiers) (by omega)
      exact ⟨u, (exec_podSyncExchange_eq off err tiers).trans (congrArg Host.Outcome.next ((if_neg hgo).trans hu)), hmod⟩
    · have hgo : ¬(s.mod.domReq ≠ 3 ∨ s.mod.gmReq ∨ (!bitAt s.mod.gates 10) = true) := by simp [hdom, hgm, bitAt, hgate]
      obtain ⟨u, hu, hmod⟩ := s.discipline_slew 3 hoff (err := err) (by omega)
      exact ⟨u, (exec_ptpMessage_eq off err).trans (congrArg Host.Outcome.next ((if_neg hgo).trans hu)), hmod⟩
  case clocks =>
    intro s n mhz k
    refine ⟨exec_clockChangeRequest_ignored, fun h1 h2 => ⟨fun hclamp hheld => ?_, exec_clockChangeRequest_held h1 h2⟩, fun hmove => ?_, fun idle => ?_,
      fun h => congrArg Host.Outcome.next (if_pos (by simp [k] at h; simp [h])), exec_clampRelease_clamped, rfl, rfl⟩
    · refine ⟨_, exec_clockChangeRequest_starts h1 h2 hclamp hheld, State.stack_modStack_same _ _ _, fun x hx => ?_, rfl, rfl⟩
      rw [State.stack_modStack, if_neg hx.symm]
    · exact congrArg Host.Outcome.next (State.modStack_congr (if_pos hmove))
    · refine ⟨_, rfl, ?_⟩
      rw [State.stack_modStack_same]
      exact ⟨rfl, Option.some_ne_none _, rfl, rfl⟩

end Sys2Proof.Machine

/-! SUPPORT. The control page, the aperture, windows, keys, the mailbox and the link policy (R470, R472, R474, R488 to R491). -/

namespace Sys2Proof.Machine

variable {s : State}

/-! ## The control page (R470) -/

theorem State.hostUp_of_ready (h : s.mod.stage = 7) : s.hostUp = true := decide_eq_true h

theorem State.hostUp_of_not_ready (h : s.mod.stage ≠ 7) : s.hostUp = false := decide_eq_false h

theorem exec_registerWrite_down (off : Nat) (v : U64) (h : s.mod.stage ≠ 7) : exec (.registerWrite off v) s = .next s :=
  congrArg Host.Outcome.next (if_neg (Bool.eq_false_iff.mp (State.hostUp_of_not_ready h)))

theorem exec_registerWrite_up (off : Nat) (v : U64) (h : s.mod.stage = 7) : exec (.registerWrite off v) s = .next (s.pageWrite off v) :=
  congrArg Host.Outcome.next (if_pos (State.hostUp_of_ready h))

/-- CTXCMD takes a command while none is under way (R470). -/
theorem State.pageWrite_ctxcmd (v : U64) :
    (s.mod.cmdBusy = true → s.pageWrite 0x0018 v = s) ∧
    (s.mod.cmdBusy = false → s.pageWrite 0x0018 v = s.modMod (fun m => { m with
      cmdOp := v.extractLsb' 16 4, cmdCtx := v.extractLsb' 0 12, cmdBusy := decide (v.extractLsb' 16 4 = 1 ∨ v.extractLsb' 16 4 = 2) })) := by
  have hcmd : s.pageWrite 0x0018 v = if s.mod.cmdBusy then s else s.modMod (fun m => { m with
      cmdOp := field v 16 4, cmdCtx := field v 0 12, cmdBusy := field v 16 4 == 1 || field v 16 4 == 2 }) := rfl
  have hbusy : (field v 16 4 == 1 || field v 16 4 == 2) = decide (v.extractLsb' 16 4 = 1 ∨ v.extractLsb' 16 4 = 2) := by
    rw [Bool.decide_or]
    rfl
  rw [hcmd, hbusy]
  exact ⟨fun h => if_pos h, fun h => if_neg (Bool.eq_false_iff.mp h)⟩

/-- A place of FUNCMAP (R470). -/
theorem State.pageWrite_funcmap {n : Nat} (hn : n < 64) (v : U64) :
    s.pageWrite (0x2000 + 8 * n) v = s.modMod (fun m => { m with funcmap := Table.put m.funcmap n (v.extractLsb' 0 13) }) := by
  have hmod : (0x2000 + 8 * n) % 8 = 0 := by omega
  have hplace : (0x2000 + 8 * n - 0x2000) / 8 = n := by omega
  have hrange : 0x2000 ≤ 0x2000 + 8 * n ∧ 0x2000 + 8 * n < 0x2200 := by omega
  have hne : 0x2000 + 8 * n ≠ 0x0008 ∧ 0x2000 + 8 * n ≠ 0x0010 ∧ 0x2000 + 8 * n ≠ 0x0018 ∧ 0x2000 + 8 * n ≠ 0x0020 ∧ 0x2000 + 8 * n ≠ 0x0028 := by omega
  obtain ⟨h08, h10, h18, h20, h28⟩ := hne
  unfold State.pageWrite
  simp only [hmod, ne_eq, not_true_eq_false, if_false, h08, h10, h18, h20, h28, if_pos hrange, hplace]

/-! ## The aperture (R472) -/

theorem Memory.readBytes_eq_map (m : Memory) (a n : Nat) : m.readBytes a n = (List.range n).map (fun j => m.read (a + j)) := by
  induction n generalizing a with
  | zero => rfl
  | succ n ih =>
    rw [Memory.readBytes, ih, List.range_succ_eq_map, List.map_cons, List.map_map]
    refine congrArg _ (List.map_congr_left fun j _ => congrArg m.read ?_)
    show a + 1 + j = a + (j + 1)
    omega

section
variable {off : Nat} {bs : List Byte}

theorem exec_apertureAccess_write (hlen : off + bs.length ≤ 2 ^ 26) (hoff : off < 2 ^ 26) (ho : s.mod.aperture = true) :
    exec (.apertureAccess off bs.length (some bs)) s = .next (s.hbmWrite off bs none) := by
  have htake : bs.take (2 ^ 26 - off) = bs := List.take_of_length_le (by omega)
  refine congrArg Host.Outcome.next ((if_pos ⟨ho, hoff⟩).trans ?_)
  rw [htake]

theorem exec_apertureAccess_read (hlen : off + bs.length ≤ 2 ^ 26) (ho : s.mod.aperture = true) :
    exec (.apertureAccess off bs.length none) s = .next (s.modMod (fun m => { m with hostRead := (List.range bs.length).map (fun j => s.hbm.read (off + j)) })) := by
  have hn : min bs.length (2 ^ 26) = bs.length := by omega
  have hm : min bs.length (2 ^ 26 - off) = bs.length := by omega
  show execApertureAccess off bs.length none s = _
  unfold execApertureAccess
  simp only [ho, if_true, hn, hm, Nat.sub_self, List.replicate_zero, List.append_nil, Memory.readBytes_eq_map]

theorem exec_apertureAccess_closed (hlen : off + bs.length ≤ 2 ^ 26) (hclosed : s.mod.aperture = false) :
    exec (.apertureAccess off bs.length (some bs)) s = .next s ∧
    exec (.apertureAccess off bs.length none) s = .next (s.modMod (fun m => { m with hostRead := List.replicate bs.length 0 })) := by
  have hn : min bs.length (2 ^ 26) = bs.length := by omega
  refine ⟨congrArg Host.Outcome.next (if_neg fun h => Bool.eq_false_iff.mp hclosed h.1), ?_⟩
  show execApertureAccess off bs.length none s = _
  unfold execApertureAccess
  simp only [hclosed, Bool.false_eq_true, if_false, hn]

end

/-! ## Windows, keys and the link policy (R470, R474, R489 to R491) -/

theorem exec_windowWrite_idle {n : Nat} (v : U128) (hup : s.mod.stage = 7) (hn : n < 256) (hidle : ∀ e ∈ s.cores, e.2.cmds.any (s.throughWindow n) = false) :
    exec (.windowWrite n v) s = .next (s.modMod (fun m => { m with windows := Table.put m.windows n (Window.of v) })) := by
  have hcores : s.cores.any (fun e => e.2.cmds.any (s.throughWindow n)) = false := List.any_eq_false.mpr fun e he => Bool.eq_false_iff.mp (hidle e he)
  have hgo : ¬((!s.hostUp || decide (256 ≤ n) || s.cores.any (fun e => e.2.cmds.any (s.throughWindow n))) = true) := by
    rw [hcores, State.hostUp_of_ready hup]
    simpa using hn
  exact congrArg Host.Outcome.next (if_neg hgo)

section
variable {key : List Byte} (hup : s.mod.stage = 7) (hlen : key.length = 32)

theorem exec_ownerkeyWrite_set (h : s.mod.ownerkey ≠ none) : exec (.ownerkeyWrite key) s = .next s := by
  have hset : s.mod.ownerkey.isSome = true := Option.isSome_iff_ne_none.mpr h
  exact congrArg Host.Outcome.next (if_pos (by simp [hset]))

include hup hlen

theorem exec_ownerkeyWrite_first (h : s.mod.ownerkey = none) :
    exec (.ownerkeyWrite key) s = .next ((s.modMod (fun m => { m with ownerkey := some key })).measure 3 (sha512 key)) :=
  congrArg Host.Outcome.next (if_neg (by simp [State.hostUp_of_ready hup, h, hlen]))

/-- SIGNERS with a key in a place, or none for the key of zeros (R470). -/
def Module.withSigner (m : Module) (n : Nat) (key : List Byte) : Module :=
  { m with signers := if key.all (fun b => b == 0) then Table.del m.signers n else Table.put m.signers n key }

omit hup hlen in
theorem Module.find_withSigner (m : Module) (n : Nat) (key : List Byte) :
    Table.find (m.withSigner n key).signers n = if key.all (fun b => b == 0) then none else some key := by
  unfold Module.withSigner
  dsimp only
  split
  · rw [Table.find_del, if_pos rfl]
  · rw [Table.find_put, if_pos rfl]

theorem exec_signersWrite_eq {n : Nat} (hn : n < 16) :
    exec (.signersWrite n key) s = .next ((s.modMod (fun m => m.withSigner n key)).measure 4 (sha512 (s.mod.withSigner n key).signerBytes)) :=
  congrArg Host.Outcome.next (if_neg (by simp [State.hostUp_of_ready hup, hlen, hn]))

end

theorem exec_mbox (hbusy : s.mod.mboxStat = 1) :
    (s.mod.mboxCmd = 2 → exec .mboxLog s = .next (s.modMod (fun m => { m with mboxResp := m.mlog.flatten, mboxStat := 2 }))) ∧
    (s.mod.mboxCmd = 1 → exec .mboxQuote s = .next (s.modMod (fun m => { m with
      mboxResp := Config.certChain ++ s.quoteBody ++ edSign Config.identitySeed (sha512 s.quoteBody), mboxStat := 2 }))) :=
  ⟨fun h => congrArg Host.Outcome.next (if_neg (by simp [hbusy, h])), fun h => congrArg Host.Outcome.next (if_neg (by simp [hbusy, h]))⟩

theorem exec_linkPolicy_refused {p : List Byte} (h : s.policyOk p = false) : exec (.linkPolicy p) s = .next s :=
  congrArg Host.Outcome.next (if_pos (by simp [h]))

theorem exec_linkPolicy_accepted {p : List Byte} (hup : s.mod.stage = 7) (h : s.policyOk p = true) :
    exec (.linkPolicy p) s = .next ((s.modMod (fun m => { m with
      gates := BitVec.ofNat 16 (numAt p 8 2), draining := s.diskDrain (BitVec.ofNat 16 (numAt p 8 2)), policySeq := some (BitVec.ofNat 64 (numAt p 0 8)) })).measure 6 (sha512 p)) :=
  congrArg Host.Outcome.next (if_neg (by simp [State.hostUp_of_ready hup, h]))

/-! ## The results -/

/-- Settles O58: each command of the host by its lemma above. -/
theorem controlPageResults : Obligations.ControlPageResults := by
  intro s up set measured
  refine ⟨fun off v => ⟨exec_registerWrite_down off v, fun hup => ?registers⟩, fun off bs hlen hoff => ?aperture, fun n v hup hn => exec_windowWrite_idle v hup hn,
    fun key hup hlen => ?keys, fun hbusy => ?mailbox, fun p hup => ?policy⟩
  case registers =>
    have hw (off : Nat) : exec (.registerWrite off v) s = .next (s.pageWrite off v) := exec_registerWrite_up off v hup
    obtain ⟨hctxBusy, hctx⟩ := State.pageWrite_ctxcmd (s := s) v
    exact ⟨hw _, hw _, hw _, fun h => (hw _).trans (congrArg Host.Outcome.next (hctxBusy h)), fun h => (hw _).trans (congrArg Host.Outcome.next (hctx h)),
      fun n hn => (hw _).trans (congrArg Host.Outcome.next (State.pageWrite_funcmap hn v)), hw _⟩
  case aperture =>
    exact ⟨fun ho => ⟨exec_apertureAccess_write hlen hoff ho, exec_apertureAccess_read hlen ho⟩, exec_apertureAccess_closed hlen⟩
  case keys =>
    refine ⟨exec_ownerkeyWrite_set, fun h => ⟨_, exec_ownerkeyWrite_first hup hlen h, rfl, State.measure_digest _ _ _⟩, fun n hn => ?_⟩
    exact ⟨_, exec_signersWrite_eq hup hlen hn, Module.find_withSigner _ _ _, State.measure_digest _ _ _⟩
  case mailbox =>
    obtain ⟨hlog, hquote⟩ := exec_mbox hbusy
    exact ⟨hlog, fun h => ⟨s.quoteBody, hquote h, rfl⟩⟩
  case policy =>
    exact ⟨exec_linkPolicy_refused, fun h => ⟨_, exec_linkPolicy_accepted hup h, rfl, rfl, State.measure_digest _ _ _⟩⟩

end Sys2Proof.Machine

/-! SUPPORT. Traps, host calls, event channels, and the operators of the system unit that only a supervisor context runs (R424, R433, R442 to R446, R453). -/

namespace Sys2Proof.Machine

variable {s : State} {g : Firing} {f : Fields}

/-! ## Channels (R433) -/

@[simp] theorem Stack.chan_setChan (k : Stack) (n : Nat) (c : Channel) : (k.setChan n c).chan n = c := Table.look_put_same _ _ _ _

theorem State.route_stackTab (s : State) (stack dst : Nat) (m : Mail) : (s.route stack dst m).stackTab = s.stackTab := by
  unfold State.route
  split <;> rfl

theorem State.post_stackTab (s : State) (src dst : Nat) (m : Msg) : (s.post src dst m).stackTab = s.stackTab := State.route_stackTab _ _ _ _

/-! ## Operators of a supervisor context (R442) -/

section
variable {n : Need} {k : State → Firing → Val → Option Val → Option Val → State} (hc : s.cur = some g) (hs : g.scalars)
  (hn : n.kl .scalar = true ∧ n.kr .scalar = true ∧ n.kt .scalar = true)
include hc hs hn

theorem State.supervised_user (hsup : (s.ctx g.ctx).sup = false) : s.supervised n f k = s.retire.fault g f .privilege 0 :=
  (State.operate_scalars hc hs hn.1 hn.2.1 hn.2.2).trans (if_pos (congrArg not hsup))

theorem State.supervised_supervisor (hsup : (s.ctx g.ctx).sup = true) : s.supervised n f k = k s.retire g g.l g.r g.t :=
  (State.operate_scalars hc hs hn.1 hn.2.1 hn.2.2).trans (if_neg (Bool.eq_false_iff.mp (congrArg not hsup)))

end

theorem scalarsNeed : Need.scalars.kl .scalar = true ∧ Need.scalars.kr .scalar = true ∧ Need.scalars.kt .scalar = true := ⟨rfl, rfl, rfl⟩

/-- The operators of the system unit that ask for a supervisor context (R442). -/
def supervisorOperators (f : Fields) : List Instr :=
  [.evbindBind f, .evbindUnbind f, .resumeRetry f, .resumeDiscard f, .replayall f, .corestopStop f, .corestopStart f, .ctxsave f, .ctxload f]

theorem exec_supervisorOperator {i : Instr} (hi : i ∈ supervisorOperators f) : ∃ n k, (n.kl .scalar = true ∧ n.kr .scalar = true ∧ n.kt .scalar = true) ∧
    exec i s = .next (s.supervised n f k) := by
  simp only [supervisorOperators, List.mem_cons, List.not_mem_nil, or_false] at hi
  rcases hi with rfl | rfl | rfl | rfl | rfl | rfl | rfl | rfl | rfl <;> exact ⟨_, _, ⟨rfl, rfl, rfl⟩, rfl⟩

theorem exec_supervisorOperator_user {i : Instr} (hi : i ∈ supervisorOperators f) (hc : s.cur = some g) (hs : g.scalars) (hsup : (s.ctx g.ctx).sup = false) :
    exec i s = .next (s.retire.fault g f .privilege 0) := by
  obtain ⟨n, k, hn, hexec⟩ := exec_supervisorOperator (s := s) hi
  rw [hexec, State.supervised_user hc hs hn hsup]

section
variable (hc : s.cur = some g) (hs : g.scalars)
include hc hs

/-! ## TRAP and HCALL (R444, R445) -/

omit hs in
theorem exec_trap_plain (hp : g.plain) : exec (.trap f) s = .next (
    let p := s.retire.logFault { g.fault .trap g.l.value.toNat f.imm.toNat 0 with token := (s.ctx g.ctx).hasHandler }
    (p.1.toHandler g.ctx g.core (faultValue .trap (s.vcoreOf g.core) p.2)).emitBoth g f { g.l with prov := provData, lin := Lineage.none }) :=
  congrArg Host.Outcome.next (State.operate_plain hc hp (kindsOk_any _ _ _))

/-- The channel of a HCALL (R445). -/
def State.callChan (s : State) (g : Firing) (f : Fields) : Channel := (s.stack (coreStack g.core)).chan (f.imm.toNat % 64)

theorem exec_hcall_room (hq : (s.callChan g f).queue.length < 16) (hcalls : (s.callChan g f).calls = []) :
    exec (.hcall f) s = .next ((s.retire.modStack (coreStack g.core) (fun k => k.setChan (f.imm.toNat % 64) { s.callChan g f with
      queue := (s.callChan g f).queue ++ [s.callEvent g (f.imm.toNat % 64)] })).sysEmit g f 0) :=
  congrArg Host.Outcome.next ((State.operate_scalars hc hs rfl rfl rfl).trans (if_pos ⟨hq, List.isEmpty_iff.mpr hcalls⟩))

theorem exec_hcall_waits (h : 16 ≤ (s.callChan g f).queue.length ∨ (s.callChan g f).calls ≠ []) :
    exec (.hcall f) s = .next (s.retire.modStack (coreStack g.core) (fun k => k.setChan (f.imm.toNat % 64) { s.callChan g f with
      calls := (s.callChan g f).calls ++ [g] })) := by
  refine congrArg Host.Outcome.next ((State.operate_scalars hc hs rfl rfl rfl).trans (if_neg ?_))
  rintro ⟨hq, hcalls⟩
  exact h.elim (Nat.not_le.mpr hq) fun h => h (List.isEmpty_iff.mp hcalls)

/-! ## EVBIND and CORESTOP in a supervisor context (R446, R453) -/

section
variable (hsup : (s.ctx g.ctx).sup = true)
include hsup

theorem exec_evbindBind_bound (hl : g.l.value.extractLsb' 0 11 = 0) :
    exec (.evbindBind f) s = .next ((s.retire.modStack (coreStack g.core) (fun k => k.setChan (f.imm.toNat % 64) { s.callChan g f with
      bind := some { ctx := g.ctx, fp := g.l.value.extractLsb' 32 32, ip := g.l.value.extractLsb' 12 20, port := g.l.value.getLsbD 11 } })).sysEmit g f 0) :=
  congrArg Host.Outcome.next ((State.supervised_supervisor hc hs scalarsNeed hsup).trans (if_neg (by
    show ¬((g.l.value.extractLsb' 0 11 != 0) = true)
    simp [hl])))

theorem exec_evbindBind_range (hl : g.l.value.extractLsb' 0 11 ≠ 0) : exec (.evbindBind f) s = .next (s.retire.fault g f .operandRange 0) :=
  congrArg Host.Outcome.next ((State.supervised_supervisor hc hs scalarsNeed hsup).trans (if_pos (bne_iff_ne.mpr hl)))

theorem exec_evbindUnbind_unbound :
    exec (.evbindUnbind f) s = .next ((s.retire.modStack (coreStack g.core) (fun k => k.setChan (f.imm.toNat % 64) { s.callChan g f with bind := none })).sysEmit g f 0) :=
  congrArg Host.Outcome.next (State.supervised_supervisor hc hs ⟨rfl, rfl, rfl⟩ hsup)

theorem State.corestop_supervisor (stop : Bool) :
    (4096 ≤ g.l.value.toNat ∨ g.l.value.toNat = g.core → s.corestop f stop = s.retire.fault g f .operandRange 0) ∧
    (g.l.value.toNat < 4096 → g.l.value.toNat ≠ g.core → s.corestop f stop = (s.retire.modCore g.l.value.toNat (fun k => { k with stopped := stop })).sysEmit g f 0) :=
  ⟨fun h => (State.supervised_supervisor hc hs scalarsNeed hsup).trans (if_pos h),
    fun h1 h2 => (State.supervised_supervisor hc hs scalarsNeed hsup).trans (if_neg (not_or.mpr ⟨Nat.not_le.mpr h1, h2⟩))⟩

end
end

/-! ## EVENT_SEND (R433, R446) -/

section
variable {stack chan : Nat} {b : EvBind} {v : U64} {rest : List U64} (hb : ((s.stack stack).chan chan).bind = some b)
  (hq : ((s.stack stack).chan chan).queue = v :: rest)
include hb hq

omit hq in
theorem exec_eventSend_inactive (h : (s.ctx b.ctx).phase ≠ .active) : exec (.eventSend stack chan) s = .next s := by
  show execEventSend stack chan s = _
  unfold execEventSend
  dsimp only
  split
  · next hb' _ =>
      cases hb.symm.trans hb'
      exact congrArg Host.Outcome.next (if_pos h)
  · rfl

theorem exec_eventSend_active {dst : Nat} (h : (s.ctx b.ctx).phase = .active) (hdst : s.fpCore b.ctx b.fp = some dst)
    (hcalls : ((s.stack stack).chan chan).calls = []) :
    exec (.eventSend stack chan) s = .next
      (((s.modStack stack (fun k => k.setChan chan { (s.stack stack).chan chan with queue := rest })).modCtx b.ctx (fun c => { c with quiet := false })).post
        (4096 + stack) dst (.token { fp := b.fp, ip := b.ip, port := b.port, val := Val.scalar v 0 7 } false)) := by
  let a : State := s.modStack stack (fun k => k.setChan chan { (s.stack stack).chan chan with queue := rest })
  let u : State := (a.modCtx b.ctx (fun c => { c with quiet := false })).post (4096 + stack) dst
    (.token { fp := b.fp, ip := b.ip, port := b.port, val := Val.scalar v 0 7 } false)
  have hfp : a.fpCore b.ctx b.fp = some dst := hdst
  have hstack : u.stack stack = a.stack stack := congrArg (fun t => Table.look (Stack.reset stack) t stack) (State.post_stackTab _ _ _ _)
  have hadmit : u.admitCall stack chan = u := by
    unfold State.admitCall
    rw [hstack, State.stack_modStack_same, Stack.chan_setChan]
    simp only [hcalls]
  show execEventSend stack chan s = _
  unfold execEventSend
  dsimp only
  split
  · next hb' hq' =>
      cases hb.symm.trans hb'
      cases hq.symm.trans hq'
      refine congrArg Host.Outcome.next ((if_neg (not_not.mpr h)).trans (Eq.trans ?_ hadmit))
      split
      · next hnone => cases hnone.symm.trans hfp
      · next hsome =>
          cases hsome.symm.trans hfp
          rfl
  · next hno => exact (hno b v rest hb hq).elim

end

/-! ## The results -/

/-- Settles O53: each operator and event by its lemma above. -/
theorem trapAndEventResults : Obligations.TrapAndEventResults := by
  intro s g f hc t out st n k setChan vid
  refine ⟨exec_trap_plain hc, fun hs => ⟨?_, exec_hcall_waits hc hs, fun hsup i hi => exec_supervisorOperator_user hi hc hs hsup, fun hsup => ?_⟩, ?_⟩
  · intro hq hcalls
    have hevent : s.callEvent g n = (0 : BitVec 2) ++ BitVec.ofNat 6 n ++ BitVec.ofNat 12 g.ctx ++ vid ++ g.l.value.extractLsb' 0 32 := by
      have hvid : BitVec.ofNat 12 (s.vcoreOf g.core).toNat = vid := by simp [vid, State.vcoreOf]
      rw [← hvid]
      rfl
    rw [← hevent]
    exact exec_hcall_room hc hs hq hcalls
  · refine ⟨exec_evbindBind_bound hc hs hsup, exec_evbindBind_range hc hs hsup, exec_evbindUnbind_unbound hc hs hsup, fun i stop hi => ?_⟩
    obtain ⟨hrange, hgo⟩ := State.corestop_supervisor (f := f) hc hs hsup stop
    have hexec : exec i s = .next (s.corestop f stop) := by
      simp only [List.mem_cons, List.not_mem_nil, or_false, Prod.mk.injEq] at hi
      rcases hi with ⟨rfl, rfl⟩ | ⟨rfl, rfl⟩ <;> rfl
    exact ⟨fun h => hexec.trans (congrArg Host.Outcome.next (hrange h)), fun h1 h2 => hexec.trans (congrArg Host.Outcome.next (hgo h1 h2))⟩
  · intro stack chan b v rest hb hq c
    exact ⟨exec_eventSend_inactive hb, fun dst => exec_eventSend_active hb hq⟩

end Sys2Proof.Machine

/-! SUPPORT. CTXSAVE, the write of the save area, and CTXLOAD (R436, R437, R440, R449). -/

namespace Sys2Proof.Machine

variable {s : State} {g : Firing} {f : Fields} {x : Nat}

/-! ## CTXSAVE (R436, R449) -/

/-- Steps that change nothing leave the start of a fold. -/
theorem foldl_eq_start {α β : Type} {step : α → β → α} {a : α} {l : List β} (h : ∀ b ∈ l, step a b = a) : l.foldl step a = a := by
  induction l with
  | nil => rfl
  | cons b l ih => rw [List.foldl_cons, h b (.head _), ih fun c hc => h c (.tail _ hc)]

/-- A context of which no tape engine records is saved without the end of a recording. -/
theorem exec_ctxsave_saving (hc : s.cur = some g) (hs : g.scalars) (hsup : (s.ctx g.ctx).sup = true) (hx : (field g.l.value 0 12).toNat = x) (hne : x ≠ g.ctx)
    (hph : (s.ctx x).phase = .active) (hrec : ∀ e ∈ s.tapes, ∀ w, e.2.record = some w → w.ctx ≠ x) :
    exec (.ctxsave f) s = .next ((s.retire.newId.modCore g.core (fun k => { k with cmds := k.cmds ++ [{ Cmd.start s.ids g (.ctxsave f) .system with
      phase := .queued }] })).modCtx x (fun c => { c with phase := .saving s.ids })) := by
  subst hx
  refine congrArg Host.Outcome.next ((State.supervised_supervisor hc hs scalarsNeed hsup).trans ((if_neg (not_or.mpr ⟨hne, not_not.mpr hph⟩)).trans
    (foldl_eq_start fun e he => ?_)))
  split
  · next w hw => exact if_neg fun h => hrec e he w hw h.1
  · rfl

theorem exec_ctxsave_refused (hc : s.cur = some g) (hs : g.scalars) (hsup : (s.ctx g.ctx).sup = true) (hx : (field g.l.value 0 12).toNat = x)
    (h : x = g.ctx ∨ (s.ctx x).phase ≠ .active) : exec (.ctxsave f) s = .next (s.retire.fault g f .ctxState 0) := by
  subst hx
  exact congrArg Host.Outcome.next ((State.supervised_supervisor hc hs scalarsNeed hsup).trans (if_pos h))

/-! ## SAVE_WRITE (R436, R437) -/

theorem exec_saveWrite_waits {id : Nat} (hph : (s.ctx x).phase = .saving id) (h : s.drained x = false ∨ s.savedCmd id = true) :
    exec (.saveWrite x) s = .next s := by
  show execSaveWrite x s = _
  unfold execSaveWrite
  rw [hph]
  exact congrArg Host.Outcome.next (if_pos (by rcases h with h | h <;> simp [h]))

theorem exec_saveWrite_writes {id : Nat} {c : Cmd} (hph : (s.ctx x).phase = .saving id) (hdrain : s.drained x = true) (hsaved : s.savedCmd id = false)
    (hc : s.saver id = some c) (hf : c.fields = some f) : exec (.saveWrite x) s = .next (s.saveEnd x (coreStack c.fire.core) (some (c, f))) := by
  show execSaveWrite x s = _
  unfold execSaveWrite
  rw [hph]
  refine congrArg Host.Outcome.next ((if_neg (by simp [hdrain, hsaved])).trans ?_)
  rw [hc]
  dsimp only
  rw [hf]
  rfl

/-- A save area that is written takes the context off its region. -/
theorem State.saveEnd_written {stack : Nat} {c : Cmd} {u : State} (hw : s.spend.writeArea x stack (Config.freeWord s.free) = (u, none)) :
    s.saveEnd x stack (some (c, f)) = (u.takeOff x).answer c f [(false, c.scalar 0)] := by
  unfold State.saveEnd
  rw [hw]

/-- A write that fails leaves the context active. -/
theorem State.saveEnd_failed {stack : Nat} {c : Cmd} {u : State} {e : AccessStop} (hw : s.spend.writeArea x stack (Config.freeWord s.free) = (u, some e)) :
    s.saveEnd x stack (some (c, f)) = (u.modCtx x (fun y => { y with phase := .active })).failWith c f e.1 e.2.1 e.2.2 (accessDetail e.1 .write) := by
  unfold State.saveEnd
  rw [hw]

theorem State.clearCores_saved (s : State) (x : Nat) : (s.clearCores x).saved = s.saved := by
  have hfold (l : List Nat) (u : State) : (l.foldl (fun (s : State) p => s.setCore p { Core.reset with stopped := (s.core p).stopped }) u).saved = u.saved := by
    induction l generalizing u with
    | nil => rfl
    | cons p l ih => exact ih _
  exact hfold _ s

/-- A context that is taken off its region is inactive, with a record of what was saved (R436). -/
theorem State.takeOff_ends (s : State) (x : Nat) : ((s.takeOff x).ctx x).phase = .inactive ∧ Table.find (s.takeOff x).saved x ≠ none := by
  obtain ⟨a, t, sv, k, htake, hsaved, hk⟩ : ∃ (a : State) (t : Table Saved) (sv : Saved) (k : Ctx → Ctx),
      s.takeOff x = (a.clearCores x).modCtx x k ∧ a.saved = Table.put t x sv ∧ ∀ c, (k c).phase = .inactive := by
    unfold State.takeOff
    extract_lets s1 sv cores s2 s3
    exact ⟨s3, s2.saved, sv, _, rfl, rfl, fun _ => rfl⟩
  rw [htake]
  refine ⟨?_, ?_⟩
  · rw [State.ctx_modCtx_same, hk]
  · rw [State.modCtx_saved, State.clearCores_saved, hsaved, Table.find_put, if_pos rfl]
    exact Option.some_ne_none _

/-! ## CTXLOAD (R440, R449) -/

/-- A CSR write leaves the phase of a context and its place. -/
theorem Ctx.csrSet_place (c : Ctx) (n : Nat) (v : U64) : (c.csrSet n v).phase = c.phase ∧ (c.csrSet n v).x0 = c.x0 ∧ (c.csrSet n v).y0 = c.y0 := by
  unfold Ctx.csrSet
  split <;> try split
  all_goals exact ⟨rfl, rfl, rfl⟩

theorem Ctx.foldl_csrSet_place (l : List (Nat × Nat)) (v : Nat × Nat → U64) (c : Ctx) :
    (l.foldl (fun c p => c.csrSet p.1 (v p)) c).phase = c.phase ∧ (l.foldl (fun c p => c.csrSet p.1 (v p)) c).x0 = c.x0 ∧
      (l.foldl (fun c p => c.csrSet p.1 (v p)) c).y0 = c.y0 := by
  induction l generalizing c with
  | nil => exact ⟨rfl, rfl, rfl⟩
  | cons p l ih =>
    obtain ⟨h1, h2, h3⟩ := c.csrSet_place p.1 (v p)
    obtain ⟨i1, i2, i3⟩ := ih (c.csrSet p.1 (v p))
    exact ⟨i1.trans h1, i2.trans h2, i3.trans h3⟩

/-- A restored context is active at its new place. -/
theorem Saved.context_place (sv : Saved) (now : Ctx) (h : List Byte) (x0 y0 : Nat) :
    (sv.context now h x0 y0).phase = .active ∧ (sv.context now h x0 y0).x0 = x0 ∧ (sv.context now h x0 y0).y0 = y0 := by
  simp only [Saved.context, Ctx.foldl_csrSet_place, and_self]

/-- What passes the checks of R440. -/
theorem State.loadCheck_ok {stack : Nat} {r : U64} {sv : Saved} {new : Ctx} {l : List (Nat × Core × List Byte)} (h : s.loadCheck x stack r = .ok sv new l) :
    (s.ctx x).phase = .inactive ∧ Table.find s.saved x = some sv ∧ new.phase = .active ∧ s.regionFree x new.x0 new.y0 sv.wm1 sv.hm1 = true ∧
      (bitAt r 12 = false → new.x0 = (field r 0 6).toNat ∧ new.y0 = (field r 6 6).toNat) := by
  unfold State.loadCheck at h
  dsimp only at h
  split at h
  · cases h
  next bs _ =>
    split at h
    · cases h
    split at h
    · split at h <;> cases h
    next sv' hsv =>
      split at h
      · cases h
      split at h
      · cases h
      · cases h
      next cores _ =>
        generalize hx0 : (if bitAt r 12 = true then bitsAt (numAt bs 16 4) 0 6 else (field r 0 6).toNat) = x0 at h
        generalize hy0 : (if bitAt r 12 = true then bitsAt (numAt bs 16 4) 6 6 else (field r 6 6).toNat) = y0 at h
        obtain ⟨hactive, hx, hy⟩ := sv'.context_place (s.ctx x) bs x0 y0
        generalize sv'.context (s.ctx x) bs x0 y0 = c at h hactive hx hy
        split at h
        · cases h
        next hph =>
          split at h
          · cases h
          next hfree =>
            split at h
            · cases h
            split at h
            · cases h
            cases h
            rw [hx, hy]
            refine ⟨not_not.mp (not_or.mp hph).2, hsv, hactive, by simpa using hfree, fun hbit => ?_⟩
            rw [if_neg (Bool.eq_false_iff.mp hbit)] at hx0 hy0
            exact ⟨hx0.symm, hy0.symm⟩

section
variable (hc : s.cur = some g) (hs : g.scalars) (hsup : (s.ctx g.ctx).sup = true)
include hc hs hsup

theorem exec_ctxload_range (h : 2 ^ 13 ≤ (theVal g.r).value.toNat ∨ (bitAt (theVal g.r).value 12 = true ∧ field (theVal g.r).value 0 12 ≠ 0)) :
    exec (.ctxload f) s = .next (s.retire.fault g f .operandRange 0) :=
  congrArg Host.Outcome.next ((State.supervised_supervisor hc hs scalarsNeed hsup).trans (if_pos h))

/-- CTXLOAD ends with what the checks of R440 find. -/
theorem exec_ctxload_checked (h : ¬(2 ^ 13 ≤ (theVal g.r).value.toNat ∨ (bitAt (theVal g.r).value 12 = true ∧ field (theVal g.r).value 0 12 ≠ 0)))
    (hx : (field g.l.value 0 12).toNat = x) :
    (∀ e, s.retire.loadCheck x (coreStack g.core) (theVal g.r).value = .bad e →
      exec (.ctxload f) s = .next (s.retire.raise g f.d0 (g.fault e.1 e.2.1 e.2.2 (accessDetail e.1 .read)) false)) ∧
    (∀ sv new l, s.retire.loadCheck x (coreStack g.core) (theVal g.r).value = .ok sv new l →
      exec (.ctxload f) s = .next ((s.retire.putBack sv x new l).sysEmit g f 0)) := by
  subst hx
  have hexec : exec (.ctxload f) s = .next (match s.retire.loadCheck (field g.l.value 0 12).toNat (coreStack g.core) (theVal g.r).value with
      | .bad e => s.retire.raise g f.d0 (g.fault e.1 e.2.1 e.2.2 (accessDetail e.1 .read)) false
      | .ok sv new l => (s.retire.putBack sv (field g.l.value 0 12).toNat new l).sysEmit g f 0) :=
    congrArg Host.Outcome.next ((State.supervised_supervisor hc hs scalarsNeed hsup).trans (if_neg h))
  exact ⟨fun e he => by rw [hexec, he], fun sv new l hl => by rw [hexec, hl]⟩

end

/-! ## The results -/

/-- Settles O55: each operator by its lemma above; SAVE_WRITE by what the write of the area ends with. -/
theorem saveAndLoadResults : Obligations.SaveAndLoadResults := by
  refine ⟨?operators, ?write⟩
  case operators =>
    intro s g f hc hs hsup t x r
    have hx : (field g.l.value 0 12).toNat = x := BitVec.extractLsb'_toNat .. |>.trans (by rw [Nat.shiftRight_zero])
    refine ⟨exec_ctxsave_refused hc hs hsup hx, exec_ctxsave_saving hc hs hsup hx, exec_ctxload_range hc hs hsup, fun h1 h2 => ?_⟩
    have hrange : ¬(2 ^ 13 ≤ r.toNat ∨ (bitAt r 12 = true ∧ field r 0 12 ≠ 0)) :=
      not_or.mpr ⟨Nat.not_le.mpr h1, fun h => h.2 (h2 h.1)⟩
    obtain ⟨hbad, hok⟩ := exec_ctxload_checked (f := f) hc hs hsup hrange hx
    refine ⟨hbad, fun sv new l hl => ⟨hok sv new l hl, ?_⟩⟩
    exact State.loadCheck_ok (s := t) hl
  case write =>
    intro s ctx id hph
    refine ⟨exec_saveWrite_waits hph, ?_⟩
    intro c f hdrain hsaved hsaver hf
    have hexec := exec_saveWrite_writes hph hdrain hsaved hsaver hf
    generalize hw : s.spend.writeArea ctx (coreStack c.fire.core) (Config.freeWord s.free) = w
    obtain ⟨u, o⟩ := w
    refine ⟨fun ho => ⟨?_, State.takeOff_ends u ctx⟩, fun e ho => ?_⟩
    · cases ho
      exact hexec.trans (congrArg Host.Outcome.next (State.saveEnd_written hw))
    · cases ho
      exact hexec.trans (congrArg Host.Outcome.next (State.saveEnd_failed hw))

end Sys2Proof.Machine

/-! SUPPORT. The requests of LINKCTL and LINKST (R403 to R405, R452). -/

namespace Sys2Proof.Machine

variable {s : State} {g : Firing} {f : Fields} {i : Instr}

/-! ## Bits of the operands -/

theorem toNat_field {N : Nat} (v : BitVec N) (lo n : Nat) : (field v lo n).toNat = v.toNat / 2 ^ lo % 2 ^ n := by
  rw [field, BitVec.extractLsb'_toNat, Nat.shiftRight_eq_div_pow]

/-- A number below 2^n sets no bit outside the mask of n bits. -/
theorem or_mask {x n : Nat} (h : x < 2 ^ n) : x ||| (2 ^ n - 1) = 2 ^ n - 1 := by
  refine Nat.eq_of_testBit_eq fun k => ?_
  rw [Nat.testBit_or, Nat.testBit_two_pow_sub_one]
  by_cases hk : k < n
  · simp [hk]
  · simp [hk, Nat.testBit_lt_two_pow (lt_of_lt_of_le h (Nat.pow_le_pow_right (by decide) (Nat.not_lt.mp hk)))]

/-- A tag below the bit that means all. -/
theorem pauseTag {r : U64} (hmask : r.toNat ||| 0x1FF = 0x1FF) (hbit : r.getLsbD 8 = false) : (field r 0 8).toNat = r.toNat := by
  have hle : r.toNat ≤ 0x1FF := hmask ▸ Nat.left_le_or
  have hdiv : r.toNat / 2 ^ 8 % 2 ≠ 1 := by
    have htest : r.toNat.testBit 8 = false := hbit
    rw [Nat.testBit_eq_decide_div_mod_eq] at htest
    exact of_decide_eq_false htest
  rw [toNat_field]
  omega

/-! ## The checks of a request (R452) -/

/-- LINKCTL and LINKST with the bits that each takes in R (R452). -/
def linkOperators (f : Fields) : List (Instr × Nat) :=
  [(.linkctlPause f, 0x1FF), (.linkctlResume f, 0x1FF), (.linkctlMap f, 0x3FFFFFFF), (.linkctlSched f, 0xFF3), (.linkctlCancel f, 2 ^ 64 - 1),
    (.linkctlClrcnt f, 2 ^ 64 - 1), (.linkctlCfg f, 0xFFFF), (.linkst f, 2 ^ 64 - 1)]

theorem exec_linkOperator {m : Nat} (h : (i, m) ∈ linkOperators f) : exec i s = linkRequest f i s ∧ linkMask i = m ∧
    (pauses i = true → i = .linkctlPause f ∨ i = .linkctlResume f) := by
  simp only [linkOperators, List.mem_cons, List.not_mem_nil, or_false, Prod.mk.injEq] at h
  rcases h with ⟨rfl, rfl⟩ | ⟨rfl, rfl⟩ | ⟨rfl, rfl⟩ | ⟨rfl, rfl⟩ | ⟨rfl, rfl⟩ | ⟨rfl, rfl⟩ | ⟨rfl, rfl⟩ | ⟨rfl, rfl⟩ <;>
    exact ⟨rfl, rfl, by simp [pauses]⟩

/-- The request of a firing. -/
def linkAsk (s : State) (g : Firing) (i : Instr) : LinkReq :=
  { id := s.ids, fire := g, instr := i, link := g.l.value.toNat % 32, side := g.l.value.toNat / 32 % 2 }

/-- The state in which a request sets out. -/
def State.linkAsked (s : State) (g : Firing) (i : Instr) : State := { s.retire.newId with linkReqs := s.linkReqs ++ [linkAsk s g i] }

section
variable (hc : s.cur = some g) (hs : g.scalars)
include hc hs

theorem linkRequest_user (hsup : (s.ctx g.ctx).sup = false) : linkRequest f i s = .next (s.retire.fault g f .privilege 0) :=
  congrArg Host.Outcome.next ((State.operate_scalars hc hs rfl rfl rfl).trans (if_pos (congrArg not hsup)))

theorem linkRequest_range (hsup : (s.ctx g.ctx).sup = true)
    (h : 64 ≤ g.l.value.toNat ∨ (theVal g.r).value.toNat ||| linkMask i ≠ linkMask i) : linkRequest f i s = .next (s.retire.fault g f .operandRange 0) :=
  congrArg Host.Outcome.next ((State.operate_scalars hc hs rfl rfl rfl).trans ((if_neg (Bool.eq_false_iff.mp (congrArg not hsup))).trans
    (if_pos (h.imp_right .inl))))

theorem linkRequest_asked (hsup : (s.ctx g.ctx).sup = true) (hl : g.l.value.toNat < 64) (hmask : (theVal g.r).value.toNat ||| linkMask i = linkMask i)
    (hpause : pauses i = true → bitAt (theVal g.r).value 8 = true ∨ 2 ≤ (field (theVal g.r).value 0 8).toNat) :
    linkRequest f i s = .next ((s.linkAsked g i).requestAt (coreStack g.core) s.ids none) := by
  have hlink : (field g.l.value 0 5).toNat = g.l.value.toNat % 32 := (toNat_field ..).trans (by omega)
  have hside : (field g.l.value 5 1).toNat = g.l.value.toNat / 32 % 2 := (toNat_field ..).trans (by omega)
  refine congrArg Host.Outcome.next ((State.operate_scalars hc hs rfl rfl rfl).trans ((if_neg (Bool.eq_false_iff.mp (congrArg not hsup))).trans
    ((if_neg ?_).trans ?_)))
  · rintro (h | h | ⟨h1, h2, h3⟩)
    · omega
    · exact h hmask
    · rcases hpause h1 with h | h
      · rw [h] at h2
        exact absurd h2 (by decide)
      · omega
  · rw [hlink, hside]
    rfl

end

/-! ## A request at a node (R405) -/

section
variable (hid : ∀ x ∈ s.linkReqs, x.id ≠ s.ids)
include hid

theorem State.linkAsked_find : (s.linkAsked g i).linkReqs.find? (fun r => r.id == s.ids) = some (linkAsk s g i) := by
  show (s.linkReqs ++ [linkAsk s g i]).find? _ = _
  rw [List.find?_append, List.find?_eq_none.mpr fun x hx => by simpa using hid x hx]
  simp [linkAsk]

theorem State.linkAsked_filter : (s.linkAsked g i).linkReqs.filter (fun x => x.id != s.ids) = s.linkReqs := by
  show (s.linkReqs ++ [linkAsk s g i]).filter _ = _
  rw [List.filter_append, List.filter_eq_self.mpr fun x hx => by simpa using hid x hx]
  simp [linkAsk]

/-- For the end of another stack it goes on by the first link of its way. -/
theorem State.requestAt_goes {hl hs z : Nat} (hlt : linkNode (g.l.value.toNat % 32) (g.l.value.toNat / 32 % 2) < 16)
    (hne : linkNode (g.l.value.toNat % 32) (g.l.value.toNat / 32 % 2) ≠ coreStack g.core)
    (hhop : nextHop (coreStack g.core) (linkNode (g.l.value.toNat % 32) (g.l.value.toNat / 32 % 2)) = some (hl, hs, z)) :
    (s.linkAsked g i).requestAt (coreStack g.core) s.ids none = (s.linkAsked g i).toSend hl hs 1 (.request s.ids none) := by
  have hq : (linkAsk s g i).hop (coreStack g.core) false = some (hl, hs) := by
    simp [LinkReq.hop, linkAsk, hne.symm, hlt, hhop]
  unfold State.requestAt
  simp only [State.linkAsked_find hid, hq]

section
variable (hnode : linkNode (g.l.value.toNat % 32) (g.l.value.toNat / 32 % 2) = coreStack g.core)
include hnode

/-- At the end that it names it acts, and is answered at once where it has its result. -/
theorem State.requestAt_answers {a : State} {v : U64} (hact : (s.linkAsked g i).linkAct (linkAsk s g i) = (a, some v)) :
    (s.linkAsked g i).requestAt (coreStack g.core) s.ids none = a.linkAnswer (linkAsk s g i) v := by
  have hq : (linkAsk s g i).hop (coreStack g.core) false = none := if_pos hnode.symm
  have hback : (linkAsk s g i).hop (coreStack g.core) true = none := by
    have hlt : ¬16 ≤ coreStack g.core := Nat.not_le.mpr (Nat.mod_lt _ (by decide))
    simp [LinkReq.hop, linkAsk, hlt, nextHop_eq_none.mpr rfl]
  unfold State.requestAt State.linkReply
  simp only [State.linkAsked_find hid, hq, hact, hback]

theorem State.requestAt_proposes {a : State} (hact : (s.linkAsked g i).linkAct (linkAsk s g i) = (a, none)) :
    (s.linkAsked g i).requestAt (coreStack g.core) s.ids none = a := by
  have hq : (linkAsk s g i).hop (coreStack g.core) false = none := if_pos hnode.symm
  unfold State.requestAt
  simp only [State.linkAsked_find hid, hq, hact]

end
end

/-- The answer of LINKCTL goes to dest0, that of LINKST to both. -/
theorem State.linkAnswer_eq {t u : State} {r : LinkReq} {v : U64} (hu : { t with linkReqs := t.linkReqs.filter (fun x => x.id != r.id) } = u)
    (hquar : r.fire.obj ∉ (u.core r.fire.core).quar) :
    (∀ f, r.instr = .linkst f → t.linkAnswer r v = u.emitBoth r.fire f (dataScalar r.fire v)) ∧
    (∀ f m, (r.instr, m) ∈ linkOperators f → r.instr ≠ .linkst f → t.linkAnswer r v = u.emit r.fire f false (dataScalar r.fire v)) := by
  have hq : ¬((u.core r.fire.core).quar.contains r.fire.obj = true) := by simpa using hquar
  subst hu
  unfold State.linkAnswer
  refine ⟨fun f hi => ?_, fun f m hi hne => ?_⟩
  · rw [if_neg hq, hi]
  · rw [if_neg hq]
    obtain ⟨id, fire, instr, link, side⟩ := r
    simp only [linkOperators, List.mem_cons, List.not_mem_nil, or_false, Prod.mk.injEq] at hi
    rcases hi with ⟨rfl, -⟩ | ⟨rfl, -⟩ | ⟨rfl, -⟩ | ⟨rfl, -⟩ | ⟨rfl, -⟩ | ⟨rfl, -⟩ | ⟨rfl, -⟩ | ⟨rfl, -⟩
    exacts [rfl, rfl, rfl, rfl, rfl, rfl, rfl, absurd rfl hne]

/-! ## What a request changes beside its end (R405, R409) -/

theorem State.modLink_setLink (l side : Nat) (e : LinkEnd) (h : LinkEnd → LinkEnd) : (s.setLink l side e).modLink l side h = s.setLink l side (h e) :=
  State.modLink_modLink l side (fun _ => e) h

/-- Both ends of a link, changed alike. -/
theorem State.link_modBoth (s : State) (l : Nat) (h : LinkEnd → LinkEnd) {d : Nat} (hd : d < 2) :
    ((s.modLink l 0 h).modLink l 1 h).link l d = h (s.link l d) := by
  simp only [State.link_modLink]
  interval_cases d
  · rw [if_neg (by omega), if_pos rfl]
  · rw [if_pos rfl, if_neg (by omega)]

/-- Clock changes that are let go change stacks and nothing else. -/
theorem State.clockRelease_eq (s : State) (n : Nat) : ∃ tab, s.clockRelease n = { s with stackTab := tab } := by
  unfold State.clockRelease
  dsimp only
  split
  · exact ⟨_, rfl⟩
  · split <;> exact ⟨_, rfl⟩

theorem State.linkClocks_eq (s : State) (l : Nat) : ∃ tab, s.linkClocks l = { s with stackTab := tab } := by
  have hturn (u : State) (d : Nat) : ∃ tab, (if linkNode l d < 16 then u.clockRelease (linkNode l d) else u) = { u with stackTab := tab } := by
    split
    · exact u.clockRelease_eq _
    · exact ⟨_, rfl⟩
  obtain ⟨tab0, h0⟩ := hturn s 0
  obtain ⟨tab1, h1⟩ := hturn { s with stackTab := tab0 } 1
  refine ⟨tab1, ?_⟩
  unfold State.linkClocks
  rw [List.foldl_cons, h0, List.foldl_cons, h1, List.foldl_nil]

/-! ## Requests at an end of the own stack (R405, R452) -/

/-- The link end that a firing names. -/
def State.namedEnd (s : State) (g : Firing) : LinkEnd := s.link (g.l.value.toNat % 32) (g.l.value.toNat / 32 % 2)

/-- The end that a firing names, changed by its request. -/
def State.putNamed (s : State) (g : Firing) (e : LinkEnd) : State := s.retire.newId.setLink (g.l.value.toNat % 32) (g.l.value.toNat / 32 % 2) e

section
variable (hc : s.cur = some g) (hs : g.scalars) (hsup : (s.ctx g.ctx).sup = true) (hl : g.l.value.toNat < 64) (hid : ∀ x ∈ s.linkReqs, x.id ≠ s.ids)
  (hnode : linkNode (g.l.value.toNat % 32) (g.l.value.toNat / 32 % 2) = coreStack g.core) (hquar : g.obj ∉ (s.core g.core).quar)
include hc hs hsup hl hid hnode

section
variable (hmask : (theVal g.r).value.toNat ||| linkMask i = linkMask i)
  (hpause : pauses i = true → bitAt (theVal g.r).value 8 = true ∨ 2 ≤ (field (theVal g.r).value 0 8).toNat) {a : State}
include hmask hpause

theorem linkRequest_answers {v : U64} (hact : (s.linkAsked g i).linkAct (linkAsk s g i) = (a, some v)) :
    linkRequest f i s = .next (a.linkAnswer (linkAsk s g i) v) := by
  rw [linkRequest_asked hc hs hsup hl hmask hpause, State.requestAt_answers hid hnode hact]

theorem linkRequest_proposes (hact : (s.linkAsked g i).linkAct (linkAsk s g i) = (a, none)) : linkRequest f i s = .next a := by
  rw [linkRequest_asked hc hs hsup hl hmask hpause, State.requestAt_proposes hid hnode hact]

end

include hquar

/-- A request of LINKCTL with a result at once. -/
theorem exec_linkctl_answers {m : Nat} (hi : (i, m) ∈ linkOperators f) (hne : i ≠ .linkst f) (hmask : (theVal g.r).value.toNat ||| m = m)
    (hpause : pauses i = true → bitAt (theVal g.r).value 8 = true ∨ 2 ≤ (field (theVal g.r).value 0 8).toNat) {a : State} {v : U64}
    (hact : (s.linkAsked g i).linkAct (linkAsk s g i) = (a, some v)) (hreqs : a.linkReqs = (s.linkAsked g i).linkReqs) (hcores : a.cores = s.cores) :
    exec i s = .next (({ a with linkReqs := s.linkReqs } : State).emit g f false (dataScalar g v)) := by
  obtain ⟨hexec, rfl, -⟩ := exec_linkOperator (s := s) hi
  have hu : { a with linkReqs := a.linkReqs.filter (fun x => x.id != s.ids) } = { a with linkReqs := s.linkReqs } := by rw [hreqs, State.linkAsked_filter hid]
  have hq : g.obj ∉ (({ a with linkReqs := s.linkReqs } : State).core g.core).quar := by
    rwa [State.core, show ({ a with linkReqs := s.linkReqs } : State).cores = s.cores from hcores]
  rw [hexec, linkRequest_answers hc hs hsup hl hid hnode hmask hpause hact]
  exact congrArg Host.Outcome.next ((State.linkAnswer_eq (r := linkAsk s g i) hu hq).2 f _ hi hne)

/-- A change of the end that the firing names. -/
theorem exec_linkctl_puts {m : Nat} (hi : (i, m) ∈ linkOperators f) (hne : i ≠ .linkst f) (hmask : (theVal g.r).value.toNat ||| m = m)
    (hpause : pauses i = true → bitAt (theVal g.r).value 8 = true ∨ 2 ≤ (field (theVal g.r).value 0 8).toNat) {e : LinkEnd}
    (hact : (s.linkAsked g i).linkAct (linkAsk s g i) = ((s.linkAsked g i).setLink (g.l.value.toNat % 32) (g.l.value.toNat / 32 % 2) e, some 0)) :
    exec i s = .next ((s.putNamed g e).emit g f false (dataScalar g 0)) :=
  exec_linkctl_answers hc hs hsup hl hid hnode hquar hi hne hmask hpause hact rfl rfl

/-- A request that changes nothing. -/
theorem exec_linkctl_code {m : Nat} (hi : (i, m) ∈ linkOperators f) (hne : i ≠ .linkst f) (hmask : (theVal g.r).value.toNat ||| m = m)
    (hpause : pauses i = false) {v : U64} (hact : (s.linkAsked g i).linkAct (linkAsk s g i) = (s.linkAsked g i, some v)) :
    exec i s = .next (s.retire.newId.emit g f false (dataScalar g v)) :=
  exec_linkctl_answers hc hs hsup hl hid hnode hquar hi hne hmask (fun h => nomatch hpause.symm.trans h) hact rfl rfl

theorem exec_linkctlPause_local (hmask : (theVal g.r).value.toNat ||| 0x1FF = 0x1FF) :
    ((theVal g.r).value.getLsbD 8 = true →
      exec (.linkctlPause f) s = .next ((s.putNamed g { s.namedEnd g with pauseAll := true }).emit g f false (dataScalar g 0)) ∧
      exec (.linkctlResume f) s = .next ((s.putNamed g { s.namedEnd g with pauseAll := false, paused := [] }).emit g f false (dataScalar g 0))) ∧
    ((theVal g.r).value.getLsbD 8 = false → 2 ≤ (theVal g.r).value.toNat →
      exec (.linkctlPause f) s = .next ((s.putNamed g { s.namedEnd g with
        paused := (theVal g.r).value.toNat :: (s.namedEnd g).paused.filter (fun x => x != (theVal g.r).value.toNat) }).emit g f false (dataScalar g 0)) ∧
      exec (.linkctlResume f) s = .next ((s.putNamed g { s.namedEnd g with
        paused := (s.namedEnd g).paused.filter (fun x => x != (theVal g.r).value.toNat) }).emit g f false (dataScalar g 0))) := by
  refine ⟨fun h => ⟨?_, ?_⟩, fun h h2 => ?_⟩
  · exact exec_linkctl_puts hc hs hsup hl hid hnode hquar (by simp [linkOperators]) (by simp) hmask (fun _ => .inl h) (if_pos h)
  · exact exec_linkctl_puts hc hs hsup hl hid hnode hquar (by simp [linkOperators]) (by simp) hmask (fun _ => .inl h) (if_pos h)
  · have htag := pauseTag hmask h
    have hb : ¬(bitAt (theVal g.r).value 8 = true) := Bool.eq_false_iff.mp h
    have hpause : bitAt (theVal g.r).value 8 = true ∨ 2 ≤ (field (theVal g.r).value 0 8).toNat := .inr (htag.symm ▸ h2)
    rw [← htag]
    exact ⟨exec_linkctl_puts hc hs hsup hl hid hnode hquar (by simp [linkOperators]) (by simp) hmask (fun _ => hpause) (if_neg hb),
      exec_linkctl_puts hc hs hsup hl hid hnode hquar (by simp [linkOperators]) (by simp) hmask (fun _ => hpause) (if_neg hb)⟩

theorem exec_linkctlMap_local (h : (theVal g.r).value.toNat < 2 ^ 30) :
    let r := (theVal g.r).value
    let e := s.namedEnd g
    (e.pend = true ∨ mapFits (r.extractLsb' 0 28) e.mode (e.half.testBit (r.toNat / 2 ^ 28)) = false →
      exec (.linkctlMap f) s = .next (s.retire.newId.emit g f false (dataScalar g 1))) ∧
    (e.pend = false → mapFits (r.extractLsb' 0 28) e.mode (e.half.testBit (r.toNat / 2 ^ 28)) = true →
      exec (.linkctlMap f) s = .next ((s.putNamed g { e with maps := Table.put e.maps (r.toNat / 2 ^ 28) (r.extractLsb' 0 28) }).emit g f false (dataScalar g 0))) := by
  intro r e
  have hm : (field r 28 2).toNat = r.toNat / 2 ^ 28 := by
    rw [toNat_field]
    have hr : r.toNat < 2 ^ 30 := h
    exact Nat.mod_eq_of_lt (by omega)
  have hact : (s.linkAsked g (.linkctlMap f)).linkAct (linkAsk s g (.linkctlMap f)) =
      if e.pend = true ∨ (!mapFits (r.extractLsb' 0 28) e.mode (e.half.testBit (r.toNat / 2 ^ 28))) = true then (s.linkAsked g (.linkctlMap f), some 1)
      else ((s.linkAsked g (.linkctlMap f)).setLink (g.l.value.toNat % 32) (g.l.value.toNat / 32 % 2)
        { e with maps := Table.put e.maps (r.toNat / 2 ^ 28) (r.extractLsb' 0 28) }, some 0) := by
    rw [← hm, ← bitOf_eq_testBit]
    rfl
  refine ⟨fun hbad => ?_, fun hp hfit => ?_⟩
  · exact exec_linkctl_code hc hs hsup hl hid hnode hquar (by simp [linkOperators]) (by simp) (or_mask h) rfl
      (hact.trans (if_pos (hbad.imp_right (congrArg not))))
  · exact exec_linkctl_puts (i := .linkctlMap f) hc hs hsup hl hid hnode hquar (by simp [linkOperators]) (by simp) (or_mask h) (fun h => absurd h Bool.false_ne_true)
      (hact.trans (if_neg (not_or.mpr ⟨Bool.eq_false_iff.mp hp, Bool.eq_false_iff.mp (congrArg not hfit)⟩)))

theorem exec_linkctlCfg_local (h : (theVal g.r).value.toNat < 2 ^ 16) :
    exec (.linkctlCfg f) s = .next ((s.putNamed g { s.namedEnd g with
      rthresh := (theVal g.r).value.extractLsb' 0 16, retryLog := [], retryHit := false, armed := true }).emit g f false (dataScalar g 0)) :=
  exec_linkctl_puts (i := .linkctlCfg f) hc hs hsup hl hid hnode hquar (by simp [linkOperators]) (by simp) (or_mask h) (fun h => absurd h Bool.false_ne_true) rfl

theorem exec_linkctlClrcnt_local :
    exec (.linkctlClrcnt f) s = .next ((s.putNamed g { s.namedEnd g with
      retry := 0, crcerr := 0, retryLog := [], retryHit := false, armed := true }).emit g f false (dataScalar g 0)) :=
  exec_linkctl_puts (i := .linkctlClrcnt f) hc hs hsup hl hid hnode hquar (by simp [linkOperators]) (by simp) (or_mask (BitVec.isLt _)) (fun h => absurd h Bool.false_ne_true) rfl

theorem exec_linkctlCancel_none (h : ∃ d, d < 2 ∧ ((s.link (g.l.value.toNat % 32) d).pend = false ∨ (s.link (g.l.value.toNat % 32) d).state ≠ 2)) :
    exec (.linkctlCancel f) s = .next (s.retire.newId.emit g f false (dataScalar g 1)) := by
  obtain ⟨d, hd, h⟩ := h
  have hall : ¬([0, 1].all (fun d => (s.link (g.l.value.toNat % 32) d).pend && (s.link (g.l.value.toNat % 32) d).state == 2) = true) := by
    intro hall
    have hboth := List.all_eq_true.mp hall d (by simp; omega)
    rw [Bool.and_eq_true, beq_iff_eq] at hboth
    rcases h with h | h
    · exact Bool.eq_false_iff.mp h hboth.1
    · exact h hboth.2
  have hcancel : (s.linkAsked g (.linkctlCancel f)).linkCancel (g.l.value.toNat % 32) = (s.linkAsked g (.linkctlCancel f), 1) := if_neg hall
  exact exec_linkctl_code hc hs hsup hl hid hnode hquar (by simp [linkOperators]) (by simp) (or_mask (BitVec.isLt _)) rfl
    (congrArg (fun p : State × U64 => (p.1, some p.2)) hcancel)

theorem exec_linkctlCancel_both (h : ∀ d, d < 2 → (s.link (g.l.value.toNat % 32) d).pend = true ∧ (s.link (g.l.value.toNat % 32) d).state = 2) :
    ∃ u : State, exec (.linkctlCancel f) s = .next (u.emit g f false (dataScalar g 0)) ∧ ∀ d, d < 2 → (u.link (g.l.value.toNat % 32) d).pend = false ∧
      (u.link (g.l.value.toNat % 32) d).mode = (s.link (g.l.value.toNat % 32) d).mode := by
  let l := g.l.value.toNat % 32
  let withdrawn (e : LinkEnd) : LinkEnd := { e with pend := false, pmode := 0, tc := 0 }
  let w : State := ((s.linkAsked g (.linkctlCancel f)).modLink l 0 withdrawn).modLink l 1 withdrawn
  have hall : [0, 1].all (fun d => (s.link l d).pend && (s.link l d).state == 2) = true := by
    obtain ⟨hpend0, hstate0⟩ := h 0 (by decide)
    obtain ⟨hpend1, hstate1⟩ := h 1 (by decide)
    simp [l, hpend0, hstate0, hpend1, hstate1]
  have hcancel : (s.linkAsked g (.linkctlCancel f)).linkCancel l = (w.linkClocks l, 0) := if_pos hall
  obtain ⟨tab, hclocks⟩ := w.linkClocks_eq l
  rw [hclocks] at hcancel
  have hexec := exec_linkctl_answers (i := .linkctlCancel f) (f := f) hc hs hsup hl hid hnode hquar (by simp [linkOperators]) (by simp) (or_mask (BitVec.isLt _))
    (fun h => absurd h Bool.false_ne_true) (congrArg (fun p : State × U64 => (p.1, some p.2)) hcancel) rfl rfl
  refine ⟨_, hexec, fun d hd => ?_⟩
  have hlink : w.link l d = withdrawn (s.link l d) := State.link_modBoth (s.linkAsked g (.linkctlCancel f)) l withdrawn hd
  show (w.link l d).pend = false ∧ (w.link l d).mode = _
  rw [hlink]
  exact ⟨rfl, rfl⟩

theorem exec_linkctlSched_local (hmask : (theVal g.r).value.toNat ||| 0xFF3 = 0xFF3) :
    let r := (theVal g.r).value
    let e := s.namedEnd g
    (e.pend = true ∨ e.proposer ≠ none → exec (.linkctlSched f) s = .next (s.retire.newId.emit g f false (dataScalar g 2))) ∧
    (e.pend = false → e.proposer = none → ∀ tc, g.t = some tc → exec (.linkctlSched f) s = .next
      ((s.linkAsked g (.linkctlSched f)).setLink (g.l.value.toNat % 32) (g.l.value.toNat / 32 % 2) { e with
        proposer := some s.ids, pmode := r.toNat % 4, pmask := r.toNat / 16 % 16, phalf := r.toNat / 256 % 16, tc := tc.value.toNat
        out := e.out ++ [{ tag := 0, seq := 0, body := .change (.propose (r.toNat % 4) (r.toNat / 16 % 16) (r.toNat / 256 % 16) tc.value.toNat) }] })) := by
  intro r e
  have hmode : (field r 0 2).toNat = r.toNat % 4 := (toNat_field ..).trans (by omega)
  have hhold : (field r 4 4).toNat = r.toNat / 16 % 16 := toNat_field ..
  have hhalf : (field r 8 4).toNat = r.toNat / 256 % 16 := toNat_field ..
  refine ⟨fun h => ?_, fun hp hprop tc htc => ?_⟩
  · exact exec_linkctl_code hc hs hsup hl hid hnode hquar (by simp [linkOperators]) (by simp) hmask rfl
      (if_pos (h.imp_right Option.isSome_iff_ne_none.mpr))
  · have hfree : ¬(e.pend = true ∨ e.proposer.isSome = true) := by simp [hp, hprop]
    rw [← hmode, ← hhold, ← hhalf]
    have hact : (s.linkAsked g (.linkctlSched f)).linkAct (linkAsk s g (.linkctlSched f)) = (_, none) :=
      (if_neg hfree).trans (congrArg (·, none) (State.modLink_setLink _ _ _ _))
    have htcval : optVal g.t = tc.value.toNat := by rw [htc]; rfl
    refine (linkRequest_proposes (i := .linkctlSched f) (f := f) hc hs hsup hl hid hnode hmask (fun h => absurd h Bool.false_ne_true) hact).trans ?_
    rw [← htcval]
    rfl

theorem exec_linkst_local : exec (.linkst f) s = .next (s.retire.newId.emitBoth g f (dataScalar g ((s.namedEnd g).reg f.fn.toNat))) := by
  have hu : { s.linkAsked g (.linkst f) with linkReqs := (s.linkAsked g (.linkst f)).linkReqs.filter (fun x => x.id != s.ids) } = s.retire.newId := by
    rw [State.linkAsked_filter hid]
    rfl
  refine (linkRequest_answers (i := .linkst f) (f := f) hc hs hsup hl hid hnode (or_mask (BitVec.isLt _)) (fun h => absurd h Bool.false_ne_true) rfl).trans ?_
  exact congrArg Host.Outcome.next ((State.linkAnswer_eq (r := linkAsk s g (.linkst f)) hu hquar).1 f rfl)

end

/-! ## The registers of an end (R404) -/

section
variable (e : LinkEnd)

theorem LinkEnd.stat_state : (e.stat.extractLsb' 0 3).toNat = e.state % 8 :=
  (congrArg BitVec.toNat BitVec.extractLsb'_append_eq_right).trans (BitVec.toNat_ofNat ..)

theorem LinkEnd.stat_mode : (e.stat.extractLsb' 4 2).toNat = e.mode % 4 :=
  (congrArg BitVec.toNat <| (BitVec.extractLsb'_append_eq_of_le (by decide)).trans <| (BitVec.extractLsb'_append_eq_of_le (by decide)).trans
    BitVec.extractLsb'_append_eq_right).trans (BitVec.toNat_ofNat ..)

theorem LinkEnd.stat_mask : (e.stat.extractLsb' 8 4).toNat = e.mask % 16 :=
  (congrArg BitVec.toNat <| (BitVec.extractLsb'_append_eq_of_le (by decide)).trans <| (BitVec.extractLsb'_append_eq_of_le (by decide)).trans <|
    (BitVec.extractLsb'_append_eq_of_le (by decide)).trans <| (BitVec.extractLsb'_append_eq_of_le (by decide)).trans
    BitVec.extractLsb'_append_eq_right).trans (BitVec.toNat_ofNat ..)

theorem LinkEnd.stat_pend : e.stat.getLsbD 23 = e.pend :=
  (getLsbD_append_hi _ _ 23 (by decide)).trans <| (getLsbD_append_hi _ _ 20 (by decide)).trans <| (getLsbD_append_hi _ _ 19 (by decide)).trans <|
    (getLsbD_append_hi _ _ 17 (by decide)).trans <| (getLsbD_append_hi _ _ 15 (by decide)).trans <| (getLsbD_append_hi _ _ 11 (by decide)).trans <|
    (getLsbD_append_hi _ _ 7 (by decide)).trans <| (getLsbD_append_hi _ _ 3 (by decide)).trans <| (getLsbD_append_lo _ _ 0 (by decide)).trans (bit1_getLsbD _)

theorem LinkEnd.reg_eq (fn : BitVec 4) :
    (fn = 0 → e.reg fn.toNat = e.stat) ∧ (fn = 1 → e.reg fn.toNat = if e.pend then BitVec.ofNat 64 e.tc else 0) ∧
    (fn = 2 → e.reg fn.toNat = e.retry ++ e.crcerr) ∧ (fn = 3 → (e.reg fn.toNat).toNat = e.rthresh.toNat) := by
  refine ⟨fun h => by rw [h]; rfl, fun h => by rw [h]; rfl, fun h => by rw [h]; rfl, fun h => ?_⟩
  rw [h]
  exact (BitVec.toNat_append _ _).trans (Nat.zero_or _)

end

/-! ## The results -/

/-- Settles O51: each form by its lemma above. -/
theorem linkOperatorResults : Obligations.LinkOperatorResults := by
  intro s g f hc hs t r l side e ops
  have hop {x : Instr × Nat} (hx : x ∈ ops) := exec_linkOperator (f := f) (s := s) (i := x.1) (m := x.2) hx
  refine ⟨fun hsup x hx => ?_, fun hsup => ⟨fun x hx h => ?_, fun hl hid => ⟨?_, fun hnode hquar => ?_⟩⟩⟩
  · exact (hop hx).1.trans (linkRequest_user hc hs hsup)
  · obtain ⟨hexec, hmask, -⟩ := hop hx
    rw [← hmask] at h
    exact hexec.trans (linkRequest_range hc hs hsup h)
  · intro x hx m hl' hs' z hbits hpause hnode hlt hne hhop
    obtain ⟨hexec, hmask, hkind⟩ := hop hx
    subst hnode
    rw [← hmask] at hbits
    have htag (h : pauses x.1 = true) : bitAt r 8 = true ∨ 2 ≤ (field r 0 8).toNat := by
      have hmask' : linkMask x.1 = 0x1FF := by rcases hkind h with h | h <;> rw [h] <;> rfl
      rw [hmask'] at hbits
      by_cases hbit : r.getLsbD 8 = true
      · exact .inl hbit
      · rw [pauseTag hbits (Bool.eq_false_iff.mpr hbit)]
        exact .inr ((hpause (hkind h)).resolve_left hbit)
    exact hexec.trans ((linkRequest_asked hc hs hsup hl hbits htag).trans (congrArg Host.Outcome.next (State.requestAt_goes hid hlt hne hhop)))
  · intro done put
    obtain ⟨hstat, htc, hcount, hthresh⟩ := e.reg_eq f.fn
    refine ⟨exec_linkctlPause_local hc hs hsup hl hid hnode hquar, exec_linkctlMap_local hc hs hsup hl hid hnode hquar,
      exec_linkctlCfg_local hc hs hsup hl hid hnode hquar, exec_linkctlClrcnt_local hc hs hsup hl hid hnode hquar,
      exec_linkctlCancel_none hc hs hsup hl hid hnode hquar, exec_linkctlCancel_both hc hs hsup hl hid hnode hquar,
      exec_linkctlSched_local hc hs hsup hl hid hnode hquar,
      e.reg f.fn.toNat, exec_linkst_local hc hs hsup hl hid hnode hquar, fun h => ?_, htc, hcount, hthresh⟩
    rw [hstat h]
    exact ⟨e.stat_state, e.stat_mode, e.stat_mask, e.stat_pend⟩

end Sys2Proof.Machine

/-! SUPPORT. Flits on a link end: what is sent, and what is taken in (R397 to R401, R404). -/

namespace Sys2Proof.Machine

variable {s : State} {l side : Nat}

@[simp] theorem State.link_setLink_same (s : State) (l side : Nat) (e : LinkEnd) : (s.setLink l side e).link l side = e := Table.look_put_same _ _ _ _

/-! ## The flit that goes out (R399 to R401, R408) -/

theorem FlitBody.sequenced_of_isTraffic {b : FlitBody} (h : b.isTraffic = true) : b.sequenced = true := by
  cases b with
  | ack => cases h
  | time => cases h
  | idle => cases h
  | _ => rfl

theorem LinkEnd.guarded_open {e : LinkEnd} {now : Nat} (h : e.pend = true → now + 1600 < e.tc) : e.guarded now = e := by
  refine if_neg fun hg => ?_
  rw [Bool.and_eq_true, decide_eq_true_eq] at hg
  exact absurd (h hg.1) (Nat.not_lt.mpr hg.2)

theorem LinkEnd.guarded_closing {e : LinkEnd} {now : Nat} (hp : e.pend = true) (h : e.tc ≤ now + 1600) : e.guarded now = { e with state := 3 } :=
  if_pos (by rw [hp, decide_eq_true h]; rfl)

/-- An end that talks may send a sequenced flit with a tag and a place in the buffer: DATA, OPEN and CLOSE only when it is up, DATA of a stream only when that is
not paused. -/
theorem LinkEnd.maySend_of {e : LinkEnd} {x : Flit} {tag : Nat} (hstate : e.state = 2 ∨ (e.state = 3 ∧ x.body.isTraffic = false)) (hbuf : e.buffer.length < 1024)
    (htag : e.tagOf x = some tag) (hpause : x.body.isData = true → 2 ≤ tag → e.pauseAll = false ∧ tag ∉ e.paused) : e.maySend x = true := by
  have htalks : e.talks = true := by rcases hstate with h | ⟨h, -⟩ <;> simp [LinkEnd.talks, h]
  have hopen : (e.state == 2 || !x.body.isTraffic) = true := by
    rcases hstate with h | ⟨-, ht⟩
    · rw [h]; rfl
    · rw [ht]; exact Bool.or_true _
  have hrun : (x.body.isData && decide (2 ≤ tag) && (e.pauseAll || e.paused.contains tag)) = false := by
    by_cases hd : x.body.isData = true ∧ 2 ≤ tag
    · obtain ⟨hall, hone⟩ := hpause hd.1 hd.2
      simp [hall, hone]
    · rw [Bool.and_eq_false_iff, Bool.and_eq_false_iff]
      by_cases hx : x.body.isData = true
      · exact .inl (.inr (decide_eq_false fun h => hd ⟨hx, h⟩))
      · exact .inl (.inl (Bool.eq_false_iff.mpr hx))
  unfold LinkEnd.maySend
  rw [htalks, htag, hopen]
  dsimp only
  rw [hrun, decide_eq_true hbuf]
  simp

theorem LinkEnd.takeSend_head {e : LinkEnd} {x : Flit} {rest : List Flit} (h : e.maySend x = true) : e.takeSend [] (x :: rest) = some (x.gather rest) :=
  if_pos (by simp [h])

/-- Traffic stays at an end that quiets. -/
theorem LinkEnd.takeSend_quiets {e : LinkEnd} {x : Flit} (hstate : e.state = 3) (ht : x.body.isTraffic = true) : e.takeSend [] [x] = none := by
  have hmay : e.maySend x = false := by
    simp [LinkEnd.maySend, hstate, ht, FlitBody.sequenced_of_isTraffic ht]
  simp [LinkEnd.takeSend, hmay]

theorem Flit.gather_alone {x : Flit} (h : ∀ ms, x.body ≠ .tokens ms) (rest : List Flit) : x.gather rest = (x, rest) := by
  cases rest with
  | nil => rfl
  | cons y t =>
    unfold Flit.gather
    split
    · next a b ha hb => exact absurd ha (h a)
    · rfl

/-- A flit of tokens takes in those of the flits behind it while they fit, up to 16. -/
theorem Flit.gather_tokens {x : Flit} {ms : List (Nat × Mail)} (hx : x.body = .tokens ms) {ys more : List Flit} {bs : List (List (Nat × Mail))}
    (hys : ys.map Flit.body = bs.map FlitBody.tokens) (hfit : ms.length + bs.flatten.length ≤ 16)
    (hmore : ∀ z zs cs, more = z :: zs → z.body = .tokens cs → 16 < ms.length + bs.flatten.length + cs.length) :
    x.gather (ys ++ more) = ({ x with body := .tokens (ms ++ bs.flatten) }, more) := by
  induction ys generalizing x ms bs with
  | nil =>
    cases bs with
    | cons b bs => cases hys
    | nil =>
      have hsame : ({ x with body := .tokens (ms ++ [].flatten) } : Flit) = x := by
        obtain ⟨tag, seq, body⟩ := x
        cases hx
        simp
      rw [hsame, List.nil_append]
      cases more with
      | nil => rfl
      | cons z zs =>
        unfold Flit.gather
        split
        · next a b ha hb =>
            cases hx.symm.trans ha
            refine if_neg (Nat.not_le.mpr ?_)
            simpa using hmore z zs b rfl hb
        · rfl
  | cons y ys ih =>
    cases bs with
    | nil => cases hys
    | cons b bs =>
      obtain ⟨hy, hys⟩ := List.cons.inj hys
      rw [List.flatten_cons, List.length_append] at hfit hmore
      have hstep : x.gather (y :: (ys ++ more)) = ({ x with body := .tokens (ms ++ b) } : Flit).gather (ys ++ more) := by
        conv_lhs => unfold Flit.gather
        split
        · next a c ha hc =>
            cases hx.symm.trans ha
            cases hy.symm.trans hc
            exact if_pos (by omega)
        · next hno => exact absurd hy (hno ms b hx)
      rw [List.cons_append, hstep, ih rfl hys (by rw [List.length_append]; omega) (fun z zs cs h1 h2 => by
        have := hmore z zs cs h1 h2
        rw [List.length_append]
        omega)]
      simp [List.append_assoc]

/-- The table of tags after a flit has gone out (R399). -/
def LinkEnd.tagsAfter (e : LinkEnd) (tag : Nat) (b : FlitBody) : Table Nat :=
  match b with
  | .opens id _ => Table.put e.tags tag id
  | .close => Table.del e.tags tag
  | _ => e.tags

/-- The end after a sequenced flit has gone out, with the flits left (R401). -/
def LinkEnd.sent (e : LinkEnd) (x : Flit) (left : List Flit) : LinkEnd :=
  { e with out := left, buffer := e.buffer ++ [x], txSeq := (e.txSeq + 1) % 4096, tags := e.tagsAfter x.tag x.body }

/-- The end after a flit has gone out again, counted in RETRY with its growth within the last millisecond (R404). -/
def LinkEnd.resent (e : LinkEnd) (now : Nat) (rest : List Flit) : LinkEnd :=
  let e : LinkEnd := { e with
    resend := rest, retry := satInc e.retry, retryLog := now :: e.retryLog.filter (fun t => decide (now < t + 16000000)) }
  if e.rthresh.toNat ≠ 0 ∧ e.rthresh.toNat ≤ e.grown now then { e with retryHit := true } else e

theorem LinkEnd.resent_eq (e : LinkEnd) (now : Nat) (rest : List Flit) :
    (e.resent now rest).resend = rest ∧ (e.resent now rest).retry = satInc e.retry ∧ (e.resent now rest).out = e.out ∧
      (e.resent now rest).buffer = e.buffer ∧ (e.resent now rest).txSeq = e.txSeq := by
  unfold LinkEnd.resent
  dsimp only
  split <;> exact ⟨rfl, rfl, rfl, rfl, rfl⟩

section
variable (hstate : (s.link l side).state = 2)
include hstate

theorem LinkEnd.talks_up : ¬((!(s.link l side).talks) = true) := by simp [LinkEnd.talks, hstate]

/-- A sequenced flit goes out with its tag and the next SEQ, and is kept. -/
theorem exec_flitSend_sequenced (hres : (s.link l side).resend = []) {x : Flit} {rest : List Flit} {tag : Nat}
    (htake : ((s.link l side).guarded (s.timeOf (linkNode l side))).takeSend [] (s.link l side).out = some (x, rest)) (hseq : x.body.sequenced = true)
    (htag : (s.link l side).tagOf x = some tag) :
    let y : Flit := { x with tag := tag, seq := (s.link l side).txSeq }
    exec (.flitSend l side) s = .next ((s.setLink l side ((s.link l side).sent y rest)).onWire l side y) := by
  intro y
  refine congrArg Host.Outcome.next ((if_neg (LinkEnd.talks_up hstate)).trans ?_)
  split
  · next h => exact nomatch hres.symm.trans h
  · split
    · next h => exact nomatch htake.symm.trans h
    · next h =>
        cases htake.symm.trans h
        refine (if_pos hseq).trans ?_
        have htag' : (LinkEnd.tagOf { s.link l side with out := rest } x) = some tag := htag
        rw [htag']
        rfl

/-- A flit to be sent again goes first, counted in RETRY (R404). -/
theorem exec_flitSend_resends {x : Flit} {rest : List Flit} (hres : (s.link l side).resend = x :: rest) :
    exec (.flitSend l side) s = .next ((s.setLink l side ((s.link l side).resent (s.timeOf (linkNode l side)) rest)).onWire l side x) := by
  refine congrArg Host.Outcome.next ((if_neg (LinkEnd.talks_up hstate)).trans ?_)
  split
  · next h =>
      cases hres.symm.trans h
      rfl
  · next h => exact nomatch hres.symm.trans h

/-- An end with nothing to send sends IDLE (R398). -/
theorem exec_flitSend_idle (hres : (s.link l side).resend = [])
    (htake : ((s.link l side).guarded (s.timeOf (linkNode l side))).takeSend [] (s.link l side).out = none) :
    exec (.flitSend l side) s = .next (if (s.link l (1 - side)).wire = [] then s.onWire l side { tag := 0, seq := 0, body := .idle } else s) := by
  refine congrArg Host.Outcome.next ((if_neg (LinkEnd.talks_up hstate)).trans ?_)
  split
  · next h => exact nomatch hres.symm.trans h
  · split
    · simp only [List.isEmpty_iff]
    · next h => exact nomatch htake.symm.trans h

end

/-- The first flit that waits goes out, with the tokens of those behind it that it takes in. -/
theorem exec_flitSend_head (hstate : (s.link l side).state = 2) (hres : (s.link l side).resend = []) {x : Flit} {rest : List Flit} {tag : Nat}
    (hout : (s.link l side).out = x :: rest) (hbuf : (s.link l side).buffer.length < 1024) (htag : (s.link l side).tagOf x = some tag)
    (hpause : x.body.isData = true → 2 ≤ tag → (s.link l side).pauseAll = false ∧ tag ∉ (s.link l side).paused)
    (hopen : x.body.isTraffic = true → (s.link l side).pend = true → s.timeOf (linkNode l side) + 1600 < (s.link l side).tc) {b : FlitBody} {left : List Flit}
    (hgather : x.gather rest = ({ x with body := b }, left)) (hb : b.sequenced = true) (hbtag : (s.link l side).tagOf { x with body := b } = some tag) :
    let y : Flit := { x with tag := tag, seq := (s.link l side).txSeq, body := b }
    exec (.flitSend l side) s = .next ((s.setLink l side ((s.link l side).sent y left)).onWire l side y) := by
  have hmay : ((s.link l side).guarded (s.timeOf (linkNode l side))).maySend x = true := by
    by_cases hg : (s.link l side).pend = true ∧ (s.link l side).tc ≤ s.timeOf (linkNode l side) + 1600
    · obtain ⟨hp, htc⟩ := hg
      rw [LinkEnd.guarded_closing hp htc]
      refine LinkEnd.maySend_of (.inr ⟨rfl, Bool.eq_false_iff.mpr fun ht => ?_⟩) hbuf htag hpause
      exact absurd (hopen ht hp) (Nat.not_lt.mpr htc)
    · rw [LinkEnd.guarded_open fun hp => Nat.not_le.mp fun htc => hg ⟨hp, htc⟩]
      exact LinkEnd.maySend_of (.inl hstate) hbuf htag hpause
  refine exec_flitSend_sequenced (x := { x with body := b }) hstate hres ?_ hb hbtag
  rw [hout, LinkEnd.takeSend_head hmay, hgather]

theorem LinkEnd.tagOf_tokens (e : LinkEnd) (x : Flit) {ms : List (Nat × Mail)} (hx : x.body = .tokens ms) (cs : List (Nat × Mail)) :
    e.tagOf { x with body := .tokens cs } = e.tagOf x := by
  unfold LinkEnd.tagOf
  rw [hx]

/-! ## What is taken in (R398 to R401) -/

section
variable {x : Flit} {rest : List Flit} (hw : (s.link l side).wire = x :: rest)
include hw

/-- The end after a sequenced flit has been taken in (R401). -/
def State.takenIn (s : State) (l side : Nat) (rest : List Flit) : State :=
  s.modLink l side (fun e => { e with wire := rest, rxSeq := (e.rxSeq + 1) % 4096, rxCount := e.rxCount + 1, nakked := false })

theorem exec_flit_unexpected (hseq : x.body.sequenced = true) (hexp : x.seq ≠ (s.link l side).rxSeq ∨ 64 ≤ (s.link l side).rxCount) :
    exec (.flitData l side) s = .next s ∧ exec (.flitOpen l side) s = .next s ∧ exec (.flitClose l side) s = .next s :=
  ⟨congrArg Host.Outcome.next (State.receive_unexpected hw hseq hexp), congrArg Host.Outcome.next (State.receive_unexpected hw hseq hexp),
    congrArg Host.Outcome.next (State.receive_unexpected hw hseq hexp)⟩

theorem exec_flitIdle_taken (hx : x.body = .idle) : exec (.flitIdle l side) s = .next (s.modLink l side (fun e => { e with wire := rest })) :=
  congrArg Host.Outcome.next ((State.receive_unsequenced hw (if_pos hx) (by rw [hx]; rfl)).trans rfl)

section
variable (hexp : x.seq = (s.link l side).rxSeq) (hcount : (s.link l side).rxCount < 64)
include hexp hcount

theorem exec_flitData_tokens {ms : List (Nat × Mail)} (hx : x.body = .tokens ms) :
    exec (.flitData l side) s = .next (ms.foldl (fun u m => u.route (linkNode l side) m.1 m.2) (s.takenIn l side rest)) :=
  congrArg Host.Outcome.next ((State.receive_expected hw (by rw [hx]) (by rw [hx]; rfl) hexp hcount).trans rfl)

theorem exec_flitData_rows {n : Nat} {es : List Entry} (hx : x.body = .rows n es) {id : Nat} {c : StreamCtx} (hrx : Table.find (s.link l side).rx x.tag = some (id, c)) :
    exec (.flitData l side) s = .next ((s.takenIn l side rest).onward (linkNode l side) c.node (256 + id) (.rows n es)
      (fun u => u.landEntries c ((u.transit? id).bind Transit.own) n es)) :=
  congrArg Host.Outcome.next ((State.receive_expected hw (by rw [hx]; dsimp only; rw [hrx]) (by rw [hx]; rfl) hexp hcount).trans rfl)

theorem exec_flitData_unknown {n : Nat} {es : List Entry} (hx : x.body = .rows n es) (hrx : Table.find (s.link l side).rx x.tag = none) :
    exec (.flitData l side) s = .next (s.takenIn l side rest) :=
  congrArg Host.Outcome.next ((State.receive_expected hw (by rw [hx]; dsimp only; rw [hrx]) (by rw [hx]; rfl) hexp hcount).trans rfl)

theorem exec_flitOpen_taken {id : Nat} {c : StreamCtx} (hx : x.body = .opens id c) :
    exec (.flitOpen l side) s = .next (((s.takenIn l side rest).modLink l side (fun e => { e with rx := Table.put e.rx x.tag (id, c) })).onward (linkNode l side) c.node
      (256 + id) (.opens id c) (fun u => u)) :=
  congrArg Host.Outcome.next ((State.receive_expected hw (by rw [hx]) (by rw [hx]; rfl) hexp hcount).trans rfl)

/-- A stream that closes at its end is complete (R400). -/
theorem exec_flitClose_taken (hx : x.body = .close) :
    let u := (s.takenIn l side rest).modLink l side (fun e => { e with rx := Table.del e.rx x.tag })
    (∀ id c, Table.find (s.link l side).rx x.tag = some (id, c) →
      exec (.flitClose l side) s = .next (u.onward (linkNode l side) c.node (256 + id) .close (fun u => u.landed id))) ∧
    (Table.find (s.link l side).rx x.tag = none → exec (.flitClose l side) s = .next u) := by
  intro u
  have hexec : exec (.flitClose l side) s = .next (match Table.find ((s.takenIn l side rest).link l side).rx x.tag with
      | some (id, c) => u.onward (linkNode l side) c.node (256 + id) .close (fun u => u.landed id)
      | none => u) :=
    congrArg Host.Outcome.next ((State.receive_expected hw (if_pos hx) (by rw [hx]; rfl) hexp hcount).trans rfl)
  have hrx : ((s.takenIn l side rest).link l side).rx = (s.link l side).rx := by rw [State.takenIn, State.link_modLink_same]
  rw [hrx] at hexec
  exact ⟨fun id c h => by rw [hexec, h], fun h => by rw [hexec, h]⟩

end
end

/-! ## Acknowledgements (R398, R401) -/

/-- The end after an acknowledgement up to a SEQ (R401). -/
def LinkEnd.acked (e : LinkEnd) (next : Nat) (nak : Bool) : LinkEnd :=
  let done := (next + 4096 - (e.txSeq + 4096 - e.buffer.length)) % 4096
  if e.buffer.length < done then e
  else { e with buffer := e.buffer.drop done, resend := if nak then e.buffer.drop done else e.resend.filter (fun y => (e.buffer.drop done).contains y) }

theorem LinkEnd.acked_eq {e : LinkEnd} {next : Nat} (nak : Bool) (h1 : e.buffer.length ≤ e.txSeq) (h2 : e.txSeq - e.buffer.length ≤ next) (h3 : next ≤ e.txSeq)
    (h4 : e.txSeq < 4096) : (e.acked next nak).wire = e.wire ∧ (e.acked next nak).buffer = e.buffer.drop (next - (e.txSeq - e.buffer.length)) ∧
      (nak = true → (e.acked next nak).resend = (e.acked next nak).buffer) := by
  have hdone : (next + 4096 - (e.txSeq + 4096 - e.buffer.length)) % 4096 = next - (e.txSeq - e.buffer.length) := by omega
  have hkept : ¬e.buffer.length < next - (e.txSeq - e.buffer.length) := by omega
  unfold LinkEnd.acked
  dsimp only
  rw [hdone, if_neg hkept]
  exact ⟨rfl, rfl, fun h => if_pos h⟩

theorem exec_flitAck_taken {x : Flit} {rest : List Flit} (hw : (s.link l side).wire = x :: rest) {next : Nat} {nak : Bool} (hx : x.body = .ack next nak) :
    exec (.flitAck l side) s = .next ((s.modLink l side (fun e => { e with wire := rest })).modLink l side (fun e => e.acked next nak)) :=
  congrArg Host.Outcome.next ((State.receive_unsequenced hw (by rw [hx]) (by rw [hx]; rfl)).trans rfl)

/-- The end after it has acknowledged (R398, R401). -/
def LinkEnd.acks (e : LinkEnd) (nak : Bool) : LinkEnd :=
  { e with out := { tag := 0, seq := 0, body := .ack e.rxSeq nak } :: e.out, rxCount := 0, nakked := e.nakked || nak }

theorem State.acknowledge_eq (s : State) (l side : Nat) (nak : Bool) : s.acknowledge l side nak = s.modLink l side (fun e => e.acks nak) :=
  State.modLink_modLink l side _ _

/-- The end after a flit has been discarded, which counts in CRCERR where its CRC is bad (R401, R404). -/
def LinkEnd.discards (e : LinkEnd) (rest : List Flit) (bad : Bool) : LinkEnd :=
  { e with wire := rest, crcerr := if bad then satInc e.crcerr else e.crcerr }

/-- A flit with a bad CRC, or out of sequence, is discarded with one NAK (R401). -/
theorem exec_flitDiscard_taken {x : Flit} {rest : List Flit} (hw : (s.link l side).wire = x :: rest) {bad : Bool}
    (h : bad = true ∨ (x.body.sequenced = true ∧ x.seq ≠ (s.link l side).rxSeq)) :
    ((s.link l side).nakked = true → exec (.flitDiscard l side bad) s = .next (s.setLink l side ((s.link l side).discards rest bad))) ∧
    ((s.link l side).nakked = false → exec (.flitDiscard l side bad) s = .next (s.setLink l side (((s.link l side).discards rest bad).acks true))) := by
  have hgo : ¬((!bad && (!x.body.sequenced || x.seq == (s.link l side).rxSeq)) = true) := by
    rcases h with h | ⟨h1, h2⟩
    · simp [h]
    · simp [h1, h2]
  have hexec : exec (.flitDiscard l side bad) s = .next (if (s.link l side).nakked = true then s.setLink l side ((s.link l side).discards rest bad)
      else (s.setLink l side ((s.link l side).discards rest bad)).acknowledge l side true) := by
    show execFlitDiscard l side bad s = _
    unfold execFlitDiscard
    dsimp only
    rw [hw]
    exact congrArg Host.Outcome.next (if_neg hgo)
  refine ⟨fun hnak => hexec.trans (congrArg Host.Outcome.next (if_pos hnak)), fun hnak => hexec.trans (congrArg Host.Outcome.next ?_)⟩
  rw [if_neg (Bool.eq_false_iff.mp hnak), State.acknowledge_eq, State.modLink_setLink]

theorem exec_ackDue_owed (h : (s.link l side).rxCount ≠ 0) : exec (.ackDue l side) s = .next (s.modLink l side (fun e => e.acks false)) :=
  (congrArg Host.Outcome.next (if_neg h)).trans (congrArg Host.Outcome.next (s.acknowledge_eq l side false))

/-- Growth of RETRY by RTHRESH raises LINK_RETRY once (R404). -/
theorem exec_retryWindow_raises (hthresh : (s.link l side).rthresh ≠ 0) (hhit : (s.link l side).retryHit = true) (harmed : (s.link l side).armed = true) :
    exec (.retryWindow l side) s = .next ((s.modLink l side (fun e => { e with retryHit := false, armed := false })).event (eventStack (linkNode l side)) 11 0xFFF l
      (s.link l side).retry) := by
  have hne : ¬(s.link l side).rthresh.toNat = 0 := fun h => hthresh (BitVec.eq_of_toNat_eq h)
  exact congrArg Host.Outcome.next ((if_neg hne).trans ((if_pos hhit).trans (if_pos harmed)))

end Sys2Proof.Machine

/-! SUPPORT. Coordinated changes of a link, and training (R405 to R409). -/

namespace Sys2Proof.Machine

variable {s : State} {l side : Nat} {f : Fields}

/-! ## Proposals and replies (R407) -/

section
variable {x : Flit} {rest : List Flit} (hw : (s.link l side).wire = x :: rest) (hexp : x.seq = (s.link l side).rxSeq) (hcount : (s.link l side).rxCount < 64)
include hw hexp hcount

/-- LATE, BUSY, MAP or the acceptance (R407; log 96). -/
theorem exec_changeProposal_taken {mode mask half tc : Nat} (hx : x.body = .change (.propose mode mask half tc)) :
    let e := s.link l side
    let taken := s.takenIn l side rest
    exec (.changeProposal l side) s = .next (
      if tc < s.timeOf (linkNode l side) + 32000 then taken.toSend l side 0 (.change (.refuse 1))
      else if e.pend ∨ (e.proposer.isSome ∧ winner l = side) then taken.toSend l side 0 (.change (.refuse 2))
      else if !e.mapsFit mode mask half then taken.toSend l side 0 (.change (.refuse 3))
      else (taken.modLink l side (fun e => { e with pend := true, pmode := mode, pmask := mask, phalf := half, tc := tc })).toSend l side 0 (.change .accept)) := by
  intro e taken
  have hlink : taken.link l side = { e with wire := rest, rxSeq := (e.rxSeq + 1) % 4096, rxCount := e.rxCount + 1, nakked := false } :=
    State.link_modLink_same _ _ _ _
  have hpend : (taken.link l side).pend = e.pend := by rw [hlink]
  have hprop : (taken.link l side).proposer = e.proposer := by rw [hlink]
  have hfit : (taken.link l side).mapsFit mode mask half = e.mapsFit mode mask half := by rw [hlink]; rfl
  rw [← hpend, ← hprop, ← hfit]
  exact congrArg Host.Outcome.next ((State.receive_expected hw (by rw [hx]) (by rw [hx]; rfl) hexp hcount).trans rfl)

theorem exec_changeQuiet_taken (hx : x.body = .change .quiet) :
    exec (.changeQuiet l side) s = .next ((s.takenIn l side rest).modLink l side (fun e => { e with gotQuiet := true })) :=
  congrArg Host.Outcome.next ((State.receive_expected hw (if_pos hx) (by rw [hx]; rfl) hexp hcount).trans rfl)

/-- The reply gives SCHED its result (R407). -/
def State.replied (s : State) (l side : Nat) (v : U64) : State :=
  match (s.link l side).proposer.bind (fun n => s.linkReqs.find? (fun r => r.id == n)) with
  | some r => (s.modLink l side (fun e => { e with proposer := none })).linkReply (linkNode l side) r v
  | none => s.modLink l side (fun e => { e with proposer := none })

theorem exec_changeReply_accept (hx : x.body = .change .accept) :
    exec (.changeReply l side) s = .next (((s.takenIn l side rest).modLink l side (fun e => { e with pend := true })).replied l side 0) :=
  congrArg Host.Outcome.next ((State.receive_expected hw (by rw [hx]) (by rw [hx]; rfl) hexp hcount).trans rfl)

theorem exec_changeReply_refuse {k : Nat} (hx : x.body = .change (.refuse k)) :
    exec (.changeReply l side) s = .next ((s.takenIn l side rest).replied l side (BitVec.ofNat 64 k)) :=
  congrArg Host.Outcome.next ((State.receive_expected hw (by rw [hx]) (by rw [hx]; rfl) hexp hcount).trans rfl)

end

/-- A proposal of the firing's own stack is answered at once. -/
theorem State.replied_eq {n : Nat} {r : LinkReq} (hprop : (s.link l side).proposer = some n) (hfind : s.linkReqs.find? (fun r => r.id == n) = some r)
    (hinstr : r.instr = .linkctlSched f) (hnode : linkNode l side = coreStack r.fire.core) (hquar : r.fire.obj ∉ (s.core r.fire.core).quar) (v : U64) :
    s.replied l side v = ({ s.modLink l side (fun e => { e with proposer := none }) with linkReqs := s.linkReqs.filter (fun x => x.id != r.id) } : State).emit r.fire f
      false (dataScalar r.fire v) := by
  have hback : r.hop (linkNode l side) true = none := by
    have hlt : ¬16 ≤ coreStack r.fire.core := Nat.not_le.mpr (Nat.mod_lt _ (by decide))
    simp [LinkReq.hop, hnode, hlt, nextHop_eq_none.mpr rfl]
  unfold State.replied State.linkReply
  rw [hprop, Option.bind_some, hfind]
  dsimp only
  rw [hback]
  exact (State.linkAnswer_eq (t := s.modLink l side (fun e => { e with proposer := none })) (r := r) (v := v) rfl hquar).2 f 0xFF3
    (by rw [hinstr]; simp [linkOperators]) (by rw [hinstr]; simp)

/-! ## The guard and retraining (R408) -/

theorem exec_changeQuiesce_due (hp : (s.link l side).pend = true) (hstate : (s.link l side).state = 2) (htc : (s.link l side).tc ≤ s.timeOf (linkNode l side) + 1600) :
    exec (.changeQuiesce l side) s = .next (s.setLink l side { s.link l side with
      state := 3, out := (s.link l side).out ++ [{ tag := 0, seq := 0, body := .change .quiet }] }) := by
  have hgo : ¬((!(s.link l side).pend) = true ∨ (s.link l side).state ≠ 2 ∨ s.timeOf (linkNode l side) + 1600 < (s.link l side).tc) := by
    simp [hp, hstate, htc]
  exact congrArg Host.Outcome.next ((if_neg hgo).trans (State.modLink_setLink _ _ _ _))

theorem exec_changeQuiesce_early (htc : s.timeOf (linkNode l side) + 1600 < (s.link l side).tc) : exec (.changeQuiesce l side) s = .next s :=
  congrArg Host.Outcome.next (if_pos (.inr (.inr htc)))

theorem exec_retrainStart_due (hstate : (s.link l side).state = 3) (hquiet : (s.link l side).gotQuiet = true) (hbuf : (s.link l side).buffer = [])
    (hcount : (s.link l side).rxCount = 0) (hout : ∀ x ∈ (s.link l side).out, x.body.closesDown = false) (htc : (s.link l side).tc ≤ s.timeOf (linkNode l side)) :
    exec (.retrainStart l side) s = .next (s.setLink l side { s.link l side with state := 4, trying := (s.link l side).pmode }) := by
  have hany : (s.link l side).out.any (fun x => x.body.closesDown) = false := List.any_eq_false.mpr fun x hx => Bool.eq_false_iff.mp (hout x hx)
  refine congrArg Host.Outcome.next (if_neg ?_)
  simp [hstate, hquiet, hbuf, hcount, hany, htc]

theorem exec_retrainStart_waits (h : (s.link l side).state ≠ 3 ∨ s.timeOf (linkNode l side) < (s.link l side).tc ∨ (s.link l side).buffer ≠ []) :
    exec (.retrainStart l side) s = .next s := by
  refine congrArg Host.Outcome.next (if_pos ?_)
  rcases h with h | h | h
  · exact .inl h
  · exact .inr (.inr (.inr (.inr (.inr h))))
  · exact .inr (.inr (.inl (by simpa using h)))

theorem exec_linkLoss_up (hstate : (s.link l side).state = 2) (hp : (s.link l side).pend = false) :
    exec (.linkLoss l side) s = .next (s.setLink l side { s.link l side with state := 4, wire := [], trying := (s.link l side).mode }) :=
  congrArg Host.Outcome.next (if_neg (by simp [hstate, hp]))

/-! ## Training (R408, R409) -/

/-- A turn at each end that changes the end and stacks leaves both ends changed, and stacks. -/
theorem State.foldl_ends {step : State → Nat → State} {h : LinkEnd → LinkEnd} (hstep : ∀ u d, ∃ tab, step u d = { u.modLink l d h with stackTab := tab }) (s : State) :
    ∃ tab, [0, 1].foldl step s = { (s.modLink l 0 h).modLink l 1 h with stackTab := tab } := by
  obtain ⟨tab0, h0⟩ := hstep s 0
  obtain ⟨tab1, h1⟩ := hstep { s.modLink l 0 h with stackTab := tab0 } 1
  exact ⟨tab1, by rw [List.foldl_cons, h0, List.foldl_cons, h1]; rfl⟩

section
variable (hready : ∀ d, d < 2 → (s.link l d).state = 4)
include hready

theorem ends_ready : ¬((!([0, 1].all (fun d => (s.link l d).state == 1 || (s.link l d).state == 4))) = true) := by
  simp [hready 0 (by decide), hready 1 (by decide)]

/-- After training both ends are up in the mode that was tried (R408). -/
theorem exec_trainingComplete_ok : ∃ u : State, exec (.trainingComplete l true) s = .next u ∧ u.cores = s.cores ∧ u.hbm = s.hbm ∧
    ∀ d, d < 2 → ∃ pair, u.link l d = (s.link l d).trained pair := by
  let pair := (pairMasks[s.choice 6]?).getD 0x3
  have hfold := State.foldl_ends (l := l) (h := fun e => e.trained pair) (step := fun (u : State) d =>
    if (u.link l d).state = 4 then (u.setLink l d ((u.link l d).trained pair)).event (eventStack (linkNode l d)) 12 0xFFF l (field ((u.link l d).trained pair).stat 0 32)
    else u.setLink l d ((u.link l d).trained pair)) (fun u d => by dsimp only; split <;> exact ⟨_, rfl⟩) s.spend
  obtain ⟨tab, hfold⟩ := hfold
  obtain ⟨tab', hclocks⟩ := State.linkClocks_eq { (s.spend.modLink l 0 (fun e => e.trained pair)).modLink l 1 (fun e => e.trained pair) with stackTab := tab } l
  refine ⟨_, congrArg Host.Outcome.next ((if_neg (ends_ready hready)).trans ((if_pos rfl).trans ((congrArg (fun u => State.linkClocks u l) hfold).trans hclocks))),
    rfl, rfl, fun d hd => ⟨pair, ?_⟩⟩
  exact State.link_modBoth s.spend l (fun e => e.trained pair) hd

/-- A failed training tries the next lower mode (R408). -/
theorem exec_trainingComplete_lower (htry : ∀ d, d < 2 → (s.link l d).trying < 3) : exec (.trainingComplete l false) s = .next
    ((s.modLink l 0 (fun e => { e with trying := e.trying + 1 })).modLink l 1 (fun e => { e with trying := e.trying + 1 })) := by
  have hnone : ¬([0, 1].any (fun d => (s.link l d).trying == 3) = true) := by
    have h0 := htry 0 (by decide)
    have h1 := htry 1 (by decide)
    simp
    omega
  exact congrArg Host.Outcome.next ((if_neg (ends_ready hready)).trans ((if_neg Bool.false_ne_true).trans ((if_neg hnone).trans rfl)))

/-- After mode 3 has failed the link is down (R408). -/
theorem exec_trainingComplete_down (htry : ∃ d, d < 2 ∧ (s.link l d).trying = 3) :
    ∃ u : State, exec (.trainingComplete l false) s = .next u ∧ ∀ d, d < 2 → (u.link l d).state = 0 := by
  have hlast : [0, 1].any (fun d => (s.link l d).trying == 3) = true := by
    obtain ⟨d, hd, ht⟩ := htry
    exact List.any_eq_true.mpr ⟨d, by simp; omega, by simpa using ht⟩
  let down (e : LinkEnd) : LinkEnd := { e with state := 0, pend := false, pmode := 0, tc := 0, gotQuiet := false, trying := 0 }
  obtain ⟨tab, hfold⟩ := State.foldl_ends (l := l) (h := down) (step := fun (u : State) d =>
    (u.modLink l d down).event (eventStack (linkNode l d)) 13 0xFFF l 0) (fun u d => ⟨_, rfl⟩) s
  obtain ⟨tab', hclocks⟩ := State.linkClocks_eq { (s.modLink l 0 down).modLink l 1 down with stackTab := tab } l
  refine ⟨_, congrArg Host.Outcome.next ((if_neg (ends_ready hready)).trans ((if_neg Bool.false_ne_true).trans ((if_pos hlast).trans
    ((congrArg (fun u => State.linkClocks u l) hfold).trans hclocks)))), fun d hd => ?_⟩
  exact congrArg LinkEnd.state (State.link_modBoth s l down hd)

end

end Sys2Proof.Machine

/-! SUPPORT. The results of flits and of coordinated changes (R397 to R401, R404 to R409). -/

namespace Sys2Proof.Machine

/-- Settles O52: each event by its lemma above. -/
theorem linkEventResults : Obligations.LinkEventResults := by
  refine ⟨?flits, ?changes⟩
  case flits =>
    intro s l side hside e wire
    refine ⟨fun hstate => ⟨?first, ?quiets, ?again, ?idle⟩, ?taken, ?owed, ?window⟩
    case first =>
      intro x rest tag hres hout hbuf htag hseq hpause hopen sends
      refine ⟨fun hno => ?_, fun ms ys bs more hx hrest hys hfit hmore => ?_⟩
      · exact exec_flitSend_head hstate hres hout hbuf htag hpause hopen (Flit.gather_alone hno rest) hseq htag
      · have hsends := exec_flitSend_head hstate hres hout hbuf htag hpause hopen (hrest ▸ Flit.gather_tokens hx hys hfit hmore) rfl
          ((e.tagOf_tokens x hx _).trans htag)
        obtain ⟨xtag, xseq, body⟩ := x
        cases hx
        exact hsends
    case quiets =>
      intro x hres hout ht hp htc
      refine exec_flitSend_idle hstate hres ?_
      rw [hout, LinkEnd.guarded_closing hp htc]
      exact LinkEnd.takeSend_quiets rfl ht
    case again =>
      intro x rest hres
      obtain ⟨hresend, hretry, hout, hbuf, htx⟩ := e.resent_eq (s.timeOf (linkNode l side)) rest
      refine ⟨_, exec_flitSend_resends hstate hres, ?_⟩
      rw [State.link_setLink_same]
      exact ⟨hresend, hretry, hout, hbuf, htx, rfl⟩
    case idle =>
      intro hres hout hwire
      refine (exec_flitSend_idle hstate hres ?_).trans (congrArg Host.Outcome.next (if_pos hwire))
      rw [hout]
      rfl
    case taken =>
      intro x rest hw taken
      refine ⟨fun hexp hcount => ⟨fun ms hx => exec_flitData_tokens hw hexp hcount hx, ?streams⟩, fun hseq hexp i hi => ?unexpected,
        exec_flitIdle_taken hw, fun next nak hx h1 h2 h3 h4 => ?acked, fun bad h => ?discarded⟩
      case streams =>
        intro onward
        refine ⟨fun n es hx => ⟨fun id c hrx => ?_, exec_flitData_unknown hw hexp hcount hx⟩, fun id c hx => ?_, fun hx => ?_⟩
        · have hexec := exec_flitData_rows hw hexp hcount hx hrx
          rw [← hx] at hexec
          exact hexec
        · have hexec := exec_flitOpen_taken hw hexp hcount hx
          rw [← hx] at hexec
          exact hexec
        · obtain ⟨hknown, hunknown⟩ := exec_flitClose_taken hw hexp hcount hx
          refine ⟨fun id c hrx => ?_, hunknown⟩
          have hexec := hknown id c hrx
          rw [← hx] at hexec
          exact hexec
      case unexpected =>
        obtain ⟨hdata, hopen, hclose⟩ := exec_flit_unexpected hw hseq hexp
        simp only [List.mem_cons, List.not_mem_nil, or_false] at hi
        rcases hi with rfl | rfl | rfl
        · exact hdata
        · exact hopen
        · exact hclose
      case acked =>
        obtain ⟨hwire, hbuf, hres⟩ := LinkEnd.acked_eq (e := { e with wire := rest }) nak h1 h2 h3 h4
        refine ⟨_, exec_flitAck_taken hw hx, ?_⟩
        rw [State.link_modLink_same, State.link_modLink_same]
        exact ⟨hwire, hbuf, hres, rfl⟩
      case discarded =>
        obtain ⟨hagain, hnaks⟩ := exec_flitDiscard_taken hw h
        by_cases hnak : e.nakked = true
        · refine ⟨_, hagain hnak, ?_⟩
          rw [State.link_setLink_same]
          exact ⟨rfl, rfl, rfl, fun h => absurd (hnak.symm.trans h) Bool.true_eq_false.mp, fun _ => rfl⟩
        · refine ⟨_, hnaks (Bool.eq_false_iff.mpr hnak), ?_⟩
          rw [State.link_setLink_same]
          exact ⟨rfl, rfl, rfl, fun _ => ⟨rfl, Bool.or_true _⟩, fun h => absurd h hnak⟩
    case owed =>
      intro h
      refine ⟨_, exec_ackDue_owed h, ?_⟩
      rw [State.link_modLink_same]
      exact ⟨rfl, rfl⟩
    case window =>
      intro hthresh hhit harmed
      refine ⟨_, exec_retryWindow_raises hthresh hhit harmed, ?_⟩
      rw [State.link_modLink_same]
      exact ⟨rfl, rfl⟩
  case changes =>
    intro s l side hside e now
    refine ⟨?messages, fun hp hstate => ⟨exec_changeQuiesce_due hp hstate, exec_changeQuiesce_early⟩, exec_retrainStart_due, exec_retrainStart_waits, exec_linkLoss_up,
      fun hready => ⟨?trained, exec_trainingComplete_lower hready, exec_trainingComplete_down hready⟩⟩
    case messages =>
      intro x rest hw hexp hcount taken sent
      refine ⟨fun mode mask half tc hx => ?proposal, fun n r f hprop hfind hinstr hnode hquar => ?reply, exec_changeQuiet_taken hw hexp hcount⟩
      case proposal =>
        have hexec := exec_changeProposal_taken hw hexp hcount hx
        have hfree (hp : e.pend = false) (hprop : e.proposer = none) : ¬(e.pend = true ∨ (e.proposer.isSome = true ∧ winner l = side)) := by simp [hp, hprop]
        refine ⟨fun hlate => ?_, fun htime hp => ?_, fun htime hp hprop hfit => ?_, fun htime hp hprop hfit => ?_⟩
        · exact hexec.trans (congrArg Host.Outcome.next (if_pos hlate))
        · exact hexec.trans (congrArg Host.Outcome.next ((if_neg (Nat.not_lt.mpr htime)).trans (if_pos (.inl hp))))
        · exact hexec.trans (congrArg Host.Outcome.next ((if_neg (Nat.not_lt.mpr htime)).trans ((if_neg (hfree hp hprop)).trans (if_pos (congrArg not hfit)))))
        · exact hexec.trans (congrArg Host.Outcome.next ((if_neg (Nat.not_lt.mpr htime)).trans ((if_neg (hfree hp hprop)).trans
            (if_neg (Bool.eq_false_iff.mp (congrArg not hfit))))))
      case reply =>
        intro result
        refine ⟨fun hx => ?_, fun k hx => ?_⟩
        · refine (exec_changeReply_accept hw hexp hcount hx).trans (congrArg Host.Outcome.next ?_)
          refine (State.replied_eq (s := (s.takenIn l side rest).modLink l side (fun e => { e with pend := true })) ?_ hfind hinstr hnode hquar 0).trans ?_
          · rw [State.link_modLink_same, State.takenIn, State.link_modLink_same]
            exact hprop
          · rw [State.modLink_modLink]
            rfl
        · refine (exec_changeReply_refuse hw hexp hcount hx).trans (congrArg Host.Outcome.next ?_)
          refine (State.replied_eq (s := s.takenIn l side rest) ?_ hfind hinstr hnode hquar _).trans rfl
          rw [State.takenIn, State.link_modLink_same]
          exact hprop
    case trained =>
      obtain ⟨u, hexec, hcores, hhbm, hlink⟩ := exec_trainingComplete_ok hready
      refine ⟨u, hexec, hcores, hhbm, fun d hd => ?_⟩
      obtain ⟨pair, hpair⟩ := hlink d hd
      rw [hpair]
      exact ⟨rfl, rfl, rfl, rfl, rfl⟩

end Sys2Proof.Machine
